-- ==== Sys2Proof/Word.lean ====
section
/-! DEFINITION. The plain words of the model: bytes, sectors, and their simplest conversions (R5 to R8). -/

namespace Sys2Proof

/-- One byte (R8). -/
abbrev Byte := BitVec 8
/-- One 64 B host sector. -/
abbrev Sector := BitVec 512
/-- One 256 B parcel, as its four sectors in address order (R158). -/
abbrev Parcel := Vector Sector 4

/-- A parcel of zeros. -/
def zeroParcel : Parcel := Vector.replicate 4 0

end Sys2Proof
end

