-- ==== Sys2Proof/Syntax.lean ====
section
/-! DEFINITION. The commands and events of the EV1280: one constructor per row of the opcode table, and the
types of their operands. What the environment decides (a decode's outcome, a temperature, a link partner's
abilities) is an operand; what the device decides is computed from its state. -/

namespace Sys2Proof

/-- A path on which Synet takes commands (R392): an LD's mailbox, or the MCTP endpoint. The FM-owned LD of a
port (R55) is LD 16 of that port. -/
inductive Path where
  | ld (port ld : Nat)
  | mctp
  deriving DecidableEq, Repr

/-- A CXL.mem request as the port receives it. `link` is 0, or the violation code 5 or 6 that the flit itself
shows (R75); `malformed` is 0, or the code 1 to 4 of R106; `bare` says that a violating message carries no LD-ID, tag
and address (R106). -/
structure MemReq where
  port : Nat
  ld : Nat
  tag : Nat
  dpa : BitVec 64
  malformed : Nat := 0
  link : Nat := 0
  bare : Bool := false
  deriving DecidableEq, Repr

/-- The data of a write: 64 B, the byte enables of a MemWrPtl, and the poison indication (R63). -/
structure WrData where
  data : Sector
  be : BitVec 64 := BitVec.allOnes 64
  poison : Bool := false
  deriving DecidableEq, Repr

/-- What a tag read shows (R199, R200). -/
inductive TagErr where
  | none
  | single
  | uncorrectable
  | both
  deriving DecidableEq, Repr

/-- A counter node that a path fetch finds failing: its level and index, and which of its copies fail (R224, R234). -/
structure NodeErr where
  level : Nat
  idx : Nat
  copyA : Bool
  copyB : Bool
  deriving DecidableEq, Repr

/-- The errors that a cache access meets: sectors whose parity fails when read out (R196), the tag's
error (R199), and failing counter-node copies on the path (R224). -/
structure ReadEnv where
  parity : BitVec 4 := 0
  tagErr : TagErr := .none
  nodes : List NodeErr := []
  deriving DecidableEq, Repr

/-- One bank's outcome in a STATUS reply: DONE, and the cause code if ERR is set (R271). -/
structure BankOutcome where
  bank : Nat
  done : Bool
  cause : Nat := 0
  deriving DecidableEq, Repr

/-- A STATUS reply with its re-send, if the first failed its CRC (R291). -/
structure StatusReply where
  crcOk : Bool
  resendOk : Bool
  outcomes : List BankOutcome
  deriving DecidableEq, Repr

/-- A TEMP reply: dies 0 to 7 and the board sensor, in 1/16 °C (R271). -/
structure TempReply where
  crcOk : Bool
  dies : List Int
  board : Int
  deriving DecidableEq, Repr

/-- What channel bring-up meets (R284, R286, R287). `failFast` and `failSlow` name the step of 5 to 9 that fails
at the module's rate and at 3.2 GT/s. -/
structure BringUp where
  present : Bool
  identityOk : Bool
  generation : Nat
  serial : BitVec 64
  dies : Nat
  tilesPerBank : Nat
  badPagesOk : Bool
  badTiles : List Nat
  failFast : Option Nat
  failSlow : Option Nat
  deriving DecidableEq, Repr

/-- What the link partner offers in training (R56 to R58), and the S2M NDR and DRS credits that it gives the port
(R73). `cxl` is 0x11, 0x20 or 0x31. -/
structure Partner where
  gen : Nat
  width : Nat
  cxl : Nat
  ndr : Nat := 2048
  drs : Nat := 2048
  deriving DecidableEq, Repr

/-- An HBM patrol's finding (R309): nothing, a corrected bit on a stack, or an uncorrectable error at a page
of a region (0 bale map, 1 overlay, 2 stamps, 3 tiles, 4 sparse, 5 parity, 6 clean counter line, 7 dirty counter
line, 8 journal tail, 9 meter ring, 10 firmware, 11 staging). `addr` is the HBM address, `node` the
counter node of region 7, `second` a further unreadable page of the same stripe. -/
structure HbmError where
  uncorrectable : Bool
  single : Bool
  region : Nat
  page : Nat
  addr : Nat
  level : Nat := 0
  idx : Nat := 0
  second : Option Nat := none
  bothCopies : Bool := false
  deriving DecidableEq, Repr

/-- A Cairn record or Relay item (R471). `notice` is the NOTICE flag, `target` and `log` are used by the event
descriptors of queues 10 and 11 (R481). -/
structure CairnRec where
  code : Nat
  inst : Nat := 0xFF
  flags : Nat := 0
  boot : Nat := 0
  ts : Nat := 0
  p1 : Nat := 0
  p2 : Nat := 0
  p3 : Nat := 0
  p4 : Nat := 0
  deriving DecidableEq, Repr

/-- What a boot meets: the number of failed header reads and body reads (R529), the loader's time, an alarm
source still active (R555), key unwraps that fail (R209), and Saddlebag copies whose CRC fails (R467:
record type, instance, copy A, copy B), node copies that fail (R233), the keeper's interval count (R369),
the management address straps (R578), and the loader's version words. -/
structure BootEnv where
  headerReadFails : Nat := 0
  bodyReadFails : Nat := 0
  loaderUs : Nat := 0
  alarmActive : Option Nat := none
  unwrapFails : List Nat := []
  crcFails : List (Nat × Nat × Bool × Bool) := []
  nodeErrs : List NodeErr := []
  keeperNs : Nat := 0
  straps : Nat := 0
  recallUs : Nat := 0
  recoveryMs : Nat := 0
  timeRef : Bool := true
  deriving DecidableEq, Repr

/-- The MCTP messages that the endpoint answers (R393): a command (type 0x08) by its opcode, or a control message (type 0x00) by its
command code. -/
inductive MctpMsg where
  | command (opcode : Nat)
  | control (code : Nat)
  deriving DecidableEq, Repr

/-- A finished plan: its channel and the cycle of the stage at which it is ready (R138). -/
structure PlanEnd where
  ch : Nat
  cycle : Nat
  deriving DecidableEq, Repr

/-- A fill that ends: its line's LPN, and the sectors of the line in which the merge finds a parity error (R168, R196). -/
structure FillEnd where
  lpn : Nat
  parity : BitVec 4
  deriving DecidableEq, Repr

/-- S2M credits that the host returns on a port (R73). -/
structure CreditReturn where
  port : Nat
  ndr : Nat
  drs : Nat
  deriving DecidableEq, Repr

/-- A bad CXL.io TLP: its type, and whether it is poisoned or malformed (R77). -/
structure BadTlp where
  typ : Nat
  poisoned : Bool
  deriving DecidableEq, Repr

/-- The commands and events: the rows of the opcode table. -/
inductive Instr where
  /-- STAGE_TICK (R122): The first cycle of each 4,096-cycle stage starts a new stage on every channel, applies the published plan or the template, and accrues credits. -/
  | stageTick
  /-- PLAN_SNAPSHOT (R138): At cycle 3,072 the planner snapshots its inputs and starts building the next stage's plan for each channel. -/
  | planSnapshot
  /-- PLAN_PUBLISH (R138): A plan finished by cycle 4,063 is published for the next stage. -/
  | planPublish (p : PlanEnd)
  /-- PLAN_DEADLINE (R138): A plan not published by cycle 4,063 is discarded, and the channel runs the next stage on the template. -/
  | planDeadline
  /-- WINDOW_BOUNDARY (R127): At each window boundary of a bank, the channel sequencer starts the first ready item in priority order and sends the STATUS strobe. -/
  | windowBoundary (ch bank w : Nat)
  /-- STATUS_REPLY (R271): A STATUS reply arrives and reports each bank's DONE and ERR outcome of the window just ended. -/
  | statusReply (ch : Nat) (r : StatusReply)
  /-- TEMP_REPLY (R519): A module TEMP reply updates the channel's temperatures, f_w and write-window state. -/
  | tempReply (ch : Nat) (r : TempReply)
  /-- MODULE_TEMP_MISSING (R515): A channel with no good TEMP reply for 64 stages is handled as write-forbidden. -/
  | moduleTempMissing (ch : Nat)
  /-- CODEWORD_DECODE (R275): A received codeword runs the hard LDPC decode; on success it goes to the Seal engine to be verified and decrypted. -/
  | codewordDecode (ch bank : Nat) (ok : Bool) (bits : Nat)
  /-- DEEP_RECOVERY_DEADLINE (R279): A deep recovery still undecoded 40 µs after ingress ends with poison. -/
  | deepRecoveryDeadline (ch bank : Nat)
  /-- MOD_PRES_LOST (R288): MOD_PRES_N going high makes the channel FAILED at once. -/
  | modPresLost (ch : Nat)
  /-- ALERT_N_ASSERTED (R291): ALERT_N with CA parity seen makes every frame of that window count as not executed. -/
  | alertNAsserted (ch : Nat) (caParity : Bool)
  /-- ALERT_N_HELD (R288): ALERT_N held low for more than 1 µs makes the channel FAILED. -/
  | alertNHeld (ch : Nat)
  /-- CHANNEL_BRING_UP (R284): Once its module rails are good, a channel samples presence, reads identity, trains and reaches a final state. -/
  | channelBringUp (ch : Nat) (b : BringUp)
  /-- CAL_ZQ_PERIODIC (R274): Every 128 ms the channel runs CAL type 0 between two stages. -/
  | calZqPeriodic (ch : Nat)
  /-- CAL_THRESHOLD_PERIODIC (R274): Every 16,384 stages each bank runs CAL type 1 as a maintenance read. -/
  | calThresholdPeriodic (ch bank : Nat)
  /-- MEM_RD (R36): A MemRd passes the Tollgate and is served from the cache or from the medium, and completes with data or poison. -/
  | memRd (q : MemReq) (e : ReadEnv)
  /-- MEM_RD_DATA (R36): A MemRdData is handled as a read. -/
  | memRdData (q : MemReq) (e : ReadEnv)
  /-- MEM_SPEC_RD (R170): A MemSpecRd starts a best-effort fill only when fill-buffer entries allow it, and is dropped otherwise. -/
  | memSpecRd (q : MemReq) (e : ReadEnv)
  /-- MEM_WR (R171): A MemWr writes a whole sector into a Pannier line and completes under the dirty budget and the health state. -/
  | memWr (q : MemReq) (w : WrData) (e : ReadEnv)
  /-- MEM_WR_PTL (R172): A MemWrPtl merges its enabled bytes into the sector, first starting or joining a fill when the sector is not VALID. -/
  | memWrPtl (q : MemReq) (w : WrData) (e : ReadEnv)
  /-- MEM_INV (R170): A MemInv leaves the cache unchanged and completes. -/
  | memInv (q : MemReq)
  /-- MEM_INV_NT (R170): A MemInvNT leaves the cache unchanged and completes. -/
  | memInvNt (q : MemReq)
  /-- MEM_CLN_EVCT (R170): A MemClnEvct leaves the cache unchanged and completes. -/
  | memClnEvct (q : MemReq)
  /-- SLICE_RETIREMENT_END (R201): When the slice's last pending-eviction entry is made, held requests are released to the remapped slice. -/
  | sliceRetirementEnd (slice : Nat)
  /-- CACHE_PATROL (R196): A patrol reads every valid line of each slice at least once every 10 s and checks its parity. -/
  | cachePatrol (lpn : Nat) (e : ReadEnv)
  /-- FILL_COMPLETE (R168): Verified fill data returns to the waiting requests and installs into the non-VALID sectors. -/
  | fillComplete (f : FillEnd)
  /-- COMPLETION_FILL (R173): A dirty line not fully VALID for one whole stage receives a completion fill. -/
  | completionFill (lpn : Nat)
  /-- EVICTION_START (R178): A dirty line is reserved a write-buffer entry, handed to the Seal engine and entered as a pending eviction. -/
  | evictionStart (lpn : Nat) (e : ReadEnv)
  /-- EVICTION_ORDERING_POINT (R178): The channel write buffer accepts the sealed parcel and the way is freed or given to its waiter. -/
  | evictionOrderingPoint (lpn : Nat)
  /-- DIRTY_BUDGET_RELEASE (R184): A waiting write proceeds in the cycle in which the dirty count falls below DIRTY_LIMIT. -/
  | dirtyBudgetRelease
  /-- BACKGROUND_WRITEBACK (R185): A slice above 7/8 of its dirty share evicts lines until it is at or below 3/4. -/
  | backgroundWriteback (slice : Nat)
  /-- S2M_CREDIT_RETURN (R73): The host returns an S2M credit, which ends any episode of withheld credits. -/
  | s2mCreditReturn (c : CreditReturn)
  /-- S2M_CREDIT_WITHHELD (R74): S2M credits withheld for 10 ms write Cairn record 0x0106 once. -/
  | s2mCreditWithheld (port : Nat)
  /-- REQUEST_AGE_25MS (R156): A request without a response 25 ms after acceptance writes Cairn record 0x0404. -/
  | requestAge25ms (port ld tag : Nat)
  /-- LINK_UP (R56): A port trains to a rate, width, flit mode and CXL revision and is served. -/
  | linkUp (port : Nat) (p : Partner)
  /-- TRAINING_FAILURE (R59): A port that cannot hold a link at 16 GT/s or above takes the link down and retries after 100 ms, staying down after three failures. -/
  | trainingFailure (port rate : Nat)
  /-- TRAINING_RETRY (R59): 100 ms after a training failure the port retrains. -/
  | trainingRetry (port : Nat)
  /-- LINK_DOWN (R76): A link going down finishes reads internally, applies accepted writes, drops the rest and withholds new credits. -/
  | linkDown (port : Nat)
  /-- HOT_RESET (R78): A hot reset takes one port's link down and resets its LDs' CXL.io state and decoders. -/
  | hotReset (port : Nat)
  /-- LINK_DISABLE (R78): A link disable takes one port's link down and resets its LDs' CXL.io state. -/
  | linkDisable (port : Nat)
  /-- PERST_ASSERT (R78): PERST# assertion takes down every port of the group and resets CXL.io state and decoders. -/
  | perstAssert (group : Nat)
  /-- PERST_DEASSERT (R79): PERST# deassertion lets the group's ports train again, with CLK_MODE taking effect. -/
  | perstDeassert (group : Nat)
  /-- FLR (R78): A Function Level Reset resets one LD's CXL.io function state and its Coffer page. -/
  | flr (port ld : Nat)
  /-- CXL_RESET (R78): A CXL Reset resets one LD's CXL.io and CXL.mem state without clearing memory. -/
  | cxlReset (port ld : Nat) (memClear : Bool)
  /-- CXLIO_BAD_TLP (R77): A poisoned or malformed CXL.io TLP is discarded or completed with Unsupported Request and reported through AER. -/
  | cxlioBadTlp (port ld : Nat) (tlp : BadTlp)
  /-- GPF_PHASE_1 (R357): A GPF Phase 1 request is answered at once. -/
  | gpfPhase1 (port : Nat)
  /-- GPF_PHASE_2 (R357): A GPF Phase 2 request is answered once earlier writes have entered a Pannier line or been dropped. -/
  | gpfPhase2 (port latencyNs : Nat)
  /-- FREEZE_COMMIT (R111): Synet commits a freeze to the Saddlebag FREEZE records within 1 ms and clears the latch entry. -/
  | freezeCommit
  /-- CONTRACT_LOWER_APPLY (R100): A pending lower OUTSTANDING takes effect once the LD's outstanding count is at or below it. -/
  | contractLowerApply (port ld : Nat)
  /-- POISON_WINDOW_END (R98): Each 256-stage window ends, and the poisoned-write counts restart. -/
  | poisonWindowEnd
  /-- FORCED_RELEASE_GRACE_END (R93): 10 ms after a forced release, requests to the removed range become out of bounds. -/
  | forcedReleaseGraceEnd (port ld dpaLeg : Nat)
  /-- RANGE_OP_STEP (R190): A range operation visits the next parcel of its range and applies its action to the line. -/
  | rangeOpStep (p : Path)
  /-- RANGE_OP_NO_PROGRESS (R193): A range operation without progress for 1 s completes with Aborted. -/
  | rangeOpNoProgress (p : Path)
  /-- RANGE_OP_COMPLETE (R192): A range operation completes once its evictions have passed verify, or its zeros are in the cache. -/
  | rangeOpComplete (p : Path)
  /-- ROLL_RESEAL (R227): The Seal engine re-seals a parcel of a rolling leaf at the new MAJOR. -/
  | rollReseal (lpn : Nat)
  /-- COUNTER_WRITEBACK (R229): A dirty node parcel is written back with incremented parent counters to both copies and committed. -/
  | counterWriteback (level idx : Nat)
  /-- COUNTER_CHECKPOINT (R229): Every 10 s all dirty nodes are written back level by level and the Summit is stored. -/
  | counterCheckpoint
  /-- LOST_NODE_REPLACE (R235): The Seal engine commits a new Summit epoch and recreates the lost subtree. -/
  | lostNodeReplace (level idx : Nat)
  /-- TRAVERSE_BALE (R243): The Traverse engine moves W past a bale, waits for its old-generation evictions and re-bales it under NEW_GEN. -/
  | traverseBale (part : Nat)
  /-- TRAVERSE_MARK_COMMIT (R245): Synet commits the working TRAVERSE MARK at least once per second. -/
  | traverseMarkCommit
  /-- TRAVERSE_FINISH (R246): After the last bale, KEY_GEN advances and the old wrap is deleted in two commits. -/
  | traverseFinish (part : Nat)
  /-- REBALE (R303): The Drover snapshots a bale's sources, reads them and programs a fresh segment. -/
  | rebale (lbi : Nat)
  /-- REBALE_COMMIT (R303): In one cycle the re-bale takes unchanged parcels into the bale, updates the map and appends records. -/
  | rebaleCommit (lbi : Nat)
  /-- COLD_VISIT (R302): The Drover visits overlay entries and sets COLD on those whose age reaches COLD_AGE. -/
  | coldVisit (lpn : Nat)
  /-- JOURNAL_COMMIT (R306): A journal parcel whose copies and predecessors have passed verify commits its records. -/
  | journalCommit
  /-- CHECKPOINT_ROUND_BEGIN (R307): A checkpoint round begins after 2^20 records or 10 s, writing changed map pages. -/
  | checkpointRoundBegin
  /-- CHECKPOINT_ROUND_END (R307): A round ends by committing its CHECKPOINT record to the Saddlebag. -/
  | checkpointRoundEnd
  /-- HBM_PATROL (R309): The HBM patrol reads every location, correcting single-bit errors. -/
  | hbmPatrol (e : HbmError)
  /-- MAP_PAGE_REBUILT (R310): The rebuilt page is written back and the hold is released. -/
  | mapPageRebuilt (region page holdUs : Nat)
  /-- STRIPE_REBUILD_END (R311): The two-page rebuild ends and service is normal again. -/
  | stripeRebuildEnd (region stripe durationMs : Nat)
  /-- SWEEP_TILE (R316): The Drover copies a victim tile's valid data and journals the copies that are still current. -/
  | sweepTile (ch : Nat)
  /-- SWEEP_RESET (R316): Once the records are committed and earlier reads are done, the swept tile is reset and freed. -/
  | sweepReset (ch tile : Nat)
  /-- THERMAL_CLOCK_ADVANCE (R320): Once per second each channel's thermal clock advances by the temperature-weighted rate. -/
  | thermalClockAdvance
  /-- DRIFT_SET_TUNE (R321): At most once per hour per die, the Drover nudges drift-set offsets and reloads changed sets. -/
  | driftSetTune (ch die set : Nat) (delta : List Int)
  /-- SCRUB_READ (R323): Scrub reads each programmed parcel once per SCRUB_PERIOD and refreshes those with many corrected bits. -/
  | scrubRead (ppa : Nat) (ok : Bool) (bits : Nat)
  /-- MEDIA_LOSS_HANDLING (R326): Within 1 s of a channel or die loss, the Drover marks lost bales and entries and re-copies system parcels. -/
  | mediaLossHandling (ch : Nat) (die : Option Nat)
  /-- EVENT_LOG_PROGRAM (R69): Changed event-log parcels are programmed into both system spaces within 100 ms. -/
  | eventLogProgram
  /-- ENERGY_COMPUTATION (R337): Every 1 ms Belay computes the hold-up energy E and from it the budget scale s. -/
  | energyComputation (senseUv : Nat)
  /-- BUDGET_RAISE (R345): A raised budget applies after E has held at or above its value for 1 s. -/
  | budgetRaise
  /-- WRITE_THROUGH_RELEASE (R346): WRITE_THROUGH is released once E has stayed at or above 0.34 J for 1 s. -/
  | writeThroughRelease
  /-- CAPACITANCE_TEST_START (R340): Belay lowers the budgets, waits for the dirty data to drain and drives HOLDUP_TEST high. -/
  | capacitanceTestStart (senseUv : Nat)
  /-- CAPACITANCE_TEST_POSTPONE (R340): A drain longer than 100 ms postpones the test by 60 s. -/
  | capacitanceTestPostpone
  /-- CAPACITANCE_TEST_END (R340): V falling through V_b ends the test, and Belay computes C. -/
  | capacitanceTestEnd (tUs : Nat)
  /-- CAPACITANCE_TEST_TIMEOUT (R341): V not reaching V_b within 500 ms fails the test and keeps the previous C. -/
  | capacitanceTestTimeout
  /-- PFAIL_N_LOW (R348): PFAIL_N low for 200 ns starts the power-fail flush. -/
  | pfailNLow
  /-- V_TRIP_CROSSING (R348): Bank voltage below V_TRIP for 1 µs starts the flush. -/
  | vTripCrossing
  /-- FLUSH_START (R349): A flush stops traffic, sets FLUSH_STATE and signals emergency mode. -/
  | flushStart (cause : Nat)
  /-- FLUSH_STEP_ADVANCE (R349): When a flush step ends, the next step starts, up to the hand-over to Rope. -/
  | flushStepAdvance (senseUv : Nat)
  /-- PPS_EDGE (R364): A TIME_PPS edge is captured and then rejected, or used to step or discipline TB. -/
  | ppsEdge (rising : Bool)
  /-- PPS_EDGE_TIMEOUT (R363): 1.5 s without an accepted edge moves the timebase to HOLDOVER. -/
  | ppsEdgeTimeout
  /-- AT_PPS_ARM_DROP (R368): An AT_PPS arm with no accepted edge within 2 s is dropped. -/
  | atPpsArmDrop
  /-- SLEW_END (R361): A running slew ends and SLEW returns to 0. -/
  | slewEnd
  /-- TB_TO_KEEPER (R369): Once per second the Reckoner sends TB to the keeper die. -/
  | tbToKeeper
  /-- MINUTE_BOUNDARY (R377): TB entering a new minute swaps the counter banks. -/
  | minuteBoundary
  /-- MINUTE_SEAL (R377): 10 µs after the boundary the closing bank is sealed and copied to the meter ring. -/
  | minuteSeal
  /-- LEDGER_COMMIT (R383): A minute block commits once all its parcels have passed verify in both copies. -/
  | ledgerCommit
  /-- MAILBOX_DOORBELL (R396): Writing the doorbell bit hands the command in the Command register and payload to Synet. -/
  | mailboxDoorbell (port ld : Nat)
  /-- MCTP_REQUEST (R393): The last packet of an MCTP request arrives, and the command is taken. -/
  | mctpRequest (m : MctpMsg) (data : List Byte)
  /-- MCTP_ASSEMBLY_TIMEOUT (R393): A request whose packets stop for 100 ms is discarded. -/
  | mctpAssemblyTimeout (eid packets bytes binding : Nat)
  /-- BACKGROUND_PROGRESS_UPDATE (R399): Synet updates the percentage complete of a running background command at least once per second. -/
  | backgroundProgressUpdate (p : Path) (pct : Nat)
  /-- UNSUPPORTED_OPCODE (R407): An opcode that is not listed returns Unsupported. -/
  | unsupportedOpcode (p : Path) (opcode : Nat) (input : List Byte)
  /-- IDENTIFY (R407): Returns the device identity. -/
  | identify (p : Path) (input : List Byte)
  /-- BACKGROUND_OPERATION_STATUS (R399): Returns the background command status over MCTP. -/
  | backgroundOperationStatus (p : Path) (input : List Byte)
  /-- GET_EVENT_RECORDS (R68): Returns records of an LD event log. -/
  | getEventRecords (p : Path) (input : List Byte)
  /-- CLEAR_EVENT_RECORDS (R68): Clears event records and resets the overflow when the log ends empty. -/
  | clearEventRecords (p : Path) (input : List Byte)
  /-- GET_EVENT_INTERRUPT_POLICY (R67): Returns zero for every log. -/
  | getEventInterruptPolicy (p : Path) (input : List Byte)
  /-- SET_EVENT_INTERRUPT_POLICY (R67): Rejects any request for interrupt signalling. -/
  | setEventInterruptPolicy (p : Path) (input : List Byte)
  /-- GET_FW_INFO (R537): Reports the single slot with the active and pending versions. -/
  | getFwInfo (p : Path) (input : List Byte)
  /-- TRANSFER_FW (R534): Transfers image chunks into HBM staging and checks the header at End. -/
  | transferFw (p : Path) (input : List Byte)
  /-- ACTIVATE_FW (R535): Writes the staged image into flash in the background, by the resident loader or by the Bivouac loader. -/
  | activateFw (p : Path) (input : List Byte)
  /-- ACTIVATION_FLASH_STEP (R535): A flash erase, program or read-back of the activation completes, and the next block follows. -/
  | activationFlashStep (compareOk : Bool)
  /-- GET_TIMESTAMP (R407): Returns TB. -/
  | getTimestamp (p : Path) (input : List Byte)
  /-- SET_TIMESTAMP (R407): Returns Unsupported. -/
  | setTimestamp (p : Path) (input : List Byte)
  /-- GET_SUPPORTED_LOGS (R407): Lists the Command Effects Log only. -/
  | getSupportedLogs (p : Path) (input : List Byte)
  /-- GET_LOG (R407): Returns the Command Effects Log of the path. -/
  | getLog (p : Path) (input : List Byte)
  /-- IDENTIFY_MEMORY_DEVICE (R408): Reports capacities, log sizes and poison limits. -/
  | identifyMemoryDevice (p : Path) (input : List Byte)
  /-- GET_PARTITION_INFO (R407): Reports all capacity as persistent. -/
  | getPartitionInfo (p : Path) (input : List Byte)
  /-- GET_HEALTH_INFO (R410): Reports health status, life used, temperature and error counts. -/
  | getHealthInfo (p : Path) (input : List Byte)
  /-- GET_ALERT_CONFIGURATION (R407): Returns the alert thresholds. -/
  | getAlertConfiguration (p : Path) (input : List Byte)
  /-- SET_ALERT_CONFIGURATION (R407): Sets the life-used and temperature alert thresholds. -/
  | setAlertConfiguration (p : Path) (input : List Byte)
  /-- GET_SHUTDOWN_STATE (R407): Returns the stored per-LD shutdown state. -/
  | getShutdownState (p : Path) (input : List Byte)
  /-- SET_SHUTDOWN_STATE (R407): Stores the per-LD shutdown state. -/
  | setShutdownState (p : Path) (input : List Byte)
  /-- GET_POISON_LIST (R408): Returns the LD's poisoned parcels and ranges. -/
  | getPoisonList (p : Path) (input : List Byte)
  /-- INJECT_POISON (R408): Sets the poison flag of the parcel holding a DPA, up to 8 per LD. -/
  | injectPoison (p : Path) (input : List Byte)
  /-- CLEAR_POISON (R408): Writes the supplied sector and zeros, fully overwriting a poisoned parcel. -/
  | clearPoison (p : Path) (input : List Byte)
  /-- GET_DYNAMIC_CAPACITY_CONFIGURATION (R92): Returns the dynamic capacity region configuration. -/
  | getDynamicCapacityConfiguration (p : Path) (input : List Byte)
  /-- GET_DYNAMIC_CAPACITY_EXTENT_LIST (R92): Returns the LD's accepted extents. -/
  | getDynamicCapacityExtentList (p : Path) (input : List Byte)
  /-- ADD_DYNAMIC_CAPACITY_RESPONSE (R92): The host accepts or rejects an offered extent, adding a range or emptying the positions. -/
  | addDynamicCapacityResponse (p : Path) (input : List Byte)
  /-- RELEASE_DYNAMIC_CAPACITY (R92): The host releases an extent, whose range is removed and positions emptied. -/
  | releaseDynamicCapacity (p : Path) (input : List Byte)
  /-- GET_LD_INFO (R407): Returns the LD count of an MLD port. -/
  | getLdInfo (p : Path) (input : List Byte)
  /-- GET_LD_ALLOCATIONS (R407): Returns each LD's DPA capacity. -/
  | getLdAllocations (p : Path) (input : List Byte)
  /-- INITIATE_DYNAMIC_CAPACITY_ADD (R92): Fills positions with free legs and offers the extent to the host. -/
  | initiateDynamicCapacityAdd (p : Path) (input : List Byte)
  /-- INITIATE_DYNAMIC_CAPACITY_RELEASE (R93): Requests a release or forces one, removing the range at once. -/
  | initiateDynamicCapacityRelease (p : Path) (input : List Byte)
  /-- GET_DEVICE_INFO (R412): Returns identity, generations, life-cycle state and capacity summary. -/
  | getDeviceInfo (p : Path) (input : List Byte)
  /-- SET_PORT_CONFIG (R54): Validates and stores the port configuration record. -/
  | setPortConfig (p : Path) (input : List Byte)
  /-- GET_PORT_CONFIG (R412): Returns the stored port record and the trained link states. -/
  | getPortConfig (p : Path) (input : List Byte)
  /-- SET_STAGE_CONFIG (R130): Sets MAINT_SHARE for plans built afterwards. -/
  | setStageConfig (p : Path) (input : List Byte)
  /-- GET_STAGE_CONFIG (R412): Returns the maintenance share and plan-miss figures. -/
  | getStageConfig (p : Path) (input : List Byte)
  /-- GET_HEALTH (R413): Returns the health state, condition bits and key figures. -/
  | getHealth (p : Path) (input : List Byte)
  /-- GET_LAST_XSTATUS (R400): Returns VND_MB_XSTATUS of the previous MCTP completion. -/
  | getLastXstatus (p : Path) (input : List Byte)
  /-- CREATE_PARTITION (R81): Creates a partition with new wrapped keys after the share and ID checks. -/
  | createPartition (p : Path) (input : List Byte)
  /-- DELETE_PARTITION (R86): Crypto-erases an unmapped partition and returns its legs in the background. -/
  | deletePartition (p : Path) (input : List Byte)
  /-- ADD_LEGS (R84): Fills named empty positions with free logical legs that read as zeros. -/
  | addLegs (p : Path) (input : List Byte)
  /-- REMOVE_LEGS (R85): Empties positions in four ordered steps and returns their legs to the free pool. -/
  | removeLegs (p : Path) (input : List Byte)
  /-- GET_PARTITION (R414): Returns a partition record and its occupancy bitmap. -/
  | getPartition (p : Path) (input : List Byte)
  /-- GET_PARTITION_LIST (R414): Returns the state of every partition ID. -/
  | getPartitionList (p : Path) (input : List Byte)
  /-- SET_LD_MAP (R88): Validates and sets an LD's map record and ranges. -/
  | setLdMap (p : Path) (input : List Byte)
  /-- GET_LD_MAP (R414): Returns an LD's map record. -/
  | getLdMap (p : Path) (input : List Byte)
  /-- SET_CONTRACT (R98): Sets an LD's outstanding limit, opcode mask and poison limit. -/
  | setContract (p : Path) (input : List Byte)
  /-- GET_CONTRACT (R414): Returns the contract, any pending limit and the outstanding count. -/
  | getContract (p : Path) (input : List Byte)
  /-- SET_QOS (R133): Sets a partition's read and write shares within the 896 sum. -/
  | setQos (p : Path) (input : List Byte)
  /-- THAW (R116): Clears one master's freeze flag and writes Cairn record 0x0210. -/
  | thaw (p : Path) (input : List Byte)
  /-- GET_FREEZE (R414): Returns freeze entries. -/
  | getFreeze (p : Path) (input : List Byte)
  /-- GET_TIMEBASE (R416): Returns TB and the timebase state. -/
  | getTimebase (p : Path) (input : List Byte)
  /-- SET_TIME_CONFIG (R362): Sets the PPS mode, edge and delay. -/
  | setTimeConfig (p : Path) (input : List Byte)
  /-- GET_TIME_CONFIG (R416): Returns the time configuration. -/
  | getTimeConfig (p : Path) (input : List Byte)
  /-- SET_TIME_OF_DAY (R368): Steps or slews TB to a target now or at the next PPS edge. -/
  | setTimeOfDay (p : Path) (input : List Byte)
  /-- GET_METERS (R390): Returns a partition's meter records from the ring or the ledger. -/
  | getMeters (p : Path) (input : List Byte)
  /-- GET_HISTOGRAM (R416): Returns latency histograms of a partition or a port. -/
  | getHistogram (p : Path) (input : List Byte)
  /-- FLUSH_RANGE (R189): Starts a background flush of a range's dirty lines. -/
  | flushRange (p : Path) (input : List Byte)
  /-- INVALIDATE_RANGE (R189): Starts a background write-back and drop of a range's lines. -/
  | invalidateRange (p : Path) (input : List Byte)
  /-- ZERO_RANGE (R191): Starts a background ZERO_LINE of every parcel of a range. -/
  | zeroRange (p : Path) (input : List Byte)
  /-- TRAVERSE (R240): Starts a live re-key of a partition, or changes its RATE. -/
  | traverse (p : Path) (input : List Byte)
  /-- GET_TRAVERSE (R417): Returns traverse progress. -/
  | getTraverse (p : Path) (input : List Byte)
  /-- GET_MEDIA_HEALTH (R417): Returns spares and per-channel media state. -/
  | getMediaHealth (p : Path) (input : List Byte)
  /-- ADOPT_MODULE (R289): Adopts a NEW module, resetting its tiles and committing its MODULE record. -/
  | adoptModule (p : Path) (input : List Byte)
  /-- SET_DROVER_CONFIG (R318): Sets the Drover thresholds. -/
  | setDroverConfig (p : Path) (input : List Byte)
  /-- GET_DROVER_CONFIG (R318): Returns the Drover thresholds. -/
  | getDroverConfig (p : Path) (input : List Byte)
  /-- SET_BELAY_CONFIG (R339): Sets the hold-up measurement configuration, and a new R_TEST starts a test. -/
  | setBelayConfig (p : Path) (input : List Byte)
  /-- GET_BELAY_CONFIG (R418): Returns the Belay configuration, C, E and s. -/
  | getBelayConfig (p : Path) (input : List Byte)
  /-- PREPARE_POWER_OFF (R358): Starts a flush of cause 4, after which Rope holds the main domain off. -/
  | preparePowerOff (p : Path) (input : List Byte)
  /-- GET_ROPE_STATUS (R418): Returns the sequencer state and rail readings. -/
  | getRopeStatus (p : Path) (input : List Byte)
  /-- SET_PITCH_TABLE (R494): Validates and stores a pitch table for the next power-up. -/
  | setPitchTable (p : Path) (input : List Byte)
  /-- GET_PITCH_TABLE (R418): Returns the stored pitch table. -/
  | getPitchTable (p : Path) (input : List Byte)
  /-- GET_THERMAL (R418): Returns every temperature reading and the thermal factors. -/
  | getThermal (p : Path) (input : List Byte)
  /-- GET_CAIRN_INFO (R419): Returns Cairn record and epoch counts. -/
  | getCairnInfo (p : Path) (input : List Byte)
  /-- CAIRN_READ (R419): Returns consecutive Cairn records from a record number. -/
  | cairnRead (p : Path) (input : List Byte)
  /-- GET_CAIRN_HISTOGRAM (R477): Returns a histogram or the extremes of an epoch or the lifetime. -/
  | getCairnHistogram (p : Path) (input : List Byte)
  /-- GET_BOOT_INFO (R420): Returns the boot mode, cause, versions and pairing bits. -/
  | getBootInfo (p : Path) (input : List Byte)
  /-- CONFIRM_FW (R539): Raises the keeper security counter to the running image's version. -/
  | confirmFw (p : Path) (input : List Byte)
  /-- GET_RESET_INFO (R547): Returns the RESET_INFO bits and the newest event. -/
  | getResetInfo (p : Path) (input : List Byte)
  /-- CLEAR_RESET_INFO (R547): Clears the named RESET_INFO bits. -/
  | clearResetInfo (p : Path) (input : List Byte)
  /-- WARM_RESET (R544): Flushes with cause 6 and restarts the main die with the rails on. -/
  | warmReset (p : Path) (input : List Byte)
  /-- GET_LIFECYCLE (R420): Returns the life-cycle state and Survey unlock status. -/
  | getLifecycle (p : Path) (input : List Byte)
  /-- COF_SUBMIT (R439): Writing GO captures a descriptor, checks rights and fields, and starts it. -/
  | cofSubmit (port ld : Nat) (value : BitVec 32)
  /-- KEY_LOAD (R431): LOAD copies the staging area into a key slot, rejecting equal XTS pairs. -/
  | keyLoad (port ld slot : Nat) (value : BitVec 32)
  /-- KEY_CLEAR (R429): CLEAR empties a key slot and its staging area. -/
  | keyClear (port ld slot : Nat)
  /-- COFFER_PARCEL (R442): The engine processes one parcel of a running descriptor in round-robin order. -/
  | cofferParcel (e : ReadEnv)
  /-- COFFER_PASS_END (R438): A pass ends, and a GCM decrypt moves to its write pass or the descriptor ends. -/
  | cofferPassEnd (port ld : Nat)
  /-- COFFER_ZEROING_DONE (R446): After a failed descriptor, DONE is set once the destination zeros are persistent. -/
  | cofferZeroingDone (port ld : Nat)
  /-- COMMIT_GROUP (R463): The keeper stores a group of dirty records into the older shadow copies. -/
  | commitGroup
  /-- COMMIT_GROUP_COMPLETE (R463): Read-back of every copy passes, and the group is reported committed. -/
  | commitGroupComplete
  /-- STORE_SUPPLY_RECHECK (R455): Every 100 µs the keeper repeats the supply check for a waiting store. -/
  | storeSupplyRecheck (vddKeepMv ekUj : Nat)
  /-- STORE_HELD_TIMEOUT (R460): A commit held off for 10 ms fails its command with Busy. -/
  | storeHeldTimeout
  /-- RECALL_COMPLETE (R468): Recall ends, rolling back any incomplete group, and writes Cairn record 0x1001. -/
  | recallComplete
  /-- KEEPER_SUPPLY_FALL (R456): VDD_KEEP below 1.70 V for 2 µs makes the keeper finish its store, make the final store and stop. -/
  | keeperSupplyFall (vddKeepMv ekUj : Nat)
  /-- KEEPER_POR (R543): VDD_KEEP rising resets the keeper die and puts Rope into HOLDOFF. -/
  | keeperPor
  /-- KEEP_HOLD_MEASURE (R454): The keeper measures C_KH at POR and every 24 h. -/
  | keepHoldMeasure (tUs : Nat)
  /-- KEEPER_LINK_LOSS (R457): Loss of the keeper link causes a fatal-fault reset without a flush. -/
  | keeperLinkLoss
  /-- CAIRN_RECORD_ARRIVAL (R472): A record arrives at the staging buffer and is numbered, or is dropped and counted if full. -/
  | cairnRecordArrival (r : CairnRec)
  /-- CAIRN_STORE (R472): The keeper stores a staged record into the array. -/
  | cairnStore
  /-- CAIRN_POINTER_MISMATCH (R472): A staging pointer mismatch discards the buffered records and counts as a Cairn reset. -/
  | cairnPointerMismatch
  /-- EPOCH_CLOSE (R474): At the end of each hour of operation, the epoch block and the lifetime block are stored. -/
  | epochClose
  /-- CAIRN_WINDOW_LOAD (R479): A write to CAIRN_CURSOR or CAIRN_CTRL starts a window load. -/
  | cairnWindowLoad (port ld : Nat)
  /-- CAIRN_WINDOW_AUTO_ADVANCE (R478): With AUTO set, a read of 0x907C advances POSITION and reloads. -/
  | cairnWindowAutoAdvance (port ld : Nat)
  /-- RELAY_ITEM_PRODUCED (R482): A producer writes an item into a queue's fill bank. -/
  | relayItemProduced (queue : Nat) (r : CairnRec)
  /-- RELAY_ITEM_DRAIN (R482): The consumer reads the head of the drain bank and forwards the item. -/
  | relayItemDrain (queue : Nat)
  /-- RELAY_POINTER_MISMATCH (R486): A pointer mismatch resets the queue with a GAP marker and writes 0x1202. -/
  | relayPointerMismatch (queue ptr : Nat)
  /-- NOTICE_RECONCILE (R485): Synet remakes the records and events of dropped notices within 100 ms. -/
  | noticeReconcile (queue : Nat)
  /-- ROPE_LINE_RISE (R499): ROPE reading high for 1 µs advances the participant one pitch and raises its enables. -/
  | ropeLineRise
  /-- PITCH_DRIVE_LOW (R499): 20 µs into a pitch, the participant drives ROPE low. -/
  | pitchDriveLow (readsHigh : Bool)
  /-- PITCH_COMPLETE (R498): A pitch whose rails have been good for 200 µs completes, and ROPE is released. -/
  | pitchComplete (pfailLow : Bool)
  /-- ROPE_TIMEOUT (R501): ROPE low for 100 ms after release abandons the power-up. -/
  | ropeTimeout
  /-- PFAIL_DURING_RISING (R502): PFAIL_N low for 200 ns between pitch 1 and ON abandons the power-up. -/
  | pfailDuringRising
  /-- START_FAULT (R504): A rail not complete within 10 ms, or a third PG fall, powers down into FAULT. -/
  | startFault (enable cause mv : Nat)
  /-- RAIL_FAULT (R505): A rail out of tolerance for 10 µs powers down without a flush. -/
  | railFault (enable mv durationUs : Nat)
  /-- MODULE_RAIL_PG_FALL (R506): A module rail PG falling turns off the overlapping module rails and fails their channels. -/
  | moduleRailPgFall (enable : Nat)
  /-- RAIL_FALLEN (R508): Every rail of a pitch has fallen, and the power-down moves to the next pitch or ends. -/
  | railFallen
  /-- RAIL_FALL_TIMEOUT (R508): A rail not fallen within 100 ms is recorded, and the power-down ends in FAULT. -/
  | railFallTimeout (enable mv : Nat)
  /-- HOLDOFF_END (R497): At the end of the hold time, Rope starts RISING at pitch 0. -/
  | holdoffEnd
  /-- JUNCTION_READING (R518): Every 32 µs the sensors update T_J, f_h and the junction conditions. -/
  | junctionReading (t : List (Option Int)) (hbm : List Int)
  /-- HARDWARE_TRIP (R524): A sensor at 125 °C for 1 ms powers down at once without a flush into FAULT. -/
  | hardwareTrip (sensor : Nat) (t16 : Int)
  /-- KEEPER_SENSOR_READING (R514): Every 1 ms the keeper-die sensors are read. -/
  | keeperSensorReading (t : List (Option Int))
  /-- TIME_REF_LOSS (R25): TIME_REF lost puts the PLLs into holdover and the device into DEGRADED. -/
  | timeRefLoss
  /-- TIME_REF_RETURN (R25): TIME_REF returning within tolerance relocks the PLLs without a reset. -/
  | timeRefReturn
  /-- MAIN_DIE_RESET_RELEASE (R529): At release of main-die reset the Bivouac loader runs its ordered image checks. -/
  | mainDieResetRelease (b : BootEnv)
  /-- WATCHDOG_EXPIRY (R545): An expired core watchdog causes a watchdog reset. -/
  | watchdogExpiry (core progress : Nat)
  /-- LOADER_WATCHDOG_EXPIRY (R545): The loader's 2 s watchdog restarts it at step 2. -/
  | loaderWatchdogExpiry
  /-- FATAL_FAULT (R546): A fatal fault causes a fatal-fault reset, with a flush except after keeper-link loss. -/
  | fatalFault (cause v1 v2 core : Nat)
  /-- ALARM (R554): An alarm zeroes the Seal and Coffer key slots and drives ALARM_OUT_N low. -/
  | alarm (source detector reading : Nat)
  /-- EXTEST (R550): Boundary test that takes every port down. -/
  | extest
  /-- IDCODE (R550): Returns the IDCODE. -/
  | idcode
  /-- SAMPLE_PRELOAD (R550): Samples the boundary. -/
  | samplePreload
  /-- SV_CHALLENGE (R551): Returns a 64 B unlock challenge. -/
  | svChallenge
  /-- SV_UNLOCK (R551): Verifies a signed token and unlocks the Survey port, refusing after three failures. -/
  | svUnlock (token : List Byte)
  /-- SV_LOCK (R551): Ends the unlock. -/
  | svLock
  /-- SV_STATUS (R550): Returns the Survey state and unlock status. -/
  | svStatus
  /-- SV_MEM (R552): Performs a memory access within the life-cycle rights, freezing the master on a tenant-data write. -/
  | svMem (write : Bool) (access : BitVec 128)
  /-- SV_SCAN (R550): Accesses the internal scan chains. -/
  | svScan
  /-- SV_CAIRN (R550): Reads Cairn by record number. -/
  | svCairn (first count : Nat)
  /-- SV_PROMOTE (R549): Makes a life-cycle transition and then a warm reset. -/
  | svPromote (target : Nat) (token : List Byte)
  /-- BYPASS (R550): Selects the bypass register. -/
  | bypass
  /-- REG64_LOW_READ (R11): A read of a 64-bit register's low half captures the high half into the shadow. -/
  | reg64LowRead (port ld off : Nat)
  /-- NARROW_OR_MISALIGNED_ACCESS (R10): A narrow or misaligned register access reads zero and discards the write. -/
  | narrowOrMisalignedAccess (port ld off width : Nat) (write : Option (BitVec 64))
  /-- REGISTER_WRITE (R12): A write to a register with no row of its own takes the effect of its access type. -/
  | registerWrite (port ld off : Nat) (value : BitVec 32)
  /-- LINK_LAYER_REPLAY (R77): On a link that is up, a correctable link error, replay or FEC correction is recovered by the link-layer retry of the trained flit mode and counted toward Cairn record 0x0103. -/
  | linkLayerReplay (port count : Nat)
  /-- UNCLASSIFIED_M2S_OPCODE (R75): An M2S message arrives whose opcode is none of the listed CXL.mem opcodes: either undefined at the trained revision, which is link violation code 2, or defined but in no OPCODES class, which fires the forbidden-opcode trigger. -/
  | unclassifiedM2sOpcode (q : MemReq) (opcode : Nat) (defined poison : Bool)
  /-- MAP_STRIPE_HOLD_EXPIRY (R311): A lookup that has been held for 2 ms on a stripe with two unreadable pages completes with poison, without marking the parcel. -/
  | mapStripeHoldExpiry (lpn : Nat)
  deriving DecidableEq, Repr

end Sys2Proof
end

