-- ==== Sys2Proof/Config.lean ====
section
/-! DEFINITION. What the manual fixes outside the machine's state (the unit's fuses and its random bit generator)
and the values that it leaves open. Each is a constant without a body: no proof can see its value. -/

namespace Sys2Proof.Config

/-- R205: the data key drawn as the n-th value of the keeper's random bit generator. -/
opaque rbgKey : Nat → BitVec 256
/-- R205: the hash key drawn as the n-th value of the keeper's random bit generator. -/
opaque rbgHash : Nat → BitVec 128
/-- R207, R549: the fuse-derived device root key, by the number of changes that its derivation has undergone. -/
opaque rootKey : Nat → BitVec 256
/-- R207: the AES key and the hash key of a system slot from the CMAC of its label, whose 128 bits are fewer than the two keys
have; no rule states the rest of the derivation. -/
opaque systemKeys : BitVec 128 → BitVec 256 × BitVec 128
/-- R551: the challenge drawn as the n-th value of the keeper's random bit generator. -/
opaque rbgChallenge : Nat → List (BitVec 8)
/-- The unit's 128-bit fused ID hash (R65, R551). -/
opaque unitId : BitVec 128
/-- R531: the SHA-384 hashes of the fused public keys that the boot ROM accepts. -/
opaque fusedKeyHashes : List (List (BitVec 8))
/-- R551: the Plovrum debug public key in the keeper's fuses. -/
opaque debugKey : List (BitVec 8)
/-- R549: whether a production-line or return token authorizes a transition of this unit to a state. -/
opaque transitionOk : List (BitVec 8) → Nat → Bool
/-- R550, R552: which of the 40 doublewords of a raw codeword a Survey address selects, which no rule states. -/
opaque surveyBeat : Nat → Nat
/-- R550, R552: the map region and the byte of it that a Survey address selects in space 1, which no rule states. -/
opaque mapPlace : Nat → Nat × Nat
/-- R471: the severity of each Cairn code, which no table states. -/
opaque severity : Nat → BitVec 2
/-- R296: which entry a full bucket displaces, which no rule states. -/
opaque displaced : Nat → Nat → Nat
/-- R84: the logical leg that the device prefers at the n-th choice; it is taken if it is free. -/
opaque legChoice : Nat → Nat
/-- R68: the UUIDs of the vendor-specific event records, which no rule states. -/
opaque vendorUuid : List (BitVec 8)
/-- R364: the second-order loop's new ADJ from the old ADJ and the phase error; no rule states its gains. -/
opaque ppsLoop : Int → Int → Int
/-- A value that the manual leaves open: the draw's number and what it depends on. -/
opaque free : Nat → Nat → Nat

end Sys2Proof.Config
end

