-- ==== Sys2Proof/Machine/State.lean ====
section
/-! DEFINITION. The EV1280's state as plain data: every register, table, queue, counter, mode and pin that the
manual gives it, grouped by subsystem (R22), and the queue of waiting commands. A field's default is its value in
`State.reset`, the state right after a keeper POR of a part as shipped (R543). Tables list only what differs from
their reset content. Times are TB nanoseconds. -/

namespace Sys2Proof.Machine

/-- A sparse table: keys strictly rising; an absent key holds the reset content. -/
abbrev Tbl (α : Type) := List (Nat × α)

/-! ### Medium and Waybill -/

/-- A parcel codeword on the medium (R260): ciphertext, MAC and metadata (R261). -/
structure Codeword where
  cipher : BitVec 2048
  mac : BitVec 64
  mdat : BitVec 64
  deriving DecidableEq, Repr

/-- The KIND of an overlay entry (R295). -/
inductive OvKind where
  | located
  | poison
  deriving DecidableEq, Repr

/-- An overlay entry (R295) with the bucket that holds it, or the stash when `bucket` is none (R296). -/
structure OvEntry where
  kind : OvKind
  cold : Bool := false
  ppa : Nat := 0
  wseq : BitVec 32 := 0
  lastWrite : Nat := 0
  bucket : Option Nat := none
  deriving DecidableEq, Repr

/-- The bale states (R294). -/
inductive BaleSt where
  | unwritten
  | overlay
  | baled
  | sparse
  | lost
  | lostSparse
  deriving DecidableEq, Repr

/-- A bale map entry (R293). -/
structure Bale where
  st : BaleSt := .unwritten
  ovcnt : Nat := 0
  seg : Nat := 0
  tile : Nat := 0
  bank : Nat := 0
  die : Nat := 0
  ch : Nat := 0
  deriving DecidableEq, Repr

/-- The tile states (R312). -/
inductive TileSt where
  | free
  | openHost
  | openMaint
  | full
  | sweeping
  | resetting
  | retired
  | bad
  deriving DecidableEq, Repr

/-- A tile's class (R312): none, Dense or Fast. -/
inductive TileClass where
  | none
  | dense
  | fast
  deriving DecidableEq, Repr

/-- A tile table entry (R312), with the next parcel to program (R299) and the stage until which its reset is put off (R282). -/
structure Tile where
  st : TileSt := .free
  cls : TileClass := .none
  wear : Nat := 0
  valid : Nat := 0
  reads : Nat := 0
  pfail : Nat := 0
  next : Nat := 0
  deferStage : Nat := 0
  deriving DecidableEq, Repr

/-- A journal record (R305). -/
inductive JRec where
  | pad
  | ovlSet (lpn ppa : Nat) (wseq : BitVec 32)
  | ovlPoison (lpn : Nat)
  | baleSet (lbi : Nat) (b : Bale) (stamp : Nat) (keeps : Nat)
  | ovlKeep (lpn : Nat)
  | sparseMap (lbi quarter : Nat) (bits : BitVec 64)
  | tileState (tile : Nat) (t : Tile)
  | dropLeg (leg : Nat)
  | roundBegin (n : Nat)
  | roundEnd (n : Nat)
  deriving DecidableEq, Repr

/-- The map memory that a checkpoint round writes (R307). -/
structure MapImage where
  overlay : Tbl OvEntry := []
  bales : Tbl Bale := []
  sparse : Tbl (BitVec 256) := []
  tiles : Tbl Tile := []
  stamps : Tbl Nat := []
  deriving DecidableEq, Repr

/-- What a re-bale snapshotted for one parcel (R303 step 1). -/
inductive Src where
  | entry (e : OvEntry)
  | base
  | unwritten
  deriving DecidableEq, Repr

/-- DROVER_CONFIG (R318). -/
structure DroverCfg where
  rebaleCount : Nat := 32
  coldAge : Nat := 600
  refreshReads : Nat := 1048576
  driftRefresh : Nat := 1440
  scrubPeriod : Nat := 14
  deriving DecidableEq, Repr

/-! ### Media channels and the Stage planner -/

/-- The channel states (R285). -/
inductive ChanSt where
  | absent
  | unsupported
  | new
  | active
  | reduced
  | failed
  deriving DecidableEq, Repr

/-- Why a read item runs (R127, R131, R170). -/
inductive RdClass where
  | guaranteed
  | bestEffort
  | maint
  deriving DecidableEq, Repr

/-- What a medium read is for: a request (R275), a re-bale's source (R303), a sweep's source (R316), scrub (R323), or the
re-seal of a rolling leaf (R227). -/
inductive RWork where
  | host
  | bale (lbi i : Nat)
  | sweep (tile : Nat)
  | scrub
  | reseal
  deriving DecidableEq, Repr

/-- What a maintenance program is for: a copy of a journal parcel (R306), of a node parcel (R229), of a map page's parcel i
or of a directory (R307), of a ledger parcel (R382), of an event-log parcel (R69), a parcel of a re-bale (R303), or a
sweep's copy of a location (R316). -/
inductive MWork where
  | journal (jseq copy : Nat)
  | tree (level q copy : Nat)
  | page (key i copy : Nat)
  | dir (copy : Nat)
  | ledger (minute k copy : Nat)
  | log (n copy : Nat)
  | bale (lbi i : Nat)
  | sweep (tile src : Nat)
  /-- R326: the lost copy of a system parcel that no map names, from the copy kept. -/
  | copy (src keep : Nat)
  deriving DecidableEq, Repr

/-- A medium read (R275 to R279): its parcel, location, class, the failed reads so far, the seven offsets of its
first read and of its next one (T7 first), whether it is in deep recovery, and the deadline base (R279). -/
structure RdItem where
  lpn : Nat
  ppa : Nat
  cls : RdClass
  part : Nat
  age : Nat
  port : Nat := 0
  tag : Nat := 0
  retry : Nat := 0
  base : List Int := []
  offs : List Int := []
  deepReads : Nat := 0
  deep : Bool := false
  reseal : Bool := false
  reads : Nat := 0
  /-- R170: the only stage in which a MemSpecRd's read may be granted. -/
  specStage : Option Nat := none
  work : RWork := .host
  /-- R142, R351: a read of the flush itself. -/
  flush : Bool := false
  deriving DecidableEq, Repr

/-- A pulse sequence (R125, R280, R282): a host program of a parcel at a PPA, a maintenance program, or a segment reset,
with its pairs or pulses done and the first stage in which it may start. -/
inductive PulseSeq where
  | program (lpn ppa : Nat) (fast : Bool) (pairs : Nat) (word : Codeword) (part : Nat) (after : Nat)
  | maint (work : MWork) (ppa : Nat) (fast : Bool) (pairs : Nat) (after : Nat)
  | reset (tile seg : Nat) (fast : Bool) (pulses : Nat) (attempt : Nat) (after : Nat)
  deriving DecidableEq, Repr

/-- What a bank runs in the current window (R127, R269). -/
inductive BankRun where
  | idle
  | read (r : RdItem)
  | pulse
  deriving DecidableEq, Repr

/-- A bank (R259, R127): retry re-reads, guaranteed reads and other reads waiting, the running and planned pulse
sequences, what runs in this window, the codeword received and not yet decoded, the retry register (R268). -/
structure Bank where
  retryQ : List RdItem := []
  guarQ : List RdItem := []
  otherQ : List RdItem := []
  seq : Option PulseSeq := none
  planned : List PulseSeq := []
  run : BankRun := .idle
  received : List RdItem := []
  retryReg : List Int := [0, 0, 0, 0, 0, 0, 0]
  /-- R126: windows of the stage taken by pulse sequences. -/
  pulseWin : Nat := 0
  /-- R265: the last frame that the channel sent to the bank. -/
  frame : BitVec 60 := 0
  outcomeKnown : Bool := true
  excludedUntil : Nat := 0
  /-- R128: successive abandoned attempts at the reset of a segment, by tile × 64 + segment. -/
  abandonedResets : Tbl Nat := []
  /-- R137: slots of the stage taken by host programs. -/
  hostUsed : Nat := 0
  /-- R128: the stage has ended while a pulse of an unfinished sequence ran. -/
  late : Bool := false
  /-- R142: the bank has handled the emergency signal. -/
  emerg : Bool := false
  deriving DecidableEq, Repr

/-- A maintenance sequence that a plan places (R137): its bank, first window and window count. -/
structure Placed where
  bank : Nat
  seq : PulseSeq
  first : Nat
  windows : Nat
  deriving DecidableEq, Repr

/-- A stage plan of a channel (R137, R139): H_eff, f_h, f_w and M, the write-forbid state, the sequences placed, and the
slots left open for host programs by bank (absent: 24), with the maintenance slots that no sequence takes. -/
structure Plan where
  hEff : Nat := 0
  fH : Nat := 1024
  fW : Nat := 1024
  m : Nat := 0
  forbid : Bool := false
  seqs : List Placed := []
  hostSlots : Tbl Nat := []
  slots : Nat := 0
  deriving DecidableEq, Repr

/-- A channel write-buffer entry (R178, R179, R226): plaintext and sealed parcel of a pending eviction. A stale one is
superseded: a newer copy of its parcel is visible, or a lost write has poisoned the parcel. -/
structure WbEntry where
  lpn : Nat
  part : Nat
  creditPart : Nat
  plain : Parcel
  poison : Bool
  word : Codeword
  ppa : Nat
  accepted : Bool := false
  oldGen : Bool := false
  dropped : Bool := false
  passed : Bool := false
  stale : Bool := false
  /-- R227: a re-seal, with the location that the map named when it was read (none: a POISON entry). -/
  reseal : Option (Option Nat) := none
  deriving DecidableEq, Repr

/-- The Stage planner (R122 to R143). -/
structure Planner where
  /-- R566: stage ticks since the end of main-domain reset, 64 bits. -/
  stage : Nat := 0
  /-- R122: stage-clock cycle within the stage. -/
  cycle : Nat := 0
  /-- R130, R566: MAINT_SHARE in force, and set but not yet in force (0 when none). -/
  maintShare : Nat := 2
  maintPending : Nat := 0
  /-- R143: the TB at which SET_STAGE_CONFIG last completed, and what it replaced. -/
  maintTb : Option Nat := none
  maintOld : Nat := 0
  /-- R138: MAINT_SHARE and shares captured by the last snapshot. -/
  snapShare : Nat := 2
  /-- R134: read and write credits, key partition × 32 + channel. -/
  readCredit : Tbl Nat := []
  writeCredit : Tbl Nat := []
  /-- R133: shares in force in the planner, by partition: (read, write). -/
  shares : Tbl (Nat × Nat) := []
  /-- R133: shares as the completed commands have set them; the TB at which one last did, and the shares before it. -/
  sharesSet : Tbl (Nat × Nat) := []
  sharesTb : Option Nat := none
  sharesOld : Tbl (Nat × Nat) := []
  snapShares : Tbl (Nat × Nat) := []
  /-- R566: STAGE_TEMPLATE, STAGE_FORBID and F_H shown for the current stage. -/
  templateReg : BitVec 32 := 0
  forbidReg : BitVec 32 := 0
  fHReg : Nat := 1024
  /-- R142. -/
  emergency : Bool := false
  /-- R299: next channel in round-robin order. -/
  nextCh : Nat := 0
  /-- R412: plan misses in the last closed minute. -/
  lastMisses : Nat := 0
  deriving DecidableEq, Repr

/-! ### Pannier cache -/

/-- The line states (R162). -/
inductive LineSt where
  | invalid
  | clean
  | dirty
  | filling
  | evicting
  deriving DecidableEq, Repr

/-- A way's tag entry and data (R162), with its dirty-directory entry, LPN and PART_ID (R199), and the stage since which
a dirty line has not been fully VALID (R173). -/
structure Line where
  lpn : Nat := 0
  part : Nat := 0
  st : LineSt := .invalid
  valid : BitVec 4 := 0
  dirty : BitVec 4 := 0
  poison : Bool := false
  data : Parcel := zeroParcel
  dir : Option (Nat × Nat) := none
  partialSince : Nat := 0
  dropOnFill : Bool := false
  /-- R304: zeros that the Drover wrote as maintenance work, charged to no partition. -/
  maint : Bool := false
  deriving DecidableEq, Repr

/-- The CXL.mem opcodes (R98). -/
inductive MemOp where
  | rd
  | rdData
  | specRd
  | wr
  | wrPtl
  | inv
  | invNt
  | clnEvct
  deriving DecidableEq, Repr

/-- Which tags a request holds (R71, R72): a shared-pool tag or one of its LD's reserved tags. -/
inductive TagKind where
  | pool
  | reserved
  | none
  deriving DecidableEq, Repr

/-- An accepted request, until its response (R71, R99), with the health state at acceptance (R44) and its ingress
stamp (R387). -/
structure Req where
  port : Nat
  ld : Nat
  tag : Nat
  op : MemOp
  dpa : BitVec 64
  lpn : Nat := 0
  sector : Nat := 0
  part : Nat := 0
  wr : WrData := { data := 0 }
  stamp : Nat := 0
  tagKind : TagKind := .reserved
  health : Nat := 0
  aged : Bool := false
  counted : Bool := true
  effected : Bool := false
  malformed : Nat := 0
  /-- R109: handled as frozen: a request that waits for a pool tag meets no check again. -/
  frozen : Bool := false
  /-- R73: a request in an ingress queue that holds an M2S credit. -/
  credit : Bool := false
  /-- R38: a partial write whose sector a later write has replaced while it waited on its fill. -/
  overtaken : Bool := false
  /-- R184: the LPN of the line whose eviction is matched to this waiting write. -/
  victim : Option Nat := none
  deriving DecidableEq, Repr

/-- The state of a fill (R166 to R169): waiting for the medium, ready with data, or ready with poison. -/
inductive FillSt where
  | waiting
  | ready (d : Parcel)
  | readyPoison
  deriving DecidableEq, Repr

/-- A fill-buffer entry (R166). -/
structure Fill where
  st : FillSt := .waiting
  waiters : List Req := []
  completion : Bool := false
  spec : Bool := false
  part : Nat := 0
  /-- R170: the stage in which a speculative read arrived. -/
  specStage : Option Nat := none
  /-- R194: the fill's line is dropped when it returns. -/
  drop : Bool := false
  deriving DecidableEq, Repr

/-- Why an eviction runs (R176, R177). -/
inductive EvReason where
  | victim
  | budget
  | background
  | setPressure
  | range
  | writeThrough
  | retire
  | flush
  deriving DecidableEq, Repr

/-- A line chosen for eviction (R176), the partition whose credit it spends (R177), whether the line stays CLEAN in the
cache afterwards (R187, R190), and whether a range operation awaits it (R192). -/
structure EvDue where
  lpn : Nat
  why : EvReason
  creditPart : Nat
  keep : Bool := false
  range : Bool := false
  deriving DecidableEq, Repr

/-- A pending-eviction entry (R178 step 3): the channel, and the location that names the write-buffer entry. -/
structure PendEv where
  ch : Nat
  ppa : Nat := 0
  keep : Bool := false
  poison : Bool := false
  atOrder : Bool := false
  range : Bool := false
  deriving DecidableEq, Repr

/-- A slice's retirement in progress (R201): when it began, and the dirty lines that it drains. -/
structure Retire where
  slice : Nat
  tb : Nat
  drained : Nat
  deriving DecidableEq, Repr

/-- The Pannier cache (R158 to R203). -/
structure Cache where
  /-- R162: ways by slice × 32,768 + set × 16 + way; absent: INVALID. -/
  lines : Tbl Line := []
  /-- R162: pseudo-LRU trees, 15 bits, by slice × 2,048 + set. -/
  plru : Tbl (BitVec 15) := []
  /-- R166: fill buffers by LPN. -/
  fills : Tbl Fill := []
  /-- R166, R167: requests waiting at a slice for a fill buffer or a way. -/
  waiting : List Req := []
  /-- R184: writes waiting on DIRTY_LIMIT, oldest first. -/
  budgetWait : List Req := []
  /-- R201: requests held for a retiring slice. -/
  heldReqs : List Req := []
  /-- R187: writes whose completion waits for the write-through program, by LPN. -/
  throughWait : List Req := []
  /-- R176: lines chosen for eviction. -/
  evDue : List EvDue := []
  /-- R178: pending-eviction table by LPN, and the older entries of LPNs that were evicted again before a program passed. -/
  pend : Tbl PendEv := []
  pendOld : List (Nat × PendEv) := []
  /-- R184, R191: the lines whose evictions are matched to ZERO_LINEs that wait, by the LPN that waits. -/
  zeroVictims : Tbl Nat := []
  /-- R201: online slices, bit n. -/
  online : BitVec 16 := BitVec.allOnes 16
  /-- R201: the slices whose retirement is in progress. -/
  retiring : List Retire := []
  /-- R201: TBs of dirty-sector parity errors per slice. -/
  parityTbs : Tbl (List Nat) := []
  /-- R410: clean-sector parity errors since main-domain power-up. -/
  cleanErrs : Nat := 0
  deriving DecidableEq, Repr

/-! ### Seal engine, counter tree and Traverse engine -/

/-- A key set (R205). -/
structure KeySet where
  dataKey : BitVec 256
  hashKey : BitVec 128
  gen : BitVec 16
  deriving DecidableEq, Repr

/-- A tenant slot (R204). -/
structure KeySlot where
  cur : Option KeySet := none
  nxt : Option KeySet := none
  deriving DecidableEq, Repr

/-- A leaf counter block (R217): MAJOR and 64 minors. -/
structure Leaf where
  major : BitVec 64 := 0
  minors : Vector (BitVec 7) 64 := Vector.replicate 64 0
  dirty : Bool := false
  cached : Bool := false
  deriving DecidableEq, Repr

/-- An upper node (R218): eight 56-bit counters. -/
structure Node where
  ctr : Vector (BitVec 56) 8 := Vector.replicate 8 0
  dirty : Bool := false
  cached : Bool := false
  deriving DecidableEq, Repr

/-- A rolling leaf's companion lines (R226). -/
structure Companion where
  major : BitVec 64
  minors : Vector (BitVec 7) 64
  done : BitVec 64
  part : Nat
  deriving DecidableEq, Repr

/-- A lost node (R234 to R236), replaced or not. -/
structure LostNode where
  level : Nat
  idx : Nat
  replaced : Bool := false
  retired : Bool := false
  /-- R235: the epoch whose commit the replacement waits for. -/
  epoch : Option Nat := none
  deriving DecidableEq, Repr

/-- The Seal engine (R204 to R239). -/
structure Seal where
  /-- R204: tenant slots 0 to 1,023. -/
  slots : Tbl KeySlot := []
  /-- R204, R207: system slots 0 to 2 by number, and slot 14, the KWK. -/
  sysKeys : Tbl KeySet := []
  kwk : Option (BitVec 256) := none
  /-- R210: all slots zeroed by an alarm. -/
  zeroed : Bool := false
  /-- R209: partitions whose slot is empty because an unwrap has failed. -/
  keyless : List Nat := []
  /-- R217: leaves by LPN ÷ 64 as the HBM cache and its backing show them. -/
  leaves : Tbl Leaf := []
  /-- R218: upper nodes, level × 2^40 + index, levels 2 to 11. -/
  nodes : Tbl Node := []
  /-- R226: companion lines by leaf. -/
  companions : Tbl Companion := []
  /-- R234: lost nodes. -/
  lost : List LostNode := []
  /-- R223: resident nodes of levels 1 to 3, the most recently used first, by node key. -/
  lru : List Nat := []
  /-- R229: dirty nodes, the oldest first, by node key. -/
  dirtyOrder : List Nat := []
  /-- R229: TB of the last counter checkpoint, and the level that a running one writes. -/
  ckptTb : Nat := 0
  ckptLevel : Option Nat := none
  deriving DecidableEq, Repr

/-- What the counter tree keeps through a power loss beside its nodes: the replaced subtrees whose nodes stand as they were
created (R235), as level, index and epoch, and the lost nodes that R237 leaves unreplaced. -/
structure TreeMedium where
  fresh : List (Nat × Nat × Nat) := []
  retired : List (Nat × Nat) := []
  deriving DecidableEq, Repr

/-- A running traverse (R241 to R247): Saddlebag instance, generations, rate, working mark W, working MARK,
committed MARK, bales done, pause cause. -/
structure Trav where
  inst : Nat
  oldGen : BitVec 16
  newGen : BitVec 16
  rate : Nat
  w : Nat
  mark : Nat
  committed : Nat
  bales : Nat := 0
  pause : Nat := 0
  startTb : Nat := 0
  /-- R240: TB of the last bale, for RATE. -/
  lastTb : Nat := 0
  /-- R246: 1 and 2: the finish's first and second commit under way. -/
  phase : Nat := 0
  deriving DecidableEq, Repr

/-! ### Saddlebag -/

/-- A port's configuration entry (R53, R412). -/
structure PortEnt where
  maxGen : Nat := 6
  maxCxl : Nat := 0x31
  mld : Bool := false
  ldCount : Nat := 1
  deriving DecidableEq, Repr

/-- The PORT_CONFIG record (R53): reset is the BLANK value. `ports` has an entry for each port the modes create. -/
structure PortCfg where
  groupMode : List Nat := [0, 0, 0, 0, 0, 0, 0, 0]
  clk : BitVec 8 := 0
  mgmt : Option Nat := some 0
  ports : Tbl PortEnt := []
  deriving DecidableEq, Repr

/-- Partition states (R82). -/
inductive PartSt where
  | active
  | departing
  deriving DecidableEq, Repr

/-- A PARTITION record (R82) of a partition that is not FREE. -/
structure PartRec where
  st : PartSt := .active
  fastOnly : Bool := false
  keyGen : BitVec 16 := 0
  readShare : Nat := 0
  writeShare : Nat := 0
  deriving DecidableEq, Repr

/-- A run of LEG_RUNS (R459); `part` 0xFFFF: legs being dropped. -/
structure LegRun where
  part : Nat
  pos : Nat
  leg : Nat
  count : Nat
  deriving DecidableEq, Repr

/-- An LD's role (R87). -/
inductive LdType where
  | unmapped
  | tenant
  | management
  deriving DecidableEq, Repr

/-- A DPA range (R87). -/
structure Range where
  dpaLeg : Nat
  count : Nat
  pos : Nat
  deriving DecidableEq, Repr

/-- An LD_MAP record (R87, R98, R459) with its ranges. -/
structure LdMap where
  typ : LdType := .unmapped
  part : Nat := 0
  dynamic : Bool := false
  dcBase : Nat := 0
  ranges : List Range := []
  outstanding : Nat := 64
  opcodes : BitVec 7 := 0x7F
  poisonLimit : Nat := 256
  /-- R459: the index of the LD's first range in the RANGES records, and in the stored record the number of its ranges. -/
  first : Nat := 0
  held : Nat := 0
  deriving DecidableEq, Repr

/-- A KEY_WRAP record (R208): PART_ID, KEY_GEN, WRAP_SEQ, WRAPPED and TAG. -/
structure KeyWrap where
  part : Nat
  gen : BitVec 16
  seq : Nat
  wrapped : BitVec 384
  tag : BitVec 128
  deriving DecidableEq, Repr

/-- A TRAVERSE record (R241). -/
structure TravRec where
  part : Nat
  oldGen : BitVec 16
  newGen : BitVec 16
  rate : Nat
  mark : Nat
  deriving DecidableEq, Repr

/-- A freeze (R106, R107, R117): master identifier, trigger code, address, detail, TB. -/
structure Freeze where
  master : Nat
  code : Nat
  addr : BitVec 64
  detail : Nat
  tb : Nat
  deriving DecidableEq, Repr

/-- The CHECKPOINT record (R307): round number, directory PPAs of both copies, JSEQ of ROUND_BEGIN, and the PPA at which
each lane resumed, by channel × 8 + lane. -/
structure CkptRec where
  round : Nat := 0
  jseq : Nat := 0
  dirA : Nat := 0
  dirB : Nat := 0
  lanes : Tbl Nat := []
  deriving DecidableEq, Repr

/-- A MODULE record (R289). -/
structure ModuleRec where
  serial : BitVec 64
  gen : Nat
  deriving DecidableEq, Repr

/-- BELAY_CONFIG (R338, R459): SENSE_RATIO × 256, mV, mΩ, s; the last C in µF and the TB of its test. -/
structure BelayCfg where
  senseRatio : Nat := 4096
  vMin : Nat := 9000
  vTrip : Nat := 10200
  rTest : Nat := 0
  testTod : Nat := 10800
  c : Option Nat := none
  testTb : Nat := 0
  deriving DecidableEq, Repr

/-- FLUSH_STATE (R352): STATE, CAUSE, START and PARTS; reset as never written. -/
structure FlushRec where
  state : Nat := 7
  cause : Nat := 0
  start : Nat := 0
  parts : List Nat := []
  deriving DecidableEq, Repr

/-- TIME_CONFIG (R362). -/
structure TimeCfg where
  present : Bool := true
  falling : Bool := false
  delay : Int := 0
  deriving DecidableEq, Repr

/-- Time-of-day state (R367). -/
inductive Tod where
  | unset
  | estimated
  | set
  deriving DecidableEq, Repr

/-- TIMEKEEP (R459): ADJ, last closed minute, TOD, the 32 thermal clocks. -/
structure TimeKeep where
  adj : Int := 0
  lastMinute : Nat := 0
  tod : Tod := .unset
  clocks : List Nat := []
  deriving DecidableEq, Repr

/-- BOOT_COUNTERS (R548). -/
structure BootCtr where
  boots : Nat := 0
  keeperPors : Nat := 0
  powerUps : Nat := 0
  warmResets : Nat := 0
  dirtyShutdowns : Nat := 0
  deriving DecidableEq, Repr

/-- A pitch table entry (R493): 0xFF for no PG or monitor. -/
structure PitchEnt where
  role : Nat := 0
  pitch : Nat := 0
  pg : Nat := 0xFF
  mon : Nat := 0xFF
  fallTime : Nat := 0
  channels : BitVec 32 := 0
  deriving DecidableEq, Repr

/-- The default pitch table (R495). -/
def defaultPitch : List PitchEnt :=
  [ { role := 1, pitch := 1, pg := 0, mon := 7 }, { role := 1, pitch := 2, pg := 1, mon := 0 },
    { role := 1, pitch := 3, pg := 2, mon := 1 }, { role := 1, pitch := 3, pg := 3, mon := 6 },
    { role := 1, pitch := 4, pg := 4, mon := 2 }, { role := 1, pitch := 5, pg := 5, mon := 3 },
    { role := 1, pitch := 6, pg := 6, mon := 5 }, { role := 1, pitch := 7, pg := 7, mon := 4 },
    { role := 2, pitch := 8, pg := 8, fallTime := 5, channels := 0x0000FFFF },
    { role := 2, pitch := 8, pg := 9, fallTime := 5, channels := 0xFFFF0000 },
    { role := 2, pitch := 9, pg := 10, fallTime := 5, channels := 0x0000FFFF },
    { role := 2, pitch := 9, pg := 11, fallTime := 5, channels := 0xFFFF0000 },
    {}, {}, {}, { role := 3 } ]

/-- The content of the Saddlebag records (R459): the working SRAM's typed image. -/
structure SadImage where
  portCfg : PortCfg := {}
  maintShare : Nat := 2
  parts : Tbl PartRec := []
  runs : Tbl LegRun := []
  /-- By LD_MAP instance: port × 16 + LD-ID, 512 for the FM-owned LD. -/
  ldMaps : Tbl LdMap := []
  wraps : Tbl KeyWrap := []
  travs : Tbl TravRec := []
  freezes : Tbl Freeze := []
  ckpt : CkptRec := {}
  ledgerChain : Tbl Nat := []
  modules : Tbl ModuleRec := []
  drover : DroverCfg := {}
  belay : BelayCfg := {}
  flush : FlushRec := {}
  time : TimeCfg := {}
  keep : TimeKeep := {}
  epoch : Nat := 0
  boot : BootCtr := {}
  pitch : List PitchEnt := defaultPitch
  infoFormat : Nat := 2
  deriving DecidableEq, Repr

/-- The payload of one record (R459). A RANGES record holds, by their place in the device's 4,096, the ranges of LDs, each with its LD_MAP
instance. -/
inductive RecBody where
  | portCfg (c : PortCfg)
  | stage (k : Nat)
  | part (p : PartRec)
  | runs (l : Tbl LegRun)
  | ldMap (m : LdMap)
  | ranges (l : Tbl (Nat × Range))
  | wrap (w : KeyWrap)
  | trav (t : TravRec)
  | freeze (l : Tbl Freeze)
  | ckpt (c : CkptRec)
  | chain (l : Tbl Nat)
  | moduleR (m : ModuleRec)
  | drover (d : DroverCfg)
  | belay (b : BelayCfg)
  | flush (f : FlushRec)
  | time (t : TimeCfg)
  | keep (k : TimeKeep)
  | epoch (e : Nat)
  | boot (b : BootCtr)
  | pitch (p : List PitchEnt)
  | info (n : Nat)
  deriving DecidableEq, Repr

/-- One shadow copy of a record (R458, R463): no body when DELETED. R461: a copy of a VERSION above 1 has further bytes after those
that version 1 knows. -/
structure Shadow where
  seq : Nat
  group : Nat
  gcount : Nat
  version : Nat := 1
  extra : List Byte := []
  body : Option RecBody
  deriving DecidableEq, Repr

/-- A record's two shadow copies (R458); none: never written. -/
structure Slot where
  a : Option Shadow := none
  b : Option Shadow := none
  deriving DecidableEq, Repr

/-- A commit group that the keeper stores (R463): number, records captured. -/
structure Group where
  num : Nat
  recs : List (Nat × Option RecBody)
  deriving DecidableEq, Repr

/-- The Saddlebag (R458 to R469). Record keys are TYPE × 65,536 + INSTANCE. -/
structure Saddle where
  /-- R458, R462: working SRAM. -/
  img : SadImage := {}
  /-- R462: records changed and not yet committed. -/
  dirty : List Nat := []
  /-- R463: the group being stored. -/
  running : Option Group := none
  /-- R463: number of the last group, 32 bits. -/
  lastGroup : Nat := 0
  /-- R458: shadow copies by record key. -/
  slots : Tbl Slot := []
  /-- R466: recall in progress. -/
  recalling : Bool := true
  /-- R455, R460: a store waits for the supply check since this TB. -/
  heldSince : Option Nat := none
  /-- R461: the records of the working SRAM of a newer VERSION than the image knows: VERSION, and the bytes after those it knows. -/
  ahead : Tbl (Nat × List Byte) := []
  /-- R208: the keeper's 64-bit monotonic wrap counter. -/
  wrapSeq : Nat := 0
  /-- R462: the second of TB in which the last group started, and the groups started in it. -/
  groupSec : Nat := 0
  groupsNow : Nat := 0
  deriving DecidableEq, Repr

/-! ### Ports and LDs -/

/-- A response on a port (R71): data, poison, or a completion. -/
inductive RespKind where
  | data (d : Sector)
  | poison
  | cmp
  deriving DecidableEq, Repr

/-- A response of a request. -/
structure Resp where
  port : Nat
  ld : Nat
  tag : Nat
  op : MemOp
  kind : RespKind
  sent : Nat := 0
  deriving DecidableEq, Repr

/-- A host port (R49 to R79). -/
structure Port where
  /-- R56: link up. -/
  up : Bool := false
  /-- R56 to R58: trained generation, width, CXL revision (0x11, 0x20, 0x31). -/
  gen : Nat := 0
  width : Nat := 0
  cxl : Nat := 0
  /-- R57: 256 B flits (else 68 B). -/
  flit256 : Bool := false
  /-- R53: configuration applied at the last training. -/
  ent : PortEnt := {}
  /-- R59: training failures in succession; staying down until hot reset or PERST#. -/
  fails : Nat := 0
  stayDown : Bool := false
  /-- R73: M2S credits held by the host. -/
  reqCredits : Nat := 256
  rwdCredits : Nat := 256
  /-- R71: requests that hold a tag. -/
  reqs : List Req := []
  /-- R119: requests waiting in the ingress queues for a pool tag. -/
  ingress : List Req := []
  /-- R73: S2M NDR and DRS credits that the host has returned and the port has not used. -/
  ndrCredits : Nat := 0
  drsCredits : Nat := 0
  /-- R73: completed responses held for want of S2M credits, with the TB at which each was ready. -/
  held : List (Nat × Req × RespKind) := []
  /-- R74: TB since which S2M credits are withheld, and whether the 10 ms record is written. -/
  withheldSince : Option Nat := none
  withheldRec : Bool := false
  /-- R76: requests of the old link still to finish. -/
  oldReqs : List Req := []
  /-- R59: a retrain is due 100 ms after a training failure. -/
  retryDue : Bool := false
  retryTb : Nat := 0
  deriving DecidableEq, Repr

/-- An event record in a log (R68): code and parameters of the descriptor that made it (R481). -/
structure EventRec where
  handle : Nat
  code : Nat
  ts : Nat
  dpa : BitVec 64 := 0
  len : Nat := 0
  p1 : Nat := 0
  p2 : Nat := 0
  p3 : Nat := 0
  p4 : Nat := 0
  deriving DecidableEq, Repr

/-- An event log (R68). -/
structure EventLog where
  recs : List EventRec := []
  overflow : Bool := false
  dropped : Nat := 0
  firstTs : Nat := 0
  lastTs : Nat := 0
  nextHandle : Nat := 1
  deriving DecidableEq, Repr

/-- A poison list entry (R236, R408): a range of an LD; `injected` for Inject Poison. -/
structure PoisonEnt where
  dpa : Nat
  len : Nat
  injected : Bool := false
  deriving DecidableEq, Repr

/-- Background command jobs (R399, R189, R85, R86, R289, R535). -/
inductive Job where
  | range (kind part start len next : Nat) (ldRange : Option Nat) (startTb : Nat) (started : List Nat) (met : Bool)
  | removeLegs (legs : List Nat)
  | deletePart (part : Nat) (legs : List Nat) (gens startTb : Nat)
  | adopt (ch : Nat) (serial : BitVec 64)
  | activate (startTb : Nat)
  deriving DecidableEq, Repr

/-- A running background command (R399). -/
structure Bg where
  opcode : Nat
  pct : Nat := 0
  job : Job
  first4 : Nat := 0
  deriving DecidableEq, Repr

/-- What takes effect when a deferred command completes (R89, R92, R98, R100). -/
inductive OnDone where
  | none
  | ldMap (key : Nat) (m : LdMap)
  | contract (key : Nat) (m : LdMap)
  | ranges (key : Nat) (rs : List Range)
  | stageCfg (k : Nat)
  | slot (part : Nat) (k : KeySet) (shares : Nat × Nat)
  | shares (part : Nat) (shares : Nat × Nat)
  | release (key part : Nat) (rs : List Range) (positions : List Nat)
  | traverse (inst : Nat)
  deriving DecidableEq, Repr

/-- A foreground command whose completion waits for its commit (R401). -/
structure WaitCmd where
  opcode : Nat
  first4 : Nat
  recs : List Nat
  out : List Byte
  done : OnDone
  since : Nat
  deriving DecidableEq, Repr

/-- A command context with its standard mailbox registers (R394, R396, R399, R400). -/
structure Mailbox where
  doorbell : Bool := false
  opcode : Nat := 0
  len : Nat := 0
  /-- R11: the written low half of the Command register, until its high half is written. -/
  cmdLow : BitVec 32 := 0
  payload : List Byte := []
  retCode : Nat := 0
  detail : Nat := 0
  /-- R399: Mailbox Status bit 0 and the Background Command Status register. -/
  bgShown : Bool := false
  bgOpcode : Nat := 0
  bgPct : Nat := 0
  bgRet : Nat := 0
  bgDetail : Nat := 0
  /-- R399: the background command that Synet runs. -/
  bg : Option Bg := none
  wait : Option WaitCmd := none
  /-- R400: VND_MB_XSTATUS. -/
  xDetail : Nat := 0
  xOffset : Nat := 0xFFF
  xFrozen : Bool := false
  xBivouac : Bool := false
  xRecall : Bool := false
  xValid : Bool := false
  /-- R562: VND_MB_WINDOW.BASE. -/
  base : Nat := 0
  deriving DecidableEq, Repr

/-- The Cairn window registers (R478). -/
structure CairnWin where
  position : Nat := 0
  space : Bool := false
  auto : Bool := false
  ready : Bool := false
  advanced : Bool := false
  notHeld : Bool := false
  half : Bool := false
  data : List Byte := []
  loading : Bool := false
  deriving DecidableEq, Repr

/-- A Coffer key slot (R429 to R431): the SIZE and PAIR bits of its register, the loaded key with the SIZE and PAIR
that it was loaded under, and the staging area. -/
structure CofKey where
  valid : Bool := false
  size : Bool := false
  pair : Bool := false
  keySize : Bool := false
  keyPair : Bool := false
  key : BitVec 256 := 0
  tweak : BitVec 256 := 0
  mat : List Byte := []
  deriving DecidableEq, Repr

/-- The descriptor registers (R433 to R435). -/
structure CofDesc where
  ctrl : BitVec 32 := 0
  src : BitVec 64 := 0
  dst : BitVec 64 := 0
  len : BitVec 32 := 0
  aadLen : BitVec 32 := 0
  iv : List (BitVec 32) := [0, 0, 0, 0]
  tag : List (BitVec 32) := [0, 0, 0, 0]
  deriving DecidableEq, Repr

/-- A running descriptor (R433, R438, R442): captured registers, partition and key; whether it is in the write pass of
a GCM decrypt; the source bytes of this pass; destination bytes written; the largest progress (R451); whether it zeroes
its destination, and the code that it then ends with (R446); whether an alarm erased the keys (R449). -/
structure CofRun where
  desc : CofDesc
  pad : Bool := false
  part : Nat := 0
  key : CofKey := {}
  pass : Bool := false
  input : List Byte := []
  written : Nat := 0
  maxProgress : Nat := 0
  zeroing : Bool := false
  endCode : Nat := 0
  lost : Bool := false
  deriving DecidableEq, Repr

/-- A Coffer page (R426 to R449). -/
structure CofPage where
  lenMode : Bool := false
  code : Nat := 0
  writeLost : Bool := false
  passBit : Bool := false
  progress : Nat := 0
  done : Bool := false
  events : BitVec 4 := 0
  /-- R14: the time at which flags were last set, and the flags set then: the events in [3:0], DONE in [4]. -/
  flagTb : Nat := 0
  flagNow : BitVec 5 := 0
  outLen : Nat := 0
  desc : CofDesc := {}
  keys : Tbl CofKey := []
  run : Option CofRun := none
  /-- R11: written low halves of SRC_OFFSET and DST_OFFSET. -/
  srcLow : BitVec 32 := 0
  dstLow : BitVec 32 := 0
  deriving DecidableEq, Repr

/-- A forced release's grace (R93), from the TB of the removal. -/
structure Grace where
  dpaLeg : Nat
  count : Nat
  since : Nat := 0
  recorded : Bool := false
  deriving DecidableEq, Repr

/-- An extent offered to a host and not answered (R92): first DPA leg, legs, and the Initiate that made it. -/
structure Offer where
  dpaLeg : Nat
  count : Nat
  group : Nat := 0
  deriving DecidableEq, Repr

/-- An HDM decoder of an LD (R61, R65, R78): base, size and control (granularity, ways, commit, committed). -/
structure HdmDec where
  base : BitVec 64 := 0
  size : BitVec 64 := 0
  ctrl : BitVec 32 := 0
  deriving DecidableEq, Repr

/-- The registers of an LD's configuration space that a host writes or that report errors (R61, R65, R70), with the
values that the PCI Express and CXL Specifications give them at reset. -/
structure IoSpace where
  command : BitVec 16 := 0
  bar0 : BitVec 32 := 0
  bar1 : BitVec 32 := 0
  intLine : BitVec 8 := 0
  /-- Device Control: reporting enables of correctable, non-fatal, fatal and unsupported-request errors. -/
  devCtl : BitVec 16 := 0x2810
  devSta : BitVec 16 := 0
  uncStatus : BitVec 32 := 0
  uncMask : BitVec 32 := 0x00400000
  uncSev : BitVec 32 := 0x00462030
  corStatus : BitVec 32 := 0
  corMask : BitVec 32 := 0x0000E000
  /-- The CXL Control and Control 2 registers of the DVSEC for CXL Devices, and Range 1 Base. -/
  cxlCtl : BitVec 16 := 2
  range1Base : BitVec 64 := 0
  /-- DOE: the request received and the response still to be read, in 32-bit words. -/
  doeIn : List (BitVec 32) := []
  doeOut : List (BitVec 32) := []
  doeErr : Bool := false
  deriving DecidableEq, Repr

/-- The PCIe error messages that an LD has sent (R70). -/
structure ErrMsgs where
  cor : Nat := 0
  nonfatal : Nat := 0
  fatal : Nat := 0
  deriving DecidableEq, Repr

/-- An LD (R55, R66 to R69, R87 to R100). -/
structure Ld where
  /-- R87, R98: the map record and contract in force in the Tollgate. -/
  map : LdMap := {}
  /-- R100: a lower OUTSTANDING that waits. -/
  pendingOut : Option Nat := none
  /-- R99: outstanding requests. -/
  outstanding : Nat := 0
  /-- R98: poisoned writes in the window of 256 stages with this number. -/
  poisonCnt : Nat := 0
  poisonWin : Nat := 0
  graces : List Grace := []
  /-- R92: extents offered and not answered, oldest first. -/
  offers : List Offer := []
  /-- R92: changes of the extent list, as the CXL Specification's generation number counts them. -/
  extGen : Nat := 0
  /-- R66: Memory_Active. -/
  memActive : Bool := false
  /-- R61, R65, R78: the CXL.io function state, and the LD's two HDM decoders. -/
  io : IoSpace := {}
  decoders : List HdmDec := [{}, {}]
  /-- R68: Informational, Warning, Failure, Fatal, Dynamic Capacity logs. -/
  logs : List EventLog := []
  /-- R69: log parcels changed and not yet programmed. -/
  logsChanged : Bool := false
  /-- R408: the poison list. -/
  poisonList : List PoisonEnt := []
  /-- R407: alert thresholds (life used warn, temperature warn) and shutdown state. -/
  alertLife : Nat := 0
  alertTemp : Int := 0
  alertUnder : Int := 0
  alertValid : BitVec 8 := 0
  alertRaised : BitVec 8 := 0
  shutdown : Nat := 0
  mbox : Mailbox := {}
  /-- R563: change flags [20:16] of VND_STATUS. -/
  chg : BitVec 5 := 1
  /-- R14: the TB at which flags were last set, and the flags set then. -/
  chgTb : Nat := 0
  chgNow : BitVec 5 := 0
  /-- R11: shadows of the high halves of the Command register, Mailbox Status and Background Command Status. -/
  shCmd : Option (BitVec 32) := none
  shMbs : Option (BitVec 32) := none
  shBgs : Option (BitVec 32) := none
  /-- R559: shadows of STAGE_NUM and TB high halves. -/
  shStage : Option (BitVec 32) := none
  shTb : Option (BitVec 32) := none
  shSrc : Option (BitVec 32) := none
  shDst : Option (BitVec 32) := none
  win : CairnWin := {}
  cof : CofPage := {}
  /-- R44: discarded writes in READ_ONLY this minute. -/
  discarded : Nat := 0
  /-- R70: errors reported through AER, and the messages sent for them. -/
  aerReports : Nat := 0
  errMsgs : ErrMsgs := {}
  deriving DecidableEq, Repr

/-- The ports and port groups (R49 to R80). -/
structure Ports where
  ports : Tbl Port := []
  /-- R593: configuration record in force since the last main-domain power-up or warm reset. -/
  inForce : PortCfg := {}
  /-- R53: CLK_MODE in force. -/
  clk : BitVec 8 := 0
  /-- R78: PERST# asserted, by group. -/
  perst : BitVec 8 := BitVec.allOnes 8
  /-- R78: TB at which PERST# was last asserted, by group. -/
  perstTb : Tbl Nat := []
  /-- R55: MGMT_PORT in force. -/
  mgmt : Option Nat := some 0
  /-- LDs by port × 17 + LD-ID, 16 for the FM-owned LD. -/
  lds : Tbl Ld := []
  /-- R442: the LDs whose Coffer descriptor runs, in submit order. -/
  cofOrder : List Nat := []
  /-- R442: the place of the next descriptor in the round robin. -/
  cofTurn : Nat := 0
  /-- The responses that the ports have sent, newest first (the model's own observation). -/
  sent : List Resp := []
  /-- The answer of the last register or Survey read, or GPF response (the model's own observation). -/
  readData : Nat := 0
  deriving DecidableEq, Repr

/-- The Tollgate (R81 to R121). -/
structure Gate where
  /-- R106: freezes in force. -/
  freezes : List Freeze := []
  /-- R117: the last trigger that met each master already frozen. -/
  again : List Freeze := []
  /-- R379: partition IDs that became FREE, with their minute. -/
  freedMinute : Tbl Nat := []
  /-- R237: retired logical legs. -/
  retiredLegs : List Nat := []
  deriving DecidableEq, Repr

/-! ### Reckoner -/

/-- Timebase states (R363). -/
inductive TbSt where
  | free
  | acquiring
  | locked
  | holdover
  | refLost
  deriving DecidableEq, Repr

/-- The counters of one meter record (R370). The integrals of R374 are in 2^-32 of their unit. -/
structure Meter where
  flags : BitVec 8 := 0
  events : BitVec 8 := 0
  readBytes : Nat := 0
  readOps : Nat := 0
  writeBytes : Nat := 0
  writeOps : Nat := 0
  wear : Nat := 0
  capNs : Nat := 0
  shareHeld : Nat := 0
  xferGuar : Nat := 0
  xferBe : Nat := 0
  cacheNs : Nat := 0
  throttleNs : Nat := 0
  freezeNs : Nat := 0
  cofferBytes : Nat := 0
  deriving DecidableEq, Repr

/-- A bank of counters (R377): one minute's records and histograms (key: partition, or 1,024 + port), and its per-minute
counts (R591) once it closes. -/
structure MinuteBank where
  minute : Nat := 0
  closeTs : Nat := 0
  flags : BitVec 8 := 0
  recs : Tbl Meter := []
  hists : Tbl (Tbl Nat) := []
  counts : Tbl Nat := []
  deriving DecidableEq, Repr

/-- A ring slot (R381). -/
structure RingSlot where
  bank : MinuteBank
  committed : Bool := false
  histLost : Bool := false
  sealTb : Nat := 0
  deriving DecidableEq, Repr

/-- The Reckoner (R361 to R391). -/
structure Reck where
  /-- R361: TB, 64 bits, and its 32-bit fraction. -/
  tb : Nat := 0
  frac : Nat := 0
  /-- R361: ADJ and SLEW in 2^-32 ns. -/
  adj : Int := 0
  slew : Int := 0
  /-- R361, R364, R368: what the running slew has still to add or take away, in 2^-32 ns. -/
  slewLeft : Nat := 0
  /-- R363. -/
  st : TbSt := .acquiring
  tod : Tod := .unset
  /-- R362: configuration in force, and one that waits for the next edge. -/
  cfg : TimeCfg := {}
  cfgNext : Option TimeCfg := none
  /-- R364: last accepted edge's TB, last e; R363: ns since the last accepted edge or the power-up. -/
  lastEdge : Nat := 0
  lastE : Int := 0
  sinceEdge : Nat := 0
  goodEdges : Nat := 0
  rejRun : Nat := 0
  firstAcq : Bool := true
  /-- R366: ADJ at each accepted edge in LOCKED, newest first, at most 60. -/
  adjHist : List Int := []
  /-- R368: armed AT_PPS second count; last arm dropped. -/
  arm : Option Nat := none
  armAge : Nat := 0
  armDropped : Bool := false
  /-- R377: the open bank and the closing bank. -/
  openBank : MinuteBank := {}
  /-- R377, R378: ns since the open minute opened, steps left out. -/
  openAge : Nat := 0
  closing : Option MinuteBank := none
  /-- R378: the last closed minute. -/
  lastClosed : Option Nat := none
  /-- R381: the meter ring by MINUTE mod 1,440. -/
  ring : Tbl RingSlot := []
  /-- Per-minute and per-hour counts: code × 4 + parameter − 1 (R591). -/
  counts : Tbl Nat := []
  /-- R383: the minute whose block is being programmed, and the next parcel ordinal to program. -/
  block : Option Nat := none
  blockNext : Nat := 0
  /-- R384: slots of the ledger chain whose new tile still lacks blocks of the other copy. -/
  ledgerCopy : List Nat := []
  deriving DecidableEq, Repr

/-! ### Belay -/

/-- A capacitance test in progress (R340): V0 in mV; HOLDUP_TEST high; TB of its start, then of HOLDUP_TEST's rise. -/
structure CapTest where
  v0 : Nat
  high : Bool := false
  startTb : Nat := 0
  deriving DecidableEq, Repr

/-- Belay (R335 to R360). -/
structure Belay where
  /-- R337: bank voltage in mV and E of the last computation, in 1/20 pJ. -/
  v : Nat := 0
  e : Nat := 0
  /-- R342: power-up test succeeded since power-up. -/
  tested : Bool := false
  /-- R343: budget scale × 1,024 in force, and the raises that wait (R345): scales, rising, and since when E has stayed at
  or above each. -/
  s : Nat := 0
  raise : List (Nat × Nat) := []
  /-- R346: WRITE_THROUGH held; TB since which E has stayed at or above 0.34 J. -/
  through : Bool := true
  above34 : Option Nat := none
  /-- R340: test in progress; postponements in succession. -/
  test : Option CapTest := none
  postponed : Nat := 0
  /-- R340: no test starts before this TB. R342, R339: a test is due, and the TB at which the last one began. -/
  notBefore : Nat := 0
  testDue : Bool := true
  lastTest : Nat := 0
  /-- R475: the TB second of the last hold-up sample. -/
  sampled : Nat := 0
  /-- R340: HOLDUP_TEST output. -/
  holdupTest : Bool := false
  /-- R349: flush step in progress, 0 when none; cause; TB at its start. -/
  step : Nat := 0
  cause : Nat := 0
  startTb : Nat := 0
  parcels : Nat := 0
  nodeParcels : Nat := 0
  /-- R348: PFAIL_N low has been recognized. -/
  pfail : Bool := false
  /-- R353: flush-state latch in keeper SRAM. -/
  latch : Option FlushRec := none
  deriving DecidableEq, Repr

/-! ### Cairn, Relay -/

/-- A Cairn histogram block (R475 to R477): counts by histogram × 8 + bin, extremes by index. -/
structure CairnBlock where
  number : Nat := 1
  startTb : Nat := 0
  flags : Nat := 0
  hist : Tbl Nat := []
  extremes : Tbl (Int × Nat) := []
  deriving DecidableEq, Repr

/-- Cairn (R470 to R479). -/
structure Cairn where
  /-- R470: every stored record, newest first (founding stones and ring are views of it). -/
  stored : List CairnRec := []
  /-- R472: staging buffer, oldest first (256 entries); drops counted. -/
  staging : List CairnRec := []
  dropCount : Nat := 0
  dropFirst : Nat := 0
  /-- R455, R489: the oldest staged record waits for the supply check. -/
  held : Bool := false
  /-- R474: the open epoch, the lifetime block, closed epochs newest first (720). -/
  epoch : CairnBlock := {}
  life : CairnBlock := { number := 0 }
  epochs : List CairnBlock := []
  epochCycles : Nat := 0
  /-- R44: TB of the last Cairn or Relay reset. -/
  resetTb : Option Nat := none
  /-- R473: record numbers whose ECC fails. -/
  unreadable : List Nat := []
  deriving DecidableEq, Repr

/-- A Relay queue (R482, R483). -/
structure RelayQ where
  fill : List CairnRec := []
  drain : List CairnRec := []
  gap : Bool := false
  fillBank : Bool := false
  deriving DecidableEq, Repr

/-- An event that Synet makes (R481): target LDs and log. -/
structure EventDesc where
  lds : List Nat
  log : Nat
  ev : EventRec
  deriving DecidableEq, Repr

/-- The Relay queues (R480 to R487). -/
structure Relay where
  queues : Tbl RelayQ := []
  /-- R484: event descriptors in queues 10 and 11, and those that Synet holds until there is room. -/
  evq10 : List EventDesc := []
  evq11 : List EventDesc := []
  synetWait : List EventDesc := []
  /-- R485: notices dropped and not yet reconciled, by queue. -/
  lostNotices : Tbl (List CairnRec) := []
  /-- R485: event descriptors that a queue's reset discarded, by queue. -/
  lostEvents : Tbl (List EventDesc) := []
  deriving DecidableEq, Repr

/-! ### Keeper, Rope, thermal, boot, Survey -/

/-- The sequencer states (R496). -/
inductive RopeSt where
  | off
  | rising
  | on
  | falling
  | holdoff
  | fault
  deriving DecidableEq, Repr

/-- Rope (R490 to R513). -/
structure Rope where
  st : RopeSt := .holdoff
  pitch : Nat := 0
  /-- R499: the ROPE output drives low. -/
  driveLow : Bool := true
  pitchDone : Bool := false
  /-- R490: SEQ_EN levels. -/
  en : BitVec 16 := 0
  /-- R493: the pitch table in force since the last power-up. -/
  table : List PitchEnt := defaultPitch
  /-- R509: why the power-down runs (R525 causes), the flush cause, and whether a rail did not fall. -/
  downCause : Nat := 0
  flushCause : Nat := 0
  notFallen : BitVec 16 := 0
  topPitch : Nat := 0
  downTb : Nat := 0
  upTb : Nat := 0
  holdMs : Nat := 150
  /-- R497, R501: when HOLDOFF began, and when ROPE was last released at a pitch. -/
  holdTb : Nat := 0
  relTb : Nat := 0
  /-- R498, R499, R504: when the pitch in progress started. R508: when the enables that are falling were driven low. -/
  pitchTb : Nat := 0
  fallTb : Nat := 0
  attempts : Nat := 0
  /-- R505, R523: TB of the first rail fault, of the last restart after a thermal shutdown. -/
  railFaultTb : Option Nat := none
  thermalTb : Option Nat := none
  thermalHold : Bool := false
  railRepeat : Bool := false
  /-- R506: ROLE 2 entries turned off. -/
  lostModules : BitVec 16 := 0
  /-- R490, R492: rail readings in mV. -/
  rails : List Nat := [0, 0, 0, 0, 0, 0, 0, 0, 1800]
  deriving DecidableEq, Repr

/-- The thermal monitor (R514 to R524). -/
structure Thermal where
  /-- R514: ring-oscillator readings by sensor, 1/16 °C. -/
  sensors : Tbl Int := []
  hbm : List Int := []
  /-- R515: sensors excluded until the next main-die reset, and TB since which each is an outlier. -/
  excluded : List Nat := []
  outlier : Tbl Nat := []
  /-- R515: T_J, 1/16 °C. -/
  tj : Option Int := none
  tjSensor : Nat := 0
  /-- R516. -/
  warn : Bool := false
  throttle : Bool := false
  shut : Bool := false
  /-- R518: f_h × 1,024. -/
  fH : Nat := 1024
  /-- R497, R523: the keeper's time since which every keeper-die sensor has read below 108 °C. -/
  keeperCoolTb : Option Nat := none
  /-- R475: one more than the TB second of the last junction and module samples; R320: of the thermal clocks' last advance. -/
  sampledJ : Nat := 0
  sampledM : Nat := 0
  clocked : Nat := 0
  deriving DecidableEq, Repr

/-- Life-cycle states (R549). -/
inductive Life where
  | blank
  | provision
  | production
  | ret
  | scrapped
  deriving DecidableEq, Repr

/-- Boot, update and the running image (R526 to R542). -/
structure Boot where
  /-- R526: the firmware flash; an unlisted byte reads 0xFF. -/
  flash : List Host.Cell := []
  /-- R534: staging, the transfer's path (1 management LD, 2 MCTP) and whether End has passed. -/
  staging : List Byte := []
  transferPath : Nat := 0
  staged : Bool := false
  /-- R535: activation: next phase (0 header erase, 1 body blocks, 2 header) and block, a block's second attempt, blocks rewritten. -/
  actPhase : Nat := 0
  actBlock : Nat := 0
  actSecond : Bool := false
  actRewritten : Nat := 0
  /-- R537: version written by a completed activation and not yet running. -/
  pendingVersion : Option Nat := none
  /-- R529: running image's versions; bivouac cause; Synet running; loader attempts. -/
  running : Bool := false
  version : Nat := 0
  secVersion : Nat := 0
  cause : Nat := 0
  attempts : Nat := 0
  prevVersion : Nat := 0
  /-- R528: pairing bits; R530: step 1 done. -/
  pairing : BitVec 3 := 0
  /-- R289: this boot found no MODULE record, so every trained module is adopted. -/
  firstStart : Bool := false
  step1 : Bool := false
  /-- R539: keeper security counter. -/
  secCounter : Nat := 0
  /-- R578: management address. -/
  mgmtAddr : Nat := 0x30
  /-- R545: header reads that the loader's watchdog has used up in this boot (R529: 3 attempts). -/
  readAttempts : Nat := 0
  /-- R459: record keys of which this boot's recall found no valid copy. -/
  lostRecs : List Nat := []
  /-- R555: the alarm source that was active at this boot's key reload. -/
  alarmActive : Option Nat := none
  /-- R369, R320: the keeper's interval before this boot, in ns; R308: how long its recovery took, in ms. -/
  offNs : Nat := 0
  recoveryMs : Nat := 0
  /-- R209: partitions whose unwrap fails, and R233: node copies that fail, in this boot. -/
  unwrapFails : List Nat := []
  nodeErrs : List NodeErr := []
  /-- R530: step 3 has not yet ended: its recovery of the map and of the counter tree waits for the channels. Whether the flush before
  this boot was incomplete (R356), and whether an alarm preceded it. -/
  recovering : Bool := false
  /-- R386: the last closed minute as this boot recalled it. -/
  lastMinute : Option Nat := none
  wasDirty : Bool := false
  alarmed : Bool := false
  /-- R69: this start is the first after a keeper POR. -/
  emptyLogs : Bool := false
  deriving DecidableEq, Repr

/-- The Survey port (R550 to R552). -/
structure Survey where
  instr : Nat := 0xFF
  challenge : Option (List Byte) := none
  challengeTb : Nat := 0
  level : Option Nat := none
  failures : Nat := 0
  /-- R550, R552: what Survey wrote, by space × 2^62 + address; the manual gives no address map. -/
  raw : Tbl (BitVec 64) := []
  /-- The data register shifted out (the model's own observation). -/
  tdo : List Byte := []
  deriving DecidableEq, Repr

/-- The keeper die's own state (R453 to R457, R547, R553). -/
structure Keeper where
  /-- R111: freeze latch. -/
  latch : List Freeze := []
  /-- R456, R353: freeze-latch and flush-state areas of the shadow copies. -/
  latchArea : List Freeze := []
  flushArea : Option FlushRec := none
  /-- R454: C_KH in µF. -/
  cKh : Nat := 800
  vddKeep : Nat := 1800
  ek : Nat := 8000
  stopped : Bool := false
  /-- R369, R456: last TB received and the final store's copy. -/
  lastTb : Nat := 0
  storedTb : Nat := 0
  /-- R369: ns that the keeper has counted since it received `lastTb`. -/
  since : Nat := 0
  tbKnown : Bool := false
  /-- R230: Summit working copy, SUMMIT_SEQ, non-volatile copies. -/
  summit : Vector (BitVec 56) 8 := Vector.replicate 8 0
  summitSeq : Nat := 0
  summitChanged : Bool := false
  /-- R230, R455: a Summit store of a checkpoint waits for the supply check. -/
  summitWaits : Bool := false
  nvA : Option (Nat × Vector (BitVec 56) 8) := none
  nvB : Option (Nat × Vector (BitVec 56) 8) := none
  /-- R53: the newest warm reset was requested by WARM_RESET, the management request. -/
  mgmtWarm : Bool := false
  /-- R547: RESET_INFO bits, TB and bit number of the newest event. -/
  resetInfo : BitVec 11 := 1
  resetTb : Nat := 0
  lastCause : Nat := 0
  /-- R14: the bits set at `resetTb`. -/
  resetNow : BitVec 11 := 1
  /-- R548: the RESET_INFO bit of the newest main-die reset. -/
  mainBit : Nat := 1
  /-- R548: keeper PORs, main-domain power-ups and main-die restarts since the last start of Synet. -/
  newPors : Nat := 1
  newPowerUps : Nat := 0
  newRestarts : Nat := 0
  /-- R549: life cycle, and how often the root key's derivation has changed. -/
  life : Life := .provision
  root : Nat := 0
  /-- R554: ALARM_OUT_N low, source, resets tried. -/
  alarmOut : Bool := false
  alarmSource : Nat := 0
  alarmDetector : Nat := 0
  alarmTries : Nat := 0
  /-- R205: draws of the random bit generator. -/
  rbg : Nat := 0
  deriving DecidableEq, Repr

/-- The device health (R43 to R47, R567). -/
structure Health where
  /-- R567: STATE, 7 is NOT_EVALUATED. -/
  st : Nat := 7
  conds : BitVec 12 := 0
  /-- R43: the conditions that held at the end of the last cycle, which the next evaluation sees. -/
  seen : BitVec 12 := 0
  seq : Nat := 0
  /-- R328: WRITE_SPENT holds until an adoption. -/
  spent : Bool := false
  lastSpare : Nat := 100
  /-- R410: reads recovered by threshold retry or deep recovery. -/
  recovered : Nat := 0
  deriving DecidableEq, Repr

/-! ### System parcels and maintenance work -/

/-- A journal parcel (R306): sequence number and records. -/
structure JParcel where
  jseq : Nat
  recs : List JRec
  deriving DecidableEq, Repr

/-- What a system parcel holds (R301): a journal parcel with the PPA of the tile that continues its lane (R306); a node
parcel's four nodes as they stand in their 64 bytes, with the companion lines of rolling leaves and the spare MAC (R221,
R222, R232); the entries of a map page, in the first of its 16 parcels, and the others (R307); a round's directory; the
records of two partitions of a minute (R382); two record places of an event-log area, and its overflow parcel (R69). -/
inductive SysBody where
  | journal (j : JParcel) (next : Nat)
  | tree (lines : List (BitVec 512)) (comps : Tbl Companion) (spare : BitVec 64)
  | page (region page : Nat) (img : MapImage)
  | pageRest
  | dir (round : Nat) (d : Tbl (Nat × Nat))
  | ledger (bank : MinuteBank)
  | log (recs : List EventRec)
  | logMeta (logs : List EventLog)
  deriving DecidableEq, Repr

/-- A system parcel on the medium (R301): its space, system LPN or LPI, the program count that is its MAJOR, WSEQ, the root
key under whose derivation the system slot sealed it (R207), and what it holds. -/
structure SysParcel where
  space : Nat
  lpn : Nat
  count : Nat
  wseq : BitVec 32
  root : Nat
  body : SysBody
  deriving DecidableEq, Repr

/-- What a location holds: a tenant's codeword, or a system parcel. -/
inductive Load where
  | word (w : Codeword)
  | sys (p : SysParcel)
  deriving DecidableEq, Repr

/-- A media channel (R284 to R291) with its planner state (R122 to R143) and thermal state (R515 to R520). -/
structure Chan where
  /-- R285. -/
  st : ChanSt := .absent
  /-- R286: 2 or 3; 0 before identity is read. -/
  gen : Nat := 0
  /-- R284: data rate in MT/s. -/
  rate : Nat := 0
  serial : BitVec 64 := 0
  /-- R286: DIES and TILES_PER_BANK of module identity. -/
  dies : Nat := 8
  tilesPerBank : Nat := 0
  /-- R288: dies out of service, bit d. -/
  diesOut : BitVec 8 := 0
  /-- R503: Rope has reported the module rails good. R284: bring-up has ended since main-die reset. -/
  railsGood : Bool := false
  brought : Bool := false
  /-- R326: the channel held data when it left service. -/
  heldData : Bool := false
  /-- R291: windows in succession whose re-send failed. -/
  crcRun : Nat := 0
  /-- R137: the plan in force. -/
  plan : Plan := {}
  /-- R138: the plan being built, and the plan published. -/
  building : Option Plan := none
  published : Option Plan := none
  /-- R566: the channel runs the template. -/
  template : Bool := false
  missRun : Nat := 0
  /-- R132, R135: host and maintenance transfers left in the stage. -/
  hostLeft : Nat := 0
  maintLeft : Nat := 0
  /-- R130: maintenance bank slots left in the stage for maintenance reads. -/
  slotsLeft : Nat := 0
  /-- R519: host programs started in the stage. -/
  progStarted : Nat := 0
  /-- R123: current window. -/
  window : Nat := 0
  /-- Banks, die × 16 + bank. -/
  banks : Tbl Bank := []
  /-- R178: write buffer. -/
  wbuf : List WbEntry := []
  /-- R278: deep-recovery entries in use (of 8). -/
  deepUsed : Nat := 0
  /-- R278: reads that wait for a deep-recovery entry. -/
  deepWait : List RdItem := []
  /-- R268, R321: drift sets 0 to 7 per die: die × 8 + set to seven offsets. -/
  driftSets : Tbl (List Int) := []
  /-- R321: TB of the last tuning of each die. -/
  tuned : Tbl Nat := []
  /-- R515: last good TEMP reply: highest and lowest die, 1/16 °C; stages since. -/
  tMax : Option Int := none
  tMin : Option Int := none
  /-- R320: the highest reading since the thermal clock last advanced. -/
  tSec : Option Int := none
  tempMissStages : Nat := 0
  tempMissing : Bool := false
  /-- R516, R519, R520. -/
  warn : Bool := false
  throttle : Bool := false
  fW : Nat := 1024
  outside : Bool := false
  /-- R320: thermal clock in 1/1,024 equivalent hour, times 2^20 for the fraction. -/
  clock : Nat := 0
  /-- R320: power-off time still to be added, at the rate of the first TEMP reading. -/
  offNs : Nat := 0
  /-- R287: the module's factory-bad tiles, as it listed them at bring-up. -/
  badTiles : List Nat := []
  /-- R315: the Drover sweeps the channel, from A below 4% until it is at 6%. -/
  sweeping : Bool := false
  /-- R325: initial and consumed spares of the module. -/
  spares : Nat := 0
  consumed : Nat := 0
  /-- R299: open host-log and maintenance tiles by bank: bank × 3 + role. -/
  openTiles : Tbl Nat := []
  /-- R306: the journal lanes 0 to 7: the open tile of each and the tile that continues it. -/
  lanes : Tbl (Nat × Nat) := []
  /-- R259: the modules' page buffers and output registers, by bank. -/
  pages : Tbl Load := []
  outs : Tbl Load := []
  /-- R264: the last broadcast frame that the channel sent. -/
  bframe : BitVec 60 := 0
  deriving DecidableEq, Repr

/-- A maintenance program asked for: what it is for, what it programs, its class, where, whether it waits for a location,
and whether it has passed verify. -/
structure MProg where
  work : MWork
  load : Load
  fast : Bool := true
  ppa : Nat := 0
  placed : Bool := false
  passed : Bool := false
  deriving DecidableEq, Repr

/-- A re-bale between its snapshot and its commit (R303), or a traverse's move of a bale (R243): the sources, the parcels
read so far (none: poison), the fresh segment's first PPA once it is programmed, and the parcels programmed. -/
structure RebaleJob where
  srcs : List Src
  fast : Bool
  read : Tbl (Option Load) := []
  dest : Option Nat := none
  words : Tbl Load := []
  traverse : Bool := false
  deriving DecidableEq, Repr

/-- A sweep between its victim's choice and its reset (R316): the source locations still to be copied, the destination of
each base segment by LBI, the copies made as (source PPA, destination PPA), and whether R142 asks for it. -/
structure SweepJob where
  todo : List Nat
  segs : Tbl Nat := []
  copies : List (Nat × Nat) := []
  forbidden : Bool := false
  deriving DecidableEq, Repr

/-- A checkpoint round (R307): its number, the map pages it writes, the JSEQ of its ROUND_BEGIN, the PPA at which each
lane resumed, the pages still to be written, and its directory. -/
structure Round where
  num : Nat
  image : MapImage := {}
  jseq : Nat := 0
  lanes : Tbl Nat := []
  todo : List Nat := []
  dir : Tbl (Nat × Nat) := []
  dirWritten : Bool := false
  /-- The directory that the round supersedes. -/
  prev : Nat × Nat := (0, 0)
  deriving DecidableEq, Repr

/-- The Waybill (R293 to R311). -/
structure Way where
  /-- R293 to R297: the map in HBM: overlay, bale map, sparse table, tile table and stamps; reset empty (R543). -/
  map : MapImage := {}
  /-- R297: sparse entries in use are bounded by 4,194,304; R302: peak overlay population of the minute. -/
  peakPop : Nat := 0
  /-- R296: overlay entries in the stash (of 256). -/
  stashUsed : Nat := 0
  /-- R302, R334: peak stash of the minute. -/
  peakStash : Nat := 0
  /-- R306: records in the journal tail not yet in a parcel. -/
  tail : List JRec := []
  /-- R306: journal parcels filled and not yet committed, in JSEQ order. -/
  parcels : List JParcel := []
  /-- R306: the next parcel's JSEQ, 64 bits. -/
  jseq : Nat := 0
  /-- R307: the round that is running, and one whose CHECKPOINT record is not yet committed. -/
  round : Option Round := none
  roundDone : Option Round := none
  /-- R307: the map pages of the last committed round, and its directory: the PPAs of both copies, by page. -/
  ckpt : MapImage := {}
  dir : Tbl (Nat × Nat) := []
  /-- R307: records since the previous round began. -/
  recsSinceRound : Nat := 0
  /-- R307: the JSEQ from which a recovery replays. -/
  jFrom : Nat := 0
  /-- R307: TB at which the last round began. -/
  roundTb : Nat := 0
  /-- Maintenance programs asked for and not yet part of a commit, oldest first. -/
  progs : List MProg := []
  /-- R301: the 64-bit program count of each system space, by space identity. It stands over every reset. -/
  counts : Tbl Nat := []
  /-- R310: map pages whose lookups are held, as region × 2^32 + page. -/
  heldPages : List Nat := []
  /-- R311: stripes in a two-page rebuild, as region × 2^32 + stripe. -/
  heldStripes : List Nat := []
  /-- R311: LPNs whose lookups wait on a hold, with the TB at which each began. -/
  heldLookups : Tbl Nat := []
  /-- R310: parcels whose poison mark waits for a hold. -/
  heldMarks : List Nat := []
  /-- R311: reads poisoned by the running rebuild. -/
  holdPoisoned : Nat := 0
  /-- R303: re-bales between snapshot and commit, by LBI; R316: sweeps under way, by tile. -/
  rebales : Tbl RebaleJob := []
  sweeps : Tbl SweepJob := []
  /-- R302: bales queued for re-bale or refresh. -/
  rebaleQ : List Nat := []
  /-- R302: overlay pressure, from 3/4 of the overlay until it is at or below 5/8. -/
  pressure : Bool := false
  /-- R318: the Drover settings in force. -/
  drover : DroverCfg := {}
  /-- R323: the running scrub pass: parcels read, when it began, when the next may begin, parcels corrected and refreshed. -/
  scrubbed : List Nat := []
  scrubTb : Nat := 0
  scrubNext : Nat := 0
  scrubCorrected : Nat := 0
  scrubRefreshed : Nat := 0
  /-- R319, R322: tiles queued for a refresh sweep, ahead of ordinary victims. -/
  refreshTiles : List Nat := []
  /-- R331: logical legs dropped whose DROP_LEG is not yet committed. -/
  dropping : List Nat := []
  /-- R85 step 4: dropped legs whose return to the free pool is not yet committed. -/
  freeing : List Nat := []
  deriving DecidableEq, Repr

/-- What the medium itself keeps through every power loss (R39): tenant parcels and system parcels by PPA. -/
structure Medium where
  /-- R260: stored codewords by PPA (R34); absent: nothing programmed since the last reset. -/
  cells : Tbl Codeword := []
  /-- R301: stored system parcels by PPA. -/
  sys : Tbl SysParcel := []
  /-- R142: parcels that a flush programmed while their channel was write-forbidden, still to be moved. -/
  forbidden : List Nat := []
  /-- R62, R236: the LDs' poison lists as the last main-die reset found them, by LD. -/
  poison : Tbl (List PoisonEnt) := []
  deriving DecidableEq, Repr

/-- The MCTP endpoint (R393): its endpoint ID, and its answer to the last control message (the model's own observation). -/
structure MctpEp where
  eid : Nat := 0
  reply : List Byte := []
  deriving DecidableEq, Repr

/-- The whole machine. -/
structure State where
  /-- The commands that wait, first in, first out. -/
  pending : List Instr := []
  /-- R543: the main die runs (Rope ON and main-die reset released). -/
  mainUp : Bool := false
  health : Health := {}
  ports : Ports := {}
  gate : Gate := {}
  planner : Planner := {}
  chans : Tbl Chan := []
  cache : Cache := {}
  sealCtl : Seal := {}
  tree : TreeMedium := {}
  travs : Tbl Trav := []
  way : Way := {}
  medium : Medium := {}
  belay : Belay := {}
  reck : Reck := {}
  mctp : Mailbox := {}
  ep : MctpEp := {}
  sad : Saddle := {}
  cairn : Cairn := {}
  relay : Relay := {}
  rope : Rope := {}
  therm : Thermal := {}
  boot : Boot := {}
  survey : Survey := {}
  keeper : Keeper := {}
  /-- The model's own counter of free values drawn. -/
  freeCtr : Nat := 0
  /-- R25: TIME_REF present. -/
  timeRef : Bool := true
  deriving DecidableEq, Repr

/-- Why the machine stops with a fault. No rule of the manual stops the block, so none is raised. -/
inductive Fault where
  /-- Raised by nothing: kept so that the outcome type has a closed reason. Safe. -/
  | none
  deriving DecidableEq, Repr

/-- Why a command has no meaning. -/
inductive Refusal where
  /-- Raised by a row's arm that has no meaning yet. Safe. -/
  | notModelled (mnemonic : String)
  deriving DecidableEq, Repr

/-- The machine right after reset: a keeper POR of a part as shipped (R543, R590). -/
def State.reset : State := {}

end Sys2Proof.Machine
end

