-- ==== Sys2Proof/Machine/Tbl.lean ====
section
/-! DEFINITION. The operations on sparse tables: keys strictly rising, an absent key holds the reset content. -/

namespace Sys2Proof.Machine

variable {α : Type}

/-- The entry of a key. -/
def tget : Tbl α → Nat → Option α
  | [], _ => none
  | (k', v) :: t, k => if k = k' then some v else tget t k

/-- The entry of a key, or the reset content. -/
def tgetD (t : Tbl α) (k : Nat) (d : α) : α := (tget t k).getD d

/-- Write a key's entry, keeping the keys rising. -/
def tset : Tbl α → Nat → α → Tbl α
  | [], k, v => [(k, v)]
  | (k', v') :: t, k, v =>
    if k < k' then (k, v) :: (k', v') :: t else if k = k' then (k, v) :: t else (k', v') :: tset t k v

/-- Remove a key. -/
def tdel (t : Tbl α) (k : Nat) : Tbl α := t.filter (fun p => p.1 != k)

/-- Change a key's entry. -/
def tmod (t : Tbl α) (k : Nat) (d : α) (f : α → α) : Tbl α := tset t k (f (tgetD t k d))

/-- Change every entry. -/
def tmap {β : Type} (t : Tbl α) (f : Nat → α → β) : Tbl β := t.map (fun p => (p.1, f p.1 p.2))

/-- The keys. -/
def tkeys (t : Tbl α) : List Nat := t.map (·.1)

/-- Whether a key is present. -/
def thas (t : Tbl α) (k : Nat) : Bool := (tget t k).isSome

/-- The table's form: keys strictly rising. -/
def tsorted (t : Tbl α) : Bool := decide ((tkeys t).Pairwise (· < ·))

/-- Add to a count. -/
def tadd (t : Tbl Nat) (k n : Nat) : Tbl Nat := if n = 0 then t else tmod t k 0 (· + n)

/-- Raise a count to at least n. -/
def tmax (t : Tbl Nat) (k n : Nat) : Tbl Nat := tmod t k 0 (Nat.max n)

/-- The sum of a list. -/
def sumN (l : List Nat) : Nat := l.foldl (· + ·) 0

/-- The greatest element, 0 for none. -/
def maxN (l : List Nat) : Nat := l.foldl Nat.max 0

/-- Saturate at a bound. -/
def sat (b n : Nat) : Nat := if n ≤ b then n else b

/-- Clamp an integer. -/
def clampI (lo hi x : Int) : Int := if x < lo then lo else if hi < x then hi else x

/-- A 32-bit parameter. -/
def p32 (n : Nat) : Nat := n % 4294967296

/-- An integer's 32-bit two's complement. -/
def i32 (x : Int) : Nat := (x % 4294967296).toNat

end Sys2Proof.Machine
end

