-- ==== Sys2Proof/Machine/Operands.lean ====
section
/-! DEFINITION. Operand forms: little-endian payload fields (R393), CRC-32C, addresses (R33, R34, R96, R159, R160),
master identifiers (R108), record keys (R459) and the bucket hashes (R296). -/

namespace Sys2Proof.Machine

/-- Put a value into an ordered list, before the first entry that does not precede it. -/
def insertBy {α : Type} (le : α → α → Bool) (x : α) : List α → List α
  | [] => [x]
  | y :: l => if le x y then x :: y :: l else y :: insertBy le x l

/-- A list in order; equal entries keep theirs. -/
def sortBy {α : Type} (le : α → α → Bool) (l : List α) : List α := l.foldr (insertBy le) []

/-- The little-endian value of a byte list. -/
def leVal : List Byte → Nat
  | [] => 0
  | b :: l => b.toNat + 256 * leVal l

/-- The n bytes of a payload at an offset; a byte past its end is absent. -/
def bytesAt (l : List Byte) (off n : Nat) : List Byte := (l.drop off).take n

/-- The little-endian field of n bytes at an offset. -/
def fld (l : List Byte) (off n : Nat) : Nat := leVal (bytesAt l off n)

/-- The little-endian bytes of a value. -/
def toLe : Nat → Nat → List Byte
  | 0, _ => []
  | n + 1, v => BitVec.ofNat 8 v :: toLe n (v / 256)

/-- n zero bytes. -/
def zeros (n : Nat) : List Byte := List.replicate n 0

/-- A byte list cut or padded with zeros to n bytes. -/
def padTo (n : Nat) (l : List Byte) : List Byte := (l ++ zeros (n - l.length)).take n

/-- Whether a byte range of a payload is all zeros. -/
def allZero (l : List Byte) (off n : Nat) : Bool := (bytesAt l off n).all (· == 0)

/-- The offset of the first non-zero byte in a range. -/
def firstNonZero (l : List Byte) (off n : Nat) : Nat := off + ((bytesAt l off n).findIdx (· != 0))

/-- Write bytes at an offset of a buffer. -/
def patch (l : List Byte) (off : Nat) (b : List Byte) : List Byte :=
  l.take off ++ zeros (off - l.length) ++ b ++ l.drop (off + b.length)

/-! ### CRC-32C -/

/-- One bit of CRC-32C in reflected form. -/
def crcBit (c : Nat) : Nat := if c % 2 = 1 then (c / 2) ^^^ 0x82F63B78 else c / 2

/-- One byte of CRC-32C. -/
def crcByte (c : Nat) (b : Nat) : Nat :=
  crcBit (crcBit (crcBit (crcBit (crcBit (crcBit (crcBit (crcBit (c ^^^ b))))))))

/-- CRC-32C of a byte list from an initial value. -/
def crcFrom (init : Nat) (l : List Nat) : Nat := (l.foldl crcByte init) ^^^ 0xFFFFFFFF

/-- CRC-32C. -/
def crc32c (l : List Byte) : Nat := crcFrom 0xFFFFFFFF (l.map BitVec.toNat)

/-- The five little-endian bytes of an LPN. -/
def lpn5 (n : Nat) : List Nat := [n % 256, n / 256 % 256, n / 65536 % 256, n / 16777216 % 256, n / 4294967296 % 256]

/-- R296: the first bucket of a key. -/
def bucket0 (k : Nat) : Nat := crcFrom 0xFFFFFFFF (lpn5 k) % 268435456

/-- R296: the second bucket of a key. -/
def bucket1 (k : Nat) : Nat := bucket0 k ^^^ ((crcFrom 0x5A5A5A5A (lpn5 k) % 268435456) ||| 0x40)

/-! ### Addresses -/

/-- R108: the master identifier of an LD; 16 is the FM-owned LD. -/
def ldMaster (port ld : Nat) : Nat := 0x10000000 + port * 256 + ld
/-- R108: a Coffer page. -/
def cofMaster (port ld : Nat) : Nat := 0x20000000 + port * 256 + ld
/-- R108: a port. -/
def portMaster (port : Nat) : Nat := 0x30000000 + port * 256
/-- R108: the Survey master. -/
def surveyMaster : Nat := 0x40000000
/-- R108: an Outpost core. -/
def coreMaster (core : Nat) : Nat := 0x50000000 + core % 4
/-- R108: the MCTP management path. -/
def mctpMaster : Nat := 0x60000000

/-- R111, R459: the place of a master in the FREEZE records: 64 masters to a record. -/
def freezeSlot (m : Nat) : Nat :=
  let p := m / 256 % 32
  let i := m % 32
  match m / 268435456 with
  | 1 => if i < 16 then p * 16 + i else 1057
  | 2 => if i < 16 then 512 + p * 16 + i else 1058
  | 3 => 1024 + p
  | 4 => 1056
  | _ => 1059 + m % 4

/-- R459: the masters that a FREEZE record covers; `fm` is the port of the FM-owned LD. -/
def slotMaster (fm n : Nat) : Option Nat :=
  if n < 512 then some (ldMaster (n / 16) (n % 16)) else if n < 1024 then some (cofMaster ((n - 512) / 16) (n % 16))
  else if n < 1056 then some (portMaster (n - 1024)) else if n = 1056 then some surveyMaster
  else if n = 1058 then some (cofMaster fm 16) else none

/-- R459: the key of a record. -/
def rk (typ inst : Nat) : Nat := typ * 65536 + inst

/-- The key of an LD: port × 17 + LD-ID, the FM-owned LD being 16. -/
def ldKey (port ld : Nat) : Nat := port * 17 + ld
/-- R459: the LD_MAP instance of an LD key; 512 is the FM-owned LD. -/
def ldInst (k : Nat) : Nat := if k % 17 = 16 then 512 else k / 17 * 16 + k % 17

/-- R33, R83: the logical leg of a partition's position. -/
def legAt (runs : Tbl LegRun) (part pos : Nat) : Option Nat :=
  match runs with
  | [] => none
  | (_, r) :: t =>
    if r.part = part ∧ r.pos ≤ pos ∧ pos < r.pos + r.count then some (r.leg + (pos - r.pos)) else legAt t part pos

/-- The partition and position that hold a logical leg. -/
def posOfLeg (runs : Tbl LegRun) (leg : Nat) : Option (Nat × Nat) :=
  match runs with
  | [] => none
  | (_, r) :: t =>
    if r.part ≠ 0xFFFF ∧ r.leg ≤ leg ∧ leg < r.leg + r.count then some (r.part, r.pos + (leg - r.leg))
    else posOfLeg t leg

/-- The positions that a partition holds, by ascending run, with their logical legs. -/
def positionsOf (runs : Tbl LegRun) (part : Nat) : List (Nat × Nat) :=
  (runs.filter (fun p => p.2.part = part)).flatMap (fun p => (List.range p.2.count).map (fun i => (p.2.pos + i, p.2.leg + i)))

/-- R87, R95: the position that a DPA leg maps to. -/
def rangePos (rs : List Range) (dpaLeg : Nat) : Option Nat :=
  match rs with
  | [] => none
  | r :: t => if r.dpaLeg ≤ dpaLeg ∧ dpaLeg < r.dpaLeg + r.count then some (r.pos + (dpaLeg - r.dpaLeg)) else rangePos t dpaLeg

/-- The DPA leg of an LD that maps a position. -/
def rangeDpa (rs : List Range) (pos : Nat) : Option Nat :=
  match rs with
  | [] => none
  | r :: t => if r.pos ≤ pos ∧ pos < r.pos + r.count then some (r.dpaLeg + (pos - r.pos)) else rangeDpa t pos

/-- Bytes of a leg. -/
def gib : Nat := 1073741824

/-- R33, R159: the LPN of an offset within a logical leg. -/
def lpnOf (leg off : Nat) : Nat := leg * 4194304 + off % gib / 256
/-- The logical leg of an LPN. -/
def lpnLeg (lpn : Nat) : Nat := lpn / 4194304
/-- The LBI of an LPN (R159). -/
def lpnLbi (lpn : Nat) : Nat := lpn / 256
/-- R33: the sector index. -/
def sectorOf (off : Nat) : Nat := off % 256 / 64

/-- R160: the hashed slice. -/
def hashSlice (l : Nat) : Nat := (l % 16) ^^^ (l / 4096 % 16) ^^^ (l / 16777216 % 16) ^^^ (l / 68719476736 % 8)
/-- R160: the set. -/
def setOf (l : Nat) : Nat := (l / 16 % 2048) ^^^ (l / 32768 % 2048) ^^^ (l / 67108864 % 2048)

/-- The online slices, ascending. -/
def onlineSlices (o : BitVec 16) : List Nat := (List.range 16).filter (fun i => o.getLsbD i)

/-- R202: the slice that serves an LPN. -/
def sliceOf (o : BitVec 16) (l : Nat) : Nat :=
  if o.getLsbD (hashSlice l) then hashSlice l
  else (onlineSlices o).getD (setOf l % (onlineSlices o).length) (hashSlice l)

/-- R34: a PPA from its fields; `bank` is die × 16 + bank. -/
def ppaMk (ch bank tile parcel : Nat) : Nat := ch * 17179869184 + bank * 134217728 + tile * 16384 + parcel
/-- R34. -/
def ppaCh (p : Nat) : Nat := p / 17179869184 % 32
/-- R34: die × 16 + bank. -/
def ppaBank (p : Nat) : Nat := p / 134217728 % 128
/-- R34. -/
def ppaDie (p : Nat) : Nat := p / 2147483648 % 8
/-- R34. -/
def ppaTile (p : Nat) : Nat := p / 16384 % 8192
/-- R34. -/
def ppaParcel (p : Nat) : Nat := p % 16384
/-- The key of a tile: its PPA without PARCEL. -/
def tileKey (p : Nat) : Nat := p / 16384
/-- The key of a tile from its place. -/
def tileMk (ch bank tile : Nat) : Nat := ch * 1048576 + bank * 8192 + tile
/-- The channel of a tile key. -/
def tileCh (t : Nat) : Nat := t / 1048576
/-- The bank of a tile key. -/
def tileBank (t : Nat) : Nat := t / 8192 % 128

/-- R293: the PPA of a parcel of a bale's base segment. -/
def basePpa (b : Bale) (i : Nat) : Nat := ppaMk b.ch (b.die * 16 + b.bank) b.tile (b.seg * 256 + i)

/-- The four sectors of a parcel as 2,048 bits, sector 0 lowest (R158). -/
def parcelBits (d : Parcel) : BitVec 2048 :=
  (d[3] ++ d[2] ++ d[1] ++ d[0] : BitVec 2048)
/-- The inverse of `parcelBits`. -/
def bitsParcel (x : BitVec 2048) : Parcel :=
  #v[x.extractLsb' 0 512, x.extractLsb' 512 512, x.extractLsb' 1024 512, x.extractLsb' 1536 512]

/-- The bits of a byte-enable mask spread over a sector (R172). -/
def beMask (be : BitVec 64) : Sector :=
  (List.range 64).foldl (fun (m : Sector) i => if be.getLsbD i then m ||| ((0xFF : Sector) <<< (8 * i)) else m) 0

/-- R172: merge the enabled bytes into a sector. -/
def mergeBytes (old new : Sector) (be : BitVec 64) : Sector := (old &&& ~~~(beMask be)) ||| (new &&& beMask be)

/-- The number of set bits. -/
def popcount {w : Nat} (x : BitVec w) : Nat := ((List.range w).filter (fun i => x.getLsbD i)).length

/-- The number of set bits of a bitmap held as a number of at most 1,024 bits. -/
def popNat (n : Nat) : Nat := ((List.range 1024).filter (fun i => n.testBit i)).length

/-- One bit of a word. -/
def bit1 {w : Nat} (i : Nat) : BitVec w := BitVec.ofNat w (2 ^ i)

/-- R388: the histogram bin of a latency. -/
def latBin (l : Nat) : Nat :=
  if l < 8 then l else min 63 (8 + 4 * (Nat.log2 l - 3) + l / 2 ^ (Nat.log2 l - 2) % 4)

/-- R475: the first bin whose upper bound the sample is below. -/
def binOf (bounds : List Int) (x : Int) : Nat := bounds.findIdx (fun b => x < b)

end Sys2Proof.Machine
end

