-- ==== Sys2Proof/Machine/Flags.lean ====
section
/-! DEFINITION. What the device computes from its state: channel service (R285), write windows (R520), free tiles
and spares (R312, R325), dirty counts and limits (R183), health conditions and state (R43, R413), freezes in force
(R113), throttling (R375) and the lines of the cache (R162). -/

namespace Sys2Proof.Machine

/-- A channel of the state. -/
def chan (s : State) (c : Nat) : Chan := tgetD s.chans c {}
/-- A bank of a channel. -/
def bankOf (x : Chan) (b : Nat) : Bank := tgetD x.banks b {}
/-- A port. -/
def port (s : State) (p : Nat) : Port := tgetD s.ports.ports p {}
/-- An LD by key. -/
def ldAt (s : State) (k : Nat) : Ld := tgetD s.ports.lds k {}
/-- TB (R361). -/
def tbNow (s : State) : Nat := s.reck.tb
/-- Whether a key of 32 channels or ports is in range. -/
def ids32 : List Nat := List.range 32

/-- R285: a channel that serves. -/
def inService (x : Chan) : Bool := x.st == .active || x.st == .reduced
/-- The channels in service, ascending. -/
def serving (s : State) : List Nat := ids32.filter (fun c => inService (chan s c))
/-- R515, R520: a channel handled as write-forbidden. -/
def forbidden (x : Chan) : Bool := x.outside || x.tempMissing
/-- The write-forbidden channels among those in service. -/
def forbiddenSet (s : State) : List Nat := (serving s).filter (fun c => forbidden (chan s c))
/-- A list of channel numbers as a bitmap. -/
def bitmapOf (l : List Nat) : Nat := l.foldl (fun m c => m ||| 2 ^ c) 0

/-- R129: transfers per stage. -/
def transfers (x : Chan) : Nat := if x.st = .active ∧ x.gen = 3 then 240 else 160
/-- R130: maintenance transfers per stage at a share. -/
def maintTransfers (x : Chan) (k : Nat) : Nat := transfers x * k / 16
/-- R132: host transfers scaled by f_h (in 1/1,024). -/
def hEff (x : Chan) (k fh : Nat) : Nat := (transfers x - maintTransfers x k) * fh / 1024

/-- R312: tiles of a channel that its table entry shows as not FREE. -/
def notFree (s : State) (c : Nat) : Nat :=
  (s.way.map.tiles.filter (fun p => tileCh p.1 = c ∧ p.2.st ≠ .free)).length
/-- R129: the banks of a channel, of the dies that module identity reports. -/
def chanBanks (x : Chan) : Nat := 16 * x.dies
/-- The dies of a channel in service. -/
def diesIn (x : Chan) : Nat := x.dies - popcount x.diesOut
/-- R315: FREE tiles of a channel. -/
def freeTiles (s : State) (c : Nat) : Nat :=
  if inService (chan s c) then diesIn (chan s c) * 16 * (chan s c).tilesPerBank - notFree s c else 0
/-- R328: FREE tiles of the device. -/
def freeAll (s : State) : Nat := sumN (ids32.map (freeTiles s))
/-- R315: the write reserve. -/
def writeReserve (s : State) : Nat := 512 * (serving s).length
/-- R325: initial spares of the modules in service. -/
def sparesInit (s : State) : Nat := sumN ((serving s).map (fun c => (chan s c).spares))
/-- R325: consumed spares of the modules in service. -/
def sparesUsed (s : State) : Nat := sumN ((serving s).map (fun c => (chan s c).consumed))
/-- R325: spare remaining in percent, rounded down. -/
def sparePct (s : State) : Nat := if sparesInit s = 0 then 100 else 100 * (sparesInit s - sparesUsed s) / sparesInit s
/-- R325: whether spare remaining is at or below a percentage. -/
def spareAtMost (s : State) (n : Nat) : Bool :=
  sparesInit s ≠ 0 && decide (100 * (sparesInit s - sparesUsed s) ≤ n * sparesInit s)
/-- R325: Life Used. -/
def lifeUsed (s : State) : Nat :=
  let t := sumN ((serving s).map (fun c => 128 * (chan s c).tilesPerBank))
  let w := sumN (s.way.map.tiles.map (fun p => p.2.wear))
  min 100 (max (if sparesInit s = 0 then 0 else 100 * sparesUsed s / sparesInit s)
    (if t = 0 then 0 else 100 * w / (t * 3000000)))

/-! ### Cache views -/

/-- The key of a way: slice × 32,768 + set × 16 + way. -/
def wayKey (sl st w : Nat) : Nat := sl * 32768 + st * 16 + w
/-- A line. -/
def lineAt (s : State) (k : Nat) : Line := tgetD s.cache.lines k {}
/-- The slice that serves an LPN now. -/
def sliceNow (s : State) (lpn : Nat) : Nat := sliceOf s.cache.online lpn
/-- The ways of an LPN's set in the slice that serves it. -/
def setWays (s : State) (lpn : Nat) : List Nat := (List.range 16).map (wayKey (sliceNow s lpn) (setOf lpn))
/-- R161: the one way of the whole cache that holds an LPN's line. DESIGN CHOICE: a line placed under an earlier number of online
slices stays where it is (log 85). -/
def findWay (s : State) (lpn : Nat) : Option Nat :=
  (s.cache.lines.find? (fun p => p.2.st ≠ .invalid ∧ p.2.lpn = lpn)).map (·.1)
/-- R183, R194: a line that counts against DIRTY_LIMIT; a dropped line's share is free at once. -/
def lineCounts (l : Line) : Bool := !l.dropOnFill && (l.st == .dirty || l.st == .evicting || (l.st == .filling && l.dirty != 0))
/-- R178: every pending-eviction entry, with its LPN. -/
def pendAll (s : State) : List (Nat × PendEv) := s.cache.pend ++ s.cache.pendOld
/-- R178: whether an LPN has a pending eviction. -/
def pending (s : State) (lpn : Nat) : Bool := (pendAll s).any (fun p => p.1 == lpn)
/-- R183: a pending eviction whose program has not yet passed verify. -/
def pendOpen (s : State) (p : Nat × PendEv) : Bool :=
  (chan s p.2.ch).wbuf.any (fun w => w.lpn == p.1 && w.ppa == p.2.ppa && !w.passed && !w.dropped)
/-- R183: the dirty count; a parcel counts once. -/
def dirtyCount (s : State) : Nat :=
  let ls := (s.cache.lines.filter (fun p => lineCounts p.2)).map (fun p => p.2.lpn)
  ls.length + (((pendAll s).filter (fun p => !ls.contains p.1 && pendOpen s p)).map (·.1)).eraseDups.length
/-- R183, R343: DIRTY_LIMIT in lines: s × 96 MiB ÷ 256 B is s × 384 for s in 1/1,024. -/
def dirtyLimit (s : State) : Nat :=
  if s.belay.through then 0 else min (s.belay.s * 384) ((onlineSlices s.cache.online).length * 24576)
/-- R343: the counter dirty budget in 64 B nodes. -/
def counterBudget (s : State) : Nat := max 65536 (s.belay.s * 1024)
/-- R335: dirty counter-cache nodes and companion lines, in 64 B units. -/
def counterDirty (s : State) : Nat :=
  (s.sealCtl.leaves.filter (fun p => p.2.dirty)).length + (s.sealCtl.nodes.filter (fun p => p.2.dirty)).length +
    2 * s.sealCtl.companions.length
/-- R343: the journal tail budget in 16 B records. -/
def journalBudget (s : State) : Nat := max 65536 (s.belay.s * 512)
/-- R306, R344: records that wait in the tail or in parcels not committed. -/
def tailRecords (s : State) : Nat := s.way.tail.length + sumN (s.way.parcels.map (fun p => p.recs.length))

/-! ### Health -/

/-- R413: the condition bits. -/
def condBits (s : State) : BitVec 12 :=
  let b := fun (i : Nat) (c : Bool) => if c then (bit1 i : BitVec 12) else 0
  b 0 (s.cache.online ≠ BitVec.allOnes 16) ||| b 1 (spareAtMost s 10) ||| b 2 (s.reck.st == .refLost) |||
  b 3 (s.reck.st == .holdover) ||| b 4 (ids32.any (fun c => (chan s c).heldData && !inService (chan s c))) |||
  b 5 (!s.way.heldPages.isEmpty || !s.way.heldStripes.isEmpty) |||
  b 6 (match s.cairn.resetTb with | none => false | some t => decide (tbNow s < t + 3600000000000)) |||
  b 7 s.belay.through ||| b 8 (!(serving s).isEmpty && (serving s).all (fun c => forbidden (chan s c))) |||
  b 9 s.health.spent ||| b 10 (s.boot.running && s.boot.pairing ≠ 7) ||| b 11 (!s.boot.running && s.boot.cause ≠ 0)

/-- R43, R44: the highest-priority state whose condition holds. -/
def stateOf (c : BitVec 12) : Nat :=
  if c.getLsbD 11 then 6 else if c.getLsbD 10 then 5 else if c.getLsbD 9 then 4 else if c.getLsbD 8 then 3
  else if c.getLsbD 7 then 2 else if c &&& 0x7F ≠ 0 then 1 else 0

/-- R423, R592: recall or recovery in progress, or no health state yet. -/
def recalling (s : State) : Bool := s.sad.recalling || (s.boot.recovering && !s.sealCtl.zeroed) || s.health.st == 7
/-- R375, R563: throttled. -/
def throttled (s : State) : Bool :=
  decide (s.therm.fH < 1024) || (serving s).any (fun c => decide ((chan s c).fW < 1024) || forbidden (chan s c))

/-! ### Masters -/

/-- Whether a master's flag is set (R106). -/
def isFrozen (s : State) (m : Nat) : Bool := s.gate.freezes.any (fun f => f.master = m)
/-- R114: a Coffer page is frozen by its own flag or with its LD. -/
def cofFrozen (s : State) (p l : Nat) : Bool := isFrozen s (cofMaster p l) || isFrozen s (ldMaster p l) || isFrozen s (portMaster p)
/-- R58: the port runs as MLD. -/
def isMld (x : Port) : Bool := x.ent.mld && x.cxl ≠ 0x11
/-- R55: the management LD's key, while its port is up. -/
def mgmtKey (s : State) : Option Nat :=
  match s.ports.mgmt with
  | none => none
  | some p => if (port s p).up then some (ldKey p (if isMld (port s p) then 16 else 0)) else none
/-- The management LD as a list of event targets. -/
def mgmtLds (s : State) : List Nat := (mgmtKey s).toList
/-- R55, R87: an LD that acts as a TENANT now; the management LD maps no tenant partition, whatever its record holds. -/
def tenantLd (s : State) (k : Nat) : Bool := (ldAt s k).map.typ == .tenant && mgmtKey s != some k
/-- R55, R565: the type of an LD: the LD that R55 makes the management LD is MANAGEMENT whatever its record holds. -/
def typeNow (s : State) (k : Nat) (m : LdMap) : LdType := if mgmtKey s = some k then .management else m.typ
/-- R113, R114: an LD is frozen by its own flag or its port's; the management LD never is. -/
def ldFrozen (s : State) (p l : Nat) : Bool := tenantLd s (ldKey p l) && (isFrozen s (ldMaster p l) || isFrozen s (portMaster p))
/-- The tenant LDs. -/
def tenantLds (s : State) : List Nat := (tkeys s.ports.lds).filter (tenantLd s)
/-- The tenant LDs that map a partition. -/
def ldsOfPart (s : State) (part : Nat) : List Nat :=
  (tkeys s.ports.lds).filter (fun k => tenantLd s k && (ldAt s k).map.part == part)
/-- R53: whether an LD-ID is configured on a port. -/
def ldConfigured (s : State) (p l : Nat) : Bool :=
  if l = 16 then isMld (port s p) && s.ports.mgmt == some p
  else decide (l < (if isMld (port s p) then (port s p).ent.ldCount else 1))
/-- Whether the keeper's store may start (R455). -/
def storeAllowed (s : State) : Bool := decide (1620 ≤ s.keeper.vddKeep) && decide (5000 ≤ s.keeper.ek) && !s.keeper.stopped
/-- A partition's record. -/
def partRec (s : State) (p : Nat) : Option PartRec := tget s.sad.img.parts p
/-- The positions a partition holds. -/
def positions (s : State) (p : Nat) : List (Nat × Nat) := positionsOf s.sad.img.runs p
/-- The partition that owns an LPN's leg. -/
def partOfLpn (s : State) (lpn : Nat) : Option Nat := (posOfLeg s.sad.img.runs (lpnLeg lpn)).map (·.1)
/-- The partition offset of an LPN in its partition (R96). -/
def offsetOfLpn (s : State) (lpn : Nat) : Nat :=
  match posOfLeg s.sad.img.runs (lpnLeg lpn) with
  | none => 0
  | some (_, pos) => pos * gib + lpn % 4194304 * 256
/-- R62: the LDs that map an LPN with the DPA of its first byte. -/
def dpasOfLpn (s : State) (lpn : Nat) : List (Nat × Nat) :=
  match posOfLeg s.sad.img.runs (lpnLeg lpn) with
  | none => []
  | some (part, pos) => (ldsOfPart s part).filterMap (fun k =>
      (rangeDpa (ldAt s k).map.ranges pos).map (fun d => (k, d * gib + lpn % 4194304 * 256)))

end Sys2Proof.Machine
end

