-- ==== Sys2Proof/Machine/Ops.lean ====
section
/-! DEFINITION. The shared operations: updates of one channel, bank, port or LD; Cairn records and Relay items
(R471 to R487); per-period counts (R591); events (R68, R481); Saddlebag changes (R462); freezes (R106 to R112);
the meters (R370 to R377); responses and tags (R71 to R76); the firmware flash as byte memory (R526). -/

namespace Sys2Proof.Machine

/-- The outcome of a command. -/
abbrev Out := Host.Outcome State Fault Refusal

/-- Main-die events act only while the main die runs (R543). -/
def whenMain (f : State → State) (s : State) : State := if s.mainUp then f s else s

/-- The keeper's time: the last TB received and its own count since (R369). -/
def keeperNow (s : State) : Nat := s.keeper.lastTb + s.keeper.since
/-- The time now: TB, or the keeper's while the main die is off (R369). -/
def nowTb (s : State) : Nat := if s.mainUp then tbNow s else keeperNow s

/-- Change one channel. -/
def modChan (c : Nat) (f : Chan → Chan) (s : State) : State := { s with chans := tmod s.chans c {} f }
/-- Change one bank. -/
def modBank (c b : Nat) (f : Bank → Bank) (s : State) : State :=
  modChan c (fun x => { x with banks := tmod x.banks b {} f }) s
/-- Change one port. -/
def modPort (p : Nat) (f : Port → Port) (s : State) : State :=
  { s with ports := { s.ports with ports := tmod s.ports.ports p {} f } }
/-- Change one LD. -/
def modLd (k : Nat) (f : Ld → Ld) (s : State) : State :=
  { s with ports := { s.ports with lds := tmod s.ports.lds k {} f } }
/-- Change one tile entry. -/
def modTile (t : Nat) (f : Tile → Tile) (s : State) : State :=
  { s with way := { s.way with map := { s.way.map with tiles := tmod s.way.map.tiles t {} f } } }
/-- Change one line. -/
def modLine (k : Nat) (f : Line → Line) (s : State) : State :=
  { s with cache := { s.cache with lines := tmod s.cache.lines k {} f } }
/-- Apply an operation for each element of a list, in order. -/
def forAll {α : Type} (l : List α) (f : α → State → State) (s : State) : State := l.foldl (fun t a => f a t) s

/-! ### Cairn records and Relay items -/

/-- R480: the queue of a code's producer; none where the keeper or Synet writes to the staging buffer itself. -/
def queueOf (code inst : Nat) : Option Nat :=
  match code / 256 with
  | 1 => some 0 | 2 => some 0 | 0x0E => some 1 | 3 => some 2 | 4 => some 2 | 5 => some 3 | 6 => some 4 | 7 => some 4
  | 0x0A => some (if inst < 16 then 5 else 6) | 8 => some 7 | 9 => some 7 | 0x0B => some 7 | 0x0F => some 8
  | 0x14 => some 8 | _ => none

/-- R472: a record arrives at the staging buffer, or is dropped and counted. -/
def stagePut (r : CairnRec) (c : Cairn) : Cairn :=
  if c.staging.length < 256 then { c with staging := c.staging ++ [r] }
  else { c with dropCount := c.dropCount + 1, dropFirst := if c.dropCount = 0 then r.code else c.dropFirst }

/-- R482: the banks swap. -/
def swapBanks (x : RelayQ) : RelayQ := { fill := [], drain := x.fill, gap := false, fillBank := !x.fillBank }

/-- R482: a full fill bank swaps when the drain bank is empty. -/
def swapIfFull (x : RelayQ) : RelayQ := if x.drain.isEmpty ∧ 63 ≤ x.fill.length then swapBanks x else x

/-- R483: the GAP marker in entry 63. -/
def gapMarker (q : Nat) (r : CairnRec) : CairnRec :=
  { code := 0x1201, inst := q, ts := r.ts, p1 := 1, p2 := if r.flags / 16 % 2 = 1 then 1 else 0, p3 := r.code }

/-- R483: a further drop counts in the marker. -/
def gapCount (r g : CairnRec) : CairnRec :=
  { g with p1 := g.p1 + 1, p2 := g.p2 + (if r.flags / 16 % 2 = 1 then 1 else 0) }

/-- R482, R483: an item enters a queue's fill bank, or is dropped and counted. -/
def queuePut (q : Nat) (r : CairnRec) (x : RelayQ) : RelayQ :=
  if x.gap then { x with fill := x.fill.dropLast ++ (x.fill.drop 63).map (gapCount r) }
  else if x.fill.length < 63 then swapIfFull { x with fill := x.fill ++ [r] }
  else { x with fill := x.fill ++ [gapMarker q r], gap := true }

/-- R483, R485: whether an item offered to a queue is dropped. -/
def queueDrops (x : RelayQ) : Bool := x.gap || decide (63 ≤ x.fill.length)

/-- R482 to R485: an item is produced into a queue; a dropped notice is kept for reconciliation. -/
def relayPut (q : Nat) (r : CairnRec) (rel : Relay) : Relay :=
  { rel with
    queues := tmod rel.queues q {} (queuePut q r)
    lostNotices := if queueDrops (tgetD rel.queues q {}) ∧ r.flags / 16 % 2 = 1
      then tmod rel.lostNotices q [] (· ++ [r]) else rel.lostNotices }

/-- R471: a record of a code at this moment. With the main die off it carries KEEPER and ESTIMATED (R369). -/
def mkRec (s : State) (code inst a b c d : Nat) (notice : Bool) : CairnRec :=
  { code := code, inst := inst
    flags := (Config.severity code).toNat + (if s.mainUp then 0 else 12) + (if notice then 16 else 0)
    boot := s.sad.img.boot.boots
    ts := if s.mainUp then tbNow s else if s.keeper.tbKnown then s.keeper.lastTb + s.keeper.since else 0
    p1 := p32 a, p2 := p32 b, p3 := p32 c, p4 := p32 d }

/-- A record goes to Cairn: through the producer's Relay queue, with BOOT zero there (R481), or to staging. -/
def emitN (notice : Bool) (code inst a b c d : Nat) (s : State) : State :=
  match (if s.mainUp then queueOf code inst else none) with
  | some q => { s with relay := relayPut q { mkRec s code inst a b c d notice with boot := 0 } s.relay }
  | none => { s with cairn := stagePut (mkRec s code inst a b c d notice) s.cairn }

/-- A record whose parameters no rule states: each is a free value. -/
def emitOpen (code inst : Nat) (s : State) : State :=
  let v := fun i => Config.free s.freeCtr (code * 4 + i)
  emitN false code inst (v 0) (v 1) (v 2) (v 3) { s with freeCtr := s.freeCtr + 1 }

/-- A record without NOTICE. -/
def emit (code inst a b c d : Nat) (s : State) : State := emitN false code inst a b c d s

/-- R591: add to a per-period count: parameter `par` (1 to 4) of a code. -/
def bump (code par n : Nat) (s : State) : State :=
  { s with reck := { s.reck with counts := tadd s.reck.counts (code * 4 + par - 1) n } }
/-- R591: raise a per-period maximum. -/
def bumpMax (code par n : Nat) (s : State) : State :=
  { s with reck := { s.reck with counts := tmax s.reck.counts (code * 4 + par - 1) n } }
/-- R591: lower a per-period minimum. -/
def bumpMin (code par n : Nat) (s : State) : State :=
  let k := code * 4 + par - 1
  { s with reck := { s.reck with counts := tset s.reck.counts k (match tget s.reck.counts k with | some m => min m n | none => n) } }
/-- R591: set a per-period last value or bitmap. -/
def bumpSet (code par : Nat) (f : Nat → Nat) (s : State) : State :=
  { s with reck := { s.reck with counts := tmod s.reck.counts (code * 4 + par - 1) 0 f } }
/-- R591: mark a bit of a per-period bitmap. -/
def bumpBit (code par i : Nat) (s : State) : State := bumpSet code par (· ||| 2 ^ i) s
/-- R591: count n for a channel or port, for the counts that a record keeps for each. -/
def bumpChN (code ch n : Nat) (s : State) : State :=
  { s with reck := { s.reck with counts := tadd s.reck.counts (16777216 + code * 32 + ch) n } }
/-- R591: count one per channel, for the "channel with most" parameters. -/
def bumpCh (code ch : Nat) (s : State) : State := bumpChN code ch 1 s

/-- R16, R481: the code of the descriptor of a newly poisoned parcel's General Media Event (R62); Synet, which makes it,
is subsystem 0x0C. -/
def evMedia : Nat := 0x0CE0

/-- R484: Synet writes an event descriptor, or holds it until its queue has room (126 entries). -/
def eventPut (e : EventDesc) (r : Relay) : Relay :=
  if e.log < 2 then (if r.evq10.length < 126 then { r with evq10 := r.evq10 ++ [e] } else { r with synetWait := r.synetWait ++ [e] })
  else (if r.evq11.length < 126 then { r with evq11 := r.evq11 ++ [e] } else { r with synetWait := r.synetWait ++ [e] })

/-- R481: post an event to a log (0 Informational, 1 Warning, 2 Failure, 3 Fatal, 4 Dynamic Capacity) of LDs. -/
def postEvent (lds : List Nat) (log : Nat) (e : EventRec) (s : State) : State :=
  if lds.isEmpty then s else { s with relay := eventPut { lds := lds, log := log, ev := { e with ts := tbNow s } } s.relay }

/-- An event that carries a record's code and parameters. -/
def evOf (code a b c d : Nat) : EventRec := { handle := 0, code := code, ts := 0, p1 := p32 a, p2 := p32 b, p3 := p32 c, p4 := p32 d }

/-! ### Saddlebag -/

/-- R462: mark records dirty. -/
def markRecs (ks : List Nat) (s : State) : State :=
  { s with sad := { s.sad with dirty := s.sad.dirty ++ (ks.eraseDups.filter (fun k => !s.sad.dirty.contains k)) } }
/-- R462: change the working SRAM and mark records. -/
def modImg (ks : List Nat) (f : SadImage → SadImage) (s : State) : State :=
  markRecs ks { s with sad := { s.sad with img := f s.sad.img } }

/-- R563, R14: change flags are set at a moment. -/
def raiseChg (m : BitVec 5) (now : Nat) (l : Ld) : Ld :=
  { l with chg := l.chg ||| m, chgTb := now, chgNow := (if l.chgTb = now then l.chgNow else 0) ||| m }

/-- R14, R428: flags of a Coffer page are set at a moment: its events in [3:0], DONE in [4]. -/
def cofRaise (m : BitVec 5) (now : Nat) (p : CofPage) : CofPage :=
  { p with events := p.events ||| m.truncate 4, done := p.done || m.getLsbD 4
           flagTb := now, flagNow := (if p.flagTb = now then p.flagNow else 0) ||| m }

/-- R563: set a change flag of an LD's VND_STATUS: 0 HEALTH_CHG, 1 FREEZE_CHG, 2 MAP_CHG, 3 POISON_NEW, 4 ALARM. -/
def setChg (i k : Nat) (s : State) : State := modLd k (raiseChg (bit1 i) (nowTb s)) s

/-! ### Freezes -/

/-- The LD keys of a port. -/
def portLds (s : State) (p : Nat) : List Nat := (tkeys s.ports.lds).filter (fun k => k / 17 = p)

/-- R112: the LDs that a frozen master affects. -/
def masterLds (s : State) (m : Nat) : List Nat :=
  match m / 268435456 with
  | 1 => [ldKey (m / 256 % 32) (m % 32)]
  | 2 => [ldKey (m / 256 % 32) (m % 32)]
  | 3 => (portLds s (m / 256 % 32)).filter (tenantLd s)
  | _ => []

/-- R563: the LDs whose freeze bits a master's flag changes; a port's bit shows on its management LD too. -/
def chgLds (s : State) (m : Nat) : List Nat := if m / 268435456 = 3 then portLds s (m / 256 % 32) else masterLds s m

/-- R108, R471: the source instance of a freeze record: the port of a master that has one; none for the others. -/
def masterInst (m : Nat) : Nat := if 1 ≤ m / 268435456 ∧ m / 268435456 ≤ 3 then m / 256 % 32 else 0xFF

/-- R106, R107, R111, R112: a trigger freezes a master; a frozen master's trigger makes no record (R110), and is kept for
a THAW of the same cycle (R117). -/
def freeze (m code : Nat) (addr : BitVec 64) (detail : Nat) (s : State) : State :=
  let f : Freeze := { master := m, code := code, addr := addr, detail := p32 detail, tb := tbNow s }
  if isFrozen s m then { s with gate := { s.gate with again := s.gate.again.filter (fun g => g.master != m) ++ [f] } }
  else
    let s1 : State := { s with gate := { s.gate with freezes := s.gate.freezes ++ [f] }
                               keeper := { s.keeper with latch := s.keeper.latch ++ [f] } }
    let s2 := emitN true code (masterInst m) m (addr.toNat % 4294967296) (addr.toNat / 4294967296) detail s1
    let s3 := { s2 with cairn := { s2.cairn with epoch := { s2.cairn.epoch with
                  hist := tadd s2.cairn.epoch.hist (0x25 * 8 + (code - 0x0201)) 1 } } }
    let ev := { evOf code m (addr.toNat % 4294967296) (addr.toNat / 4294967296) detail with code := code }
    forAll (chgLds s m) (setChg 1) (postEvent (masterLds s m) 2 ev (postEvent (mgmtLds s) 1 ev s3))

/-! ### Meters -/

/-- R304: what maintenance work is charged to: no partition. -/
def noPart : Nat := 1024

/-- R370, R376: count in a partition's record of the open minute. -/
def meter (part : Nat) (f : Meter → Meter) (s : State) : State :=
  if noPart ≤ part then s else { s with reck := { s.reck with openBank := { s.reck.openBank with recs := tmod s.reck.openBank.recs part {} f } } }

/-- R387: add a latency to a histogram of the open minute; key: partition, or 1,024 + port. -/
def histAdd (key ns : Nat) (s : State) : State :=
  { s with reck := { s.reck with openBank := { s.reck.openBank with
      hists := tmod s.reck.openBank.hists key [] (fun h => tadd h (latBin ns) 1) } } }

/-- R475: a sample of a Cairn histogram of the open epoch. -/
def cairnSample (id bin : Nat) (s : State) : State :=
  { s with cairn := { s.cairn with epoch := { s.cairn.epoch with hist := tadd s.cairn.epoch.hist (id * 8 + bin) 1 } } }

/-- R476: a reading for an extreme that keeps the highest. -/
def extremeHi (i : Nat) (v : Int) (s : State) : State :=
  match tget s.cairn.epoch.extremes i with
  | some (w, _) => if w < v then { s with cairn := { s.cairn with epoch := { s.cairn.epoch with
      extremes := tset s.cairn.epoch.extremes i (v, nowTb s) } } } else s
  | none => { s with cairn := { s.cairn with epoch := { s.cairn.epoch with
      extremes := tset s.cairn.epoch.extremes i (v, nowTb s) } } }

/-- R476: a reading for an extreme that keeps the lowest. -/
def extremeLo (i : Nat) (v : Int) (s : State) : State :=
  match tget s.cairn.epoch.extremes i with
  | some (w, _) => if v < w then { s with cairn := { s.cairn with epoch := { s.cairn.epoch with
      extremes := tset s.cairn.epoch.extremes i (v, nowTb s) } } } else s
  | none => { s with cairn := { s.cairn with epoch := { s.cairn.epoch with
      extremes := tset s.cairn.epoch.extremes i (v, nowTb s) } } }

/-- R475: the read-latency bounds in ns. -/
def latBounds : List Int := [160, 512, 1100, 1250, 1900, 4096, 40000]

/-! ### Requests and responses -/

/-- A read that returns data (R98). -/
def MemOp.isRead : MemOp → Bool
  | .rd => true | .rdData => true | _ => false
/-- A write (R98). -/
def MemOp.isWrite : MemOp → Bool
  | .wr => true | .wrPtl => true | _ => false

/-- R71: two requests hold one tag when their LD and tag agree. -/
def sameTag (a b : Req) : Bool := a.ld == b.ld && a.tag == b.tag

/-- R370: the bytes that a write counts. -/
def writeBytes (r : Req) : Nat := if r.op = .wrPtl then popcount r.wr.be else 64

/-- R371: count a write. -/
def meterWrite (r : Req) (s : State) : State :=
  if r.counted ∧ r.op.isWrite then
    meter r.part (fun m => { m with writeBytes := m.writeBytes + writeBytes r, writeOps := m.writeOps + 1 }) s
  else s

/-- R371, R387: count a read, with its latency in the partition's and the port's histogram and in Cairn's. -/
def meterRead (r : Req) (lat : Nat) (s : State) : State :=
  if r.counted ∧ r.op.isRead then
    extremeHi 12 lat (cairnSample r.port (binOf latBounds lat) (histAdd (1024 + r.port) lat (histAdd r.part lat
      (meter r.part (fun m => { m with readBytes := m.readBytes + 64, readOps := m.readOps + 1 }) s))))
  else s

/-- R76: the port's M2S credits return to the new link once every tag of the old link is free. -/
def oldDone (p : Port) (old : List Req) : Port :=
  if p.oldReqs.isEmpty ∨ !old.isEmpty then { p with oldReqs := old }
  else { p with oldReqs := old, reqCredits := if p.up then 256 else 0, rwdCredits := if p.up then 256 else 0 }

/-- R71, R99: a request's tag is free and it is no longer outstanding. -/
def freeTag (r : Req) (s : State) : State :=
  let mine := fun (x : Req) => sameTag x r && x.tagKind == r.tagKind
  let s1 := modPort r.port (fun p => oldDone { p with reqs := p.reqs.filter (fun x => !mine x) } (p.oldReqs.filter (fun x => !mine x))) s
  if r.tagKind = .reserved then modLd (ldKey r.port r.ld) (fun l => { l with outstanding := l.outstanding - 1 }) s1 else s1

/-- R73: a response with data uses a DRS credit, a completion an NDR credit. -/
def hasData : RespKind → Bool
  | .cmp => false
  | _ => true
/-- R73: whether the port has the S2M credit that a response needs. -/
def s2mFree (p : Port) (k : RespKind) : Bool := decide (0 < (if hasData k then p.drsCredits else p.ndrCredits))
/-- R73: a response uses its S2M credit. -/
def useCredit (k : RespKind) (p : Port) : Port :=
  if hasData k then { p with drsCredits := p.drsCredits - 1 } else { p with ndrCredits := p.ndrCredits - 1 }

/-- R71, R73: the port sends a response; `ready` is when it was complete, so that a wait for S2M credits is not counted
(R387). -/
def sendResp (ready : Nat) (r : Req) (k : RespKind) (s : State) : State :=
  let s1 := modPort r.port (useCredit k) (meterRead r (ready - r.stamp) (meterWrite r (freeTag r s)))
  { s1 with ports := { s1.ports with
      sent := { port := r.port, ld := r.ld, tag := r.tag, op := r.op, kind := k, sent := tbNow s } :: s1.ports.sent } }

/-- R73, R76: a request's response is complete (an access without a tag, R442, has none): sent, held for S2M credits, or discarded with the old link. -/
def finish (r : Req) (k : RespKind) (s : State) : State :=
  if r.tagKind = .none then s
  else if (port s r.port).oldReqs.any (sameTag r) then
    (if r.effected then meterWrite r (freeTag r s) else freeTag r s)
  else if s2mFree (port s r.port) k then sendResp (tbNow s) r k s
  else modPort r.port (fun p => { p with held := p.held ++ [(tbNow s, r, k)]
                                         withheldSince := some (p.withheldSince.getD (tbNow s)) }) s

/-- R113: the response kind of a request served as frozen. -/
def frozenKind (r : Req) : RespKind := if r.op.isRead then .poison else .cmp

/-- R71: a request takes a tag. -/
def takeTag (r : Req) (s : State) : State :=
  let s1 := modPort r.port (fun p => { p with reqs := p.reqs ++ [r] }) s
  if r.tagKind = .reserved then modLd (ldKey r.port r.ld) (fun l => { l with outstanding := l.outstanding + 1 }) s1 else s1

/-- R72, R119: whether an LD may take a further shared-pool tag. -/
def poolFree (s : State) (r : Req) : Bool :=
  let q := (port s r.port).reqs.filter (fun x => x.tagKind == .pool)
  decide (q.length < 32) && decide ((q.filter (fun x => x.ld == r.ld)).length < 8)

/-- R73: the request leaves or enters the ingress buffer's credits: Req for reads and invalidates, RwD for writes. -/
def addCredit (r : Req) (n : Int) (s : State) : State :=
  modPort r.port (fun p => if r.op.isWrite then { p with rwdCredits := (p.rwdCredits + n).toNat }
    else { p with reqCredits := (p.reqCredits + n).toNat }) s

/-- R73, R119, R120: a request waits in its LD's ingress queue, and holds the M2S credit that it used. -/
def enqueue (r : Req) (s : State) : State :=
  let n := if r.op.isWrite then (port s r.port).rwdCredits else (port s r.port).reqCredits
  addCredit r (-1) (modPort r.port (fun p => { p with ingress := p.ingress ++ [{ r with credit := decide (0 < n) }] }) s)

/-- R73: the M2S credit of a request that leaves its ingress queue returns. -/
def returnCredit (r : Req) (s : State) : State := if r.credit then addCredit r 1 s else s

/-- R109, R113, R119: a request served as frozen: MemSpecRd is discarded, the others complete from the shared pool, or
wait in the LD's ingress queue for a pool tag. -/
def poolComplete (r : Req) (s : State) : State :=
  if r.op = .specRd then s
  else if poolFree s r then
    let q : Req := { r with tagKind := .pool, counted := false }
    finish q (frozenKind q) (takeTag q s)
  else enqueue { r with frozen := true } s

/-- R93, R209, R592: a request served with the response of R113 from its LD's own tags, without a freeze. -/
def ownComplete (r : Req) (s : State) : State :=
  if r.op = .specRd then s
  else
    let q : Req := { r with tagKind := .reserved, counted := false }
    finish q (frozenKind q) (takeTag q s)

/-! ### The firmware flash (R526): byte memory in canonical form; an unlisted byte reads 0xFF -/

/-- What an unlisted flash address reads as: an erased NOR byte. -/
def flashDefault : Byte := 0xFF

/-- R526: the flash addresses that the device uses end here. -/
def flashSize : Nat := 8392704

/-- Read one flash byte. -/
def flashRead : List Host.Cell → Nat → Byte
  | [], _ => flashDefault
  | (k, v) :: m, a => if a = k then v else flashRead m a

/-- Write one flash byte, keeping the canonical form. -/
def flashWrite : List Host.Cell → Nat → Byte → List Host.Cell
  | [], a, b => if b = flashDefault then [] else [(a, b)]
  | (k, v) :: m, a, b =>
    if a < k then (if b = flashDefault then (k, v) :: m else (a, b) :: (k, v) :: m)
    else if a = k then (if b = flashDefault then m else (a, b) :: m)
    else (k, v) :: flashWrite m a b

/-- Write consecutive bytes. -/
def flashProgram (m : List Host.Cell) : Nat → List Byte → List Host.Cell
  | _, [] => m
  | a, b :: l => flashProgram (flashWrite m a b) (a + 1) l

/-- Erase a range: every byte reads 0xFF. -/
def flashErase (m : List Host.Cell) (a n : Nat) : List Host.Cell := m.filter (fun c => c.1 < a ∨ a + n ≤ c.1)

/-- Read consecutive bytes. -/
def flashBytes (m : List Host.Cell) (a n : Nat) : List Byte := (List.range n).map (fun i => flashRead m (a + i))

/-- The canonical form of the flash: addresses strictly rising, and no entry equal to an erased byte. -/
abbrev Memory.wf (m : List Host.Cell) : Prop := m.Pairwise (fun a b => a.1 < b.1) ∧ ∀ c ∈ m, c.2 ≠ flashDefault

/-! ### Free values -/

/-- The value of the next draw of a free value. -/
def freeVal (s : State) (x : Nat) : Nat := Config.free s.freeCtr x
/-- A draw of a free value has been made. -/
def drawn (s : State) : State := { s with freeCtr := s.freeCtr + 1 }

/-- The second of TB, plus one. -/
def secondNow (s : State) : Nat := tbNow s / 1000000000 + 1

end Sys2Proof.Machine
end

