-- ==== Sys2Proof/Machine/Saddle.lean ====
section
/-! DEFINITION. The Saddlebag's records and shadow copies: their content (R459), a group's store (R463, R464), and what
recall takes (R466 to R468). -/

namespace Sys2Proof.Machine

/-! ### Records -/

/-- The entries of a table whose keys lie in one record of n. -/
def slice {α : Type} (t : Tbl α) (n i : Nat) : Tbl α := t.filter (fun p => p.1 / n = i)

/-- R459: the LD key of an LD_MAP instance. -/
def instKey (m : SadImage) (i : Nat) : Nat := if i = 512 then (m.portCfg.mgmt.getD 0) * 17 + 16 else i / 16 * 17 + i % 16

/-- R459: every LD's ranges by their place in the RANGES records. -/
def rangeEnts (m : SadImage) : Tbl (Nat × Range) :=
  m.ldMaps.flatMap (fun p => p.2.ranges.mapIdx (fun j r => (p.2.first + j, (p.1, r))))

/-- R459: the recalled ranges join the LDs whose LD_MAP records index them. -/
def joinRanges (l : Tbl (Nat × Range)) (t : Tbl LdMap) : Tbl LdMap :=
  l.foldl (fun t e => match tget t e.2.1 with
    | some x => if x.first ≤ e.1 ∧ e.1 < x.first + x.held then tset t e.2.1 { x with ranges := x.ranges ++ [e.2.2] } else t
    | none => t) t

/-- R459: the content of a record in the working SRAM; none where the record does not exist. -/
def recBody (m : SadImage) (key : Nat) : Option RecBody :=
  let i := key % 65536
  match key / 65536 with
  | 1 => some (.portCfg m.portCfg)
  | 2 => some (.stage m.maintShare)
  | 3 => (tget m.parts i).map .part
  | 4 => some (.runs (slice m.runs 64 i))
  | 5 => (tget m.ldMaps i).map (fun x => .ldMap { x with ranges := [], held := x.ranges.length })
  | 6 => some (.ranges (slice (rangeEnts m) 64 i))
  | 7 => (tget m.wraps i).map .wrap
  | 8 => (tget m.travs i).map .trav
  | 9 => some (.freeze (slice m.freezes 64 i))
  | 10 => some (.ckpt m.ckpt)
  | 11 => some (.chain (slice m.ledgerChain 256 i))
  | 12 => (tget m.modules i).map .moduleR
  | 13 => some (.drover m.drover)
  | 14 => some (.belay m.belay)
  | 15 => some (.flush m.flush)
  | 16 => some (.time m.time)
  | 17 => some (.keep m.keep)
  | 18 => some (.epoch m.epoch)
  | 19 => some (.boot m.boot)
  | 20 => some (.pitch m.pitch)
  | 21 => some (.info m.infoFormat)
  | _ => none

/-- Put the entries of one record into a table. -/
def putAll {α : Type} (l t : Tbl α) : Tbl α := l.foldl (fun t p => tset t p.1 p.2) t

/-- R466: a recalled record is put into the working SRAM. -/
def putBody (key : Nat) (b : RecBody) (m : SadImage) : SadImage :=
  let i := key % 65536
  match b with
  | .portCfg c => { m with portCfg := c }
  | .stage k => { m with maintShare := k }
  | .part p => { m with parts := tset m.parts i p }
  | .runs l => { m with runs := putAll l m.runs }
  | .ldMap x => { m with ldMaps := tset m.ldMaps i x }
  | .ranges l => { m with ldMaps := joinRanges l m.ldMaps }
  | .wrap w => { m with wraps := tset m.wraps i w }
  | .trav t => { m with travs := tset m.travs i t }
  | .freeze l => { m with freezes := putAll l m.freezes }
  | .ckpt c => { m with ckpt := c }
  | .chain l => { m with ledgerChain := putAll l m.ledgerChain }
  | .moduleR x => { m with modules := tset m.modules i x }
  | .drover d => { m with drover := d }
  | .belay x => { m with belay := x }
  | .flush f => { m with flush := f }
  | .time t => { m with time := t }
  | .keep k => { m with keep := k }
  | .epoch e => { m with epoch := e }
  | .boot x => { m with boot := x }
  | .pitch p => { m with pitch := p }
  | .info n => { m with infoFormat := n }

/-! ### Storing a group -/

/-- R464: whether a number is the newer of two, modulo 2^32. -/
def newer (a b : Nat) : Bool := decide (0 < (a + 4294967296 - b) % 4294967296) && decide ((a + 4294967296 - b) % 4294967296 < 2147483648)

/-- R463 step 3, R461: the copy to write is the older one, or an empty one; the new copy's SEQ follows the other's. The VERSION and
the bytes that the image does not know are written back as recalled. -/
def writeShadow (g gcount : Nat) (ahead : Option (Nat × List Byte)) (body : Option RecBody) (sl : Slot) : Slot :=
  let kept := if body.isNone then (1, []) else ahead.getD (1, [])
  let new := fun (o : Option Shadow) => ({ seq := match o with | some x => p32 (x.seq + 1) | none => 1, group := g, gcount := gcount,
                                           version := kept.1, extra := kept.2, body := body } : Shadow)
  match sl.a, sl.b with
  | none, o => { sl with a := some (new o) }
  | some a, none => { sl with b := some (new (some a)) }
  | some a, some b => if newer a.seq b.seq then { sl with b := some (new (some a)) } else { sl with a := some (new (some b)) }

/-- R463: every copy of a group is written. -/
def storeGroup (ahead : Tbl (Nat × List Byte)) (g : Group) (t : Tbl Slot) : Tbl Slot :=
  g.recs.foldl (fun t r => tmod t r.1 {} (writeShadow g.num g.recs.length (tget ahead r.1) r.2)) t

/-- R461: a deleted record leaves no bytes of a newer VERSION behind. -/
def dropAhead (g : Group) (t : Tbl (Nat × List Byte)) : Tbl (Nat × List Byte) :=
  t.filter (fun p => !g.recs.any (fun r => r.1 == p.1 && r.2.isNone))

/-- R455, R463: a group whose store has started is stored whole. -/
def finishStore (s : State) : State :=
  match s.sad.running with
  | none => s
  | some g => { s with sad := { s.sad with running := none, lastGroup := g.num, slots := storeGroup s.sad.ahead g s.sad.slots, ahead := dropAhead g s.sad.ahead } }

/-- R463 steps 1 and 2: a group of some records, with their content now. -/
def captureGroup (ks : List Nat) (s : State) : Group :=
  { num := p32 (s.sad.lastGroup + 1), recs := ks.map (fun k => (k, recBody s.sad.img k)) }

/-! ### Recall -/

/-- R467: what recall makes of one slot: the copy taken, whether its other copy is older and left, a tie, and whether
both are invalid. -/
structure Taken where
  key : Nat
  copy : Option Shadow
  other : Option Shadow
  tie : Bool := false
  gone : Bool := false
  deriving DecidableEq, Repr

/-- R467: the copy that recall takes of a slot; `badA` and `badB`: the copy's CRC fails. -/
def takeSlot (key : Nat) (sl : Slot) (badA badB : Bool) : Taken :=
  match (if badA then none else sl.a), (if badB then none else sl.b) with
  | some a, some b =>
    if a.seq = b.seq then { key := key, copy := some a, other := some b, tie := a != b }
    else if newer a.seq b.seq then { key := key, copy := some a, other := some b } else { key := key, copy := some b, other := some a }
  | some a, none => { key := key, copy := some a, other := none }
  | none, some b => { key := key, copy := some b, other := none }
  | none, none => { key := key, copy := none, other := none, gone := sl.a.isSome || sl.b.isSome }

/-- R468: the newest GROUP among the taken copies, with its GCOUNT. -/
def newestGroup (ts : List Taken) : Option (Nat × Nat) :=
  ts.foldl (fun (m : Option (Nat × Nat)) t => match m, t.copy with
    | none, some c => some (c.group, c.gcount)
    | some g, some c => if newer c.group g.1 then some (c.group, c.gcount) else some g
    | m, none => m) none

/-- R468: how many valid copies carry a GROUP. -/
def carrying (ts : List Taken) (g : Nat) : Nat :=
  let has := fun (o : Option Shadow) => match o with | some c => c.group == g | none => false
  (ts.filter (fun t => has t.copy)).length + (ts.filter (fun t => has t.other)).length

/-- What a recall found (R467, R468). -/
structure Recalled where
  taken : List Taken
  rolled : Option (Nat × Nat × Nat) := none
  deriving DecidableEq, Repr

/-- R466 to R468: the copies that recall takes, an incomplete newest group rolled back. -/
def recallSlots (slots : Tbl Slot) (bad : List (Nat × Nat × Bool × Bool)) : Recalled :=
  let ts := slots.map (fun p =>
    match bad.find? (fun b => rk b.1 b.2.1 == p.1) with
    | some b => takeSlot p.1 p.2 b.2.2.1 b.2.2.2
    | none => takeSlot p.1 p.2 false false)
  match newestGroup ts with
  | none => { taken := ts }
  | some (g, n) =>
    if n ≤ carrying ts g then { taken := ts }
    else
      let mine := fun (o : Option Shadow) => match o with | some c => c.group == g | none => false
      { taken := ts.map (fun t => if mine t.copy then { t with copy := t.other } else t), rolled := some (g, n, carrying ts g) }

/-- R461: what recall keeps of the records of a newer VERSION. -/
def recallAhead (r : Recalled) : Tbl (Nat × List Byte) :=
  r.taken.foldl (fun t x => match x.copy with
    | some c => if c.body.isSome && decide (1 < c.version) then tset t x.key (c.version, c.extra) else t
    | none => t) []

/-- R466: the working SRAM that recall loads. -/
def recallImage (r : Recalled) : SadImage :=
  r.taken.foldl (fun m t => match t.copy.bind (·.body) with | some b => putBody t.key b m | none => m) {}

end Sys2Proof.Machine
end

