-- ==== Sys2Proof/Machine/CairnOps.lean ====
section
/-! DEFINITION. What reaches Cairn and the event logs: forwarding from the Relay queues (R481, R482), the event log unit
(R68, R481), and the close of an epoch (R474 to R477, R591). -/

namespace Sys2Proof.Machine

/-- A record that the keeper or Synet writes to the staging buffer itself (R472). -/
def stageRec (code inst a b c d : Nat) (s : State) : State :=
  { s with cairn := stagePut (mkRec s code inst a b c d false) s.cairn }

/-- R481: Synet forwards an item; the keeper fills BOOT. -/
def forward (r : CairnRec) (s : State) : State :=
  { s with cairn := stagePut { r with boot := s.sad.img.boot.boots } s.cairn }

/-- R488: every item in queues 0 to 9 reaches the staging buffer. -/
def drainAll (s : State) : State :=
  let items := s.relay.queues.flatMap (fun q => q.2.drain ++ q.2.fill)
  forAll items forward { s with relay := { s.relay with queues := [] } }

/-! ### The event logs (R68) -/

/-- R68: the records that a log holds. -/
def logCap (log : Nat) : Nat := if log = 3 then 16 else if log = 4 then 128 else 64

/-- R68: a record enters a log; a full log keeps its oldest records and counts the dropped one. -/
def addEvent (cap : Nat) (e : EventRec) (l : EventLog) : EventLog :=
  if l.recs.length < cap then
    { l with recs := l.recs ++ [{ e with handle := l.nextHandle }], nextHandle := if 65535 ≤ l.nextHandle then 1 else l.nextHandle + 1 }
  else { l with overflow := true, dropped := l.dropped + 1, firstTs := if l.dropped = 0 then e.ts else l.firstTs, lastTs := e.ts }

/-- The five logs of an LD. -/
def fiveLogs (l : Ld) : List EventLog := l.logs ++ List.replicate (5 - l.logs.length) ({} : EventLog)

/-- R68, R481: the event log unit builds the record in the log of each target LD. -/
def deliver (e : EventDesc) (s : State) : State :=
  forAll e.lds (fun k t => modLd k (fun l => { l with
    logs := (fiveLogs l).modify e.log (addEvent (logCap e.log) e.ev), logsChanged := true }) t) s

/-- R484: descriptors that wait enter their queue as it has room. -/
def refillEvents (r : Relay) : Relay := r.synetWait.foldl (fun r e => eventPut e r) { r with synetWait := [] }

/-- Every event descriptor is delivered, in order. -/
def deliverAll (s : State) : State :=
  let es := s.relay.evq10 ++ s.relay.evq11 ++ s.relay.synetWait
  forAll es deliver { s with relay := { s.relay with evq10 := [], evq11 := [], synetWait := [] } }

/-! ### Epochs (R474 to R477, R591) -/

/-- R476: the extremes that keep the lowest reading. -/
def keepsLow (i : Nat) : Bool := decide (2 ≤ i) && decide (i ≤ 11)

/-- R476: two extremes of one index. -/
def mergeExtreme (i : Nat) (a b : Int × Nat) : Int × Nat :=
  if keepsLow i then (if b.1 < a.1 then b else a) else (if a.1 < b.1 then b else a)

/-- R474: an epoch's counts are added to the lifetime block. -/
def addLife (e l : CairnBlock) : CairnBlock :=
  { l with number := l.number + 1
           hist := e.hist.foldl (fun h p => tadd h p.1 p.2) l.hist
           extremes := e.extremes.foldl (fun x p => tset x p.1 (match tget x p.1 with | some o => mergeExtreme p.1 o p.2 | none => p.2)) l.extremes }

/-- R591: a per-hour count of the epoch. -/
def hourCount (s : State) (code par : Nat) : Nat := tgetD s.reck.counts (code * 4 + par - 1) 0

/-- R591: the per-hour records: checkpoint rounds (R334) and power-up attempts (R502). -/
def hourRecords (s : State) : State :=
  let s1 := if hourCount s 0x0804 1 = 0 then s
    else stageRec 0x0804 0xFF (hourCount s 0x0804 1) (hourCount s 0x0804 2) (hourCount s 0x0804 3 / 1024) 0 s
  let s2 := if hourCount s 0x1308 1 = 0 then s1 else stageRec 0x1308 0xFF (hourCount s 0x1308 1) 0 0 0 s1
  { s2 with reck := { s2.reck with counts := s2.reck.counts.filter (fun p => p.1 / 4 ≠ 0x0804 ∧ p.1 / 4 ≠ 0x1308) } }

/-- R477: an epoch count is 48 bits, saturating. -/
def satEpoch (e : CairnBlock) : CairnBlock := { e with hist := tmap e.hist (fun _ n => sat 281474976710655 n) }

/-- R474: the open epoch closes: its block is stored, added to the lifetime block, and the next one opens. `short`: closed
early. -/
def closeEpoch (short : Bool) (s0 : State) : State :=
  let s := hourRecords s0
  let e := satEpoch { s.cairn.epoch with flags := (if short then 1 else 0) + (if s.mainUp then 0 else 2) }
  { s with cairn := { s.cairn with
      epochs := (e :: s.cairn.epochs).take 720, life := addLife e s.cairn.life, epochCycles := 0
      epoch := { number := s.cairn.epoch.number + 1, startTb := if s.mainUp then tbNow s else s.keeper.lastTb + s.keeper.since } } }

/-- R472: the keeper stores the oldest staged record; room in the buffer lets it record the drops. -/
def cairnStoreOne (c : Cairn) (drop : CairnRec) : Cairn :=
  match c.staging with
  | [] => c
  | r :: rest =>
    let d := { c with stored := r :: c.stored, staging := rest, held := false }
    if c.dropCount = 0 then d
    else { d with staging := rest ++ [{ drop with p1 := p32 c.dropCount, p2 := c.dropFirst }], dropCount := 0, dropFirst := 0 }

end Sys2Proof.Machine
end

