-- ==== Sys2Proof/Machine/Crypto.lean ====
section
/-! DEFINITION. The primitives of the standards that the manual names: AES (FIPS 197), GHASH (NIST SP 800-38D), SHA-384
(FIPS 180-4) and the verification of ECDSA P-384 signatures (FIPS 186-5). A block's byte 0 is its bits [127:120]. -/

namespace Sys2Proof.Machine

/-- The big-endian value of a byte list. -/
def beVal (l : List Byte) : Nat := leVal l.reverse

/-- The n bytes of a value, the most significant first. -/
def toBe (n v : Nat) : List Byte := (toLe n v).reverse

/-! ### AES -/

/-- FIPS 197: multiplication by x in GF(2^8). -/
def xtime (a : Byte) : Byte := (a <<< 1) ^^^ (if a.msb then 0x1B else 0)

/-- FIPS 197: multiplication in GF(2^8). -/
def gfMul (a b : Byte) : Byte :=
  ((List.range 8).foldl (fun (p : Byte × Byte) i => (if b.getLsbD i then p.1 ^^^ p.2 else p.1, xtime p.2)) (0, a)).1

/-- FIPS 197: the inverse in GF(2^8), a^254; 0 for 0. -/
def gfInv (a : Byte) : Byte := ((List.range 7).foldl (fun (p : Byte × Byte) _ => let q := gfMul p.2 p.2; (gfMul p.1 q, q)) (1, a)).1

/-- FIPS 197: the S-box. -/
def subByte (a : Byte) : Byte :=
  let b := gfInv a
  b ^^^ b.rotateLeft 1 ^^^ b.rotateLeft 2 ^^^ b.rotateLeft 3 ^^^ b.rotateLeft 4 ^^^ 0x63

/-- FIPS 197: the inverse S-box. -/
def subByteInv (a : Byte) : Byte := gfInv (a.rotateLeft 1 ^^^ a.rotateLeft 3 ^^^ a.rotateLeft 6 ^^^ 0x05)

/-- The sum of two byte lists. -/
def xorBytes (a b : List Byte) : List Byte := a.zipWith (· ^^^ ·) b

/-- FIPS 197: word i of the key schedule from the words before it, of a key of nk words. -/
def keyWord (nk i : Nat) (ws : List (List Byte)) : List Byte :=
  let prev := ws.getD (i - 1) []
  let t := if i % nk = 0 then
      xorBytes ((prev.rotateLeft 1).map subByte) [Nat.repeat xtime (i / nk - 1) 1, 0, 0, 0]
    else if 6 < nk ∧ i % nk = 4 then prev.map subByte else prev
  xorBytes (ws.getD (i - nk) []) t

/-- FIPS 197: the round keys of a key of 16 or 32 bytes, in words. -/
def keySchedule (k : List Byte) : List (List Byte) :=
  let nk := k.length / 4
  (List.range (4 * (nk + 7) - nk)).foldl (fun (ws : List (List Byte)) j => ws ++ [keyWord nk (nk + j) ws])
    ((List.range nk).map (fun i => bytesAt k (4 * i) 4))

/-- The key of one round. -/
def roundKey (ws : List (List Byte)) (r : Nat) : List Byte := ((ws.drop (4 * r)).take 4).flatten

/-- FIPS 197: ShiftRows on 16 bytes in column order; `inv` its inverse. -/
def shiftRows (inv : Bool) (st : List Byte) : List Byte :=
  (List.range 16).map (fun j => st.getD (if inv then (j + 12 * (j % 4)) % 16 else (j + 4 * (j % 4)) % 16) 0)

/-- FIPS 197: MixColumns with the first row of its matrix. -/
def mixColumns (row : List Byte) (st : List Byte) : List Byte :=
  (List.range 16).map (fun j => (List.range 4).foldl (fun (x : Byte) i =>
    x ^^^ gfMul (row.getD ((4 + i - j % 4) % 4) 0) (st.getD (j / 4 * 4 + i) 0)) 0)

/-- FIPS 197: the cipher on 16 bytes under a key of 16 or 32 bytes. -/
def aesEnc (k b : List Byte) : List Byte :=
  let ws := keySchedule k
  let nr := k.length / 4 + 6
  let mid := (List.range (nr - 1)).foldl (fun (st : List Byte) r =>
    xorBytes (mixColumns [2, 3, 1, 1] (shiftRows false (st.map subByte))) (roundKey ws (r + 1))) (xorBytes b (roundKey ws 0))
  xorBytes (shiftRows false (mid.map subByte)) (roundKey ws nr)

/-- FIPS 197: the inverse cipher. -/
def aesDec (k b : List Byte) : List Byte :=
  let ws := keySchedule k
  let nr := k.length / 4 + 6
  let mid := (List.range (nr - 1)).foldl (fun (st : List Byte) r =>
    mixColumns [14, 11, 13, 9] (xorBytes ((shiftRows true st).map subByteInv) (roundKey ws (nr - 1 - r)))) (xorBytes b (roundKey ws nr))
  xorBytes ((shiftRows true mid).map subByteInv) (roundKey ws 0)

/-- R212: AES-256 of a block. -/
def aes256 (k : BitVec 256) (b : BitVec 128) : BitVec 128 := BitVec.ofNat 128 (beVal (aesEnc (toBe 32 k.toNat) (toBe 16 b.toNat)))
/-- The inverse cipher of `aes256`. -/
def aes256Inv (k : BitVec 256) (b : BitVec 128) : BitVec 128 := BitVec.ofNat 128 (beVal (aesDec (toBe 32 k.toNat) (toBe 16 b.toNat)))
/-- AES-128 of a block. -/
def aes128 (k b : BitVec 128) : BitVec 128 := BitVec.ofNat 128 (beVal (aesEnc (toBe 16 k.toNat) (toBe 16 b.toNat)))
/-- The inverse cipher of `aes128`. -/
def aes128Inv (k b : BitVec 128) : BitVec 128 := BitVec.ofNat 128 (beVal (aesDec (toBe 16 k.toNat) (toBe 16 b.toNat)))

/-! ### GHASH -/

/-- SP 800-38D: multiplication in GF(2^128), the leftmost bit the coefficient of 1. -/
def gfMul128 (x y : BitVec 128) : BitVec 128 :=
  ((List.range 128).foldl (fun (p : BitVec 128 × BitVec 128) i =>
    (if x.getMsbD i then p.1 ^^^ p.2 else p.1, (p.2 >>> 1) ^^^ (if p.2.getLsbD 0 then (0xE1 : BitVec 128) <<< 120 else 0))) (0, y)).1

/-- SP 800-38D: GHASH of a block list under a hash key. -/
def ghashBlocks (h : BitVec 128) (l : List (BitVec 128)) : BitVec 128 := l.foldl (fun (y : BitVec 128) x => gfMul128 (y ^^^ x) h) 0

/-! ### CMAC and GCM -/

/-- SP 800-38B: a subkey doubled. -/
def cmacDouble (x : BitVec 128) : BitVec 128 := (x <<< 1) ^^^ (if x.msb then 0x87 else 0)
/-- SP 800-38B: AES-256 CMAC of a message of four bytes. -/
def cmacWord (k : BitVec 256) (m : BitVec 32) : BitVec 128 :=
  aes256 k ((m ++ (0x80 : BitVec 8) ++ (0 : BitVec 88) : BitVec 128) ^^^ cmacDouble (cmacDouble (aes256 k 0)))

/-- SP 800-38D: a counter block of a 96-bit IV. -/
def gcmBlock (iv : BitVec 96) (n : Nat) : BitVec 128 := (iv ++ BitVec.ofNat 32 n : BitVec 128)
/-- SP 800-38D: the key stream of 384 bits. -/
def gcmMask384 (k : BitVec 256) (iv : BitVec 96) : BitVec 384 :=
  (aes256 k (gcmBlock iv 2) ++ aes256 k (gcmBlock iv 3) ++ aes256 k (gcmBlock iv 4) : BitVec 384)
/-- SP 800-38D: the tag of 384 bits of ciphertext with no additional data. -/
def gcmTag384 (k : BitVec 256) (iv : BitVec 96) (c : BitVec 384) : BitVec 128 :=
  ghashBlocks (aes256 k 0) [c.extractLsb' 256 128, c.extractLsb' 128 128, c.extractLsb' 0 128, (384 : BitVec 128)] ^^^ aes256 k (gcmBlock iv 1)

/-! ### SHA-384 -/

/-- The greatest r below 2^(n+1) of which the k-th power is at most v. -/
def rootBits (k v : Nat) : Nat → Nat → Nat
  | 0, r => if (r + 1) ^ k ≤ v then r + 1 else r
  | n + 1, r => rootBits k v n (if (r + 2 ^ (n + 1)) ^ k ≤ v then r + 2 ^ (n + 1) else r)

/-- Whether a number is prime, by trial. -/
def isPrime (n : Nat) : Bool := decide (2 ≤ n) && (List.range n).all (fun d => decide (d < 2) || n % d != 0)

/-- FIPS 180-4: the first 80 primes. -/
def primes80 : List Nat := ((List.range 410).filter isPrime).take 80

/-- FIPS 180-4: the constants of SHA-384: the first 64 bits of the fractional parts of the primes' cube roots. -/
def shaK : List (BitVec 64) := primes80.map (fun p => BitVec.ofNat 64 (rootBits 3 (p * 2 ^ 192) 67 0))

/-- FIPS 180-4: SHA-384's initial value: the same of the square roots of the 9th to the 16th prime. -/
def shaInit : List (BitVec 64) := ((primes80.drop 8).take 8).map (fun p => BitVec.ofNat 64 (rootBits 2 (p * 2 ^ 128) 69 0))

/-- FIPS 180-4: the next word of the message schedule, from the last 16, newest first. -/
def shaNext (w : List (BitVec 64)) : BitVec 64 :=
  let g := fun (i : Nat) => w.getD i 0
  let s0 := fun (x : BitVec 64) => x.rotateRight 1 ^^^ x.rotateRight 8 ^^^ (x >>> 7)
  let s1 := fun (x : BitVec 64) => x.rotateRight 19 ^^^ x.rotateRight 61 ^^^ (x >>> 6)
  s1 (g 1) + g 6 + s0 (g 14) + g 15

/-- FIPS 180-4: the message schedule of a block of 16 words, newest first. -/
def shaSchedule (m : List (BitVec 64)) : List (BitVec 64) := Nat.repeat (fun w => shaNext w :: w) 64 m.reverse

/-- FIPS 180-4: one round on the eight working variables. -/
def shaRound (v : List (BitVec 64)) (kw : BitVec 64 × BitVec 64) : List (BitVec 64) :=
  match v with
  | [a, b, c, d, e, f, g, h] =>
    let t1 := h + (e.rotateRight 14 ^^^ e.rotateRight 18 ^^^ e.rotateRight 41) + ((e &&& f) ^^^ (~~~e &&& g)) + kw.1 + kw.2
    let t2 := (a.rotateRight 28 ^^^ a.rotateRight 34 ^^^ a.rotateRight 39) + ((a &&& b) ^^^ (a &&& c) ^^^ (b &&& c))
    [t1 + t2, a, b, c, d + t1, e, f, g]
  | l => l

/-- FIPS 180-4: one block of 128 bytes. -/
def shaBlock (ks h : List (BitVec 64)) (b : List Byte) : List (BitVec 64) :=
  let m := (List.range 16).map (fun i => BitVec.ofNat 64 (beVal (bytesAt b (8 * i) 8)))
  ((ks.zip (shaSchedule m).reverse).foldl shaRound h).zipWith (· + ·) h

/-- FIPS 180-4: the padding of a message of n bytes. -/
def shaPad (n : Nat) : List Byte := 0x80 :: zeros ((239 - n % 128) % 128) ++ toBe 16 (8 * n)

/-- R527, R531: SHA-384. -/
def sha384 (l : List Byte) : List Byte :=
  let m := l ++ shaPad l.length
  let ks := shaK
  ((((List.range (m.length / 128)).foldl (fun (p : List (BitVec 64) × List Byte) _ =>
    (shaBlock ks p.1 (p.2.take 128), p.2.drop 128)) (shaInit, m)).1).take 6).flatMap (fun w => toBe 8 w.toNat)

/-! ### ECDSA P-384 -/

/-- FIPS 186-5: the field's prime. -/
def p384 : Nat := 2 ^ 384 - 2 ^ 128 - 2 ^ 96 + 2 ^ 32 - 1
/-- FIPS 186-5: the order of the base point. -/
def n384 : Nat := 0xffffffffffffffffffffffffffffffffffffffffffffffffc7634d81f4372ddf581a0db248b0a77aecec196accc52973
/-- FIPS 186-5: the curve's b; its a is −3. -/
def b384 : Nat := 0xb3312fa7e23ee7e4988e056be3f82d19181d9c6efe8141120314088f5013875ac656398d8a2ed19d2a85c8edd3ec2aef
/-- FIPS 186-5: the base point. -/
def base384 : Nat × Nat :=
  (0xaa87ca22be8b05378eb1c71ef320ad746e1d3b628ba79b9859f741e082542a385502f25dbf55296c3a545e3872760ab7,
   0x3617de4a96262c6f5d9e98bf9292dc29f8f41dbd289a147ce9da3113b5f0b8c00a60b1ce1d7e819d7a431d7c90ea0e5f)

/-- a^e mod m by the lowest n bits of e, the highest first. -/
def powMod (a e m : Nat) : Nat → Nat → Nat
  | 0, r => r
  | n + 1, r => powMod a e m n (if e.testBit n then r * r % m * a % m else r * r % m)

/-- The inverse modulo a prime. -/
def invMod (a m : Nat) : Nat := powMod a (m - 2) m 384 1

/-- The sum of two points of the curve; none is the point at infinity. -/
def addPoint : Option (Nat × Nat) → Option (Nat × Nat) → Option (Nat × Nat)
  | none, q => q
  | p, none => p
  | some (x1, y1), some (x2, y2) =>
    if x1 = x2 ∧ (y1 + y2) % p384 = 0 then none
    else
      let l := if x1 = x2 then (3 * x1 * x1 + (p384 - 3)) * invMod (2 * y1) p384 % p384
        else (y2 + p384 - y1) * invMod (x2 + p384 - x1) p384 % p384
      let x3 := (l * l + 2 * p384 - x1 - x2) % p384
      some (x3, (l * (x1 + p384 - x3) + p384 - y1) % p384)

/-- The multiple of a point by the lowest n bits of k. -/
def mulPoint (k : Nat) (p : Nat × Nat) : Nat → Option (Nat × Nat) → Option (Nat × Nat)
  | 0, r => r
  | n + 1, r => mulPoint k p n (if k.testBit n then addPoint (addPoint r r) (some p) else addPoint r r)

/-- FIPS 186-5: a public key as an uncompressed point of the curve (R527). -/
def pointOf (k : List Byte) : Option (Nat × Nat) :=
  let x := beVal (bytesAt k 1 48)
  let y := beVal (bytesAt k 49 48)
  if k.length = 97 ∧ k.headD 0 = 4 ∧ x < p384 ∧ y < p384 ∧ y * y % p384 = (x * x * x + (p384 - 3) * x + b384) % p384
  then some (x, y) else none

/-- R529, R551: whether a signature (r, then s) over a hash verifies under a public key. -/
def ecdsaOk (hash sig key : List Byte) : Bool :=
  let r := beVal (bytesAt sig 0 48)
  let s := beVal (bytesAt sig 48 48)
  match pointOf key with
  | none => false
  | some q =>
    if sig.length ≠ 96 ∨ r = 0 ∨ s = 0 ∨ n384 ≤ r ∨ n384 ≤ s then false
    else
      let w := invMod s n384
      match addPoint (mulPoint (beVal hash * w % n384) base384 384 none) (mulPoint (r * w % n384) q 384 none) with
      | none => false
      | some (x, _) => x % n384 == r

end Sys2Proof.Machine
end

