-- ==== Sys2Proof/Machine/SealOps.lean ====
section
/-! DEFINITION. Sealing and unsealing of parcels (R211 to R216), key choice (R242), and the counter tree's leaves,
nodes, rolls and losses (R217 to R236). -/

namespace Sys2Proof.Machine

/-- The bytes of a 128-bit block in reverse order: a block's byte 0 is its bits [127:120] (R211), a parcel's byte 0
its bits [7:0]. -/
def revBlock (x : BitVec 128) : BitVec 128 :=
  (List.range 16).foldl (fun (m : BitVec 128) i => m ||| ((x.extractLsb' (8 * i) 8).zeroExtend 128 <<< (8 * (15 - i)))) 0

/-- R211: the counter block. -/
def counterBlock (domain : BitVec 1) (block : BitVec 4) (lpn : BitVec 39) (major : BitVec 64) (minor : BitVec 7) : BitVec 128 :=
  (domain ++ block ++ lpn ++ major ++ minor ++ (0 : BitVec 13) : BitVec 128)

/-- R212: the keystream of a parcel. -/
def keystream (k : BitVec 256) (lpn : Nat) (major : BitVec 64) (minor : BitVec 7) : BitVec 2048 :=
  (List.range 16).foldl (fun (m : BitVec 2048) b =>
    m ||| ((revBlock (aes256 k (counterBlock 0 (BitVec.ofNat 4 b) (BitVec.ofNat 39 lpn) major minor))).zeroExtend 2048
      <<< (128 * b))) 0

/-- R261: the metadata of a tenant parcel. -/
def metaOf (part lpn : Nat) (wseq : BitVec 32) (sys kg poison : Bool) : BitVec 64 :=
  (BitVec.ofBool poison ++ BitVec.ofBool kg ++ BitVec.ofBool sys ++ wseq ++ BitVec.ofNat 19 lpn ++ BitVec.ofNat 10 part : BitVec 64)

/-- R261: the POISON flag. -/
def metaPoison (m : BitVec 64) : Bool := m.getLsbD 63
/-- R261: the KG flag. -/
def metaKg (m : BitVec 64) : Bool := m.getLsbD 62

/-- R219: bits [31:0] of the counter value MAJOR × 128 + MINOR. -/
def wseqOf (major : BitVec 64) (minor : BitVec 7) : BitVec 32 := BitVec.ofNat 32 (major.toNat * 128 + minor.toNat)

/-- R213: GHASH under a hash key of the metadata as additional data and the ciphertext. -/
def ghash (h : BitVec 128) (mt : BitVec 64) (c : BitVec 2048) : BitVec 128 :=
  ghashBlocks h ([revBlock (mt.zeroExtend 128)] ++ (List.range 16).map (fun i => revBlock (c.extractLsb' (128 * i) 128)) ++
    [((64 : BitVec 64) ++ (2048 : BitVec 64) : BitVec 128)])

/-- R213: the MAC. -/
def macOf (k : KeySet) (lpn : Nat) (major : BitVec 64) (minor : BitVec 7) (mt : BitVec 64) (c : BitVec 2048) : BitVec 64 :=
  (ghash k.hashKey mt c ^^^ aes256 k.dataKey (counterBlock 1 0 (BitVec.ofNat 39 lpn) major minor)).extractLsb' 64 64

/-- R211 to R213: seal a parcel. -/
def sealWord (k : KeySet) (part lpn : Nat) (major : BitVec 64) (minor : BitVec 7) (poison : Bool) (d : Parcel) : Codeword :=
  let c := parcelBits d ^^^ keystream k.dataKey lpn major minor
  let m := metaOf part lpn (wseqOf major minor) false (k.gen.getLsbD 0) poison
  { cipher := c, mac := macOf k lpn major minor m c, mdat := m }

/-- R215: why a parcel fails its checks: 1 MAC, 2 tenant ID, 3 parcel index; 0 when it passes. -/
def unsealFail (k : KeySet) (part lpn : Nat) (major : BitVec 64) (minor : BitVec 7) (w : Codeword) : Nat :=
  if macOf k lpn major minor w.mdat w.cipher ≠ w.mac then 1
  else if w.mdat.extractLsb' 0 10 ≠ BitVec.ofNat 10 part then 2
  else if w.mdat.extractLsb' 10 19 ≠ BitVec.ofNat 19 lpn then 3 else 0

/-- R212: decrypt a parcel. -/
def unsealData (k : KeySet) (lpn : Nat) (major : BitVec 64) (minor : BitVec 7) (w : Codeword) : Parcel :=
  bitsParcel (w.cipher ^^^ keystream k.dataKey lpn major minor)

/-! ### Keys -/

/-- R82: whether a partition is ACTIVE. -/
def isActive (s : State) (part : Nat) : Bool := match partRec s part with | some r => r.st == .active | none => false

/-- R204: a partition's slot. -/
def keySlot (s : State) (part : Nat) : KeySlot := tgetD s.sealCtl.slots part {}

/-- R242: the key set that seals a parcel now: NEW below the working mark of a traverse, else CUR. -/
def sealKey (s : State) (part lpn : Nat) : Option KeySet :=
  match tget s.travs part with
  | some t => if offsetOfLpn s lpn / 65536 * 65536 < t.w then (keySlot s part).nxt else (keySlot s part).cur
  | none => (keySlot s part).cur

/-- R215: the key set whose generation has a parcel's KG value. -/
def openKey (s : State) (part : Nat) (kg : Bool) : Option KeySet :=
  match (keySlot s part).cur with
  | some k => if k.gen.getLsbD 0 = kg then some k else
      (match (keySlot s part).nxt with | some n => if n.gen.getLsbD 0 = kg then some n else none | none => none)
  | none => match (keySlot s part).nxt with | some n => if n.gen.getLsbD 0 = kg then some n else none | none => none

/-- R209: the partition is in service: no unwrap of its key sets has failed. -/
def keyed (s : State) (part : Nat) : Bool := !s.sealCtl.keyless.contains part

/-! ### Key derivation and wraps (R207, R208) -/

/-- R207: CMAC under the root key of a 32-bit label. -/
def rootCmac (s : State) (label : BitVec 32) : BitVec 128 := cmacWord (Config.rootKey s.keeper.root) label
/-- R207: the KWK. -/
def kwkOf (s : State) : BitVec 256 := rootCmac s 0x4B574B01 ++ rootCmac s 0x4B574B02
/-- R207: the key set of system slot 0, 1 or 2. -/
def sysKeyOf (s : State) (slot : Nat) : KeySet :=
  let k := Config.systemKeys (rootCmac s (0x53595300 + BitVec.ofNat 32 slot))
  { dataKey := k.1, hashKey := k.2, gen := 0 }
/-- R207: the keeper sends the KWK and the system keys into their slots. -/
def loadSystem (s : State) : State :=
  { s with sealCtl := { s.sealCtl with zeroed := false, kwk := some (kwkOf s), sysKeys := (List.range 3).map (fun i => (i, sysKeyOf s i)) } }

/-- R208: bytes 0 to 11 of a KEY_WRAP record, the IV of its wrap. -/
def wrapIv (part : Nat) (gen : BitVec 16) (seq : Nat) : BitVec 96 :=
  BitVec.ofNat 96 (beVal (toLe 2 part ++ toLe 2 gen.toNat ++ toLe 8 seq))
/-- R208: the wrap of a key set. -/
def wrapKeys (kwk : BitVec 256) (part seq : Nat) (k : KeySet) : KeyWrap :=
  let iv := wrapIv part k.gen seq
  let c := gcmMask384 kwk iv ^^^ (k.dataKey ++ k.hashKey : BitVec 384)
  { part := part, gen := k.gen, seq := seq, wrapped := c, tag := gcmTag384 kwk iv c }
/-- R208, R209: a wrap is opened; none where its tag fails. -/
def unwrap (kwk : BitVec 256) (w : KeyWrap) : Option KeySet :=
  let iv := wrapIv w.part w.gen w.seq
  if gcmTag384 kwk iv w.wrapped = w.tag then
    let p := gcmMask384 kwk iv ^^^ w.wrapped
    some { dataKey := p.extractLsb' 128 256, hashKey := p.extractLsb' 0 128, gen := w.gen }
  else none
/-- R209: the key set that a KEY_WRAP instance gives under the KWK. -/
def unwrapped (s : State) (inst : Nat) : Option KeySet := (tget s.sad.img.wraps inst).bind (unwrap (kwkOf s))

/-! ### Counters -/

/-- R235: the epoch in which a node was created: that of the newest replaced subtree above it, else 0. -/
def createdIn (s : State) (level idx : Nat) : Nat :=
  maxN ((s.tree.fresh.filter (fun f => decide (level ≤ f.1) && idx / 8 ^ (f.1 - level) == f.2.1)).map (fun f => f.2.2))

/-- R217, R235: a leaf as created. -/
def newLeaf (s : State) (i : Nat) : Leaf := { major := BitVec.ofNat 64 (createdIn s 1 i * 72057594037927936) }
/-- R218, R235: an upper counter as created: the epoch over a writeback count of 0. -/
def newCtr (s : State) (level idx : Nat) : BitVec 56 := BitVec.ofNat 56 (createdIn s level idx * 281474976710656)
/-- R218, R235: an upper node as created. -/
def newNode (s : State) (level idx : Nat) : Node := { ctr := Vector.replicate 8 (newCtr s level idx) }

/-- R217: a leaf as the tree now has it. -/
def leafAt (s : State) (i : Nat) : Leaf := tgetD s.sealCtl.leaves i (newLeaf s i)
/-- The key of an upper node. -/
def nodeKey (level idx : Nat) : Nat := level * 1099511627776 + idx
/-- R218: an upper node. -/
def nodeAt (s : State) (level idx : Nat) : Node := tgetD s.sealCtl.nodes (nodeKey level idx) (newNode s level idx)
/-- R220: the counter that a node's parent holds for it; level 12 is the Summit. -/
def parentCtr (s : State) (level idx : Nat) : BitVec 56 :=
  if level = 11 then s.keeper.summit[idx % 8]'(Nat.mod_lt _ (by decide)) else (nodeAt s (level + 1) (idx / 8)).ctr[idx % 8]'(Nat.mod_lt _ (by decide))
/-- R220: the ancestor index of an LPN at a level. -/
def nodeIdx (lpn level : Nat) : Nat := lpn / 64 / 8 ^ (level - 1)
/-- R220: the number of nodes at a level beneath some exported legs. -/
def nodesOf (legs : Nat) : Nat → Nat
  | 0 => 0
  | 1 => legs * 65536
  | n + 1 => (nodesOf legs n + 7) / 8
/-- R217: a parcel's place in its leaf. -/
def minorIdx (lpn : Nat) : Fin 64 := ⟨lpn % 64, Nat.mod_lt _ (by decide)⟩

/-- R234: a parcel beneath a lost node that has not been replaced. -/
def underLost (s : State) (lpn : Nat) : Bool :=
  s.sealCtl.lost.any (fun l => !l.replaced && nodeIdx lpn l.level == l.idx)

/-- R226: the counters that unseal a parcel: old ones from the companion lines while its DONE bit is 0. -/
def openCtr (s : State) (lpn : Nat) : BitVec 64 × BitVec 7 :=
  match tget s.sealCtl.companions (lpn / 64) with
  | some c => if c.done.getLsbD (lpn % 64) then ((leafAt s (lpn / 64)).major, (leafAt s (lpn / 64)).minors[minorIdx lpn])
      else (c.major, c.minors[minorIdx lpn])
  | none => ((leafAt s (lpn / 64)).major, (leafAt s (lpn / 64)).minors[minorIdx lpn])

/-- R216: the never-used counter value. -/
def neverUsed (c : BitVec 64 × BitVec 7) : Bool := c.1.extractLsb' 0 56 == 0 && c.2 == 0

/-- R234: a mapped parcel that reads as poison without a medium read. -/
def lostParcel (s : State) (lpn : Nat) : Bool := underLost s lpn || neverUsed (openCtr s lpn)

/-- R229: a node that becomes dirty is the youngest of the dirty ones. -/
def markDirty (key : Nat) (s : State) : State :=
  if s.sealCtl.dirtyOrder.contains key then s
  else { s with sealCtl := { s.sealCtl with dirtyOrder := s.sealCtl.dirtyOrder ++ [key] } }

/-- Change a leaf. -/
def modLeaf (i : Nat) (f : Leaf → Leaf) (s : State) : State :=
  { s with sealCtl := { s.sealCtl with leaves := tset s.sealCtl.leaves i (f (leafAt s i)) } }
/-- Change an upper node. -/
def modNode (level idx : Nat) (f : Node → Node) (s : State) : State :=
  { s with sealCtl := { s.sealCtl with nodes := tset s.sealCtl.nodes (nodeKey level idx) (f (nodeAt s level idx)) } }

/-- A leaf is changed and dirty (R225). -/
def dirtyLeaf (i : Nat) (f : Leaf → Leaf) (s : State) : State :=
  markDirty (nodeKey 1 i) (modLeaf i (fun l => { f l with dirty := true, cached := true }) s)

/-- R229 step 1: increment the writeback count of a node's counter in its parent, never carrying into the epoch. -/
def bumpParent (level idx : Nat) (s : State) : State :=
  let inc := fun (c : BitVec 56) => (c.extractLsb' 48 8 ++ (c.extractLsb' 0 48 + 1) : BitVec 56)
  if level = 11 then
    { s with keeper := { s.keeper with
        summit := s.keeper.summit.set (idx % 8) (inc (parentCtr s 11 idx)) (Nat.mod_lt _ (by decide)), summitChanged := true } }
  else markDirty (nodeKey (level + 1) (idx / 8)) (modNode (level + 1) (idx / 8) (fun n => { n with
        ctr := n.ctr.set (idx % 8) (inc (n.ctr[idx % 8]'(Nat.mod_lt _ (by decide)))) (Nat.mod_lt _ (by decide)), dirty := true, cached := true }) s)

/-- R226: rolls of a partition under way. -/
def rollsOf (s : State) (part : Nat) : Nat := (s.sealCtl.companions.filter (fun p => p.2.part = part)).length

/-- R225, R226: increment a parcel's minor, or roll its leaf; `unw` is the bitmap of unwritten parcels (R216). -/
def incCounter (lpn part : Nat) (unw : BitVec 64) (s : State) : State :=
  let l := leafAt s (lpn / 64)
  let m := l.minors[minorIdx lpn]
  if m = 127 then
    let c : Companion := { major := l.major, minors := l.minors, done := unw, part := part }
    let s1 := { s with sealCtl := { s.sealCtl with companions := tset s.sealCtl.companions (lpn / 64) c } }
    bump 0x0605 1 1 (dirtyLeaf (lpn / 64) (fun l => { l with
      major := (l.major.extractLsb' 56 8 ++ (l.major.extractLsb' 0 56 + 1) : BitVec 64)
      minors := Vector.replicate 64 0 }) s1)
  else dirtyLeaf (lpn / 64) (fun l => { l with minors := l.minors.set (lpn % 64) (m + 1) (Nat.mod_lt _ (by decide)) }) s

/-- R226, R227, R232: a parcel's DONE bit is set; a full bitmap frees the companion lines. Companion lines are written back
with their leaf, which is dirty while they have changed. -/
def setDone (lpn : Nat) (s : State) : State :=
  match tget s.sealCtl.companions (lpn / 64) with
  | none => s
  | some c =>
    let d := c.done ||| bit1 (lpn % 64)
    let s1 := dirtyLeaf (lpn / 64) id s
    if d = BitVec.allOnes 64 then
      bump 0x0605 2 1 { s1 with sealCtl := { s1.sealCtl with companions := tdel s1.sealCtl.companions (lpn / 64) } }
    else { s1 with sealCtl := { s1.sealCtl with companions := tset s1.sealCtl.companions (lpn / 64) { c with done := d } } }

/-- R234: a counter node is lost. -/
def loseNode (level idx : Nat) (s : State) : State :=
  if s.sealCtl.lost.any (fun l => l.level == level && l.idx == idx && !l.replaced) then s
  else { s with sealCtl := { s.sealCtl with lost := s.sealCtl.lost ++ [{ level := level, idx := idx }] } }

/-- Whether a node is resident. -/
def resident (s : State) (level idx : Nat) : Bool :=
  if level = 1 then (leafAt s idx).cached else (nodeAt s level idx).cached

end Sys2Proof.Machine
end

