-- ==== Sys2Proof/Machine/MapOps.lean ====
section
/-! DEFINITION. The Waybill's shared operations: lookup (R298), overlay insertion (R296), poison marks (R327), the
journal tail (R305), placement (R299), tile bookkeeping (R312, R313, R324), and newly poisoned parcels (R62). -/

namespace Sys2Proof.Machine

/-- What a lookup finds (R298). -/
inductive MapRes where
  | zeros
  | poison
  | at_ (ppa : Nat)
  deriving DecidableEq, Repr

/-- A bale map entry (R293). -/
def baleAt (s : State) (lbi : Nat) : Bale := tgetD s.way.map.bales lbi {}
/-- R297: a bale's written map. -/
def sparseAt (s : State) (lbi : Nat) : BitVec 256 := tgetD s.way.map.sparse lbi 0

/-- R294, R298 orders 3 to 7: what a parcel without an overlay entry reads. -/
def baseRes (s : State) (lpn : Nat) : MapRes :=
  let b := baleAt s (lpnLbi lpn)
  match b.st with
  | .unwritten => .zeros
  | .overlay => .zeros
  | .baled => .at_ (basePpa b (lpn % 256))
  | .sparse => if (sparseAt s (lpnLbi lpn)).getLsbD (lpn % 256) then .at_ (basePpa b (lpn % 256)) else .zeros
  | .lost => .poison
  | .lostSparse => if (sparseAt s (lpnLbi lpn)).getLsbD (lpn % 256) then .poison else .zeros

/-- R298: the Waybill's lookup. -/
def lookup (s : State) (lpn : Nat) : MapRes :=
  match tget s.way.map.overlay lpn with
  | some e => (match e.kind with | .located => .at_ e.ppa | .poison => .poison)
  | none => baseRes s lpn

/-- R216: a parcel is unwritten when the map reads zeros for it. -/
def unwritten (s : State) (lpn : Nat) : Bool := lookup s lpn == .zeros
/-- R226: the bitmap of a leaf's unwritten parcels. -/
def unwrittenMap (s : State) (leaf : Nat) : BitVec 64 :=
  (List.range 64).foldl (fun m j => if unwritten s (leaf * 64 + j) then m ||| bit1 j else m) 0

/-- A tile entry (R312). -/
def tileAt (s : State) (t : Nat) : Tile := tgetD s.way.map.tiles t {}

/-- A location stops holding a current parcel. -/
def dropLoc (ppa : Nat) (s : State) : State := modTile (tileKey ppa) (fun t => { t with valid := t.valid - 1 }) s
/-- A location begins to hold a current parcel. -/
def addLoc (ppa : Nat) (s : State) : State := modTile (tileKey ppa) (fun t => { t with valid := t.valid + 1 }) s
/-- The location that an LPN has now becomes invalid. -/
def dropOld (lpn : Nat) (s : State) : State :=
  match lookup s lpn with | .at_ p => dropLoc p s | _ => s

/-- R305, R306: records enter the journal tail. -/
def journal (rs : List JRec) (s : State) : State :=
  { s with way := { s.way with tail := s.way.tail ++ rs, recsSinceRound := s.way.recsSinceRound + rs.length } }

/-- R296: the entries in a bucket. -/
def inBucket (m : Tbl OvEntry) (b : Nat) : List Nat := tkeys (m.filter (fun p => p.2.bucket = some b))

/-- R296: place an entry in a bucket, displacing entries for at most `fuel` moves; the last goes to the stash. -/
def placeEntry : Nat → Nat → OvEntry → Nat → Tbl OvEntry → Tbl OvEntry
  | 0, k, e, _, m => tset m k { e with bucket := none }
  | fuel + 1, k, e, b, m =>
    let occ := inBucket m b
    if occ.length < 4 then tset m k { e with bucket := some b }
    else
      let v := occ.getD (Config.displaced b k % 4) 0
      let ve := tgetD m v e
      placeEntry fuel v ve (if bucket0 v = b then bucket1 v else bucket0 v) (tset (tdel m v) k { e with bucket := some b })

/-- R296: the insert unit: a free slot of h0, or of h1, or displacement from h0. An LPN holds at most one entry. -/
def overlayPut (k : Nat) (e : OvEntry) (m0 : Tbl OvEntry) : Tbl OvEntry :=
  let m := tdel m0 k
  if (inBucket m (bucket0 k)).length < 4 then tset m k { e with bucket := some (bucket0 k) }
  else if (inBucket m (bucket1 k)).length < 4 then tset m k { e with bucket := some (bucket1 k) }
  else placeEntry 32 k e (bucket0 k) m

/-- R296: entries in the stash. -/
def stashOf (m : Tbl OvEntry) : Nat := (m.filter (fun p => p.2.bucket = none)).length

/-- R295: creation time of an entry: TB seconds modulo 4,096. -/
def nowStamp (s : State) : Nat := tbNow s / 1000000000 % 4096

/-- R293, R294: an overlay entry is created for a bale. -/
def baleCount (lbi : Nat) (s : State) : State :=
  let f := fun (b : Bale) => { b with st := if b.st = .unwritten then .overlay else b.st, ovcnt := min 63 (b.ovcnt + 1) }
  { s with way := { s.way with map := { s.way.map with bales := tmod s.way.map.bales lbi {} f } } }

/-- Create an overlay entry; the old location becomes invalid and the population is observed (R302). -/
def putEntry (lpn : Nat) (e : OvEntry) (s : State) : State :=
  let s1 := baleCount (lpnLbi lpn) (dropOld lpn s)
  let m := overlayPut lpn { e with lastWrite := nowStamp s } s1.way.map.overlay
  { s1 with way := { s1.way with map := { s1.way.map with overlay := m }
                                 stashUsed := stashOf m, peakPop := max s1.way.peakPop m.length, peakStash := max s1.way.peakStash (stashOf m) } }

/-- R180, R305: the overlay entry of a passed program becomes visible, and OVL_SET is appended in the same cycle. -/
def setLocated (lpn ppa : Nat) (wseq : BitVec 32) (s : State) : State :=
  journal [.ovlSet lpn ppa wseq] (addLoc ppa (putEntry lpn { kind := .located, ppa := ppa, wseq := wseq } s))

/-- R310, R311: the map pages that a lookup of an LPN touches: the bale map page (region 0, 5 B entries), the overlay page
(region 1, 64 B buckets) of each of its buckets, and the sparse table's (region 4, 64 B entries). -/
def pagesOf (lpn : Nat) : List Nat :=
  [lpnLbi lpn * 5 / 4096, 4294967296 + bucket0 lpn / 64, 4294967296 + bucket1 lpn / 64, 17179869184 + lpnLbi lpn / 64]

/-- R310: stripes of 32 pages. -/
def stripeOf (page : Nat) : Nat := page / 4294967296 * 4294967296 + page % 4294967296 / 32

/-- R311: whether a lookup of an LPN touches a stripe with two unreadable pages. -/
def stripeHeld (s : State) (lpn : Nat) : Bool := (pagesOf lpn).any (fun p => s.way.heldStripes.contains (stripeOf p))

/-- R310, R311: whether lookups and updates of an LPN are held. -/
def lookupHeld (s : State) (lpn : Nat) : Bool := stripeHeld s lpn || (pagesOf lpn).any (fun p => s.way.heldPages.contains p)

/-- R327: the POISON entry is made, and OVL_POISON appended. -/
def putMark (lpn : Nat) (s : State) : State := journal [.ovlPoison lpn] (putEntry lpn { kind := .poison } s)

/-- R327, R310: the parcel is recorded as poisoned, once no hold keeps its pages. -/
def poisonMark (lpn : Nat) (s : State) : State :=
  if lookupHeld s lpn then { s with way := { s.way with heldMarks := s.way.heldMarks.filter (· ≠ lpn) ++ [lpn] } } else putMark lpn s

/-! ### Poison lists (R62, R236, R408) -/

/-- R62: a parcel is newly poisoned: one General Media Event in the Failure log of each LD that maps it, and an entry
in its poison list. -/
def newlyPoisoned (lpn : Nat) (s : State) : State :=
  forAll (dpasOfLpn s lpn) (fun (p : Nat × Nat) t =>
    setChg 3 p.1 (modLd p.1 (fun l => { l with poisonList := l.poisonList ++ [{ dpa := p.2, len := 256 }] })
      (postEvent [p.1] 2 { evOf evMedia (lpn % 4294967296) (lpn / 4294967296) 0 0 with dpa := BitVec.ofNat 64 p.2, len := 256 } t))) s

/-- R62: whether a parcel is in the poison list of an LD that maps it, so that a later poisoned read adds nothing. -/
def listed (s : State) (lpn : Nat) : Bool :=
  (dpasOfLpn s lpn).any (fun p => (ldAt s p.1).poisonList.any (fun e => !e.injected && decide (e.dpa ≤ p.2) && decide (p.2 < e.dpa + e.len)))

/-- R236: what is left of an entry when a parcel inside it has been overwritten. -/
def splitEntry (d : Nat) (e : PoisonEnt) : List PoisonEnt :=
  if e.dpa ≤ d ∧ d < e.dpa + e.len then
    (if e.dpa < d then [{ e with len := d - e.dpa }] else []) ++
    (if d + 256 < e.dpa + e.len then [{ e with dpa := d + 256, len := e.dpa + e.len - (d + 256) }] else [])
  else [e]

/-- R236, R408: a parcel that has been fully overwritten leaves the poison lists. -/
def unlist (lpn : Nat) (s : State) : State :=
  forAll (dpasOfLpn s lpn) (fun (p : Nat × Nat) t =>
    modLd p.1 (fun l => { l with poisonList := l.poisonList.flatMap (splitEntry p.2) }) t) s

/-! ### Tiles and placement -/

/-- The least number not in an ascending list, from a start. -/
def firstAbsent : Nat → Nat → List Nat → Nat
  | 0, n, _ => n
  | f + 1, n, l => if l.contains n then firstAbsent f (n + 1) l else n

/-- R313: the FREE tile with the lowest WEAR of a bank, ties to the lower number. -/
def freeTile (s : State) (ch b : Nat) : Option Nat :=
  let ts := s.way.map.tiles.filter (fun p => tileCh p.1 = ch ∧ tileBank p.1 = b)
  let nums := ts.map (fun p => p.1 % 8192)
  let fresh := firstAbsent (nums.length + 1) 0 nums
  let cand : List (Nat × Nat) := (if fresh < (chan s ch).tilesPerBank then [(0, fresh)] else []) ++
    (ts.filter (fun p => p.2.st = .free)).map (fun p => (p.2.wear, p.1 % 8192))
  (cand.foldl (fun (m : Option (Nat × Nat)) c => match m with
    | none => some c
    | some x => if c.1 < x.1 ∨ (c.1 = x.1 ∧ c.2 < x.2) then some c else some x) none).map (·.2)

/-- R299: the roles of open tiles. -/
inductive Role where
  | hostLog
  | maintFast
  | maintDense
  deriving DecidableEq, Repr

/-- The key of an open tile: bank × 3 + role. -/
def roleKey (b : Nat) (r : Role) : Nat := b * 3 + (match r with | .hostLog => 0 | .maintFast => 1 | .maintDense => 2)
/-- Parcels of a tile in a class (R252). -/
def tileCap (c : TileClass) : Nat := if c = .dense then 12288 else 4096

/-- R313: open a FREE tile in a bank for a role, journaled with TILE_STATE. -/
def openTile (ch b : Nat) (r : Role) (s : State) : State :=
  match freeTile s ch b with
  | none => s
  | some n =>
    let k := tileMk ch b n
    let t : Tile := { tileAt s k with st := if r = .hostLog then .openHost else .openMaint,
                                      cls := if r = .maintDense then .dense else .fast, next := 0, reads := 0 }
    journal [.tileState k t] (modChan ch (fun x => { x with openTiles := tset x.openTiles (roleKey b r) k }) (modTile k (fun _ => t) s))

/-- R312: an open tile is FULL and no longer open. -/
def closeTile (ch b : Nat) (r : Role) (k : Nat) (s : State) : State :=
  journal [.tileState k { tileAt s k with st := .full }]
    (modChan ch (fun x => { x with openTiles := tdel x.openTiles (roleKey b r) }) (modTile k (fun t => { t with st := .full }) s))

/-- R312: a tile whose last parcel has been placed is FULL. -/
def closeIfFull (ch b : Nat) (r : Role) (k : Nat) (s : State) : State :=
  if tileCap (tileAt s k).cls ≤ (tileAt s k).next then closeTile ch b r k s else s

/-- R299: the first n parcels of a newly opened tile of a role. -/
def takeFresh (ch b : Nat) (r : Role) (n : Nat) (s : State) : Option (Nat × State) :=
  let s1 := openTile ch b r s
  (tget (chan s1 ch).openTiles (roleKey b r)).map (fun k =>
    (k * 16384, closeIfFull ch b r k (modTile k (fun t => { t with next := n }) s1)))

/-- R299, R35: the next unprogrammed parcel of a bank's open tile of a role, `n` parcels at once on an n-parcel boundary. A
tile that has not n parcels left is closed, and another opened. -/
def takeLoc (ch b : Nat) (r : Role) (n : Nat) (s : State) : Option (Nat × State) :=
  match tget (chan s ch).openTiles (roleKey b r) with
  | none => takeFresh ch b r n s
  | some k =>
    let p := ((tileAt s k).next + n - 1) / n * n
    if tileCap (tileAt s k).cls < p + n then takeFresh ch b r n (closeTile ch b r k s)
    else some (k * 16384 + p, closeIfFull ch b r k (modTile k (fun t => { t with next := p + n }) s))

/-- Programs queued on a bank (R299). -/
def bankLoad (b : Bank) : Nat := b.planned.length + (if b.seq.isSome then 1 else 0)

/-- R299, R154: the bank of a channel with the fewest programs queued, excluded banks and dies out of service left
out, ties to the lower number. -/
def leastBank (s : State) (ch : Nat) : Option Nat :=
  let x := chan s ch
  let c := (List.range 128).filter (fun b => !x.diesOut.getLsbD (b / 16) && decide ((bankOf x b).excludedUntil ≤ s.planner.stage))
  (c.foldl (fun (m : Option (Nat × Nat)) b => match m with
    | none => some (bankLoad (bankOf x b), b)
    | some y => if bankLoad (bankOf x b) < y.1 then some (bankLoad (bankOf x b), b) else some y) none).map (·.2)

/-- R299, R519: whether a channel may take a host program. In a flush R142 lifts the write-forbid test when every
channel is forbidden, and f_w. -/
def mayPlace (s : State) (c : Nat) : Bool :=
  let x := chan s c
  let all := (serving s).all (fun d => forbidden (chan s d))
  inService x &&
  (if s.belay.step ≠ 0 then (!forbidden x || all) && decide (0 < freeTiles s c)
   else !forbidden x && decide (8 ≤ freeTiles s c) && (x.plan.fW == 1024 || decide (x.progStarted < x.plan.hEff * x.plan.fW / 1024)))

/-- R299: the next channel in round-robin order that may take a host program. -/
def nextChannel (s : State) : Option Nat :=
  ((List.range 32).map (fun i => (s.planner.nextCh + i) % 32)).find? (mayPlace s)

/-- R299: a host program's location: channel, PPA. -/
def placeHost (s : State) : Option (Nat × Nat × State) :=
  match nextChannel s with
  | none => none
  | some c => match leastBank s c with
    | none => none
    | some b => (takeLoc c b .hostLog 1 { s with planner := { s.planner with nextCh := (c + 1) % 32 } }).map (fun r => (c, r.1, r.2))

/-- R304, R373: the partition that a program's wear is charged to. -/
def wearPart (w : WbEntry) : Nat := if w.creditPart = noPart then noPart else w.part

/-- A program joins a bank's planned pulse sequences (R127, R137). -/
def planSeq (c b : Nat) (p : PulseSeq) (s : State) : State := modBank c b (fun x => { x with planned := x.planned ++ [p] }) s

/-! ### Ledger tiles (R382, R384) -/

/-- R382: whether the ledger chain lists a tile. Its keys are copy × 8,192 + slot. -/
def ledgerTile (s : State) (k : Nat) : Bool := s.sad.img.ledgerChain.any (fun p => p.2 == k)

/-- R382, R384: a FREE tile, Fast, on the first channel other than one that has one; it is journaled full. -/
def takeLedgerTile (notCh : Option Nat) (s : State) : List Nat → Option (Nat × State)
  | [] => none
  | c :: cs =>
    if some c = notCh ∨ forbidden (chan s c) then takeLedgerTile notCh s cs
    else match (leastBank s c).bind (fun b => (freeTile s c b).map (tileMk c b)) with
      | none => takeLedgerTile notCh s cs
      | some k =>
        let t : Tile := { tileAt s k with st := .full, cls := .fast, next := 4096, valid := 4096, reads := 0 }
        some (k, journal [.tileState k t] (modTile k (fun _ => t) s))

/-- R382: a slot's tile of a copy enters the chain. -/
def setChain (n k : Nat) (s : State) : State := modImg [rk 11 (n / 256)] (fun m => { m with ledgerChain := tset m.ledgerChain n k }) s

/-- R384: the ledger slots of a tile move to another tile, on a channel other than the other copy's; what the other copy retains is
copied there (`copyLedger`). -/
def replaceLedger (k : Nat) (s : State) : State :=
  forAll (s.sad.img.ledgerChain.filter (fun p => p.2 = k)) (fun p t =>
    let other := (tget t.sad.img.ledgerChain ((p.1 + 8192) % 16384)).map tileCh
    match takeLedgerTile other t (serving t) with
    | none => t
    | some (x, u) =>
      let v := { u with reck := { u.reck with ledgerCopy := u.reck.ledgerCopy.filter (· ≠ p.1) ++ [p.1] } }
      emit 0x0305 0xFF (p.1 % 8192) (p.1 / 8192) (x * 16384 % 4294967296) (x * 16384 / 4294967296) (setChain p.1 x v)) s

/-- R324: retire a tile: it is journaled RETIRED, consumes a spare on a die in service, and record 0x0901 is written
(cause 1 reset, 2 program, 3 wear, 4 die). -/
def retireTile (k cause : Nat) (s : State) : State :=
  let t : Tile := { tileAt s k with st := .retired }
  let s1 := journal [.tileState k t] (modTile k (fun _ => t) s)
  let s2 := if cause = 4 then s1 else modChan (tileCh k) (fun x => { x with consumed := x.consumed + 1 }) s1
  replaceLedger k (emit 0x0901 (tileCh k) (k * 16384 % 4294967296) (k * 16384 / 4294967296) cause t.wear s2)

/-- R325: the crossings of spare remaining post events to the management LD and every tenant LD. -/
def spareCheck (s : State) : State :=
  let now := sparePct s
  let cross := fun (n : Nat) => decide (n < s.health.lastSpare) && spareAtMost s n
  let note := fun (n log : Nat) (t : State) =>
    if cross n then emit 0x0902 0xFF n (sparesInit s - sparesUsed s) (sparesInit s) 0
      (postEvent (mgmtLds s ++ tenantLds s) log (evOf 0x0902 n (sparesInit s - sparesUsed s) (sparesInit s) 0) t) else t
  let s1 := note 0 2 (note 1 2 (note 5 1 (note 10 1 s)))
  { s1 with health := { s1.health with lastSpare := min s.health.lastSpare (if spareAtMost s 10 then now else 100) } }

end Sys2Proof.Machine
end

