-- ==== Sys2Proof/Machine/Frames.lean ====
section
/-! DEFINITION. The command frames of the media channels (R264 to R268): 60 bits with even parity. -/

namespace Sys2Proof.Machine

/-- R265: bit 0 gives the frame an even number of ones. -/
def withParity (body : BitVec 59) : BitVec 60 := body ++ BitVec.ofNat 1 (popcount body)

/-- R265: an addressed frame. -/
def addressed (op : BitVec 4) (die : BitVec 3) (bank : BitVec 4) (tile : BitVec 13) (parcel : BitVec 14) (fast md : Bool)
    (param : BitVec 19) : BitVec 60 :=
  withParity (op ++ die ++ bank ++ tile ++ parcel ++ BitVec.ofBool fast ++ BitVec.ofBool md ++ param : BitVec 59)

/-- R265: a mask frame: BANKMASK in F[52:37]. -/
def maskFrame (op : BitVec 4) (die : BitVec 3) (mask : BitVec 16) (md : Bool) : BitVec 60 :=
  withParity (op ++ die ++ mask ++ (0 : BitVec 16) ++ BitVec.ofBool md ++ (0 : BitVec 19) : BitVec 59)

/-- R267: an addressed frame of a command at a PPA. -/
def ppaFrame (op : BitVec 4) (ppa : Nat) (fast md : Bool) (param : BitVec 19) : BitVec 60 :=
  addressed op (BitVec.ofNat 3 (ppaDie ppa)) (BitVec.ofNat 4 (ppaBank ppa % 16)) (BitVec.ofNat 13 (ppaTile ppa))
    (BitVec.ofNat 14 (ppaParcel ppa)) fast md param

/-- R267: a READ frame: MOD 0 names a drift set, MOD 1 the bank's retry register. -/
def readFrame (ppa : Nat) (fast retry : Bool) (set : Nat) : BitVec 60 :=
  ppaFrame 1 ppa fast retry (if retry then 0 else BitVec.ofNat 19 (set % 8))
/-- R267: PROG_PULSE with MOD 1 loads a page buffer. -/
def loadFrame (ppa : Nat) (fast : Bool) : BitVec 60 := ppaFrame 2 ppa fast true 0
/-- R267: PROG_PULSE with MOD 0 applies one pulse-verify pair on the masked banks. -/
def pulseFrame (bank : Nat) : BitVec 60 := maskFrame 2 (BitVec.ofNat 3 (bank / 16)) (bit1 (bank % 16)) false
/-- R267: VERIFY compares the cells with the page buffer without a pulse. -/
def verifyFrame (ppa : Nat) (fast : Bool) : BitVec 60 := ppaFrame 3 ppa fast false 0
/-- R267, R282: SEG_RESET_PULSE START names the segment. -/
def resetStartFrame (tile seg : Nat) (fast : Bool) : BitVec 60 := ppaFrame 4 (tile * 16384 + seg * 256) fast true 0
/-- R267, R282: the next reset pulse on the masked banks. -/
def resetPulseFrame (bank : Nat) : BitVec 60 := maskFrame 4 (BitVec.ofNat 3 (bank / 16)) (bit1 (bank % 16)) false
/-- R267: broadcast STATUS, the strobe (R269). -/
def statusFrame : BitVec 60 := addressed 5 0 0 0 0 false false 0
/-- R267: STATUS addressed to a die (R291). -/
def statusDieFrame (die : Nat) : BitVec 60 := addressed 5 (BitVec.ofNat 3 die) 0 0 0 false false 0
/-- R267: broadcast TEMP. -/
def tempFrame : BitVec 60 := addressed 6 0 0 0 0 false false 0
/-- R267: IDENT of a page. -/
def identFrame (page : Nat) : BitVec 60 := addressed 7 0 0 0 0 false false (BitVec.ofNat 19 (page % 256))
/-- R267: CAL of a type; type 1 is addressed to a bank. -/
def calFrame (typ bank : Nat) : BitVec 60 :=
  addressed 8 (BitVec.ofNat 3 (bank / 16)) (BitVec.ofNat 4 (bank % 16)) 0 0 false false (BitVec.ofNat 19 typ)

/-- R268: seven signed 4-bit offsets in F[48:21], T7 first. -/
def offsetBits (o : List Int) : BitVec 28 :=
  o.foldl (fun (m : BitVec 28) (x : Int) => (m <<< 4) ||| BitVec.ofNat 28 (x % 16).toNat) 0
/-- R268: THRESH_SET: MOD 0 loads a bank's retry register, MOD 1 stores a drift set of a die. -/
def threshFrame (bank : Nat) (o : List Int) (set : Option Nat) : BitVec 60 :=
  withParity ((9 : BitVec 4) ++ BitVec.ofNat 3 (bank / 16) ++ BitVec.ofNat 4 (bank % 16) ++ offsetBits o ++
    BitVec.ofBool set.isSome ++ BitVec.ofNat 19 (set.getD 0 % 8) : BitVec 59)

/-! ### Read thresholds (R268, R276, R278, R320, R321) -/

/-- R321: AGE_SET of an age in equivalent hours. -/
def ageSet (a : Nat) : Nat :=
  if a < 1 then 0 else if a < 4 then 1 else if a < 16 then 2 else if a < 64 then 3 else if a < 256 then 4
  else if a < 768 then 5 else if a < 1152 then 6 else 7

/-- The whole equivalent hours of a thermal clock in 1/1,024 h with its 2^20 fraction (R320). -/
def clockHours (x : Chan) : Nat := x.clock / 1048576 / 1024

/-- The key of a segment's stamp: tile × 64 + segment. -/
def stampKey (ppa : Nat) : Nat := tileKey ppa * 64 + ppaParcel ppa / 256

/-- R320: the age of a segment in equivalent hours. -/
def segAge (s : State) (ppa : Nat) : Nat :=
  (clockHours (chan s (ppaCh ppa)) + 16384 - tgetD s.way.map.stamps (stampKey ppa) 0 % 16384) % 16384

/-- R321: the drift set of a Dense read. -/
def driftSet (s : State) (ppa : Nat) : Nat :=
  let a := ageSet (segAge s ppa)
  if tgetD s.way.map.stamps (stampKey ppa) 0 / 16384 = 3 then a - 1 else a

/-- R320: the stamp of a segment programmed now. -/
def stampNow (s : State) (ch : Nat) : Nat :=
  let x := chan s ch
  let t := x.tMax.getD 0
  clockHours x % 16384 + 16384 * (if t < 400 then 0 else if t < 800 then 1 else if t < 1200 then 2 else 3)

/-- Whether a location lies in a Fast tile. -/
def isFast (s : State) (ppa : Nat) : Bool := (tileAt s (tileKey ppa)).cls != .dense

/-- R268, R321: the seven offsets that a first read uses. -/
def firstOffsets (s : State) (ppa : Nat) : List Int :=
  if isFast s ppa then List.replicate 7 0
  else tgetD (chan s (ppaCh ppa)).driftSets (ppaDie ppa * 8 + driftSet s ppa) (List.replicate 7 (driftSet s ppa : Int))

/-- R276: the RETRY_TABLE entry of retry 1 to 3. -/
def retryTable (fast : Bool) (n : Nat) : Int :=
  if fast then (if n = 1 then 1 else if n = 2 then 2 else -1) else (if n = 1 then 2 else if n = 2 then 4 else -2)

/-- R278: the offsets of the 8 deep re-reads. -/
def deepTable : List Int := [-6, -4, -2, 0, 2, 4, 6, 7]

/-- R276, R278: offsets added and saturated to -8 to +7. -/
def addOffset (o : List Int) (d : Int) : List Int := o.map (fun x => clampI (-8) 7 (x + d))

end Sys2Proof.Machine
end

