-- ==== Sys2Proof/Machine/Maint.lean ====
section
/-! DEFINITION. Maintenance programs and system parcels: their sealing (R301), their places (R221, R299, R306), the counter
tree on the medium (R220 to R224, R229), and what a program that passes lets go on (R229, R306, R307, R316, R382). -/

namespace Sys2Proof.Machine

/-! ### Capacity (R42) -/

/-- R42: raw Dense legs of a module. -/
def rawLegs (gen : Nat) : Nat := if gen = 3 then 3072 else if gen = 2 then 2048 else 0

/-- R42: the legs that the adopted modules' capacity is divided into: five sixths of their raw Dense capacity. -/
def legSpace (s : State) : Nat :=
  sumN (ids32.map (fun c => match (chan s c).st with
    | .active => rawLegs (chan s c).gen | .reduced => rawLegs (chan s c).gen | .failed => rawLegs (chan s c).gen | _ => 0)) * 5 / 6

/-- R42, R237: the exported legs: those of the capacity, less the retired ones. -/
def maxLegs (s : State) : Nat := legSpace s - s.gate.retiredLegs.length

/-- R288: whether a location's channel and die serve. -/
def served (s : State) (ppa : Nat) : Bool := inService (chan s (ppaCh ppa)) && !(chan s (ppaCh ppa)).diesOut.getLsbD (ppaDie ppa)

/-! ### System parcels (R301) -/

/-- R301: the first logical leg of a mapped system space (0x001, 0x002, 0x009, 0x00A): the counter tree A from 81,920, and
after its 366 legs the others. -/
def sysLeg (space : Nat) : Nat := if space = 1 then 81920 else if space = 2 then 82286 else if space = 9 then 82652 else 82653

/-- R301: the node parcels of the levels below a level, for the 81,920 legs of the largest configuration. -/
def treeBase (level : Nat) : Nat := sumN ((List.range (level - 1)).map (fun i => (nodesOf 81920 (i + 1) + 3) / 4))

/-- R301: the system LPN of a node parcel's copy. -/
def treeLpn (level q copy : Nat) : Nat := sysLeg (1 + copy) * 4194304 + treeBase level + q
/-- R69: the system LPN of an event-log parcel's copy. -/
def logLpn (n copy : Nat) : Nat := sysLeg (9 + copy) * 4194304 + n

/-- R301: the system slot that seals a space. -/
def slotOf (space : Nat) : Nat := if space ≤ 2 then 0 else if space = 7 ∨ space = 8 then 2 else 1

/-- R204: the key set of a system slot. -/
def sysKey (s : State) (space : Nat) : KeySet := tgetD s.sealCtl.sysKeys (slotOf space) { dataKey := 0, hashKey := 0, gen := 0 }

/-- R301: the WSEQ of a system parcel, from its program count or its number in its space. -/
def sysSeq (space n count : Nat) : BitVec 32 :=
  BitVec.ofNat 32 (if space ≤ 2 ∨ space = 9 ∨ space = 10 then count else if space ≤ 4 then n / 524288 else n)

/-- R301: a parcel of a system space is sealed at the space's next program count. -/
def sealSys (space lpn n : Nat) (body : SysBody) (s : State) : SysParcel × State :=
  let c := tgetD s.way.counts space 0 + 1
  ({ space := space, lpn := lpn, count := c, wseq := sysSeq space n c, root := s.keeper.root, body := body },
   { s with way := { s.way with counts := tset s.way.counts space c } })

/-- R215, R301: whether a system parcel opens under the keys in force as the parcel that is looked for. -/
def sysOpens (s : State) (space lpn : Nat) (p : SysParcel) : Bool :=
  p.space == space && p.lpn == lpn && thas s.sealCtl.sysKeys (slotOf space) && p.root == s.keeper.root

/-- What a location holds. -/
def loadAt (s : State) (ppa : Nat) : Option Load :=
  match tget s.medium.cells ppa with
  | some w => some (.word w)
  | none => (tget s.medium.sys ppa).map .sys

/-- A load is programmed at a location. -/
def putLoad (ppa : Nat) (l : Load) (m : Medium) : Medium :=
  match l with
  | .word w => { m with cells := tset m.cells ppa w }
  | .sys p => { m with sys := tset m.sys ppa p }

/-- The WSEQ of what a location holds (R261, R301). -/
def loadSeq : Load → BitVec 32
  | .word w => w.mdat.extractLsb' 29 32
  | .sys p => p.wseq

/-- A mapped system parcel that is read from its space, where its medium serves and it opens (R301). -/
def sysRead (s : State) (space lpn : Nat) : Option SysParcel :=
  match lookup s lpn with
  | .at_ p => if served s p then (tget s.medium.sys p).filter (sysOpens s space lpn) else none
  | _ => none

/-! ### Maintenance programs -/

/-- The outstanding program of a work. -/
def progOf (s : State) (w : MWork) : Option MProg := s.way.progs.find? (fun p => p.work = w)

/-- Change an outstanding program. -/
def modProg (w : MWork) (f : MProg → MProg) (s : State) : State :=
  { s with way := { s.way with progs := s.way.progs.map (fun p => if p.work = w then f p else p) } }

/-- Whether a pulse sequence carries one of some works. -/
def carries (hit : MWork → Bool) : PulseSeq → Bool
  | .maint w .. => hit w
  | _ => false

/-- Outstanding programs end: a sequence that has not started leaves its bank, and a location of one that runs is invalid. -/
def dropProgs (hit : MWork → Bool) (s : State) : State :=
  { s with way := { s.way with progs := s.way.progs.filter (fun p => !hit p.work) }
           chans := tmap s.chans (fun _ x => { x with banks := tmap x.banks (fun _ b => { b with planned := b.planned.filter (fun q => !carries hit q) }) }) }

/-- The channels that take maintenance programs, from one in rotation, but for one. -/
def maintChans (s : State) (n : Nat) (but : Option Nat) : List Nat :=
  ((List.range 32).map (fun i => (n + i) % 32)).filter (fun c =>
    inService (chan s c) && !forbidden (chan s c) && but != some c)

/-- R299: the first of some channels with a location for n Fast parcels in a maintenance tile. -/
def fastPlace (n : Nat) (s : State) : List Nat → Option (Nat × State)
  | [] => none
  | c :: cs => match (leastBank s c).bind (fun b => takeLoc c b .maintFast n s) with
    | some r => some r
    | none => fastPlace n s cs

/-- R221, R299: the channel of a work's other copy, which the work's own copy avoids while another channel serves. -/
def otherChan (s : State) (w : MWork) : Option Nat :=
  let at' := fun (o : MWork) (lpn : Option Nat) => match progOf s o with
    | some p => if p.placed then some (ppaCh p.ppa) else none
    | none => match lpn.map (lookup s) with | some (.at_ p) => some (ppaCh p) | _ => none
  if (serving s).length ≤ 1 then none
  else match w with
  | .tree l q c => at' (.tree l q (1 - c)) (some (treeLpn l q (1 - c)))
  | .log n c => at' (.log n (1 - c)) (some (logLpn n (1 - c)))
  | .page k i c => at' (.page k i (1 - c)) none
  | .dir c => at' (.dir (1 - c)) none
  | .copy _ keep => some (ppaCh keep)
  | _ => none

/-- R306: a lane's next tile: a FREE tile of the channel, opened Fast for maintenance. -/
def laneTile (c : Nat) (s : State) : Option (Nat × State) :=
  match leastBank s c with
  | none => none
  | some b => (freeTile s c b).map (fun n =>
      let k := tileMk c b n
      let t : Tile := { tileAt s k with st := .openMaint, cls := .fast, next := 0, reads := 0 }
      (k, journal [.tileState k t] (modTile k (fun _ => t) s)))

/-- R306: a lane with its open tile and the tile that continues it. -/
def openLane (c l : Nat) (s : State) : Option ((Nat × Nat) × State) :=
  match tget (chan s c).lanes l with
  | some x => some (x, s)
  | none => (laneTile c s).bind (fun a => (laneTile c a.2).map (fun b =>
      ((a.1, b.1), modChan c (fun x => { x with lanes := tset x.lanes l (a.1, b.1) }) b.2)))

/-- R306, R312: a lane goes on in the tile that continues it. -/
def nextLane (c l : Nat) (s : State) : State :=
  match tget (chan s c).lanes l with
  | none => s
  | some (k, n) =>
    let t := journal [.tileState k { tileAt s k with st := .full }] (modTile k (fun y => { y with st := .full }) s)
    match laneTile c t with
    | some (m, u) => modChan c (fun x => { x with lanes := tset x.lanes l (n, m) }) u
    | none => modChan c (fun x => { x with lanes := tdel x.lanes l }) t

/-- R306: the next location of a lane, and the tile that continues it. -/
def laneLoc (c l : Nat) (s0 : State) : Option ((Nat × Nat) × State) :=
  let s := match tget (chan s0 c).lanes l with
    | some (k, _) => if 4096 ≤ (tileAt s0 k).next then nextLane c l s0 else s0
    | none => s0
  (openLane c l s).map (fun r =>
    let p := (tileAt r.2 r.1.1).next
    ((r.1.1 * 16384 + p, r.1.2 * 16384), modTile r.1.1 (fun t => { t with next := p + 1 }) r.2))

/-- R306: the channel of a journal parcel's copy. -/
def journalCh (s : State) (j copy : Nat) : Option Nat :=
  let cs := serving s
  cs[(j + (if copy = 0 then 0 else cs.length / 2)) % cs.length]?

/-- R382: the place of a ledger parcel's copy, which its slot's tile fixes. -/
def ledgerLoc (s : State) (minute k copy : Nat) : Option Nat :=
  let p := minute % 64800
  (tget s.sad.img.ledgerChain (copy * 8192 + p / 8)).map (fun t => t * 16384 + 512 * (p % 8) + k)

/-- R306: the tile that continues a lane stands in the parcel itself. -/
def setNext (n : Nat) (l : Load) : Load :=
  match l with
  | .sys p => match p.body with
    | .journal j _ => .sys { p with body := .journal j n }
    | _ => l
  | _ => l

/-- A program's location is settled and its sequence joins the bank, to start in a stage or later. -/
def putProg (w : MWork) (ppa after : Nat) (s : State) : State :=
  match progOf s w with
  | none => s
  | some p =>
    planSeq (ppaCh ppa) (ppaBank ppa) (.maint w ppa p.fast 0 after)
      (modProg w (fun p => { p with ppa := ppa, placed := true, passed := false }) s)

/-- R221, R299, R306, R382: a waiting program gets its location, if there is one. -/
def placeProg (after : Nat) (w : MWork) (s : State) : State :=
  match w with
  | .journal j c => match (journalCh s j c).bind (fun ch => laneLoc ch (j % 8) s) with
    | some ((ppa, n), t) => putProg w ppa after (modProg w (fun p => { p with load := setNext n p.load }) t)
    | none => s
  | .ledger m k c => match ledgerLoc s m k c with
    | some ppa => if inService (chan s (ppaCh ppa)) && (tileAt s (tileKey ppa)).st != .resetting then putProg w ppa after s else s
    | none => s
  | .bale .. => s
  | .sweep _ src => match fastPlace 1 s [ppaCh src] with
    | some (ppa, t) => putProg w ppa after t
    | none => s
  | _ => match fastPlace 1 s (maintChans s (tgetD s.way.counts 1 0 + tgetD s.way.counts 5 0) (otherChan s w)) with
    | some (ppa, t) => putProg w ppa after t
    | none => s

/-- A maintenance program is asked for. -/
def askProg (w : MWork) (l : Load) (s : State) : State :=
  placeProg 0 w { s with way := { s.way with progs := s.way.progs ++ [{ work := w, load := l }] } }

/-- A system parcel is sealed, and a program of it asked for. -/
def askSys (w : MWork) (space lpn n : Nat) (body : SysBody) (s : State) : State :=
  let r := sealSys space lpn n body s
  askProg w (.sys r.1) r.2

/-- Both copies of a work have passed verify: their locations. -/
def bothPassed (s : State) (w : Nat → MWork) : Option (Nat × Nat) :=
  match progOf s (w 0), progOf s (w 1) with
  | some a, some b => if a.passed && b.passed then some (a.ppa, b.ppa) else none
  | _, _ => none

/-- R299, R229: the new locations of a mapped system parcel's copies are committed through the map. -/
def commitCopies (w : Nat → MWork) (lpn : Nat → Nat) (s : State) : State :=
  match progOf s (w 0), progOf s (w 1), bothPassed s w with
  | some a, some b, some (pa, pb) =>
    dropProgs (fun x => x == w 0 || x == w 1)
      (setLocated (lpn 1) pb (loadSeq b.load) (setLocated (lpn 0) pa (loadSeq a.load) s))
  | _, _, _ => s

/-! ### Nodes in their 64 bytes (R217, R218, R222) -/

/-- R217: a leaf's 512 bits. -/
def leafLine (major : BitVec 64) (minors : Vector (BitVec 7) 64) : BitVec 512 :=
  (List.range 64).foldl (fun (m : BitVec 512) j => m ||| ((minors.toList.getD j 0).zeroExtend 512 <<< (64 + 7 * j))) (major.zeroExtend 512)

/-- R218: an upper node's 512 bits. -/
def nodeLine (ctr : Vector (BitVec 56) 8) (mac : BitVec 64) : BitVec 512 :=
  (List.range 8).foldl (fun (m : BitVec 512) k => m ||| ((ctr.toList.getD k 0).zeroExtend 512 <<< (56 * k))) (mac.zeroExtend 512 <<< 448)

/-- R217: the leaf of 512 bits. -/
def lineLeaf (x : BitVec 512) : Leaf :=
  { major := x.extractLsb' 0 64, minors := Vector.ofFn (fun (j : Fin 64) => x.extractLsb' (64 + 7 * j.val) 7), cached := true }

/-- R218: the node of 512 bits. -/
def lineNode (x : BitVec 512) : Node :=
  { ctr := Vector.ofFn (fun (k : Fin 8) => x.extractLsb' (56 * k.val) 56), cached := true }

/-- R222: the mask block of a node. -/
def nodeMask (level idx : Nat) (parent : BitVec 56) : BitVec 128 :=
  ((1 : BitVec 1) ++ BitVec.ofNat 4 level ++ BitVec.ofNat 39 idx ++ parent ++ (0 : BitVec 28) : BitVec 128)

/-- R213, R222: the leftmost 64 bits of GHASH of additional data and data in blocks, XOR AES of a mask block. -/
def treeMac (k : KeySet) (aad data : List (BitVec 128)) (aadBits dataBits : Nat) (mask : BitVec 128) : BitVec 64 :=
  (ghashBlocks k.hashKey (aad.map revBlock ++ data.map revBlock ++ [(BitVec.ofNat 64 aadBits ++ BitVec.ofNat 64 dataBits : BitVec 128)]) ^^^
    aes256 k.dataKey mask).extractLsb' 64 64

/-- The 128-bit blocks of a 512-bit line. -/
def lineBlocks (x : BitVec 512) : List (BitVec 128) := (List.range 4).map (fun i => x.extractLsb' (128 * i) 128)

/-- R222: an upper node's MAC: over its eight counters, with its level and index. -/
def nodeMac (k : KeySet) (level idx : Nat) (parent : BitVec 56) (x : BitVec 512) : BitVec 64 :=
  treeMac k [(BitVec.ofNat 56 idx ++ BitVec.ofNat 8 level : BitVec 64).zeroExtend 128] (lineBlocks (x &&& (BitVec.allOnes 448).zeroExtend 512)) 64 448
    (nodeMask level idx parent)

/-- R222: a node parcel's spare MAC: over its 256 bytes, with its four parent counters. -/
def spareMac (k : KeySet) (level q : Nat) (parents : List (BitVec 56)) (lines : List (BitVec 512)) : BitVec 64 :=
  let ps := (List.range 4).foldl (fun (m : BitVec 256) i => m ||| ((parents.getD i 0).zeroExtend 256 <<< (56 * i))) 0
  treeMac k [ps.extractLsb' 0 128, ps.extractLsb' 128 128] (lines.flatMap lineBlocks) 224 2048 (nodeMask level (4 * q) (parents.getD 0 0))

/-- The four parent counters of a node parcel. -/
def fourParents (s : State) (level q : Nat) : List (BitVec 56) := (List.range 4).map (fun i => parentCtr s level (4 * q + i))

/-- R222: whether a node parcel's image verifies a node under its parent. -/
def lineOk (s : State) (level idx : Nat) (lines : List (BitVec 512)) (spare : BitVec 64) : Bool :=
  let k := sysKey s 1
  spareMac k level (idx / 4) (fourParents s level (idx / 4)) lines == spare &&
  (level == 1 || nodeMac k level idx (parentCtr s level idx) (lines.getD (idx % 4) 0) == (lines.getD (idx % 4) 0).extractLsb' 448 64)

/-- R221: a node's line and companion lines in a copy, where the copy serves and verifies; `bad`: it fails LDPC decode. -/
def copyLine (s : State) (level idx copy : Nat) (bad : Bool) : Option (BitVec 512 × Option Companion) :=
  if bad then none
  else match (sysRead s (1 + copy) (treeLpn level (idx / 4) copy)).map SysParcel.body with
  | some (SysBody.tree lines comps spare) =>
    if lineOk s level idx lines spare then some (lines.getD (idx % 4) 0, tget comps idx) else none
  | _ => none

/-- A node parcel on its way to the medium stands in the write buffer, where it is trusted (R223). -/
def flyingLine (s : State) (level idx : Nat) : Option (BitVec 512) :=
  match (progOf s (.tree level (idx / 4) 0)).map MProg.load with
  | some (Load.sys p) => (match p.body with | .tree lines _ _ => lines[idx % 4]? | _ => none)
  | _ => none

/-- R217, R218, R220: whether a node parcel has never been programmed since its nodes were created. -/
def asCreated (s : State) (level idx : Nat) : Bool :=
  (lookup s (treeLpn level (idx / 4) 0) == .zeros || s.tree.fresh.any (fun f => decide (level ≤ f.1) && idx / 8 ^ (f.1 - level) == f.2.1)) &&
  (parentCtr s level idx).extractLsb' 0 48 == 0

/-! ### Residence (R223) -/

/-- R223: the sets of the counter cache: 16 GiB in 64 B lines, 16-way. -/
def ctrSets : Nat := 16777216
/-- R223: the set of a node of levels 1 to 3. -/
def nodeSet (key : Nat) : Nat := (key % 1099511627776 + key / 1099511627776 * 5592405) % ctrSets

/-- A node becomes the most recently used of the cache. -/
def useNode (level idx : Nat) (s : State) : State :=
  if 3 < level then s
  else { s with sealCtl := { s.sealCtl with lru := nodeKey level idx :: s.sealCtl.lru.filter (· ≠ nodeKey level idx) } }

/-- Put a node's line in the cache. -/
def loadLine (level idx : Nat) (x : BitVec 512) (s : State) : State :=
  useNode level idx (if level = 1 then modLeaf idx (fun _ => lineLeaf x) s else modNode level idx (fun _ => lineNode x) s)

/-- A node as created becomes resident. -/
def loadNew (level idx : Nat) (s : State) : State :=
  useNode level idx (if level = 1 then modLeaf idx (fun l => { l with cached := true }) s else modNode level idx (fun n => { n with cached := true }) s)

/-- Whether a node is dirty. -/
def nodeDirty (s : State) (level idx : Nat) : Bool :=
  if level = 1 then (leafAt s idx).dirty else (nodeAt s level idx).dirty

/-! ### Writeback (R229) -/

/-- R229 step 2: a resident node's line under its raised parent counter; a node that is lost for good stands as zeros. -/
def lineOf (s : State) (level idx : Nat) : BitVec 512 :=
  if !resident s level idx then 0
  else if level = 1 then leafLine (leafAt s idx).major (leafAt s idx).minors
  else
    let c := nodeLine (nodeAt s level idx).ctr 0
    c ||| ((nodeMac (sysKey s 1) level idx (parentCtr s level idx) c).zeroExtend 512 <<< 448)

/-- A node is clean. -/
def cleanNode (level idx : Nat) (s : State) : State :=
  let t := { s with sealCtl := { s.sealCtl with dirtyOrder := s.sealCtl.dirtyOrder.filter (· ≠ nodeKey level idx) } }
  if level = 1 then modLeaf idx (fun l => { l with dirty := false }) t else modNode level idx (fun n => { n with dirty := false }) t

/-- A sibling that is not resident is brought in from a copy, or stands as created, before its parent counter is raised. -/
def bringSibling (level idx : Nat) (s : State) : State :=
  if resident s level idx then s
  else match flyingLine s level idx with
  | some x => loadLine level idx x s
  | none =>
    if asCreated s level idx then loadNew level idx s
    else match (copyLine s level idx 0 false).orElse (fun _ => copyLine s level idx 1 false) with
      | some (x, _) => loadLine level idx x s
      | none => loseNode level idx s

/-- The nodes of a node parcel that the configuration has (R220). -/
def fourNodes (s : State) (level q : Nat) : List Nat :=
  ((List.range 4).map (fun i => 4 * q + i)).filter (fun i => decide (i < nodesOf (legSpace s) level))

/-- R234: a node parcel with a lost node that is still to be replaced. -/
def parcelLost (s : State) (level q : Nat) : Bool :=
  s.sealCtl.lost.any (fun l => l.level == level && l.idx / 4 == q && !l.replaced && !l.retired)

/-- R229, R234: a node parcel on its way, or with a lost node still to be replaced, waits. -/
def parcelWaits (s : State) (level q : Nat) : Bool :=
  (progOf s (.tree level q 0)).isSome || (progOf s (.tree level q 1)).isSome || parcelLost s level q

/-- R229: a node parcel is written back: its nodes' parent counters are raised, the MACs computed, and both copies asked for. One
that is on its way, or holds a lost node still to be replaced (R234), waits. -/
def writeParcel (level q : Nat) (s0 : State) : State :=
  let four := fourNodes s0 level q
  let s := forAll four (bringSibling level) s0
  if parcelWaits s level q || four.isEmpty then s
  else
    let t := forAll four (cleanNode level) (forAll four (bumpParent level) s)
    let lines := (List.range 4).map (fun i => if 4 * q + i < nodesOf (legSpace s) level then lineOf t level (4 * q + i) else 0)
    let comps := if level = 1 then t.sealCtl.companions.filter (fun p => p.1 / 4 = q) else []
    let body := SysBody.tree lines comps (spareMac (sysKey t 1) level q (fourParents t level q) lines)
    askSys (.tree level q 1) 2 (treeLpn level q 1) 0 body (askSys (.tree level q 0) 1 (treeLpn level q 0) 0 body t)

/-- R223: a node leaves the cache: its cached children first, and a dirty one is written back. -/
def evictNode : Nat → Nat → Nat → State → State
  | 0, _, _, s => s
  | fuel + 1, level, idx, s =>
    if !resident s level idx then s
    else
      let s1 := if level = 1 then s else forAll ((List.range 8).map (fun j => 8 * idx + j)) (evictNode fuel (level - 1)) s
      let s2 := if nodeDirty s1 level idx then writeParcel level (idx / 4) s1 else s1
      if nodeDirty s2 level idx then s2
      else
        let t := { s2 with sealCtl := { s2.sealCtl with lru := s2.sealCtl.lru.filter (· ≠ nodeKey level idx) } }
        if level = 1 then modLeaf idx (fun l => { l with cached := false }) t else modNode level idx (fun n => { n with cached := false }) t

/-- R223: room in a set of 16 ways: its least recently used node leaves. -/
def makeRoom (level idx : Nat) (s : State) : State :=
  let mine := s.sealCtl.lru.filter (fun k => nodeSet k == nodeSet (nodeKey level idx) && k != nodeKey level idx)
  if mine.length < 16 then s
  else match mine.getLast? with
    | some k => evictNode 4 (k / 1099511627776) (k % 1099511627776) s
    | none => s

/-! ### Fetching (R224, R233, R234) -/

/-- R224: the copy that is read first: the one whose channel has more host transfers left, and its read takes one of them. -/
def firstCopy (s : State) (level idx : Nat) : Nat :=
  let left := fun (copy : Nat) => match lookup s (treeLpn level (idx / 4) copy) with
    | .at_ p => (chan s (ppaCh p)).hostLeft | _ => 0
  if left 0 < left 1 then 1 else 0

/-- R224: the read of a copy takes a transfer of its channel. -/
def chargeCopy (level idx copy : Nat) (s : State) : State :=
  match lookup s (treeLpn level (idx / 4) copy) with
  | .at_ p => modChan (ppaCh p) (fun x => { x with hostLeft := x.hostLeft - 1 }) s
  | _ => s

/-- R224: the good copy of a node parcel is programmed in place of the failed one, as maintenance work. -/
def repairCopy (level q failed : Nat) (s : State) : State :=
  match sysRead s (2 - failed) (treeLpn level q (1 - failed)) with
  | some p => if (progOf s (.tree level q failed)).isSome then s
      else askSys (.tree level q failed) (1 + failed) (treeLpn level q failed) 0 p.body s
  | none => s

/-- R224, R234: fetch and verify one node of a path: a failing copy is re-read from the other and repaired; two failing
copies lose the node. `errs` names the copies that fail LDPC decode. -/
def fetchNode (errs : List NodeErr) (level idx : Nat) (s0 : State) : State :=
  if resident s0 level idx then useNode level idx s0
  else
    let s := makeRoom level idx s0
    match flyingLine s level idx with
    | some x => loadLine level idx x s
    | none =>
      if asCreated s level idx then loadNew level idx s
      else
        let e := errs.find? (fun e => e.level == level && e.idx == idx)
        let bad := fun (c : Nat) => match e with | some e => if c = 0 then e.copyA else e.copyB | none => false
        let a := firstCopy s level idx
        let s1 := chargeCopy level idx a s
        match copyLine s1 level idx a (bad a) with
        | some (x, _) => loadLine level idx x s1
        | none =>
          let s2 := chargeCopy level idx (1 - a) s1
          match copyLine s2 level idx (1 - a) (bad (1 - a)) with
          | some (x, _) => repairCopy level (idx / 4) a (loadLine level idx x (emit 0x0602 0xFF level idx 0 a s2))
          | none => loseNode level idx s2

/-- R224: fetch the missing nodes of a parcel's path, highest first. -/
def fetchPath (errs : List NodeErr) (lpn : Nat) (s : State) : State :=
  if underLost s lpn then s
  else
    let s3 := fetchNode errs 3 (nodeIdx lpn 3) s
    let s2 := if underLost s3 lpn then s3 else fetchNode errs 2 (nodeIdx lpn 2) s3
    if underLost s2 lpn then s2 else fetchNode errs 1 (nodeIdx lpn 1) s2

/-- R301: the level and index of the node parcel at a place of a tree space. -/
def treePos (off : Nat) : Nat × Nat :=
  let l := ((List.range 11).filter (fun i => decide (treeBase (i + 1) ≤ off))).length
  (l, off - treeBase l)

/-- R69: the good copy of an event-log parcel is programmed in place of the failed one. -/
def repairLog (n failed : Nat) (s : State) : State :=
  match sysRead s (10 - failed) (logLpn n (1 - failed)) with
  | some p => if (progOf s (.log n failed)).isSome then s
      else askSys (.log n failed) (9 + failed) (logLpn n failed) 0 p.body s
  | none => s

/-- R224, R69: a mapped system parcel that cannot be read is programmed again from its other copy. -/
def repairSys (lpn : Nat) (s : State) : State :=
  let leg := lpn / 4194304
  let off := fun (space : Nat) => lpn - sysLeg space * 4194304
  if leg < sysLeg 1 then s
  else if leg < sysLeg 2 then repairCopy (treePos (off 1)).1 (treePos (off 1)).2 0 s
  else if leg < sysLeg 9 then repairCopy (treePos (off 2)).1 (treePos (off 2)).2 1 s
  else if leg < sysLeg 10 then repairLog (off 9) 0 s else repairLog (off 10) 1 s

/-! ### Counter checkpoints (R229, R230, R232) -/

/-- R230: the keeper stores the Summit into the older copy with SUMMIT_SEQ + 1. -/
def storeSummit (s : State) : State :=
  let k := s.keeper
  let n := k.summitSeq + 1
  let older := match k.nvA, k.nvB with
    | none, _ => true
    | some _, none => false
    | some a, some b => decide (a.1 ≤ b.1)
  { s with keeper := { k with summitSeq := n, summitChanged := false, summitWaits := false
                              nvA := if older then some (n, k.summit) else k.nvA
                              nvB := if older then k.nvB else some (n, k.summit) } }

/-- The node parcels of a level that have a dirty node, the oldest first. -/
def dirtyParcels (s : State) (level : Nat) : List Nat :=
  ((s.sealCtl.dirtyOrder.filter (fun k => k / 1099511627776 = level)).map (fun k => k % 1099511627776 / 4)).eraseDups

/-- Whether a node parcel of a level is on its way to the medium. -/
def treeFlying (s : State) (level : Nat) : Bool :=
  s.way.progs.any (fun p => match p.work with | .tree l _ _ => l == level | _ => false)

/-- R229, R232: a checkpoint writes its level; once all of it has passed verify, the next, and after level 11 the Summit.
It pauses while the slots are zeroed (R210). A flush does not wait for the replacement of a lost node. -/
def treeGoesOn : Nat → State → State
  | 0, s => s
  | fuel + 1, s => match s.sealCtl.ckptLevel with
    | none => s
    | some l =>
      if s.sealCtl.zeroed then s
      else if 11 < l then
        let t := { s with sealCtl := { s.sealCtl with ckptLevel := none } }
        if storeAllowed t then storeSummit t else { t with keeper := { t.keeper with summitWaits := true } }
      else
        let d := dirtyParcels s l
        let t := forAll d (writeParcel l) { s with belay := { s.belay with
          nodeParcels := s.belay.nodeParcels + (if s.belay.step = 0 then 0 else d.length) } }
        let left := (dirtyParcels t l).filter (fun q => s.belay.step == 0 || !parcelLost t l q)
        if treeFlying t l || !left.isEmpty then t
        else treeGoesOn fuel { t with sealCtl := { t.sealCtl with ckptLevel := some (l + 1) } }

/-! ### Checkpoint rounds and the ledger (R307, R382) -/

/-- R307: the key of a map page: region × 2^32 + page. -/
def pageKey (region page : Nat) : Nat := region * 4294967296 + page

/-- R307: the page of each entry, of 4 KiB: bale map 5 B, overlay buckets of 64 B and the stash, sparse 64 B, tiles 16 B,
stamps 2 B. -/
def ovPage (e : OvEntry) : Nat := pageKey 1 (e.bucket.getD 268435456 / 64)

/-- R307: the entries of an image that lie in a page. -/
def pageImage (m : MapImage) (k : Nat) : MapImage :=
  { bales := if k / 4294967296 = 0 then m.bales.filter (fun p => pageKey 0 (p.1 * 5 / 4096) = k) else []
    overlay := if k / 4294967296 = 1 then m.overlay.filter (fun p => ovPage p.2 = k) else []
    stamps := if k / 4294967296 = 2 then m.stamps.filter (fun p => pageKey 2 (p.1 / 2048) = k) else []
    tiles := if k / 4294967296 = 3 then m.tiles.filter (fun p => pageKey 3 (p.1 / 256) = k) else []
    sparse := if k / 4294967296 = 4 then m.sparse.filter (fun p => pageKey 4 (p.1 / 64) = k) else [] }

/-- R307: the pages that an image's entries lie in. -/
def imagePages (m : MapImage) : List Nat :=
  (m.bales.map (fun p => pageKey 0 (p.1 * 5 / 4096)) ++ m.overlay.map (fun p => ovPage p.2) ++ m.stamps.map (fun p => pageKey 2 (p.1 / 2048)) ++
   m.tiles.map (fun p => pageKey 3 (p.1 / 256)) ++ m.sparse.map (fun p => pageKey 4 (p.1 / 64))).eraseDups

/-- R307: the pages that differ between two images. -/
def changedPages (a b : MapImage) : List Nat :=
  ((imagePages a ++ imagePages b).eraseDups).filter (fun k => decide (pageImage a k ≠ pageImage b k))

/-- R307, R301: a page of a round is programmed in both copies, 16 parcels each; its ordinals follow its place in the
round. -/
def askPage (r : Round) (k ord : Nat) (s : State) : State :=
  forAll ((List.range 16).flatMap (fun i => [(i, 0), (i, 1)])) (fun x t =>
    askSys (.page k x.1 x.2) (5 + x.2) (ord * 16 + x.1) r.num
      (if x.1 = 0 then .page (k / 4294967296) (k % 4294967296) (pageImage r.image k) else .pageRest) t) s

/-- The system parcels on the medium that some test holds of, but those that a newer program of the same parcel supersedes. -/
def newestSys (s : State) (hit : SysParcel → Bool) : Tbl SysParcel :=
  let l := s.medium.sys.filter (fun p => hit p.2)
  l.filter (fun p => !l.any (fun q => q.2.space == p.2.space && q.2.lpn == p.2.lpn && q.2.wseq == p.2.wseq && decide (p.2.count < q.2.count)))

/-- R307: the 16 parcels of the page copy whose first parcel lies at a location. -/
def pageParcels (s : State) (ppa : Nat) : Tbl SysParcel :=
  match tget s.medium.sys ppa with
  | some x => newestSys s (fun p => p.space == x.space && p.wseq == x.wseq && p.lpn / 16 == x.lpn / 16)
  | none => []

/-- R307: what a page's copy holds, where all of its parcels open. -/
def pageAt (s : State) (key ppa : Nat) : Option MapImage :=
  let ps := pageParcels s ppa
  if (List.range 16).all (fun i => ps.any (fun p => p.2.lpn % 16 == i && served s p.1 && sysOpens s p.2.space p.2.lpn p.2)) then
    match (tget s.medium.sys ppa).map SysParcel.body with
    | some (SysBody.page r q img) => if pageKey r q = key then some img else none
    | _ => none
  else none

/-- R306: the journal parcels from a JSEQ on, and before another, both copies. -/
def journalFrom (s : State) (a b : Nat) : Tbl SysParcel :=
  newestSys s (fun p => match p.body with | .journal j _ => decide (a ≤ j.jseq) && decide (j.jseq < b) | _ => false)

/-- R307: the locations that a recovery from a directory reads: both copies of its pages, of itself, and of the journal. -/
def recoveryPpas (s : State) (dir : Tbl (Nat × Nat)) (c : CkptRec) (a b : Nat) : List Nat :=
  dir.flatMap (fun p => tkeys (pageParcels s p.2.1) ++ tkeys (pageParcels s p.2.2)) ++ (if c.round = 0 then [] else [c.dirA, c.dirB]) ++ tkeys (journalFrom s a b)

/-- R326: the surviving copy of a system parcel that no map names. -/
def survivor (s : State) (x : SysParcel) (ppas : List Nat) : Option (Nat × SysParcel) :=
  let other := if x.space % 2 = 1 then x.space + 1 else x.space - 1
  ppas.findSome? (fun q => match tget s.medium.sys q with
    | some y => if y.space = other ∧ y.lpn = x.lpn ∧ y.wseq = x.wseq ∧ served s q ∧ sysOpens s other x.lpn y then some (q, y) else none
    | none => none)

/-- R326: a lost copy of a system parcel is sealed again in its space from the surviving one, and its program asked for. -/
def copyLost (src : Nat) (ppas : List Nat) (s : State) : State :=
  match tget s.medium.sys src with
  | none => s
  | some x => match survivor s x ppas with
    | none => s
    | some (q, y) =>
      let c := tgetD s.way.counts x.space 0 + 1
      askProg (.copy src q) (.sys { y with space := x.space, count := c }) { s with way := { s.way with counts := tset s.way.counts x.space c } }

/-- Whether a program of a round is outstanding. -/
def roundFlying (s : State) : Bool :=
  s.way.progs.any (fun p => match p.work with | .page .. => true | .dir _ => true | _ => false)

/-- R307: a page both of whose copies have passed whole enters the directory. -/
def pageDone (k : Nat) (s : State) : State :=
  match s.way.round, bothPassed s (.page k 0) with
  | some r, some (pa, pb) =>
    if (List.range 16).all (fun i => (bothPassed s (.page k i)).isSome) then
      dropProgs (fun w => match w with | .page x _ _ => x == k | _ => false)
        { s with way := { s.way with round := some { r with dir := tset r.dir k (pa, pb) } } }
    else s
  | _, _ => s

/-- R307: the running round goes on: its next page, and after the last one the directory of the newest copy of every page. -/
def roundGoesOn (s : State) : State :=
  match s.way.round with
  | none => s
  | some r =>
    if roundFlying s || r.dirWritten then s
    else match r.todo with
    | k :: rest => askPage r k (r.dir.length) { s with way := { s.way with round := some { r with todo := rest } } }
    | [] =>
      let d := r.dir.foldl (fun t p => tset t p.1 p.2) (s.way.dir.filter (fun p => (imagePages r.image).contains p.1))
      let s1 := { s with way := { s.way with round := some { r with dir := d, dirWritten := true } } }
      let n := r.dir.length * 16
      askSys (.dir 1) 6 n r.num (.dir r.num d) (askSys (.dir 0) 5 n r.num (.dir r.num d) s1)

/-- R382: the records of partitions 2k and 2k + 1 of a minute. -/
def ledgerPart (b : MinuteBank) (k : Nat) : MinuteBank :=
  { b with recs := b.recs.filter (fun p => p.1 / 2 = k), hists := [], counts := [] }

/-- R382, R383: the next 8 parcels of the minute block that is being programmed, in both copies. -/
def askBlock (m : MinuteBank) (k : Nat) (s : State) : State :=
  forAll ((List.range 8).flatMap (fun i => [(k + i, 0), (k + i, 1)])) (fun x t =>
    askSys (.ledger m.minute x.1 x.2) (7 + x.2) ((m.minute * 512 + x.1) % 549755813888) m.minute (.ledger (ledgerPart m x.1)) t) s

/-- R382: the readable ledger parcels of a slot of the chain, copy × 8,192 + slot, by PPA. -/
def ledgerParcels (s : State) (key : Nat) : Tbl SysParcel :=
  match tget s.sad.img.ledgerChain key with
  | none => []
  | some t => s.medium.sys.filter (fun p => tileKey p.1 == t && served s p.1 && (p.2.space == 7 || p.2.space == 8) && sysOpens s p.2.space p.2.lpn p.2)

/-- R382: a ledger parcel's ordinal and what it holds, where it stands in a position. -/
def ledgerPiece (pos : Nat) (p : Nat × SysParcel) : Option (Nat × MinuteBank) :=
  match p.2.body with
  | .ledger b => if b.minute % 64800 = pos ∧ ppaParcel p.1 = 512 * (pos % 8) + p.2.lpn % 512 then some (p.2.lpn % 512, b) else none
  | _ => none

/-- R382: the minute that a position of the ledger holds whole, each parcel from either copy. -/
def ledgerMinute (s : State) (pos : Nat) : Option MinuteBank :=
  let ps := (ledgerParcels s (pos / 8) ++ ledgerParcels s (8192 + pos / 8)).filterMap (ledgerPiece pos)
  match (ps.map (fun p => p.2.minute)).max? with
  | none => none
  | some m =>
    let mine := ps.filter (fun p => p.2.minute = m)
    match mine with
    | [] => none
    | x :: _ => if (List.range 512).all (fun k => mine.any (fun p => p.1 == k)) then
        some { x.2 with recs := mine.foldl (fun t p => p.2.recs.foldl (fun u r => tset u r.1 r.2) t) [] } else none

/-- R382, R386: the minutes that the ledger holds, by position. -/
def ledgerMinutes (s : State) : Tbl MinuteBank :=
  let held := (tkeys s.sad.img.ledgerChain).flatMap (ledgerParcels s)
  let ps := (held.filterMap (fun p => match p.2.body with | .ledger b => some (b.minute % 64800) | _ => none)).eraseDups
  ps.foldl (fun t p => match ledgerMinute s p with | some b => tset t p b | none => t) []

/-- R383, R328, R330: whether ledger programs can be placed. -/
def ledgerMay (s : State) : Bool :=
  !s.sealCtl.zeroed && (s.belay.step != 0 || (s.health.st != 4 && s.health.st != 5 && s.health.st != 6 && !recalling s)) &&
  (serving s).any (fun c => !forbidden (chan s c))

/-- Whether a program of a minute's block is outstanding. -/
def blockFlying (s : State) (m : Nat) : Bool :=
  s.way.progs.any (fun p => match p.work with | .ledger n _ _ => n == m | _ => false)

/-- R383: a minute whose programs are no longer wanted. -/
def dropBlock (m : Nat) (s : State) : State :=
  dropProgs (fun w => match w with | .ledger n _ _ => n == m | _ => false) { s with reck := { s.reck with block := none, blockNext := 0 } }

/-- R383: the block that is being programmed goes on with its next parcels; a minute that has left the ring is lost. -/
def ledgerFeed (s : State) : State :=
  match s.reck.block with
  | none => s
  | some m => match (tget s.reck.ring (m % 1440)).filter (fun r => r.bank.minute = m) with
    | none => dropBlock m s
    | some r =>
      if blockFlying s m || decide (512 ≤ s.reck.blockNext) || !ledgerMay s then s
      else askBlock r.bank s.reck.blockNext { s with reck := { s.reck with blockNext := s.reck.blockNext + 8 } }

/-- R384: a replaced ledger tile gets the retained parcels of the other copy, 16 at a time. -/
def copyLedger (s : State) : State :=
  match s.reck.ledgerCopy with
  | [] => s
  | key :: rest =>
    let c := key / 8192
    let has := (ledgerParcels s key).map (fun p => ppaParcel p.1)
    let work := fun (p : Nat × SysParcel) => match p.2.body with
      | .ledger b => some (MWork.ledger b.minute (p.2.lpn % 512) c) | _ => none
    let lack := ((ledgerParcels s ((key + 8192) % 16384)).filter (fun p => !has.contains (ppaParcel p.1))).filterMap (fun p => (work p).map (fun w => (w, p.2)))
    if !ledgerMay s then s
    else if lack.isEmpty then { s with reck := { s.reck with ledgerCopy := rest } }
    else forAll ((lack.filter (fun p => (progOf s p.1).isNone)).take 16) (fun p t => askProg p.1 (.sys { p.2 with space := 7 + c }) t) s

end Sys2Proof.Machine
end

