-- ==== Sys2Proof/Machine/ResetOps.lean ====
section
/-! DEFINITION. The shared operations of resets and power: RESET_INFO (R547), what a main-die reset clears (R543),
Rope's power-down (R507), the start of a flush (R348 to R350, R142), and a fatal fault (R546). -/

namespace Sys2Proof.Machine

/-- R547, R548: an event sets its bit and is the newest event; main-die resets are counted. -/
def setReset (i : Nat) (s : State) : State :=
  let k := s.keeper
  { s with keeper := { k with
      resetInfo := k.resetInfo ||| bit1 i, resetTb := nowTb s, lastCause := i
      resetNow := (if k.resetTb = nowTb s then k.resetNow else 0) ||| bit1 i
      mainBit := if i = 1 ∨ i = 3 ∨ i = 4 ∨ i = 5 then i else k.mainBit
      newPowerUps := k.newPowerUps + (if i = 1 then 1 else 0)
      newRestarts := k.newRestarts + (if i = 3 ∨ i = 4 ∨ i = 5 then 1 else 0) } }

/-- R551: an unlock of the Survey port ends (cause: 1 SV_LOCK, 2 reset, 3 transition, 4 freeze). -/
def endUnlock (cause : Nat) (s : State) : State :=
  if s.survey.level.isSome then emit 0x1704 0xFF cause 0 0 0 { s with survey := { s.survey with level := none } } else s

/-- R534: the staging is discarded (cause: 1 Abort, 2 reset, 3 HBM error, 4 End check). -/
def discardStaging (cause : Nat) (s : State) : State :=
  if s.boot.staging.isEmpty then s
  else emit 0x1509 0xFF cause s.boot.staging.length 0 0
    { s with boot := { s.boot with staging := [], staged := false, transferPath := 0 } }

/-- R15, R569: the mailbox registers of an LD take their reset values at a CXL.io reset. What Synet has in hand goes on (R402
ends it at a main-domain reset only): a background command, which writes the registers again when it next reports
(R399), and a waiting command. -/
def mailboxReset (m : Mailbox) : Mailbox := { bg := m.bg, wait := m.wait }

/-- R427, R78, R569: what a CXL.io reset clears in an LD: configuration space, mailbox registers, change flags, Cairn window
and Coffer page. -/
def ioReset (l : Ld) : Ld :=
  { l with io := {}, mbox := mailboxReset l.mbox, chg := 1, shCmd := none, shMbs := none, shBgs := none, shStage := none, shTb := none, shSrc := none, shDst := none,
           win := {}, cof := {} }

/-- R543, R284: a channel after a main-die reset: it is brought up again once its module rails are good. The module keeps its page
buffers while it has power (R259). -/
def chanReset (x : Chan) : Chan := { railsGood := x.railsGood, pages := if x.railsGood then x.pages else [] }

/-- R543: what every main-die reset clears: the main die, HBM and every port and LD. The keeper die, the medium, the
flash and the LDs' event logs on the medium stay. Counts of the keeper (R591) stay. A group whose store has started is
stored (R455), and items of the Relay queues have reached Cairn (R488). -/
def mainReset (s : State) : State :=
  let s1 := finishStore (drainAll (discardStaging 2 (endUnlock 2 s)))
  { s1 with
    mainUp := false, health := {}
    ports := { sent := s1.ports.sent, inForce := s1.ports.inForce, clk := s1.ports.clk, perst := s1.ports.perst
               perstTb := s1.ports.perstTb, mgmt := s1.ports.mgmt }
    gate := { freezes := s1.gate.freezes, retiredLegs := s1.gate.retiredLegs }
    planner := {}, chans := tmap s1.chans (fun _ x => chanReset x)
    medium := { s1.medium with poison := (tmap s1.ports.lds (fun _ l => l.poisonList)).filter (fun p => !p.2.isEmpty) }
    cache := {}, sealCtl := {}, travs := [], way := { counts := s1.way.counts }, belay := { latch := s1.belay.latch }
    reck := { lastClosed := s1.reck.lastClosed, tb := s1.reck.tb,
              counts := s1.reck.counts.filter (fun p => p.1 / 1024 = 0x13 ∨ p.1 / 1024 = 0x10) }
    mctp := {}, ep := {}, relay := {}
    sad := { s1.sad with dirty := [], heldSince := none, recalling := true }
    therm := { sensors := s1.therm.sensors.filter (fun p => 32 ≤ p.1), keeperCoolTb := s1.therm.keeperCoolTb }
    boot := { flash := s1.boot.flash, pendingVersion := s1.boot.pendingVersion, secCounter := s1.boot.secCounter,
              prevVersion := if s1.boot.version = 0 then s1.boot.prevVersion else s1.boot.version, mgmtAddr := s1.boot.mgmtAddr }
    survey := { instr := s1.survey.instr, raw := s1.survey.raw, tdo := s1.survey.tdo } }

/-- R507: whether an entry's enable is high at a pitch. -/
def onAt (r : Rope) (q i : Nat) : Bool :=
  let e := r.table.getD i {}
  r.en.getLsbD i && (e.role == 1 || e.role == 2) && e.pitch == q

/-- R507: the highest pitch up to p that has an enable on; 0 when there is none. -/
def fallPitch (r : Rope) : Nat → Nat
  | 0 => 0
  | p + 1 => if (List.range 16).any (onAt r (p + 1)) then p + 1 else fallPitch r p

/-- R507: every enable of a pitch is driven low. -/
def dropEnables (q : Nat) (r : Rope) : Rope :=
  { r with en := (List.range 16).foldl (fun (m : BitVec 16) i => if onAt r q i then m &&& ~~~(bit1 i) else m) r.en }

/-- R507: the power-down goes to the next pitch at or below p that has rails on. -/
def fallTo (p : Nat) (r : Rope) : Rope := dropEnables (fallPitch r p) { r with pitch := fallPitch r p }

/-- R507, R547: a power-down starts from the current pitch: FALLING, ROPE held low, HOLDUP_TEST low, main-die reset asserted.
`cause` is that of record 0x1302, `fl` the flush cause of a hand-over. -/
def powerDown (cause fl : Nat) (s0 : State) : State :=
  let s := if cause = 3 then setReset 7 s0 else if cause = 7 ∨ (cause = 1 ∧ fl = 5) then setReset 6 s0 else s0
  let s1 := mainReset (if s.mainUp then closeEpoch true s else s)
  { s1 with rope := fallTo s1.rope.pitch { s1.rope with
      st := .falling, driveLow := true, pitchDone := false, downCause := cause, flushCause := fl
      topPitch := s1.rope.pitch, downTb := nowTb s, fallTb := keeperNow s + 10000, notFallen := 0 } }

/-- R544: Rope restarts the main die: reset held 1 ms and released, every enable unchanged. -/
def restart (s : State) : State := mainReset s

/-- R352: the partitions with a dirty or evicting line, a pending eviction or a dirty leaf. -/
def dirtyParts (s : State) : List Nat :=
  ((s.cache.lines.filter (fun p => lineCounts p.2)).map (fun p => p.2.part) ++
   (pendAll s).filterMap (fun p => partOfLpn s p.1) ++
   (s.sealCtl.leaves.filter (fun p => p.2.dirty)).filterMap (fun p => partOfLpn s (p.1 * 64))).eraseDups

/-- R142, R349: the maintenance programs that a flush itself makes. -/
def flushWork : MWork → Bool
  | .journal .. => true
  | .tree .. => true
  | .ledger .. => true
  | .log .. => true
  | .page .. | .dir _ | .bale .. | .sweep .. | .copy .. => false

/-- R142: whether a sequence goes on in emergency mode: host programs, and the flush's own. -/
def flushSeq : PulseSeq → Bool
  | .program .. => true
  | .maint w .. => flushWork w
  | .reset .. => false

/-- R142: emergency mode at a bank: the waiting reads but the flush's own are discarded, and maintenance sequences leave it. -/
def emergencyBank (b : Bank) : Bank :=
  let own := fun (l : List RdItem) => l.filter (·.flush)
  { b with emerg := true, retryQ := own b.retryQ, guarQ := own b.guarQ, otherQ := own b.otherQ, received := own b.received
           planned := b.planned.filter flushSeq }

/-- R142, R157: how many maintenance sequences emergency mode abandons. -/
def emergencyLost (s : State) : Nat :=
  sumN (s.chans.map (fun c => sumN (c.2.banks.map (fun b => match b.2.seq with
    | some q => if flushSeq q then 0 else 1 | none => 0))))

/-- R350: a write that takes effect without a completion is metered; a request gets no response. -/
def dropRequests (s : State) : State :=
  let ws := s.cache.throughWait
  let s1 := forAll ws meterWrite s
  let pr := fun (p : Port) => { p with ingress := [], reqCredits := 0, rwdCredits := 0
                                       reqs := p.reqs.filter (fun r => p.held.any (fun h => sameTag h.2.1 r)) }
  let back := fun (l : Line) => if l.st = .filling then { l with st := .dirty } else l
  { s1 with cache := { s1.cache with
              waiting := [], budgetWait := [], heldReqs := [], throughWait := [], fills := []
              lines := tmap (s1.cache.lines.filter (fun p => !(p.2.st == .filling && (p.2.dirty == 0 || p.2.dropOnFill)))) (fun _ l => back l) }
            ports := { s1.ports with ports := tmap s1.ports.ports (fun _ p => pr p) } }

/-- R353: the flush-state latch takes the record's new STATE. -/
def latchFlush (st : Nat) (s : State) : State :=
  match s.belay.latch with
  | some f => { s with belay := { s.belay with latch := some { f with state := st } } }
  | none => s

/-- R340, R341, R354: a running capacitance test fails when a flush starts. -/
def failTest (cause : Nat) (s : State) : State :=
  match s.belay.test with
  | none => s
  | some t => emit 0x0F05 0xFF 3 t.v0 cause 0 { s with belay := { s.belay with test := none, holdupTest := false } }

/-- R348 to R350, R142, R353: step 1 of a flush. Nothing starts while a flush runs (R354). -/
def beginFlush (cause : Nat) (s : State) : State :=
  if s.belay.step ≠ 0 then s
  else
    let parts := dirtyParts s
    let dirtyLines := s.cache.lines.filter (fun p => p.2.st = .dirty ∨ (p.2.st = .filling ∧ p.2.dirty ≠ 0))
    let s1 := emit 0x0F01 0xFF cause (dirtyCount s) (counterDirty s / 16) (tailRecords s) (failTest cause s)
    let s2 := emit 0x0403 0xFF (s.planner.stage % 4294967296) (s.planner.stage / 4294967296) (emergencyLost s) (forbiddenSet s).length s1
    let s3 := dropRequests s2
    { s3 with
      belay := { s3.belay with step := 1, cause := cause, startTb := tbNow s, parcels := 0, nodeParcels := 0,
                               latch := some { state := 1, cause := cause, start := tbNow s, parts := parts } }
      planner := { s3.planner with emergency := true }
      chans := tmap s3.chans (fun _ x => { x with deepWait := x.deepWait.filter (·.flush) })
      cache := { s3.cache with evDue := dirtyLines.map (fun p => { lpn := p.2.lpn, why := .flush, creditPart := p.2.part }) } }

/-- R348, R532: a flush of a cause starts; in bivouac mode Belay hands the power-down to Rope at once. -/
def startFlush (cause : Nat) (s : State) : State :=
  if !s.mainUp then s
  else if !s.boot.running then (if cause = 6 then restart s else powerDown 1 cause s)
  else beginFlush cause s

/-- R546: a fatal fault writes record 0x1603 and performs a fatal-fault reset, with a flush except after keeper-link
loss (R457). -/
def fatalFault (cause v1 v2 core : Nat) (s : State) : State :=
  let s1 := setReset 5 (emit 0x1603 0xFF cause v1 v2 core s)
  if cause = 4 then restart s1 else startFlush 6 s1

end Sys2Proof.Machine
end

