-- ==== Sys2Proof/Machine/CacheOps.lean ====
section
/-! DEFINITION. The Pannier cache's shared operations: way choice (R162, R167), fills (R166 to R170), parity and
slice retirement (R196 to R201), writes (R171 to R174), the dirty budget (R184 to R188), ZERO_LINE (R191), drops (R194). -/

namespace Sys2Proof.Machine

/-! ### Pseudo-LRU (R162): node n of the 15-bit tree points to the half used longer ago; its children are 2n + 1, 2n + 2 -/

/-- Make a way the most recently used. -/
def plruTouch (t : BitVec 15) (w : Nat) : BitVec 15 :=
  ((List.range 4).foldl (fun (a : BitVec 15 × Nat) i =>
    let d := w / 2 ^ (3 - i) % 2
    (if d = 0 then a.1 ||| bit1 a.2 else a.1 &&& ~~~(bit1 a.2), 2 * a.2 + 1 + d)) (t, 0)).1

/-- The least recently used of a set of candidate ways. -/
def plruPick (t : BitVec 15) (cand : List Nat) : Nat → Nat → Nat → Option Nat
  | 0, _, lo => if cand.contains lo then some lo else none
  | d + 1, n, lo =>
    let l := plruPick t cand d (2 * n + 1) lo
    let r := plruPick t cand d (2 * n + 2) (lo + 2 ^ d)
    if t.getLsbD n then r.orElse (fun _ => l) else l.orElse (fun _ => r)

/-- The tree of a set. -/
def plruOf (s : State) (sl st : Nat) : BitVec 15 := tgetD s.cache.plru (sl * 2048 + st) 0
/-- R162: an access touches a way. -/
def touch (k : Nat) (s : State) : State :=
  { s with cache := { s.cache with plru := tmod s.cache.plru (k / 16) 0 (fun t => plruTouch t (k % 16)) } }
/-- The least recently used way of a set among those in a state that passes a test. -/
def lruWay (s : State) (sl st : Nat) (ok : Line → Bool) : Option Nat :=
  (plruPick (plruOf s sl st) ((List.range 16).filter (fun w => ok (lineAt s (wayKey sl st w)))) 4 0 0).map (wayKey sl st)

/-- R176: a line is chosen for eviction; one already chosen is chosen anew as `f` says (R184, R187, R190). -/
def evAgain (d : EvDue) (f : EvDue → EvDue) (s : State) : State :=
  let l := s.cache.evDue
  let l' := if l.any (fun e => e.lpn == d.lpn) then l.map (fun e => if e.lpn = d.lpn then f e else e) else l ++ [d]
  { s with cache := { s.cache with evDue := l' } }
/-- R176: a line is chosen for eviction, once. -/
def evDue (d : EvDue) (s : State) : State := evAgain d id s
/-- R187: a write-through line is evicted at once and stays CLEAN, whatever it was chosen for before. -/
def evThrough (lpn part : Nat) (s : State) : State :=
  evAgain { lpn := lpn, why := .writeThrough, creditPart := part, keep := true }
    (fun e => { e with why := .writeThrough, creditPart := part, keep := true }) s

/-- R167: the way for a new line: INVALID, else LRU CLEAN; else the LRU DIRTY way is chosen for eviction and none is
free yet. `part` pays for that eviction (R177). DESIGN CHOICE: of several INVALID ways, the lowest-numbered (log 85). -/
def allotWay (lpn : Nat) (evict : Bool) (s : State) : Option Nat × State :=
  let sl := sliceNow s lpn; let st := setOf lpn
  match (setWays s lpn).find? (fun k => (lineAt s k).st = .invalid) with
  | some k => (some k, s)
  | none => match lruWay s sl st (fun l => l.st == .clean) with
    | some k => (some k, s)
    | none => match lruWay s sl st (fun l => l.st == .dirty) with
      | some k => (none, if evict then evDue { lpn := (lineAt s k).lpn, why := .victim, creditPart := (lineAt s k).part } s else s)
      | none => (none, s)

/-- Install a new line in a way. -/
def putLine (k : Nat) (l : Line) (s : State) : State := touch k (modLine k (fun _ => l) s)
/-- A way becomes INVALID. -/
def dropWay (k : Nat) (s : State) : State := { s with cache := { s.cache with lines := tdel s.cache.lines k } }

/-! ### Fills -/

/-- Change a fill-buffer entry. -/
def modFill (lpn : Nat) (f : Fill → Fill) (s : State) : State :=
  { s with cache := { s.cache with fills := tmod s.cache.fills lpn {} f } }
/-- R166: fill-buffer entries in use in the slice that serves an LPN. -/
def fillsIn (s : State) (lpn : Nat) : Nat := (s.cache.fills.filter (fun p => sliceNow s p.1 = sliceNow s lpn)).length
/-- R178: the write-buffer entry of an LPN's pending eviction. -/
def wbOf (s : State) (lpn : Nat) : Option WbEntry :=
  match tget s.cache.pend lpn with
  | none => none
  | some p => (chan s p.ch).wbuf.find? (fun w => w.lpn = lpn ∧ w.ppa = p.ppa)

/-- R134, R135: the planner's credit of a partition on a channel. -/
def rdCredit (s : State) (part ch : Nat) : Nat := tgetD s.planner.readCredit (part * 32 + ch) 0
/-- R134. -/
def wrCredit (s : State) (part ch : Nat) : Nat := tgetD s.planner.writeCredit (part * 32 + ch) 0
/-- R134, R371: spend one transfer of read credit and count it. -/
def spendRead (part ch : Nat) (s : State) : State :=
  meter part (fun m => { m with xferGuar := m.xferGuar + 1 })
    { s with planner := { s.planner with readCredit := tmod s.planner.readCredit (part * 32 + ch) 0 (· - 1024) } }
/-- R134, R177, R371: a host program spends write credit if there is any, else the best-effort pool; it is counted. -/
def spendWrite (part ch : Nat) (s : State) : State :=
  if 1024 ≤ wrCredit s part ch then
    meter part (fun m => { m with xferGuar := m.xferGuar + 1 })
      { s with planner := { s.planner with writeCredit := tmod s.planner.writeCredit (part * 32 + ch) 0 (· - 1024) } }
  else meter part (fun m => { m with xferBe := m.xferBe + 1 }) s

/-- R127, R134: a read reaches its bank's queue: a maintenance read as such, a host read under the guaranteed share if the
partition has credit. -/
def enqueueRead (r : RdItem) (s : State) : State :=
  let it := { r with flush := s.belay.step != 0 && r.work == .host }
  let c := ppaCh it.ppa; let b := ppaBank it.ppa
  if it.cls = .maint then modBank c b (fun x => { x with otherQ := x.otherQ ++ [it] }) s
  else if it.specStage.isNone ∧ 1024 ≤ rdCredit s it.part c then
    modBank c b (fun x => { x with guarQ := x.guarQ ++ [{ it with cls := .guaranteed }] }) (spendRead it.part c s)
  else modBank c b (fun x => { x with otherQ := x.otherQ ++ [{ it with cls := .bestEffort }] }) s

/-- A fill's data is ready. -/
def fillReady (lpn : Nat) (st : FillSt) (s : State) : State :=
  if thas s.cache.fills lpn then modFill lpn (fun f => { f with st := st }) s else s

/-- R166, R180, R298, R234, R288: where a fill's data comes from: forwarding, the map, or a medium read. -/
def resolveFill (it : RdItem) (errs : List NodeErr) (s : State) : State :=
  match wbOf s it.lpn with
  | some w => fillReady it.lpn (if w.poison || w.stale then .readyPoison else .ready w.plain) s
  | none =>
    if lookupHeld s it.lpn then { s with way := { s.way with heldLookups := tset s.way.heldLookups it.lpn (tbNow s) } }
    else match lookup s it.lpn with
      | .zeros => fillReady it.lpn (if s.boot.recovering then .readyPoison else .ready zeroParcel) s
      | .poison => fillReady it.lpn .readyPoison s
      | .at_ ppa =>
        if s.sealCtl.zeroed then fillReady it.lpn .readyPoison s
        else
          let s1 := fetchPath errs it.lpn s
          if lostParcel s1 it.lpn then fillReady it.lpn .readyPoison s1
          else if !served s1 ppa then
            fillReady it.lpn .readyPoison (if listed s1 it.lpn then s1 else newlyPoisoned it.lpn s1)
          else enqueueRead { it with ppa := ppa } s1

/-- The read item of a request. -/
def itemOf (r : Req) : RdItem :=
  { lpn := r.lpn, ppa := 0, cls := .bestEffort, part := r.part, age := r.stamp, port := r.port, tag := r.tag }

/-- R166, R167: a miss: join the outstanding fill, wait for a fill-buffer entry, or start a fill. -/
def missFill (r : Req) (errs : List NodeErr) (s : State) : State :=
  match tget s.cache.fills r.lpn with
  | some _ => modFill r.lpn (fun f => { f with waiters := f.waiters ++ [r], spec := false }) s
  | none =>
    if 512 ≤ fillsIn s r.lpn then { s with cache := { s.cache with waiting := s.cache.waiting ++ [r] } }
    else
      let s1 := match findWay s r.lpn with
        | some k => modLine k (fun l => { l with st := .filling }) s
        | none => match allotWay r.lpn true s with
          | (some k, t) => putLine k { lpn := r.lpn, part := r.part, st := .filling } t
          | (none, t) => t
      resolveFill (itemOf r) errs (modFill r.lpn (fun _ => { waiters := [r], part := r.part }) s1)

/-- R173, R178: a completion fill of a line, for its owning partition, once the slice has a fill-buffer entry (R166). -/
def completionFill (lpn part : Nat) (errs : List NodeErr) (s : State) : State :=
  match tget s.cache.fills lpn with
  | some _ => modFill lpn (fun f => { f with completion := true }) s
  | none =>
    if 512 ≤ fillsIn s lpn then s else
    let s1 := match findWay s lpn with | some k => modLine k (fun l => { l with st := .filling }) s | none => s
    resolveFill { lpn := lpn, ppa := 0, cls := .bestEffort, part := part, age := tbNow s } errs
      (modFill lpn (fun _ => { completion := true, part := part }) s1)

/-! ### Parity, tags and retirement -/

/-- R203: the line locator. -/
def locator (k : Nat) : Nat := k

/-- R201: whether a slice's retirement is in progress. -/
def isRetiring (s : State) (z : Nat) : Bool := s.cache.retiring.any (fun r => r.slice == z)

/-- R201: take a slice offline: clean lines dropped, dirty lines chosen for eviction, requests held. -/
def retireSlice (z : Nat) (s : State) : State :=
  let mine := fun (p : Nat × Line) => decide (p.1 / 32768 = z)
  let ds := s.cache.lines.filter (fun p => mine p && (p.2.st == .dirty || p.2.st == .filling && p.2.dirty != 0))
  let s1 := { s with cache := { s.cache with
    online := s.cache.online &&& ~~~(bit1 z), retiring := s.cache.retiring ++ [{ slice := z, tb := tbNow s, drained := ds.length }]
    lines := s.cache.lines.filter (fun p => !(mine p && p.2.st == .clean)) } }
  forAll ds (fun p => evDue { lpn := p.2.lpn, why := .retire, creditPart := p.2.part }) s1

/-- R201, R202: a dirty-sector parity error counts against its slice; the third within 24 h retires it, unless four
are offline. -/
def parityCount (z : Nat) (s : State) : State :=
  let ts := ((tgetD s.cache.parityTbs z []).filter (fun t => tbNow s < t + 86400000000000)) ++ [tbNow s]
  let s1 := { s with cache := { s.cache with parityTbs := tset s.cache.parityTbs z ts } }
  if ts.length < 3 ∨ !s.cache.online.getLsbD z then s1
  else if (onlineSlices s.cache.online).length ≤ 12 then emit 0x0504 z z ts.length 0 0 s1
  else retireSlice z s1

/-- R198: a parity error in a dirty sector loses the parcel. DESIGN CHOICE: several dirty sectors found in
error in one readout count as one error (log 85). -/
def dirtyParity (k : Nat) (sectors : BitVec 4) (s : State) : State :=
  let l := lineAt s k
  let s1 := modLine k (fun l => { l with poison := true, valid := 0, dirty := 15 }) s
  let s2 := emitN true 0x0502 (k / 32768) (locator k) l.part (lpnLbi l.lpn) (l.lpn % 256 + sectors.toNat * 256) s1
  parityCount (k / 32768) (newlyPoisoned l.lpn s2)

/-- R197: parity errors in clean sectors: VALID cleared. -/
def cleanParity (k : Nat) (sectors : BitVec 4) (s : State) : State :=
  let s1 := modLine k (fun l => { l with valid := l.valid &&& ~~~sectors }) s
  let s2 := bumpBit 0x0501 2 (k / 32768) (bump 0x0501 1 (popcount sectors) s1)
  { s2 with cache := { s2.cache with cleanErrs := s2.cache.cleanErrs + popcount sectors } }

/-- R196: the parity of the sectors read out; only VALID sectors are read. -/
def parityCheck (k : Nat) (bad : BitVec 4) (s : State) : State :=
  let l := lineAt s k
  let b := bad &&& l.valid
  if b = 0 then s else if b &&& l.dirty ≠ 0 then dirtyParity k b s else cleanParity k b s

/-- R199, R200: a tag error at a way: repaired from the dirty directory, or the way is invalidated; a dirty way with both
unreadable loses its data in a fatal-fault reset. -/
def tagCheck (k : Nat) (e : TagErr) (s : State) : State :=
  match e, (lineAt s k).dir with
  | .none, _ => s
  | .single, _ => s
  | _, none => dropWay k s
  | .uncorrectable, some (lpn, part) =>
    emit 0x0505 (k / 32768) (locator k) (lpn % 4294967296) (lpn / 4294967296) part (modLine k (fun l => { l with lpn := lpn, part := part }) s)
  | .both, some _ => fatalFault 3 (locator k) 0 0 (emit 0x0506 (k / 32768) (locator k) 0 0 0 (dropWay k s))

/-! ### Writes -/

/-- R185: a set with 12 or more ways DIRTY or EVICTING evicts its LRU DIRTY way. -/
def setPressure (k : Nat) (s : State) : State :=
  let sl := k / 32768; let st := k / 16 % 2048
  let n := ((List.range 16).filter (fun w => (lineAt s (wayKey sl st w)).st = .dirty ∨ (lineAt s (wayKey sl st w)).st = .evicting)).length
  if 12 ≤ n then (match lruWay s sl st (fun l => l.st == .dirty) with
    | some v => evDue { lpn := (lineAt s v).lpn, why := .setPressure, creditPart := (lineAt s v).part } s
    | none => s) else s

/-- R199: a line with its LPN and PART_ID in the dirty directory. -/
def inDir (l : Line) : Line := { l with dir := some (l.lpn, l.part) }

/-- The line after a write to it: a poisoned write (R63), a whole-sector or partial write to a poisoned line (R174),
or a write to a VALID or new sector (R171, R172). -/
def lineWrite (r : Req) (l : Line) : Line :=
  let l := inDir { l with maint := false }
  let b : BitVec 4 := bit1 r.sector
  let st := if l.st = .filling then LineSt.filling else .dirty
  let i : Fin 4 := ⟨r.sector % 4, Nat.mod_lt _ (by decide)⟩
  if r.wr.poison then { l with st := st, poison := true, valid := 0, dirty := 15 }
  else if r.op = .wrPtl then
    { l with st := st, data := l.data.set i (mergeBytes l.data[i] r.wr.data r.wr.be), dirty := l.dirty ||| b }
  else
    { l with st := st, data := l.data.set i r.wr.data, valid := l.valid ||| b, dirty := l.dirty ||| b
             poison := l.poison && (l.valid ||| b) != 15 }

/-- R44, R183: a write makes a line newly dirty when its line does not count against DIRTY_LIMIT. -/
def newlyDirty (s : State) (lpn : Nat) : Bool :=
  match findWay s lpn with | some k => !lineCounts (lineAt s k) | none => true

/-- R44, R45, R188, R328: a write whose data is lost: WRITE_SPENT, or WRITE_HOLD once the count is at DIRTY_LIMIT. -/
def writeLost (s : State) (health : Nat) : Bool :=
  health == 4 || (health == 3 && decide (dirtyLimit s ≤ dirtyCount s))

/-- R188, R328: the per-minute counts of lost writes. -/
def countLost (health part : Nat) (s : State) : State :=
  if health = 4 then bumpBit 0x0909 2 part (bump 0x0909 1 1 s) else bumpBit 0x0507 2 part (bump 0x0507 1 1 s)

/-- R188: WRITE_HOLD's counts of lines poisoned (3) and parcels passed to the Waybill (4). -/
def countHold (health i : Nat) (s : State) : State := if health = 3 then bump 0x0507 i 1 s else s

/-- R46, R188: a lost write's mark on a parcel whose eviction is pending: what the eviction carries is forwarded as poison,
and does not take the mark's place when its program passes. -/
def spoilPending (lpn : Nat) (s : State) : State :=
  { s with chans := tmap s.chans (fun _ x => { x with wbuf := x.wbuf.map (fun w => if w.lpn = lpn then { w with stale := true } else w) }) }

/-- R327, R329: the Waybill records a lost write's parcel as poisoned; with the tail at its budget in WRITE_HOLD the
write gets no completion and the device flushes and powers down (false). DEDUCED: the mark stands over an eviction of
the parcel that is still pending, whose landing then changes nothing (log 85). -/
def lostMark (lpn part health : Nat) (s : State) : Bool × State :=
  if health = 3 ∧ journalBudget s ≤ tailRecords s then
    (false, startFlush 3 (emit 0x0806 0xFF (tailRecords s) part (lpn % 4294967296) (lpn / 4294967296) s))
  else (true, countHold health 4 (poisonMark lpn (spoilPending lpn s)))

/-- R188: the line of a lost write, and whether the write completes. -/
def loseWrite (lpn part health : Nat) (s : State) : Bool × State :=
  match findWay s lpn with
  | none => lostMark lpn part health s
  | some k =>
    let l := lineAt s k
    match l.st with
    | .dirty => (true, countHold health 3 (modLine k (fun l => { l with poison := true, valid := 0, dirty := 15 }) s))
    | .filling =>
      if l.dirty ≠ 0 then (true, countHold health 3 (modLine k (fun l => { l with poison := true, valid := 0, dirty := 15 }) s))
      else lostMark lpn part health (modLine k (fun l => { l with poison := true, valid := 0, dropOnFill := true }) s)
    | .clean => lostMark lpn part health (dropWay k s)
    | _ => lostMark lpn part health s

/-- R408, R236: after a write, a parcel overwritten whole leaves the poison lists. -/
def afterWrite (k : Nat) (s : State) : State :=
  let l := lineAt s k
  if l.valid = 15 ∧ l.dirty = 15 ∧ !l.poison then unlist l.lpn s else s

/-- R44, R187: whether a write accepted in a health state is written through: WRITE_THROUGH, or no dirty line allowed. -/
def through (s : State) (health : Nat) : Bool := health == 2 || dirtyLimit s == 0

/-- R38: a whole-sector write replaces what partial writes that wait on the line's fill would merge into its sector. -/
def overtake (r : Req) (s : State) : State :=
  if r.op = .wr ∧ thas s.cache.fills r.lpn then
    modFill r.lpn (fun f => { f with waiters := f.waiters.map (fun w => if w.op.isWrite && w.sector == r.sector then { w with overtaken := true } else w) }) s
  else s

/-- R171 to R174: the write lands in a line that is present. -/
def landWrite (r : Req) (k : Nat) (s : State) : State :=
  let s1 := touch k (modLine k (fun l => { lineWrite r l with partialSince := if l.dirty = 0 then s.planner.stage else l.partialSince }) s)
  let s2 := overtake r (afterWrite k s1)
  let q := { r with effected := true }
  if through s r.health then
    setPressure k (evThrough r.lpn r.part { s2 with cache := { s2.cache with throughWait := s2.cache.throughWait ++ [q] } })
  else finish q .cmp (setPressure k s2)

/-- A write waits at its slice. -/
def waitAt (r : Req) (s : State) : State := { s with cache := { s.cache with waiting := s.cache.waiting ++ [r] } }

/-- R184: a write that waits on DIRTY_LIMIT is matched to an eviction in its slice, of a line that is not yet matched to
another write. -/
def budgetVictim (s : State) (sl : Nat) : Option Nat :=
  let dirty := fun (l : Line) => l.st == .dirty && !l.dropOnFill && !s.cache.evDue.any (fun e => e.lpn == l.lpn && e.why == .budget)
  let full := fun (l : Line) => dirty l && l.valid == 15
  let sets := fun (ok : Line → Bool) =>
    ((s.cache.lines.filter (fun p => decide (p.1 / 32768 = sl) && ok p.2)).map (fun p => p.1 / 16 % 2048)).eraseDups
  let cnt := fun (st : Nat) => ((List.range 16).filter (fun w => (lineAt s (wayKey sl st w)).st = .dirty)).length
  let best := fun (l : List Nat) => l.foldl (fun (m : Option Nat) x => match m with
    | none => some x
    | some y => if cnt y < cnt x ∨ (cnt y = cnt x ∧ x < y) then some x else some y) none
  match best (sets full) with
  | some st => lruWay s sl st full
  | none => match best (sets dirty) with
    | some st => lruWay s sl st dirty
    | none => none

/-- R184: whether the eviction matched to a waiting write has still to free its share of the count. -/
def matched (s : State) : Option Nat → Bool
  | none => false
  | some v => s.cache.evDue.any (fun e => e.lpn == v && e.why == .budget) || (pendAll s).any (fun p => p.1 == v && pendOpen s p)

/-- R150, R184: the waiting write of a partition is matched to an eviction that its partition pays for, whatever the line
was chosen for before. -/
def matchVictim (lpn part : Nat) (old : Option Nat) (s : State) : Option Nat × State :=
  if matched s old then (old, s)
  else match budgetVictim s (sliceNow s lpn) with
    | none => (none, s)
    | some v => (some (lineAt s v).lpn, evAgain { lpn := (lineAt s v).lpn, why := .budget, creditPart := part }
        (fun e => { e with why := .budget, creditPart := part }) s)

/-- R184: wait on the budget with a matched eviction. -/
def budgetWait (r : Req) (s : State) : State :=
  let m := matchVictim r.lpn r.part r.victim s
  { m.2 with cache := { m.2.cache with budgetWait := m.2.cache.budgetWait ++ [{ r with victim := m.1 }] } }

/-- R184, R191: a ZERO_LINE waits on the budget with a matched eviction. -/
def zeroWait (lpn part : Nat) (s : State) : State :=
  let m := matchVictim lpn part (tget s.cache.zeroVictims lpn) s
  { m.2 with cache := { m.2.cache with zeroVictims := match m.1 with
    | some v => tset m.2.cache.zeroVictims lpn v | none => tdel m.2.cache.zeroVictims lpn } }

/-- R184: the count is at DIRTY_LIMIT for a write that is not written through. -/
def budgetFull (s : State) (health : Nat) : Bool := !through s health && decide (dirtyLimit s ≤ dirtyCount s)

/-- R171 to R174, R184, R187, R188: a write reaches its slice. -/
def writeAccess (r : Req) (errs : List NodeErr) (s : State) : State :=
  match findWay s r.lpn with
  | some k =>
    let l := lineAt s k
    if l.st = .evicting then waitAt r s
    else if writeLost s r.health then
      let (ok, t) := loseWrite r.lpn r.part r.health (countLost r.health r.part s)
      if ok then finish r .cmp t else t
    else if r.op = .wrPtl ∧ !r.wr.poison ∧ !l.poison ∧ !l.valid.getLsbD r.sector then missFill r errs s
    else if newlyDirty s r.lpn ∧ budgetFull s r.health then budgetWait r s
    else landWrite r k s
  | none =>
    if writeLost s r.health then
      let (ok, t) := loseWrite r.lpn r.part r.health (countLost r.health r.part s)
      if ok then finish r .cmp t else t
    else if r.op = .wrPtl ∧ !r.wr.poison then missFill r errs s
    else if budgetFull s r.health then budgetWait r s
    else match allotWay r.lpn true s with
      | (some k, t) => landWrite r k (putLine k { lpn := r.lpn, part := r.part, st := .dirty, partialSince := s.planner.stage } t)
      | (none, t) => waitAt r t

/-- R165, R166, R181, R196, R199: a read reaches its slice. -/
def readAccess (r : Req) (e : ReadEnv) (s : State) : State :=
  match findWay s r.lpn with
  | none => missFill r e.nodes s
  | some k =>
    let l := lineAt s k
    if l.st = .evicting then waitAt r s
    else if l.poison then finish r .poison (touch k s)
    else if l.valid.getLsbD r.sector then
      let s1 := parityCheck k (e.parity &&& bit1 r.sector) (touch k s)
      let l1 := lineAt s1 k
      if l1.poison then finish r .poison s1
      else if l1.valid.getLsbD r.sector then finish r (.data (l1.data[r.sector % 4]'(Nat.mod_lt _ (by decide)))) s1
      else missFill r e.nodes s1
    else missFill r e.nodes s

/-- R170: a MemSpecRd for a parcel not in the cache starts a fill under 256 entries, without an eviction. -/
def specAccess (r : Req) (e : ReadEnv) (s : State) : State :=
  if (findWay s r.lpn).isSome ∨ thas s.cache.fills r.lpn ∨ 256 ≤ fillsIn s r.lpn then s
  else match allotWay r.lpn false s with
    | (some k, t) =>
      resolveFill { itemOf r with specStage := some s.planner.stage } e.nodes
        (modFill r.lpn (fun _ => { spec := true, part := r.part, specStage := some s.planner.stage }) (putLine k { lpn := r.lpn, part := r.part, st := .filling } t))
    | (none, _) => s

/-- An accepted request reaches its Pannier slice; one hashed to a retiring slice is held (R201). -/
def access (e : ReadEnv) (r : Req) (s : State) : State :=
  if isRetiring s (hashSlice r.lpn) then { s with cache := { s.cache with heldReqs := s.cache.heldReqs ++ [r] } }
  else
    let s1 := match findWay s r.lpn with | some k => tagCheck k e.tagErr s | none => s
    if s1.belay.step ≠ 0 ∧ s.belay.step = 0 then s1
    else if r.op.isRead then readAccess r e s1 else if r.op.isWrite then writeAccess r e.nodes s1 else specAccess r e s1

/-- Requests that waited at a slice are handled again, in order (R166, R167, R181). -/
def retryWaiting (s : State) : State :=
  forAll s.cache.waiting (access {}) { s with cache := { s.cache with waiting := [] } }

/-! ### ZERO_LINE and drops -/

/-- The line of ZERO_LINE (R191). -/
def zeroed (l : Line) (lpn part : Nat) : Line :=
  { l with lpn := lpn, part := part, st := .dirty, valid := 15, dirty := 15, poison := false, data := zeroParcel
           dir := some (lpn, part) }

/-- R187, R191, R185: a zeroed line is in its way; in WRITE_THROUGH it is evicted at once, and stays CLEAN. -/
def zeroDone (lpn part health k : Nat) (s : State) : State :=
  let s1 := unlist lpn { s with cache := { s.cache with zeroVictims := tdel s.cache.zeroVictims lpn } }
  setPressure k (if through s health then evThrough lpn part s1 else s1)

/-- R190, R191: ZERO_LINE of a parcel under a health state; false while it must wait. A lost one marks the parcel. -/
def zeroLine (lpn part health : Nat) (s : State) : Bool × State :=
  let lost := (true, (loseWrite lpn part health (countLost health part s)).2)
  match findWay s lpn with
  | some k =>
    if (lineAt s k).st = .filling ∨ (lineAt s k).st = .evicting then (false, s)
    else if writeLost s health then lost
    else if newlyDirty s lpn ∧ budgetFull s health then (false, zeroWait lpn part s)
    else (true, zeroDone lpn part health k (touch k (modLine k (fun l => zeroed l lpn part) s)))
  | none =>
    if thas s.cache.fills lpn then (false, s)
    else if writeLost s health then lost
    else if budgetFull s health then (false, zeroWait lpn part s)
    else match allotWay lpn true s with
      | (some k, t) => (true, zeroDone lpn part health k (putLine k (zeroed {} lpn part) t))
      | (none, t) => (false, t)

/-- R194: writes that waited to reach a dropped line end with it. -/
def dropWaiting (hit : Nat → Bool) (s : State) : State :=
  let gone := fun (r : Req) => r.op.isWrite && hit r.lpn
  let keep := fun (rs : List Req) => rs.filter (fun r => !gone r)
  let c := s.cache
  forAll ((c.waiting ++ c.budgetWait ++ c.heldReqs ++ c.throughWait).filter gone) (fun r t => finish r .cmp t)
    { s with cache := { c with waiting := keep c.waiting, budgetWait := keep c.budgetWait
                               heldReqs := keep c.heldReqs, throughWait := keep c.throughWait } }

/-- R194, R331: the cache drops every line of some legs; fills and evictions under way drop when they end. -/
def dropLegs (legs : List Nat) (s : State) : State :=
  let hit := fun (lpn : Nat) => legs.contains (lpnLeg lpn)
  dropWaiting hit { s with
    cache := { s.cache with
      lines := (s.cache.lines.filter (fun p => !(hit p.2.lpn && (p.2.st == .clean || p.2.st == .dirty)))).map
        (fun p => (p.1, if hit p.2.lpn then { p.2 with dropOnFill := true } else p.2))
      fills := tmap s.cache.fills (fun l f => if hit l then { f with drop := true } else f)
      evDue := s.cache.evDue.filter (fun e => !hit e.lpn) }
    chans := tmap s.chans (fun _ x => { x with wbuf := x.wbuf.map (fun w => if hit w.lpn then { w with dropped := true } else w) }) }

end Sys2Proof.Machine
end

