-- ==== Sys2Proof/Machine/Mem.lean ====
section
/-! DEFINITION. The Tollgate (R75, R90, R95 to R100, R106 to R113, R592) and the CXL.mem requests (R36 to R38, R170 to
R174). -/

namespace Sys2Proof.Machine

/-- The opcode of a request as a CXL.mem opcode number, for record details (PRESUMED: the CXL Specification's M2S
opcode numbers, which this manual cites and does not list). -/
def MemOp.number : MemOp → Nat
  | .inv => 0 | .rd => 1 | .rdData => 2 | .specRd => 8 | .invNt => 9 | .clnEvct => 10 | .wr => 1 | .wrPtl => 2

/-- R98: the bit of an opcode's class in OPCODES. -/
def MemOp.classBit : MemOp → Nat
  | .rd => 0 | .rdData => 0 | .specRd => 1 | .wr => 2 | .wrPtl => 3 | .inv => 4 | .invNt => 4 | .clnEvct => 5

/-- R98: whether a contract's mask allows a request. -/
def opAllowed (m : LdMap) (r : Req) : Bool := m.opcodes.getLsbD r.op.classBit && (!r.wr.poison || m.opcodes.getLsbD 6)

/-- The address halves of a DPA. -/
def dpaLo (d : BitVec 64) : Nat := d.toNat % 4294967296
/-- The address halves of a DPA. -/
def dpaHi (d : BitVec 64) : Nat := d.toNat / 4294967296

/-- R106: the detail of a link protocol violation: the code, and the LD-ID and tag of a message that carries them. -/
def linkDetail (code : Nat) (bare : Bool) (r : Req) : Nat :=
  if bare then code else code + r.ld % 16 * 256 + r.tag % 2048 * 4096 + 8388608

/-- R75, R106, R107: a link protocol violation freezes the port. -/
def linkViolation (code : Nat) (bare : Bool) (r : Req) (s : State) : State :=
  freeze (portMaster r.port) 0x0208 (if bare then 0 else r.dpa) (linkDetail code bare r) s

/-- R90: a CXL.mem request of a MANAGEMENT or UNMAPPED LD is recorded and served as frozen. -/
def unmappedReq (opcode : Nat) (r : Req) (s : State) : State :=
  poolComplete r (emit 0x0211 r.port (ldMaster r.port r.ld) (dpaLo r.dpa) (dpaHi r.dpa) opcode s)

/-- R93: a grace that covers a DPA leg, at a time before 10 ms have passed since the removal. -/
def graceHit (now leg : Nat) (g : Grace) : Bool :=
  decide (g.dpaLeg ≤ leg) && decide (leg < g.dpaLeg + g.count) && decide (now < g.since + 10000000)

/-- R93: whether the grace of a forced release covers a DPA leg. -/
def inGrace (now : Nat) (l : Ld) (leg : Nat) : Bool := l.graces.any (graceHit now leg)

/-- R93: a request to a removed range within its grace; record 0x0212 once per extent. -/
def graceReq (r : Req) (leg : Nat) (s : State) : State :=
  let k := ldKey r.port r.ld
  let hit := graceHit (tbNow s) leg
  let fresh := (ldAt s k).graces.any (fun g => hit g && !g.recorded)
  let s1 := modLd k (fun l => { l with graces := l.graces.map (fun g => if hit g then { g with recorded := true } else g) }) s
  ownComplete r (if fresh then emitOpen 0x0212 0xFF s1 else s1)

/-- A request that passed every check (R95, R96): it takes its tag and goes to the cache. READ_ONLY discards a write
(R44); an invalidate or clean-evict leaves the cache unchanged (R170). -/
def acceptReq (e : ReadEnv) (r : Req) (s : State) : State :=
  if !keyed s r.part then ownComplete r s
  else match r.op with
    | .specRd => access e { r with tagKind := .none } s
    | .inv => finish r .cmp (takeTag r s)
    | .invNt => finish r .cmp (takeTag r s)
    | .clnEvct => finish r .cmp (takeTag r s)
    | .rd => access e r (takeTag r s)
    | .rdData => access e r (takeTag r s)
    | _ =>
      if r.health = 5 then
        finish r .cmp (modLd (ldKey r.port r.ld) (fun l => { l with discarded := l.discarded + 1 }) (takeTag r s))
      else access e r (takeTag r s)

/-- R98: the number of the window of 256 stages. -/
def poisonWindow (s : State) : Nat := s.planner.stage / 256
/-- R98: an LD's poisoned writes in the current window. -/
def poisonedIn (s : State) (l : Ld) : Nat := if l.poisonWin = poisonWindow s then l.poisonCnt else 0

/-- R95 step 6: the poison-write storm. -/
def stormCheck (e : ReadEnv) (r : Req) (s : State) : State :=
  let k := ldKey r.port r.ld
  if !r.wr.poison ∨ !r.op.isWrite then acceptReq e r s
  else
    let n := poisonedIn s (ldAt s k) + 1
    let s1 := modLd k (fun l => { l with poisonCnt := n, poisonWin := poisonWindow s }) s
    if (ldAt s k).map.poisonLimit ≠ 0 ∧ (ldAt s k).map.poisonLimit < n then
      poolComplete r (freeze (ldMaster r.port r.ld) 0x0207 r.dpa n s1)
    else acceptReq e r s1

/-- R95: the checks of a TENANT LD's request, in order. -/
def tenantReq (e : ReadEnv) (r : Req) (s : State) : State :=
  let l := ldAt s (ldKey r.port r.ld)
  let m := ldMaster r.port r.ld
  let leg := r.dpa.toNat / gib
  if ldFrozen s r.port r.ld then poolComplete r s
  else if r.malformed ≠ 0 then poolComplete r (freeze m 0x0206 r.dpa r.malformed s)
  else if !opAllowed l.map r then
    poolComplete r (freeze m 0x0203 r.dpa (r.op.number + (if r.wr.poison then 256 else 0)) s)
  else if l.map.outstanding ≤ l.outstanding then poolComplete r (freeze m 0x0202 r.dpa l.map.outstanding s)
  else match (rangePos l.map.ranges leg).bind (fun pos => legAt s.sad.img.runs l.map.part pos) with
    | none => if inGrace (tbNow s) l leg then graceReq r leg s else poolComplete r (freeze m 0x0201 r.dpa l.map.part s)
    | some g => stormCheck e { r with lpn := lpnOf g r.dpa.toNat, sector := sectorOf r.dpa.toNat, part := l.map.part } s

/-- R592, R44: no freeze trigger is evaluated and nothing is counted before the first evaluation and in BIVOUAC. -/
def interim (s : State) : Bool := s.health.st == 7 || s.health.st == 6 || (s.boot.recovering && !s.sealCtl.zeroed)

/-- R90, R95, R592: the Tollgate's handling of a well-attributed request. -/
def tollgate (e : ReadEnv) (r : Req) (s : State) : State :=
  if !tenantLd s (ldKey r.port r.ld) then unmappedReq r.op.number r s
  else if interim s then ownComplete r s else tenantReq e r s

/-- R75: the violation code of a message, 0 for none. -/
def violationOf (link : Nat) (r : Req) (s : State) : Nat :=
  let p := port s r.port
  if link ≠ 0 then link
  else if (if r.op.isWrite then p.rwdCredits else p.reqCredits) = 0 then 1
  else if !ldConfigured s r.port r.ld then 3
  else if (p.reqs ++ p.oldReqs ++ p.ingress).any (sameTag r) then 4 else 0

/-- R119, R120: whether a request must wait behind an earlier one of its LD. -/
def behind (s : State) (r : Req) : Bool := (port s r.port).ingress.any (fun x => x.ld == r.ld)

/-- A request arrives at a port: nothing is taken while the link is down, or once a flush has stopped the traffic
(R350); a violating message that carries no LD-ID has no response; a request behind a waiting one of its LD waits with
it (R119, R120). -/
def arrive (q : MemReq) (e : ReadEnv) (r : Req) (s : State) : State :=
  let v := violationOf q.link r s
  if !(port s r.port).up ∨ s.belay.step ≠ 0 then s
  else if v ≠ 0 then (if q.bare then linkViolation v true r s else poolComplete r (linkViolation v false r s))
  else if behind s r then enqueue r s
  else tollgate e r s

/-- The request of a message, with the health state and ingress stamp of its arrival (R44, R387). -/
def reqOf (op : MemOp) (q : MemReq) (w : WrData) (s : State) : Req :=
  { port := q.port, ld := q.ld, tag := q.tag, op := op, dpa := q.dpa, wr := w, stamp := tbNow s, health := s.health.st
    malformed := if q.malformed = 0 ∧ op = .wrPtl ∧ w.be = 0 then 4 else q.malformed }

/-- A request without data. -/
def noData : WrData := { data := 0 }

/-- MEM_RD (R36, R165, R166). -/
def execMemRd (q : MemReq) (e : ReadEnv) (s : State) : Out :=
  .next (whenMain (fun s => arrive q e (reqOf .rd q noData s) s) s)
/-- MEM_RD_DATA (R36): handled as a read. -/
def execMemRdData (q : MemReq) (e : ReadEnv) (s : State) : Out :=
  .next (whenMain (fun s => arrive q e (reqOf .rdData q noData s) s) s)
/-- MEM_SPEC_RD (R170). -/
def execMemSpecRd (q : MemReq) (e : ReadEnv) (s : State) : Out :=
  .next (whenMain (fun s => arrive q e (reqOf .specRd q noData s) s) s)
/-- MEM_WR (R37, R63, R171). -/
def execMemWr (q : MemReq) (w : WrData) (e : ReadEnv) (s : State) : Out :=
  .next (whenMain (fun s => arrive q e (reqOf .wr q w s) s) s)
/-- MEM_WR_PTL (R63, R172). -/
def execMemWrPtl (q : MemReq) (w : WrData) (e : ReadEnv) (s : State) : Out :=
  .next (whenMain (fun s => arrive q e (reqOf .wrPtl q w s) s) s)
/-- MEM_INV (R170): the cache is unchanged. -/
def execMemInv (q : MemReq) (s : State) : Out :=
  .next (whenMain (fun s => arrive q {} (reqOf .inv q noData s) s) s)
/-- MEM_INV_NT (R170): the cache is unchanged. -/
def execMemInvNt (q : MemReq) (s : State) : Out :=
  .next (whenMain (fun s => arrive q {} (reqOf .invNt q noData s) s) s)
/-- MEM_CLN_EVCT (R170): the cache is unchanged. -/
def execMemClnEvct (q : MemReq) (s : State) : Out :=
  .next (whenMain (fun s => arrive q {} (reqOf .clnEvct q noData s) s) s)

/-- R98, R106: a defined opcode of no class meets steps 1 to 3 of R95. R113 has no row for such a message, so it has
no response. -/
def unclassified (r : Req) (opcode : Nat) (poison : Bool) (s : State) : State :=
  let m := ldMaster r.port r.ld
  if !tenantLd s (ldKey r.port r.ld) then emit 0x0211 r.port m (dpaLo r.dpa) (dpaHi r.dpa) opcode s
  else if ldFrozen s r.port r.ld then s
  else if r.malformed ≠ 0 then freeze m 0x0206 r.dpa r.malformed s
  else freeze m 0x0203 r.dpa (opcode % 256 + (if poison then 256 else 0)) s

/-- UNCLASSIFIED_M2S_OPCODE (R75, R98). -/
def execUnclassifiedM2sOpcode (q : MemReq) (opcode : Nat) (defined poison : Bool) (s : State) : Out :=
  .next (whenMain (fun s =>
    let r := reqOf .inv q noData s
    if !(port s r.port).up ∨ s.belay.step ≠ 0 then s
    else if !defined then linkViolation 2 q.bare r s
    else if violationOf q.link r s ≠ 0 then linkViolation (violationOf q.link r s) q.bare r s
    else if tenantLd s (ldKey r.port r.ld) ∧ interim s then s
    else unclassified r opcode poison s) s)

/-- R44, R109, R119: a request that waited leaves its ingress queue, if none of its LD waits before it: one handled as
frozen waits for a pool tag only, another one goes through the Tollgate under the health state of now. -/
def readmit (r : Req) (s : State) : State :=
  let r1 : Req := { r with credit := false }
  let s1 := returnCredit r s
  if behind s1 r then enqueue r1 s1
  else if r.frozen then poolComplete r1 s1
  else tollgate {} { r1 with health := s.health.st } s1

/-- R119: the requests that wait in a port's ingress queues go on, in order, where they now may. -/
def drainIngress (p : Nat) (s : State) : State :=
  forAll (port s p).ingress readmit (modPort p (fun x => { x with ingress := [] }) s)

end Sys2Proof.Machine
end

