-- ==== Sys2Proof/Machine/Ports.lean ====
section
/-! DEFINITION. Port and LD events: training (R49 to R60), link loss (R76), port and LD resets (R78 to R80), credits
(R73, R74), old requests (R156), GPF (R357), and the Tollgate's timed events (R93, R98, R100, R111). -/

namespace Sys2Proof.Machine

/-! ### Port layout (R49, R50) -/

/-- R49: the ports of a group in a mode. -/
def modePorts (m : Nat) : Nat := if m = 0 then 1 else if m = 1 then 2 else if m = 2 then 3 else 4
/-- R49: the configured width of the i-th port of a group in a mode. -/
def modeWidth (m i : Nat) : Nat :=
  if m = 0 then 16 else if m = 1 then 8 else if m = 2 then (if i = 0 then 8 else 4) else 4
/-- R50: the group and place within it of a port, from the groups' modes. -/
def portPlace : List Nat → Nat → Nat → Option (Nat × Nat × Nat)
  | [], _, _ => none
  | m :: ms, g, p => if p < modePorts m then some (g, m, p) else portPlace ms (g + 1) (p - modePorts m)
/-- The ports that exist under some groups' modes. -/
def portCount (ms : List Nat) : Nat := sumN (ms.map modePorts)
/-- The group of a port under the numbering in force. -/
def groupOf (s : State) (p : Nat) : Option (Nat × Nat × Nat) := portPlace s.ports.inForce.groupMode 0 p
/-- The ports of a group under the numbering in force. -/
def groupPorts (s : State) (g : Nat) : List Nat :=
  ids32.filter (fun p => match groupOf s p with | some (h, _, _) => h == g | none => false)

/-- R53, R593: the record that governs a training now. -/
def governing (s : State) : PortCfg :=
  if s.sad.img.portCfg.groupMode = s.ports.inForce.groupMode then s.sad.img.portCfg else s.ports.inForce

/-! ### Links -/

/-- R53, R55: the configured LD keys of a port. -/
def configuredLds (s : State) (p : Nat) : List Nat :=
  ((List.range 17).filter (fun l => ldConfigured s p l)).map (ldKey p)

/-- R66, R79: whether Memory_Active may be set. -/
def mayActivate (s : State) : Bool := !recalling s && s.health.st != 6

/-- R79: Memory_Active is set for the LDs of a port whose link is up. -/
def activateLds (p : Nat) (s : State) : State :=
  if mayActivate s ∧ (port s p).up then forAll (configuredLds s p) (modLd · (fun l => { l with memActive := true })) s else s

/-- R53, R55: MGMT_PORT takes effect at the training of the named port. -/
def mgmtAtTraining (p : Nat) (s : State) : State :=
  match (governing s).mgmt with
  | some q => if q = p then { s with ports := { s.ports with mgmt := some p } } else s
  | none => if s.ports.mgmt = some p then { s with ports := { s.ports with mgmt := none } } else s

/-- R56 to R58: the generation, width and revision that a port trains to. -/
def trained (e : PortEnt) (w : Nat) (x : Partner) : Nat × Nat × Nat := (min e.maxGen x.gen, min w x.width, min e.maxCxl x.cxl)

/-- R56 to R60, R77: a port trains and is served. A rate below 16 GT/s is not operated. -/
def linkUp (p : Nat) (x : Partner) (s : State) : State :=
  match groupOf s p with
  | none => s
  | some (g, m, i) =>
    let e := tgetD (governing s).ports p {}
    let (gen, w, cxl) := trained e (modeWidth m i) x
    if (port s p).up ∨ (port s p).stayDown ∨ (port s p).retryDue ∨ s.ports.perst.getLsbD g ∨ gen < 4 ∨ s.survey.instr = 0 then s
    else
      let free := (port s p).oldReqs.isEmpty
      let s1 := modPort p (fun y => { y with
        up := true, gen := gen, width := w, cxl := cxl, flit256 := gen == 6, ent := e, fails := 0
        reqCredits := if free then 256 else 0, rwdCredits := if free then 256 else 0
        ndrCredits := x.ndr, drsCredits := x.drs }) (mgmtAtTraining p s)
      let s2 := emit 0x0101 p p (Config.free 0x0101 (gen * 64 + w)) (Config.free 0x10101 cxl) (Config.free 0x20101 (if gen = 6 then 1 else 0)) s1
      let s3 := if gen < e.maxGen ∨ w < modeWidth m i then emitOpen 0x010A p s2 else s2
      activateLds p s3

/-- LINK_UP (R56). -/
def execLinkUp (p : Nat) (x : Partner) (s : State) : Out := .next (whenMain (linkUp p x) s)

/-- R76: a request that a lost link leaves unfinished as a write not yet in a Pannier line. -/
def droppedWrite (p : Nat) (l : Option Nat) (r : Req) : Bool :=
  r.port == p && (match l with | some d => r.ld == d | none => true) && r.op.isWrite && !r.effected && r.tagKind != .none

/-- R76: the writes of a port (or of one LD of it) not yet accepted into a line are dropped whole. -/
def dropWrites (p : Nat) (l : Option Nat) (s : State) : State :=
  let bad := droppedWrite p l
  let gone := (s.cache.waiting ++ s.cache.budgetWait ++ s.cache.heldReqs ++ s.cache.fills.flatMap (fun f => f.2.waiters)).filter bad
  let keep := fun (rs : List Req) => rs.filter (fun r => !bad r)
  let s1 := { s with cache := { s.cache with
    waiting := keep s.cache.waiting, budgetWait := keep s.cache.budgetWait, heldReqs := keep s.cache.heldReqs
    fills := tmap s.cache.fills (fun _ f => { f with waiters := keep f.waiters }) } }
  forAll gone freeTag s1

/-- R76: completed responses that never reached the host are discarded; writes among them that took effect count. -/
def dropHeld (p : Nat) (l : Option Nat) (s : State) : State :=
  let mine := fun (h : Nat × Req × RespKind) => match l with | some d => h.2.1.ld == d | none => true
  let hs := (port s p).held.filter mine
  let s1 := modPort p (fun x => { x with held := x.held.filter (fun h => !mine h) }) s
  forAll hs (fun h t => if h.2.1.effected then meterWrite h.2.1 (freeTag h.2.1 t) else freeTag h.2.1 t) s1

/-- R74: an episode of withheld S2M credits ends; one that lasted 10 ms writes its second record. -/
def endWithheld (p : Nat) (s : State) : State :=
  let s1 := modPort p (fun x => { x with withheldSince := none, withheldRec := false }) s
  match (port s p).withheldSince with
  | none => s
  | some t => if (port s p).withheldRec then emit 0x0106 p p ((tbNow s - t) / 1000000) 1 0 s1 else s1

/-- R77: reads discarded and writes that took effect without a completion, for record 0x0102. -/
def lossCounts (p : Nat) (s : State) : Nat × Nat :=
  (((port s p).reqs.filter (fun r => r.op.isRead)).length,
   (s.cache.throughWait.filter (fun r => r.port = p)).length +
     ((port s p).held.filter (fun h => h.2.1.op.isWrite && h.2.1.effected)).length)

/-- R76: the port's requests when its link goes down, and the link itself. -/
def dropLink (p : Nat) (s : State) : State :=
  let s1 := dropHeld p none (dropWrites p none (endWithheld p s))
  modPort p (fun x => oldDone { x with up := false, gen := 0, width := 0, cxl := 0, flit256 := false, reqCredits := 0, rwdCredits := 0
                                       ndrCredits := 0, drsCredits := 0, ingress := [], reqs := [] } (x.oldReqs ++ x.reqs)) s1

/-- R451, R452: a Coffer descriptor stopped by a reset adds the source bytes read before the stop. -/
def stopCoffer (k : Nat) (s : State) : State :=
  match (ldAt s k).cof.run with
  | none => s
  | some r =>
    let s1 := meter r.part (fun m => { m with cofferBytes := m.cofferBytes + r.maxProgress })
      { s with ports := { s.ports with cofOrder := s.ports.cofOrder.filter (· != k) } }
    emit 0x0E04 0xFF (cofMaster (k / 17) (k % 17)) 3 r.maxProgress 0 s1

/-- R78, R427: the CXL.io state of an LD resets. -/
def resetIo (k : Nat) (s : State) : State := modLd k ioReset (stopCoffer k s)

/-- R78: the CXL.io state and decoders of every LD of a port reset; Memory_Active waits for the next link up (R79). -/
def resetPortLds (p : Nat) (s : State) : State :=
  forAll (portLds s p) (fun k t => modLd k (fun l => { l with decoders := [{}, {}], memActive := false }) (resetIo k t)) s

/-- R76, R77, R78: a link loss by cause 1 (unexpected), 2 (hot reset) or 3 (link disable). -/
def loseLink (p cause : Nat) (s : State) : State :=
  let (rd, wr) := lossCounts p s
  resetPortLds p (dropLink p (emit 0x0102 p p cause rd wr s))

/-- LINK_DOWN (R76). -/
def execLinkDown (p : Nat) (s : State) : Out :=
  .next (whenMain (fun s => if (port s p).up then setReset 9 (loseLink p 1 s) else s) s)

/-- HOT_RESET (R78); it also ends a port's stay down (R59). -/
def execHotReset (p : Nat) (s : State) : Out :=
  .next (whenMain (fun s => if (groupOf s p).isNone then s else
    setReset 9 (modPort p (fun x => { x with fails := 0, stayDown := false, retryDue := false })
      (if (port s p).up then loseLink p 2 s else resetPortLds p s))) s)

/-- LINK_DISABLE (R78). -/
def execLinkDisable (p : Nat) (s : State) : Out :=
  .next (whenMain (fun s => if (port s p).up then setReset 9 (loseLink p 3 s) else s) s)

/-- TRAINING_FAILURE (R59, R78): a link that was up goes down, record 0x0104, and after three failures in succession the
port stays down. -/
def execTrainingFailure (p rate : Nat) (s : State) : Out :=
  .next (whenMain (fun s =>
    if (groupOf s p).isNone ∨ (port s p).stayDown then s else
    let n := (port s p).fails + 1
    let s1 := if (port s p).up then setReset 9 (loseLink p 1 s) else s
    modPort p (fun x => { x with fails := n, stayDown := decide (3 ≤ n), retryDue := decide (n < 3), retryTb := tbNow s })
      (emit 0x0104 p p rate n 0 s1)) s)

/-- TRAINING_RETRY (R59): 100 ms after a failure the port trains again. -/
def execTrainingRetry (p : Nat) (s : State) : Out :=
  .next (whenMain (modPort p (fun x => if x.retryTb + 100000000 ≤ tbNow s then { x with retryDue := false } else x)) s)

/-- PERST_ASSERT (R78): every port of the group goes down; no 0x0102 is written. The pin is seen with the main die off too. -/
def perstAssert (g : Nat) (s : State) : State :=
  if 8 ≤ g ∨ s.ports.perst.getLsbD g then s
  else
    let s1 := { s with ports := { s.ports with perst := s.ports.perst ||| bit1 g, perstTb := tset s.ports.perstTb g (tbNow s) } }
    if !s.mainUp then s1
    else setReset 8 (forAll (groupPorts s g) (fun p t => resetPortLds p (dropLink p t)) s1)

/-- PERST_ASSERT (R78). -/
def execPerstAssert (g : Nat) (s : State) : Out := .next (perstAssert g s)

/-- PERST_DEASSERT (R79): record 0x0107 with the duration of the assertion, CLK_MODE takes effect (R53), and the group's ports may train. -/
def perstDeassert (g : Nat) (s : State) : State :=
  if 8 ≤ g ∨ !s.ports.perst.getLsbD g then s
  else
    let s1 := { s with ports := { s.ports with
      perst := s.ports.perst &&& ~~~(bit1 g)
      clk := if s.sad.img.portCfg.clk.getLsbD g then s.ports.clk ||| bit1 g else s.ports.clk &&& ~~~(bit1 g)
      perstTb := tdel s.ports.perstTb g } }
    if !s.mainUp then s1
    else
      let s2 := forAll (groupPorts s g) (modPort · (fun x => { x with fails := 0, stayDown := false, retryDue := false })) s1
      match tget s.ports.perstTb g with
      | some t => emit 0x0107 g g (sat 4294967295 ((tbNow s - t) / 1000)) 0 0 s2
      | none => s2

/-- PERST_DEASSERT (R79). -/
def execPerstDeassert (g : Nat) (s : State) : Out := .next (perstDeassert g s)

/-- FLR (R78): CXL.mem requests and decoders are unaffected. -/
def execFlr (p l : Nat) (s : State) : Out :=
  .next (whenMain (fun s => if ldConfigured s p l then setReset 10 (resetIo (ldKey p l) s) else s) s)

/-- R78: an LD's requests finish internally with their responses discarded. -/
def dropLdReqs (p l : Nat) (s : State) : State :=
  let s1 := dropHeld p (some l) (dropWrites p (some l) s)
  let mine := fun (r : Req) => r.ld == l
  let s2 := forAll ((port s1 p).ingress.filter mine) returnCredit s1
  modPort p (fun x => { x with reqs := x.reqs.filter (fun r => !mine r), ingress := x.ingress.filter (fun r => !mine r)
                               oldReqs := x.oldReqs ++ x.reqs.filter mine }) s2

/-- CXL_RESET (R78, R80): on CXL 2.0 and 3.1 ports; the memory-clear bit has no effect. -/
def execCxlReset (p l : Nat) (_memClear : Bool) (s : State) : Out :=
  .next (whenMain (fun s =>
    if !ldConfigured s p l ∨ !(port s p).up ∨ (port s p).cxl = 0x11 then s
    else drainIngress p (setReset 10 (modLd (ldKey p l) (fun x => { x with decoders := [{}, {}] })
      (resetIo (ldKey p l) (dropLdReqs p l (emit 0x0109 p p l 0 0 s)))))) s)

/-- R70: the AER Uncorrectable Error bit of a poisoned or of a malformed TLP (PRESUMED: the PCI Express Specification's
places). -/
def aerBit (poisoned : Bool) : Nat := if poisoned then 12 else 18

/-- R70, R77: an error of a CXL.io TLP is kept in the AER status and the Device Status, and sends ERR_FATAL or ERR_NONFATAL
by its severity, where it is not masked and its message is enabled. -/
def reportAer (poisoned : Bool) (l : Ld) : Ld :=
  let b := aerBit poisoned
  let fatal := l.io.uncSev.getLsbD b
  let io := { l.io with uncStatus := l.io.uncStatus ||| bit1 b, devSta := l.io.devSta ||| bit1 (if fatal then 2 else 1) }
  let send := !l.io.uncMask.getLsbD b && l.io.devCtl.getLsbD (if fatal then 2 else 1)
  let m := if !send then l.errMsgs else if fatal then { l.errMsgs with fatal := l.errMsgs.fatal + 1 }
    else { l.errMsgs with nonfatal := l.errMsgs.nonfatal + 1 }
  { l with aerReports := l.aerReports + 1, io := io, errMsgs := m }

/-- CXLIO_BAD_TLP (R77): reported through AER (R70). -/
def execCxlioBadTlp (p l : Nat) (tlp : BadTlp) (s : State) : Out :=
  .next (whenMain (fun s => if (port s p).up then
    modLd (ldKey p l) (reportAer tlp.poisoned) (emit 0x0108 p p l tlp.typ 0 s) else s) s)

/-- LINK_LAYER_REPLAY (R77): recovered by the link layer and counted toward record 0x0103. -/
def execLinkLayerReplay (p n : Nat) (s : State) : Out :=
  .next (whenMain (fun s => if (port s p).up then bumpChN 0x0103 p n s else s) s)

/-! ### Credits and old requests -/

/-- R120: held responses in round-robin order among the LDs. -/
def roundRobin (hs : List (Nat × Req × RespKind)) : List (Nat × Req × RespKind) :=
  (List.range hs.length).flatMap (fun i => (List.range 17).filterMap (fun l => (hs.filter (fun h => h.2.1.ld == l))[i]?))

/-- R73: a held response is sent if the port has its S2M credit; else it stays held, and an episode starts (R74). -/
def sendHeld (h : Nat × Req × RespKind) (s : State) : State :=
  if s2mFree (port s h.2.1.port) h.2.2 then sendResp h.1 h.2.1 h.2.2 s
  else modPort h.2.1.port (fun x => { x with held := x.held ++ [h], withheldSince := some (x.withheldSince.getD (tbNow s)) }) s

/-- S2M_CREDIT_RETURN (R73, R74, R120): the host returns NDR and DRS credits; the episode ends, and held responses are sent
in round-robin order among the LDs while credits last. -/
def execS2mCreditReturn (c : CreditReturn) (s : State) : Out :=
  .next (whenMain (fun s =>
    if !(port s c.port).up then s else
    let hs := roundRobin (port s c.port).held
    let s1 := modPort c.port (fun x => { x with held := [], ndrCredits := x.ndrCredits + c.ndr, drsCredits := x.drsCredits + c.drs })
      (endWithheld c.port s)
    drainIngress c.port (forAll hs sendHeld s1)) s)

/-- R74: whether S2M credits have been withheld for 10 ms in an episode that has no record yet. -/
def withheldDue (s : State) (p : Nat) : Bool :=
  match (port s p).withheldSince with
  | some t => (port s p).up && !(port s p).withheldRec && decide (t + 10000000 ≤ tbNow s)
  | none => false

/-- S2M_CREDIT_WITHHELD (R74): S2M credits have been withheld for 10 ms; record 0x0106 once in the episode. -/
def execS2mCreditWithheld (p : Nat) (s : State) : Out :=
  .next (whenMain (fun s =>
    if withheldDue s p then emit 0x0106 p p 10 0 0 (modPort p (fun x => { x with withheldRec := true }) s) else s) s)

/-- REQUEST_AGE_25MS (R156): one record per request, unless the wait is for S2M credits. -/
def execRequestAge25ms (p l tag : Nat) (s : State) : Out :=
  .next (whenMain (fun s =>
    let old := fun (r : Req) => r.ld == l && r.tag == tag && !r.aged && decide (r.stamp + 25000000 ≤ tbNow s)
    match (port s p).reqs.find? old with
    | none => s
    | some r =>
      if (port s p).held.any (fun h => sameTag h.2.1 r) then s
      else emit 0x0404 0xFF (ldMaster p l) r.op.number tag ((tbNow s - r.stamp) / 1000)
        (modPort p (fun x => { x with reqs := x.reqs.map (fun y => if old y then { y with aged := true } else y) }) s)) s)

/-! ### GPF (R357) -/

/-- R357: a port answers GPF requests on CXL 2.0 and 3.1, and not during a flush (R354). -/
def gpfServed (s : State) (p : Nat) : Bool := (port s p).up && (port s p).cxl != 0x11 && s.belay.step == 0

/-- GPF_PHASE_1 (R357): answered at once. -/
def execGpfPhase1 (p : Nat) (s : State) : Out :=
  .next (whenMain (fun s => if gpfServed s p then
    bump 0x0F09 1 1 { s with ports := { s.ports with readData := 1 } } else s) s)

/-- R357: whether a write accepted on a port has not yet entered a line. -/
def writesWaiting (s : State) (p : Nat) : Bool :=
  (s.cache.waiting ++ s.cache.budgetWait ++ s.cache.heldReqs ++ s.cache.fills.flatMap (fun f => f.2.waiters)).any (droppedWrite p none)

/-- GPF_PHASE_2 (R357): answered once the earlier writes are in lines; no flush starts. -/
def execGpfPhase2 (p latencyNs : Nat) (s : State) : Out :=
  .next (whenMain (fun s => if gpfServed s p && !writesWaiting s p then
    bumpMax 0x0F09 3 latencyNs (bump 0x0F09 2 1 { s with ports := { s.ports with readData := 2 } }) else s) s)

/-! ### Timed events of the Tollgate -/

/-- FREEZE_COMMIT (R111): Synet writes the freezes in force to the FREEZE records; the commit of those records clears
the latch. -/
def freezeCommit (s : State) : State :=
  let new := s.gate.freezes.filter (fun f => tget s.sad.img.freezes (freezeSlot f.master) ≠ some f)
  if new.isEmpty then s
  else modImg (new.map (fun f => rk 9 (freezeSlot f.master / 64))) (fun m => { m with
    freezes := new.foldl (fun t f => tset t (freezeSlot f.master) f) m.freezes }) s

/-- FREEZE_COMMIT (R111). -/
def execFreezeCommit (s : State) : Out := .next (whenMain freezeCommit s)

/-- CONTRACT_LOWER_APPLY (R100). -/
def execContractLowerApply (p l : Nat) (s : State) : Out :=
  .next (whenMain (fun s =>
    match (ldAt s (ldKey p l)).pendingOut with
    | none => s
    | some n => if (ldAt s (ldKey p l)).outstanding ≤ n then
        modLd (ldKey p l) (fun x => { x with map := { x.map with outstanding := n }, pendingOut := none }) s else s) s)

/-- POISON_WINDOW_END (R98): the poisoned-write counts of windows of 256 stages that have ended restart. -/
def execPoisonWindowEnd (s : State) : Out :=
  .next (whenMain (fun s => { s with ports := { s.ports with lds := tmap s.ports.lds (fun _ l =>
    { l with poisonCnt := poisonedIn s l, poisonWin := poisonWindow s }) } }) s)

/-- FORCED_RELEASE_GRACE_END (R93): 10 ms after the removal of an extent its grace is over. -/
def execForcedReleaseGraceEnd (p l dpaLeg : Nat) (s : State) : Out :=
  .next (whenMain (modLd (ldKey p l) (fun x => { x with
    graces := x.graces.filter (fun g => g.dpaLeg ≠ dpaLeg || decide (tbNow s < g.since + 10000000)) })) s)

end Sys2Proof.Machine
end

