-- ==== Sys2Proof/Machine/Move.lean ====
section
/-! DEFINITION. What maintenance reads and programs carry: a re-bale's parcels (R303, R243), a sweep's copies (R316), and what a
program that has passed verify lets go on (R229, R306, R307). -/

namespace Sys2Proof.Machine

/-! ### Bales -/

/-- Every read that a bank holds. -/
def bankReads (x : Bank) : List RdItem :=
  x.retryQ ++ x.guarQ ++ x.otherQ ++ x.received ++ (match x.run with | .read r => [r] | _ => [])

/-- Whether a channel holds a read for some work at a location. -/
def readHeld (s : State) (w : RWork) (ppa : Nat) : Bool :=
  (bankReads (bankOf (chan s (ppaCh ppa)) (ppaBank ppa)) ++ (chan s (ppaCh ppa)).deepWait).any (fun r => r.work == w && r.ppa == ppa)

/-- The overlay entries of a bale. -/
def baleEntries (s : State) (lbi : Nat) : Tbl OvEntry := s.way.map.overlay.filter (fun p => lpnLbi p.1 = lbi)

/-- R305: the records of a bale map entry: BALE_SET, OVL_KEEP for each overlay entry left, SPARSE_MAP of a sparse state. -/
def baleRecs (s : State) (lbi stamp : Nat) : List JRec :=
  let b := baleAt s lbi
  let es := baleEntries s lbi
  [.baleSet lbi b stamp es.length] ++ es.map (fun p => .ovlKeep p.1) ++
    (if b.st = .sparse ∨ b.st = .lostSparse then
      (List.range 4).map (fun q => .sparseMap lbi q ((sparseAt s lbi).extractLsb' (64 * q) 64)) else [])

/-- A bale's location at a segment. -/
def baleLoc (b : Bale) (ppa : Nat) : Bale :=
  { b with ch := ppaCh ppa, die := ppaDie ppa, bank := ppaBank ppa % 16, tile := ppaTile ppa, seg := ppaParcel ppa / 256 }

/-- R320: the stamp of a Dense segment is stored as it is programmed. -/
def stampSegment (ppa : Nat) (s : State) : State :=
  if isFast s ppa then s
  else { s with way := { s.way with map := { s.way.map with stamps := tset s.way.map.stamps (stampKey ppa) (stampNow s (ppaCh ppa)) } } }

/-- R303 step 3, R316: a fresh segment of a class, on the first of some channels that has one. -/
def freshSegment (s : State) (fast : Bool) : List Nat → Option (Nat × State)
  | [] => none
  | c :: cs =>
    match (leastBank s c).bind (fun b => takeLoc c b (if fast then .maintFast else .maintDense) 256 s) with
    | some r => some r
    | none => freshSegment s fast cs

/-- The programs of a segment's parcels are asked for, in ascending parcel order (R303 step 3). -/
def askSegment (w : Nat → MWork) (ppa : Nat) (fast : Bool) (ls : Tbl Load) (s : State) : State :=
  forAll ls (fun p t => putProg (w p.1) (ppa + p.1) 0
    { t with way := { t.way with progs := t.way.progs ++ [{ work := w p.1, load := p.2, fast := fast }] } }) s

/-! ### Re-baling (R303) -/

/-- R303 step 1: the source of a parcel. -/
def srcOf (s : State) (lpn : Nat) : Src :=
  match tget s.way.map.overlay lpn with
  | some e => .entry e
  | none => if baseRes s lpn = .zeros then .unwritten else .base

/-- R226, R228: an eviction whose roll must wait: its leaf still rolls, or its partition has 1,024 leaves rolling. -/
def rollWaits (s : State) (lpn part : Nat) : Bool :=
  (leafAt s (lpn / 64)).minors[minorIdx lpn] == 127 && (thas s.sealCtl.companions (lpn / 64) || decide (1024 ≤ rollsOf s part))

/-- Whether a parcel lies beneath a lost node that R237 leaves unreplaced. -/
def underRetired (s : State) (lpn : Nat) : Bool := s.sealCtl.lost.any (fun l => l.retired && nodeIdx lpn l.level == l.idx)

/-- R215: why the Seal engine rejects a codeword, 0 for none. -/
def verdict (s : State) (part lpn : Nat) (w : Codeword) : Nat :=
  match openKey s part (metaKg w.mdat) with
  | none => 1
  | some k => unsealFail k part lpn (openCtr s lpn).1 (openCtr s lpn).2 w

/-- R226: an eviction sealed before its leaf rolled writes its minor into the companion lines; one sealed after sets
DONE. -/
def companionCommit (lpn : Nat) (wseq : BitVec 32) (s : State) : State :=
  match tget s.sealCtl.companions (lpn / 64) with
  | none => s
  | some c =>
    if wseq.extractLsb' 7 25 = (leafAt s (lpn / 64)).major.extractLsb' 0 25 then setDone lpn s
    else
      let d := { c with minors := c.minors.set (lpn % 64) (wseq.extractLsb' 0 7) (Nat.mod_lt _ (by decide)) }
      { s with sealCtl := { s.sealCtl with companions := tset s.sealCtl.companions (lpn / 64) d } }

/-- R303 step 1: the location that a source's read goes to. -/
def srcLoc (s : State) (lpn : Nat) : Src → Option Nat
  | .entry e => if e.kind = .located then some e.ppa else none
  | .base => (match baseRes s lpn with | .at_ p => some p | _ => none)
  | .unwritten => none

/-- R303 step 3, R243: zeros sealed as poisoned, at an incremented minor or at the parcel's own counter. -/
def poisonedZeros (key : KeySet) (part lpn : Nat) (inc : Bool) (s : State) : Codeword × State :=
  let t := if inc then incCounter lpn part (unwrittenMap s (lpn / 64)) s else s
  let c := if inc then ((leafAt t (lpn / 64)).major, (leafAt t (lpn / 64)).minors[minorIdx lpn]) else openCtr s lpn
  (sealWord key part lpn c.1 c.2 true zeroParcel, t)

/-- R303 step 3, R214, R243, R595: the load programmed for a source: what was read, re-sealed under NEW_GEN by a traverse, or
poisoned zeros where no read gave verified data. -/
def rebaleLoad (trav : Bool) (part lpn : Nat) (src : Src) (got : Option Load) (key : KeySet) (s : State) : Load × State :=
  let zeros := fun (inc : Bool) => let r := poisonedZeros key part lpn inc s; (Load.word r.1, r.2)
  let c := openCtr s lpn
  match got with
  | some (.word w) =>
    if !trav then (.word w, s)
    else match openKey s part (metaKg w.mdat) with
      | none => zeros true
      | some o => if metaPoison w.mdat then zeros false else (.word (sealWord key part lpn c.1 c.2 false (unsealData o lpn c.1 c.2 w)), s)
  | some l => (l, s)
  | none =>
    let known := match src with | .entry e => e.kind == .poison | _ => false
    zeros (!(trav && known) || neverUsed c)

/-- R303 step 3: the loads of a segment in ascending parcel order. -/
def rebaleLoads (j : RebaleJob) (part lbi : Nat) (key : KeySet) : List (Nat × Src) → State → Tbl Load × State
  | [], s => ([], s)
  | (i, src) :: rest, s =>
    match src with
    | .unwritten => rebaleLoads j part lbi key rest s
    | _ =>
      let r := rebaleLoad j.traverse part (lbi * 256 + i) src ((tget j.read i).join) key s
      let t := rebaleLoads j part lbi key rest r.2
      ((i, r.1) :: t.1, t.2)

/-- The sources of a job that are locations and have not been read. -/
def unread (s : State) (lbi : Nat) (j : RebaleJob) : List (Nat × Nat) :=
  ((List.range 256).zip j.srcs).filterMap (fun p =>
    if thas j.read p.1 then none else (srcLoc s (lbi * 256 + p.1) p.2).map (fun a => (p.1, a)))

/-- Whether a source's poisoned zeros take a counter increment, or its re-seal needs its leaf. -/
def needsLeaf (j : RebaleJob) (p : Nat × Src) : Bool :=
  p.2 != .unwritten && (j.traverse || ((tget j.read p.1).join).isNone)

/-- R303 step 3: every source is read: a fresh segment is taken, and its programs are asked for. What cannot be done yet waits
(R228, R234, R299). -/
def buildSegment (lbi part : Nat) (key : KeySet) (chans : List Nat) (s0 : State) : State :=
  match tget s0.way.rebales lbi with
  | none => s0
  | some j =>
    let pairs := (List.range 256).zip j.srcs
    let s := forAll (pairs.filter (needsLeaf j)) (fun p t => fetchPath [] (lbi * 256 + p.1) t) s0
    let stuck := fun (p : Nat × Src) => let l := lbi * 256 + p.1
      needsLeaf j p && (underLost s l || underRetired s l || rollWaits s l part)
    if j.dest.isSome || !(unread s lbi j).isEmpty || pairs.any stuck then s
    else match freshSegment s j.fast chans with
      | none => s
      | some (ppa, t) =>
        let r := rebaleLoads j part lbi key pairs t
        askSegment (.bale lbi) ppa j.fast r.1 (stampSegment ppa { r.2 with way := { r.2.way with
          rebales := tset r.2.way.rebales lbi { j with dest := some ppa, words := r.1 } } })

/-- R303, R243, R301: the key set that poisoned zeros and re-seals of a bale are sealed under; a system bale has none of them. -/
def baleKey (s : State) (lbi : Nat) (j : RebaleJob) : Option KeySet :=
  match partOfLpn s (lbi * 256) with
  | some part => if j.traverse then (keySlot s part).nxt else sealKey s part (lbi * 256)
  | none => if 81920 ≤ lbi / 16384 then some (sysKey s 1) else none

/-- R303: a job whose reads are done goes on to its programs. -/
def buildBale (lbi : Nat) (s : State) : State :=
  match tget s.way.rebales lbi with
  | none => s
  | some j => match baleKey s lbi j with
    | some key => buildSegment lbi ((partOfLpn s (lbi * 256)).getD 0) key (maintChans s lbi none) s
    | none => s

/-- R303 step 2: a source's read has ended; none: in poison. -/
def rebaleRead (lbi i : Nat) (got : Option Load) (s : State) : State :=
  match tget s.way.rebales lbi with
  | none => s
  | some j =>
    let j1 := { j with read := tset j.read i got }
    let t := { s with way := { s.way with rebales := tset s.way.rebales lbi j1 } }
    if (unread t lbi j1).isEmpty then buildBale lbi t else t

/-- A job's reads are asked for, but those that a bank already holds (R303 step 2). -/
def askReads (lbi : Nat) (s : State) : State :=
  match tget s.way.rebales lbi with
  | none => s
  | some j =>
    forAll ((unread s lbi j).filter (fun p => !readHeld s (.bale lbi p.1) p.2)) (fun p t =>
      if served t p.2 then enqueueRead { lpn := lbi * 256 + p.1, ppa := p.2, cls := .maint, part := (partOfLpn t (lbi * 256)).getD 0, age := tbNow t, work := .bale lbi p.1 } t
      else rebaleRead lbi p.1 none t) s

/-- R303 step 1: the snapshot, and its reads. -/
def snapBale (trav fast : Bool) (lbi : Nat) (s : State) : State :=
  let srcs := (List.range 256).map (fun i => srcOf s (lbi * 256 + i))
  let t := askReads lbi { s with way := { s.way with
    rebales := tset s.way.rebales lbi { srcs := srcs, fast := fast, traverse := trav }
    rebaleQ := s.way.rebaleQ.filter (· ≠ lbi) } }
  buildBale lbi t

/-- R303 step 3: whether the segment of a job is programmed whole. -/
def segmentWhole (s : State) (lbi : Nat) (j : RebaleJob) : Bool :=
  j.dest.isSome && s.way.progs.all (fun p => match p.work with | .bale b _ => b != lbi || p.passed | _ => true)

/-- A re-bale ends without a commit (R303, R331): its programs become invalid. -/
def dropRebale (lbi : Nat) (s : State) : State :=
  dropProgs (fun w => match w with | .bale b _ => b == lbi | _ => false) { s with way := { s.way with rebales := tdel s.way.rebales lbi } }

/-! ### Sweeping (R316) -/

/-- R316: whether a location's copy is a base segment's, and of which bale. -/
def segOf (s : State) (ppa : Nat) : Option (Nat × Bale) :=
  s.way.map.bales.find? (fun p => (p.2.st == .baled || p.2.st == .sparse) && basePpa p.2 0 == ppa / 256 * 256)

/-- R316: a sweep's program of a copy is asked for at a location, or where the Waybill has one. -/
def askCopy (tile src : Nat) (fast : Bool) (at' : Option Nat) (l : Load) (s : State) : State :=
  let w : MWork := .sweep tile src
  let t := { s with way := { s.way with progs := s.way.progs ++ [{ work := w, load := l, fast := fast }] } }
  match at' with
  | some ppa => putProg w ppa 0 t
  | none => placeProg 0 w t

/-- R316: a source of a sweep is read: its copy is programmed, a log parcel's by itself and a base segment's in a segment taken
for it. -/
def sweepRead (tile src : Nat) (got : Option Load) (s : State) : State :=
  match tget s.way.sweeps tile, got with
  | none, _ => s
  | some j, none => { s with way := { s.way with sweeps := tset s.way.sweeps tile { j with todo := j.todo.filter (· ≠ src) } } }
  | some j, some l =>
    let j1 := { j with todo := j.todo.filter (· ≠ src) }
    let log := s.way.map.overlay.any (fun p => p.2.kind == .located && p.2.ppa == src)
    match (if log then none else segOf s src) with
    | none => if log then askCopy tile src true none l { s with way := { s.way with sweeps := tset s.way.sweeps tile j1 } }
        else { s with way := { s.way with sweeps := tset s.way.sweeps tile j1 } }
    | some (lbi, _) =>
      let fast := (tileAt s tile).cls == .fast
      match tget j.segs lbi with
      | some d => askCopy tile src fast (some (d + src % 256)) l { s with way := { s.way with sweeps := tset s.way.sweeps tile j1 } }
      | none => match freshSegment s fast [tileCh tile] with
        | some (d, t) => askCopy tile src fast (some (d + src % 256)) l
            (stampSegment d { t with way := { t.way with sweeps := tset t.way.sweeps tile { j1 with segs := tset j1.segs lbi d } } })
        | none => s

/-- The parcels of a bale whose current copy lies in its base segment. -/
def baseCurrent (s : State) (lbi : Nat) (b : Bale) : List Nat :=
  (List.range 256).filter (fun i => lookup s (lbi * 256 + i) == .at_ (basePpa b i))

/-- R316: a base segment all of whose current parcels are copied moves whole, with the sparse map unchanged. -/
def moveSegment (tile lbi dst : Nat) (s : State) : State :=
  match tget s.way.sweeps tile, tget s.way.map.bales lbi with
  | some j, some b =>
    let cur := baseCurrent s lbi b
    if tileKey (basePpa b 0) ≠ tile ∨ !cur.all (fun i => j.copies.any (fun c => c.1 == basePpa b i)) then s
    else
      let n := baleLoc b dst
      let t := { s with way := { s.way with
        map := { s.way.map with bales := tset s.way.map.bales lbi n }
        sweeps := tset s.way.sweeps tile { j with segs := tdel j.segs lbi } } }
      let u := modTile (tileKey dst) (fun y => { y with valid := y.valid + cur.length }) (modTile tile (fun y => { y with valid := y.valid - cur.length }) t)
      journal (baleRecs u lbi (if isFast u dst then 0 else tgetD u.way.map.stamps (stampKey dst) 0)) u
  | _, _ => s

/-- R316: a copy of an overlay entry becomes current if the entry still names its source. -/
def sweepEntry (lpn src dst : Nat) (e : OvEntry) (s : State) : State :=
  let s1 := { s with way := { s.way with map := { s.way.map with overlay := tset s.way.map.overlay lpn { e with ppa := dst } } } }
  journal [.ovlSet lpn dst e.wseq] (addLoc dst (dropLoc src s1))

/-- R310: whether a hold keeps the map pages that a sweep's copy is to change. -/
def sweepHeld (s : State) (j : SweepJob) (src dst : Nat) : Bool :=
  match s.way.map.overlay.find? (fun p => p.2.kind == .located && p.2.ppa == src) with
  | some (lpn, _) => lookupHeld s lpn
  | none => j.segs.any (fun p => p.2 == dst / 256 * 256 && lookupHeld s (p.1 * 256))

/-- R316: a sweep's copy has passed verify: its source is copied; a log parcel's map entry, or a whole base segment's, moves if
it is unchanged, once no hold keeps its pages. -/
def sweepPassed (tile src dst : Nat) (s : State) : State :=
  match tget s.way.sweeps tile with
  | none => s
  | some j =>
    if sweepHeld s j src dst then s else
    let s1 := dropProgs (· == .sweep tile src) { s with way := { s.way with
      sweeps := tset s.way.sweeps tile { j with copies := j.copies ++ [(src, dst)] } } }
    match s.way.map.overlay.find? (fun p => p.2.kind == .located && p.2.ppa == src) with
    | some (lpn, e) => sweepEntry lpn src dst e s1
    | none => match j.segs.find? (fun p => p.2 = dst / 256 * 256) with
      | some (lbi, d) => moveSegment tile lbi d s1
      | none => s1

/-- R373: the partition that a maintenance program's wear is charged to: the owner of a tenant parcel that the Drover programs; none for
a system space and for a traverse. -/
def workPart (s : State) (w : MWork) : Nat :=
  let trav := match w with
    | .bale lbi _ => (match tget s.way.rebales lbi with | some j => j.traverse | none => false)
    | _ => false
  match progOf s w with
  | some { load := .word c, .. } => if trav then noPart else (c.mdat.extractLsb' 0 10).toNat
  | _ => noPart

/-! ### What a passed program lets go on -/

/-- R229: a mapped system parcel's program has passed: its location is committed with that of the other copy, if that one is
programmed too, once no hold keeps their pages (R310). -/
def settleCopy (w : Nat → MWork) (lpn : Nat → Nat) (s : State) : State :=
  let one := fun (c : Nat) (p : MProg) => dropProgs (· == w c) (setLocated (lpn c) p.ppa (loadSeq p.load) s)
  if lookupHeld s (lpn 0) || lookupHeld s (lpn 1) then s
  else match progOf s (w 0), progOf s (w 1) with
  | some _, some _ => commitCopies w lpn s
  | some a, none => one 0 a
  | none, some b => one 1 b
  | none, none => s

/-- R326, R307: the copy of a lost system parcel has passed verify: the directory and the CHECKPOINT record name it in place of the
lost one. -/
def copyPassed (src ppa : Nat) (s : State) : State :=
  let new := fun (p : Nat) => if p = src then ppa else p
  let dir := fun (d : Tbl (Nat × Nat)) => tmap d (fun _ p => (new p.1, new p.2))
  let round := fun (r : Round) => { r with dir := dir r.dir }
  let c := s.sad.img.ckpt
  let t := addLoc ppa (dropLoc src { s with way := { s.way with
    dir := dir s.way.dir, round := s.way.round.map round, roundDone := s.way.roundDone.map round } })
  dropProgs (fun w => match w with | .copy x _ => x == src | _ => false)
    (if src = c.dirA ∨ src = c.dirB then modImg [rk 10 0] (fun m => { m with ckpt := { c with dirA := new c.dirA, dirB := new c.dirB } }) t else t)

/-- What a maintenance program that has passed verify lets go on. -/
def progSettled (w : MWork) (ppa : Nat) (s : State) : State :=
  match w with
  | .tree l q _ => treeGoesOn 12 (settleCopy (.tree l q) (treeLpn l q) s)
  | .log n _ => settleCopy (.log n) (logLpn n) s
  | .page k _ _ => roundGoesOn (pageDone k (addLoc ppa s))
  | .dir _ => addLoc ppa s
  | .journal .. => addLoc ppa s
  | .sweep t src => sweepPassed t src ppa s
  | .ledger .. => ledgerFeed (dropProgs (· == w) s)
  | .copy src _ => copyPassed src ppa s
  | .bale .. => s

/-- R280, R283: a maintenance program passes verify: its load is on the medium; a location whose program is no longer wanted
is invalid. -/
def passMaint (w : MWork) (ppa : Nat) (s : State) : State :=
  match progOf s w with
  | none => s
  | some p =>
    if p.ppa ≠ ppa then s
    else progSettled w ppa (modProg w (fun p => { p with passed := true }) { s with medium := putLoad ppa p.load s.medium })

/-- R128, R281: a maintenance program that failed or was abandoned is asked for again from a later stage: a journal lane goes on in
its next tile, a ledger parcel keeps its place, a segment's parcel ends its re-bale or its sweep of the segment, and any
other is placed anew. -/
def remake (w : MWork) (ppa after : Nat) (s : State) : State :=
  let open' := modProg w (fun p => { p with placed := false }) s
  match w with
  | .journal j c => match journalCh s j c with
    | some ch => placeProg after w (if (tget (chan s ch).lanes (j % 8)).any (fun x => x.1 == tileKey ppa) then nextLane ch (j % 8) open' else open')
    | none => open'
  | .bale lbi _ =>
    let mine := fun (x : MWork) => match x with | .bale b _ => b == lbi | _ => false
    let t := dropProgs mine { s with way := { s.way with rebales := tdel s.way.rebales lbi } }
    if t.way.rebaleQ.contains lbi then t else { t with way := { t.way with rebaleQ := t.way.rebaleQ ++ [lbi] } }
  | .sweep tile src => match tget s.way.sweeps tile with
    | some j => match j.segs.find? (fun p => p.2 / 256 = ppa / 256) with
      | some g =>
        let inSeg := fun (x : Nat) => x / 256 == src / 256
        let mine := fun (x : MWork) => match x with | .sweep t y => t == tile && inSeg y | _ => false
        let back := ((s.way.progs.filter (fun p => mine p.work)).filterMap (fun p => match p.work with | .sweep _ y => some y | _ => none)) ++
          (j.copies.filter (fun c => inSeg c.1)).map (·.1)
        dropProgs mine { s with way := { s.way with sweeps := tset s.way.sweeps tile { j with
          segs := tdel j.segs g.1, copies := j.copies.filter (fun c => !inSeg c.1), todo := j.todo ++ back } } }
      | none => placeProg after w open'
    | none => open'
  | _ => placeProg after w open'

/-- Programs that wait for a location get one as soon as there is one. -/
def placeWaiting (s : State) : State :=
  forAll (s.way.progs.filter (fun p => !p.placed)) (fun p t => placeProg 0 p.work t) s

end Sys2Proof.Machine
end

