-- ==== Sys2Proof/Machine/Stage.lean ====
section
/-! DEFINITION. The Stage planner: stages and plans (R122 to R143), the window boundary (R127, R128, R135), health
evaluation (R43 to R47, R567, R592), and journal parcels (R306). -/

namespace Sys2Proof.Machine

/-! ### Health evaluation -/

/-- R44: whether a state alters a tenant's service: reads or writes are handled otherwise than in NORMAL. -/
def altersService (st : Nat) : Bool := decide (2 ≤ st)

/-- R47: the LDs that a health change is posted to: the management LD, and the tenant LDs whose service it alters. -/
def healthTargets (s : State) (old new : Nat) : List Nat :=
  mgmtLds s ++ (if altersService new || (old != 7 && altersService old) then tenantLds s else [])

/-- R328: WRITE_SPENT holds while every spare of the modules in service is consumed and free space is below the reserve. -/
def spentNow (s : State) : Bool := sparesInit s != 0 && sparesUsed s == sparesInit s && decide (freeAll s < writeReserve s)

/-- R328: WRITE_SPENT is entered, with record 0x0903; only an adoption ends it. -/
def spentCheck (s : State) : State :=
  if s.health.spent || !spentNow s then s
  else emit 0x0903 0xFF (freeAll s) (writeReserve s) 0 0 { s with health := { s.health with spent := true } }

/-- R47: a change of the health state writes 0x0C10 and posts its events. -/
def healthRecord (old new : Nat) (conds changed : BitVec 12) (s : State) : State :=
  let s1 := emit 0x0C10 0xFF old new conds.toNat changed.toNat s
  if old = 7 ∧ new = 0 then s1
  else postEvent (healthTargets s1 old new) 1 (evOf 0x0C10 old new conds.toNat changed.toNat) s1

/-- R43, R47, R567: one evaluation of the health conditions c. R66, R79: the LDs of ports already up become active at the
first evaluation, and when bivouac mode ends without a reset (R533). -/
def evalHealth (c : BitVec 12) (s : State) : State :=
  let n := stateOf c
  let old := s.health.st
  let was := if old = 7 then 0 else s.health.conds
  if n = old ∧ c = s.health.conds then s
  else
    let s1 := { s with health := { s.health with st := n, conds := c, seq := p32 (s.health.seq + 1) } }
    let s2 := forAll (tkeys s1.ports.lds) (setChg 0) s1
    let s3 := if n = old then s2 else healthRecord old n c (c ^^^ was) s2
    if old = 7 ∨ old = 6 then forAll ids32 activateLds s3 else s3

/-- R16, R407: the code of an alert's event descriptor. -/
def evAlert : Nat := 0x0CE1

/-- R407: the alert conditions of an LD that hold: bit 0 life used, 1 over-temperature, 2 under-temperature. -/
def alertsNow (s : State) (l : Ld) : BitVec 8 :=
  let hot := match s.therm.tj with | some t => decide (l.alertTemp * 16 ≤ t) | none => false
  let cold := match s.therm.tj with | some t => decide (t ≤ l.alertUnder * 16) | none => false
  l.alertValid &&& ((if l.alertLife ≤ lifeUsed s then 1 else 0) ||| (if hot then 2 else 0) ||| (if cold then 4 else 0))

/-- R407: an alert that begins to hold becomes a Warning event record of its LD. -/
def alertCheck (s : State) : State :=
  forAll (tkeys (s.ports.lds.filter (fun p => p.2.alertValid != 0 || p.2.alertRaised != 0))) (fun k t =>
    let now := alertsNow t (ldAt t k)
    let fresh := now &&& ~~~(ldAt t k).alertRaised
    let u := modLd k (fun l => { l with alertRaised := now }) t
    if fresh = 0 then u else postEvent [k] 1 (evOf evAlert fresh.toNat 0 0 0) u) s

/-- R592, R567, R43: evaluations begin at the first stage tick after step 1 of R530; in bivouac the loader makes the first.
An evaluation sees the conditions as they stood before the cycle of its tick. -/
def healthTick (s : State) : State :=
  if s.boot.running && (!s.boot.step1 || s.sad.recalling) then s
  else if !s.boot.running && s.health.st == 7 then s
  else evalHealth s.health.seen (spentCheck s)

/-! ### Journal parcels (R306) -/

/-- R306: the tail's records in groups of up to 15, numbered from a JSEQ; `fuel` bounds the groups. -/
def fillParcels : Nat → Nat → List JRec → List JParcel
  | 0, _, _ => []
  | _, _, [] => []
  | fuel + 1, j, r :: rs => { jseq := j, recs := (r :: rs).take 15 } :: fillParcels fuel (j + 1) ((r :: rs).drop 15)

/-- R306, R301: both copies of a journal parcel are asked for. -/
def askJournal (p : JParcel) (s : State) : State :=
  forAll [0, 1] (fun c t => askSys (.journal p.jseq c) (3 + c) (p.jseq % 524288) p.jseq (.journal p 0) t) s

/-- R306, R210, R330: at a stage tick with waiting records, journal parcels are filled. A record that opening a lane's tile
appends waits for the next tick. -/
def journalFill (s : State) : State :=
  if s.sealCtl.zeroed || s.boot.recovering || (serving s).isEmpty || s.health.st == 5 || s.health.st == 6 then s
  else
    let ps := fillParcels s.way.tail.length s.way.jseq s.way.tail
    forAll ps askJournal { s with way := { s.way with tail := [], parcels := s.way.parcels ++ ps, jseq := s.way.jseq + ps.length } }

/-! ### Plans -/

/-- R125: windows of a program or reset, and those it still needs. -/
def seqWindows : PulseSeq → Nat
  | .program _ _ fast .. => if fast then 2 else 8
  | .maint _ _ fast .. => if fast then 2 else 8
  | .reset .. => 12
/-- R125, R128: windows that a sequence still needs. -/
def seqLeft : PulseSeq → Nat
  | .program _ _ fast pairs _ _ _ => (if fast then 2 else 8) - pairs
  | .maint _ _ fast pairs _ => (if fast then 2 else 8) - pairs
  | .reset _ _ _ pulses _ _ => 12 - pulses
/-- R125: the channel transfers of a sequence. -/
def seqXfers : PulseSeq → Nat
  | .reset .. => 0
  | _ => 1
/-- R128, R282: the first stage in which a sequence may start; a deferred tile's resets wait with it. -/
def seqAfter (s : State) : PulseSeq → Nat
  | .program _ _ _ _ _ _ a => a
  | .maint _ _ _ _ a => a
  | .reset t _ _ _ _ a => max a (tileAt s t).deferStage
/-- Maintenance sequences: segment resets, and programs of maintenance work. -/
def isMaint : PulseSeq → Bool
  | .program .. => false
  | _ => true

/-- R315: A: the FREE tiles of a channel less its unconsumed spares. -/
def freeA (s : State) (c : Nat) : Nat := freeTiles s c - ((chan s c).spares - (chan s c).consumed)

/-- R315: the tiles of a channel. -/
def chanTiles (s : State) (c : Nat) : Nat := 128 * (chan s c).tilesPerBank

/-- R315: a channel whose sweep takes maintenance capacity ahead of re-bale, refresh and scrub. -/
def urgent (s : State) (c : Nat) : Bool := decide (100 * freeA s c < chanTiles s c)

/-- R142, R306, R315, R244: the order of the maintenance requesters on a channel, the first 0: journal commits, the moves of
R142, counter writeback, checkpoint rounds, urgent sweep, the rest, and traverse movement. -/
def workOrder (s : State) (c : Nat) : MWork → Nat
  | .journal .. => 0
  | .tree .. => 2
  | .page .. | .dir _ => 3
  | .copy .. => 5
  | .ledger .. | .log .. => 5
  | .bale lbi _ => match tget s.way.rebales lbi with | some j => if j.traverse then 6 else 5 | none => 5
  | .sweep t _ => match tget s.way.sweeps t with
    | some j => if j.forbidden then 1 else if urgent s c then 4 else 5
    | none => 5

/-- The place of a maintenance sequence in the order; journal parcels stand in JSEQ order. -/
def seqOrder (s : State) (c : Nat) : PulseSeq → Nat × Nat
  | .maint (.journal j k) .. => (0, 2 * j + k)
  | .maint w .. => (workOrder s c w, 0)
  | .reset .. => (if urgent s c then 4 else 5, 0)
  | .program .. => (7, 0)

/-- R137, R138: the maintenance requests of a channel for a stage, in order. -/
def requests (s : State) (c stage : Nat) : List (Nat × PulseSeq) :=
  let all := (chan s c).banks.flatMap (fun p => (p.2.planned.filter (fun q => isMaint q && decide (seqAfter s q ≤ stage))).map (fun q => (p.1, q)))
  let le := fun (a b : Nat × PulseSeq) =>
    let x := seqOrder s c a.2; let y := seqOrder s c b.2
    decide (x.1 < y.1) || (x.1 == y.1 && decide (x.2 ≤ y.2))
  sortBy le all

/-- R244: whether a request is a traverse's. -/
def travSeq (s : State) (c : Nat) (q : PulseSeq) : Bool := (seqOrder s c q).1 == 6

/-- R139: one request is placed if its bank, the channel's slots and its transfers admit it; `keep` transfers are left for
traverse movement (R244). The plan's `slots` and `m` are what is left of them. -/
def placeReq (keep : PulseSeq → Nat) (p : Plan) (r : Nat × PulseSeq) : Plan :=
  let n := 2 * seqWindows r.2
  let x := seqXfers r.2
  let left := tgetD p.hostSlots r.1 24
  if n ≤ left ∧ n * 1024 ≤ p.slots * p.fW ∧ (x = 0 ∨ x + keep r.2 ≤ p.m) then
    { p with seqs := p.seqs ++ [{ bank := r.1, seq := r.2, first := (24 - left) / 2, windows := seqWindows r.2 }]
             hostSlots := tset p.hostSlots r.1 (left - n), slots := p.slots - n, m := p.m - x }
  else p

/-- R244: the transfers of M, rounded up, that traverse work has on a channel while some waits. -/
def travFloor (s : State) (c m : Nat) : Nat :=
  let waits := (chan s c).banks.any (fun p => p.2.planned.any (travSeq s c) || p.2.otherQ.any (fun r => match r.work with
    | .bale lbi _ => (match tget s.way.rebales lbi with | some j => j.traverse | none => false) | _ => false))
  if waits then (m + 15) / 16 else 0

/-- R137, R139: a plan of a channel over some requests, under the values in force. -/
def planOver (s : State) (c k : Nat) (rs : List (Nat × PulseSeq)) : Plan :=
  let x := chan s c
  let m := maintTransfers x k
  let base : Plan := { hEff := hEff x k s.therm.fH, fH := s.therm.fH, fW := x.fW, m := m, forbid := forbidden x, slots := 2 * chanBanks x * k }
  if base.forbid ∨ s.health.st = 5 then base
  else
    let keep := fun (q : PulseSeq) => if travSeq s c q then 0 else travFloor s c m
    { rs.foldl (placeReq keep) base with m := m }

/-- R138: the plan of a channel for the next stage, from the snapshot. -/
def buildPlan (s : State) (k c : Nat) : Plan := planOver s c k (requests s c (s.planner.stage + 1))

/-- R133, R138: the planner snapshots its inputs and starts building. What completed in this very cycle is not yet in them
(R143). -/
def planSnapshot (s : State) : State :=
  let pending := if s.planner.maintTb = some (tbNow s) then s.planner.maintOld else s.planner.maintPending
  let k := if pending = 0 then s.planner.maintShare else pending
  let sh := (if s.planner.sharesTb = some (tbNow s) then s.planner.sharesOld else s.planner.sharesSet).filter (fun p => isActive s p.1)
  { s with
    planner := { s.planner with cycle := 3072, snapShare := k, snapShares := sh }
    chans := tmap s.chans (fun c x => if inService x then { x with building := some (buildPlan s k c), published := none } else x) }

/-- PLAN_SNAPSHOT (R138). -/
def execPlanSnapshot (s : State) : Out := .next (whenMain planSnapshot s)

/-- R138, R157: a plan that misses cycle 4,063 is discarded, and the miss is counted. -/
def planMiss (c : Nat) (s : State) : State :=
  bumpMax 0x0401 3 ((chan s c).missRun + 1) (bumpBit 0x0401 2 c (bump 0x0401 1 1
    (modChan c (fun x => { x with building := none, published := none, missRun := x.missRun + 1 }) s)))

/-- PLAN_PUBLISH (R138, R143) in a cycle of the stage: after cycle 4,063 the plan is discarded. -/
def execPlanPublish (p : PlanEnd) (s : State) : Out :=
  .next (whenMain (fun s =>
    if (chan s p.ch).building.isNone then s
    else if 4063 < p.cycle then planMiss p.ch s
    else modChan p.ch (fun x => { x with published := x.building, building := none, missRun := 0 }) s) s)

/-- PLAN_DEADLINE (R138, R157): a plan not published is discarded. -/
def execPlanDeadline (s : State) : Out :=
  .next (whenMain (fun s => forAll (ids32.filter (fun c => (chan s c).building.isSome)) planMiss s) s)

/-! ### The stage tick -/

/-- R139, R140, R143: the plan in force on a channel for the stage that starts: the published one under the f_h and f_w of the
tick, or the template, which has the slots of the previous plan and places nothing. -/
def tickPlan (s : State) (c : Nat) (x : Chan) : Plan :=
  let live := fun (p : Placed) => (bankOf x p.bank).planned.contains p.seq
  match x.published with
  | some p => if s.planner.emergency then planOver s c s.planner.maintShare []
      else planOver s c s.planner.maintShare ((p.seqs.filter live).map (fun p => (p.bank, p.seq)))
  | none => { planOver s c s.planner.maintShare [] with hostSlots := x.plan.hostSlots }

/-- R128, R153: no sequence spans a stage tick: one whose pulse still runs is abandoned at its next pulse boundary. -/
def tickBank (b : Bank) : Bank := { b with pulseWin := 0, hostUsed := 0, late := b.run == .pulse }

/-- A channel at a stage tick. -/
def tickChan (s : State) (c : Nat) (x : Chan) : Chan :=
  if !inService x then x
  else
    let p := tickPlan s c x
    { x with plan := p, template := x.published.isNone, published := none, building := none, hostLeft := p.hEff, maintLeft := p.m
             slotsLeft := p.slots, progStarted := 0, window := 0, tempMissStages := x.tempMissStages + 1, bframe := tempFrame
             banks := tmap x.banks (fun _ b => tickBank b) }

/-- R134: the credit of one partition on one channel at a tick, and the credit added before the cap (R375). -/
def accrueOne (s : State) (part r w c : Nat) (t : State) : State :=
  let p := (chan s c).plan
  let dr := r * p.hEff
  let dw := w * p.hEff * p.fW / 1024
  let k := part * 32 + c
  meter part (fun m => { m with shareHeld := m.shareHeld + dr + dw })
    { t with planner := { t.planner with
      readCredit := tset t.planner.readCredit k (min (tgetD t.planner.readCredit k 0 + dr) (2 * dr))
      writeCredit := tset t.planner.writeCredit k (min (tgetD t.planner.writeCredit k 0 + dw) (2 * dw)) } }

/-- R134: credits of partitions that have left ACTIVE are discarded, and their shares. -/
def dropCredits (s : State) : State :=
  let keep := fun (p : Nat × Nat) => isActive s (p.1 / 32)
  { s with planner := { s.planner with readCredit := s.planner.readCredit.filter keep
                                       writeCredit := s.planner.writeCredit.filter keep
                                       sharesSet := s.planner.sharesSet.filter (fun p => isActive s p.1) } }

/-- R134: the credits of the ACTIVE partitions accrue on every channel in service. -/
def accrue (s : State) : State :=
  forAll (s.planner.shares.filter (fun p => isActive s p.1)) (fun p t => forAll (serving s) (accrueOne s p.1 p.2.1 p.2.2) t) (dropCredits s)

/-- R566: the planner's registers for the stage. -/
def plannerRegs (s : State) : State :=
  { s with planner := { s.planner with
    templateReg := BitVec.ofNat 32 (bitmapOf ((serving s).filter (fun c => (chan s c).template)))
    forbidReg := BitVec.ofNat 32 (bitmapOf (forbiddenSet s))
    fHReg := s.therm.fH } }

/-! ### Abandonment and re-issue (R128, R154) -/

/-- R373, R128: pairs of an abandoned program are not charged. -/
def uncharge (part pairs : Nat) (s : State) : State := meter part (fun m => { m with wear := m.wear - 1024 * pairs }) s

/-- A program moves to a new location of another bank or channel, with the same data and counter (R128, R281, R288). -/
def reissue (lpn : Nat) (q : WbEntry) (fromCh : Nat) (sameCh : Bool) (s : State) : State :=
  let here := if sameCh then (leastBank s fromCh).bind (fun b => (takeLoc fromCh b .hostLog 1 s).map (fun r => (fromCh, r.1, r.2))) else none
  match here.orElse (fun _ => placeHost s) with
  | none => s
  | some (c, ppa, t) =>
    let t1 := modChan fromCh (fun x => { x with wbuf := x.wbuf.filter (fun w => !(w.lpn == lpn && w.ppa == q.ppa)) }) t
    let t2 := modChan c (fun x => { x with wbuf := x.wbuf ++ [{ q with ppa := ppa, passed := false }] }) t1
    let move := fun (l : Nat) (p : PendEv) => if l = lpn ∧ p.ppa = q.ppa then { p with ch := c, ppa := ppa } else p
    let t3 := { t2 with cache := { t2.cache with
      pend := tmap t2.cache.pend move, pendOld := t2.cache.pendOld.map (fun p => (p.1, move p.1 p.2)) } }
    planSeq c (ppaBank ppa) (.program lpn ppa true 0 q.word (wearPart q) (s.planner.stage + 1)) t3

/-- The write-buffer entry of an LPN on a channel whose program goes to a location (R178). -/
def wbEntry (s : State) (c lpn ppa : Nat) : Option WbEntry := (chan s c).wbuf.find? (fun w => w.lpn = lpn ∧ w.ppa = ppa)

/-- R128, R154: a program leaves its bank, which takes none for the next 2 stages, and is re-issued elsewhere. A program
whose write-buffer entry is dropped ends (R331). -/
def programElsewhere (c b lpn ppa : Nat) (s : State) : State :=
  let s1 := modBank c b (fun x => { x with excludedUntil := s.planner.stage + 3 }) s
  match wbEntry s1 c lpn ppa with
  | none => s1
  | some q => reissue lpn q c true s1

/-- R128: a bank's sequence ends there. -/
def endSeq (c b : Nat) (s : State) : State := modBank c b (fun x => { x with seq := none, run := .idle, late := false }) s

/-- R128: a reset is repeated from its first pulse in a later stage; abandoned twice in succession, its tile waits 64 stages. -/
def abandonReset (c b t g : Nat) (fast : Bool) (attempt : Nat) (s : State) : State :=
  let n := tgetD (bankOf (chan s c) b).abandonedResets (t * 64 + g) 0 + 1
  let q := PulseSeq.reset t g fast 0 attempt (s.planner.stage + 1)
  let s1 := modBank c b (fun x => { x with
    planned := x.planned ++ [q]
    abandonedResets := if 2 ≤ n then tdel x.abandonedResets (t * 64 + g) else tset x.abandonedResets (t * 64 + g) n }) (endSeq c b s)
  if 2 ≤ n then modTile t (fun y => { y with deferStage := s.planner.stage + 64 }) s1 else s1

/-- R128: the bank's pulse sequence is abandoned. -/
def abandonSeq (c b : Nat) (s : State) : State :=
  match (bankOf (chan s c) b).seq with
  | none => s
  | some (.program lpn ppa _ pairs _ part _) =>
    programElsewhere c b lpn ppa (bumpCh 0x0402 c (bump 0x0402 1 1 (uncharge part pairs (endSeq c b s))))
  | some (.maint w ppa _ pairs _) =>
    remake w ppa (s.planner.stage + 1) (bumpCh 0x0402 c (bump 0x0402 1 1 (uncharge (workPart s w) pairs
      (modBank c b (fun x => { x with excludedUntil := s.planner.stage + 3 }) (endSeq c b s)))))
  | some (.reset t g f _ a _) => bumpCh 0x0402 c (bump 0x0402 2 1 (abandonReset c b t g f a s))

/-- R128: at a pulse boundary, a sequence whose remaining pulses no longer fit in the stage is abandoned. -/
def abandonCheck (c b w : Nat) (s : State) : State :=
  match (bankOf (chan s c) b).seq with
  | none => s
  | some q => if (bankOf (chan s c) b).late ∨ 16 - w < seqLeft q then abandonSeq c b s else s

/-- R128, R153: at the end of a stage the sequences that no pulse of runs are abandoned. -/
def abandonIdle (s : State) : State :=
  forAll (serving s) (fun c t => forAll (tkeys ((chan t c).banks.filter (fun p => p.2.seq.isSome && p.2.run != .pulse))) (abandonSeq c) t) s

/-! ### The tick itself -/

/-- R128, R288: an accepted program that is on no bank, for want of a location, is placed when one exists. -/
def unplaced (x : Chan) (w : WbEntry) : Bool :=
  let holds := fun (q : PulseSeq) => match q with | .program lpn ppa _ _ _ _ _ => lpn == w.lpn && ppa == w.ppa | _ => false
  w.accepted && !w.passed && !w.dropped && !x.banks.any (fun p => (p.2.seq.toList ++ p.2.planned).any holds)

/-- R128, R288. -/
def replaceUnplaced (s : State) : State :=
  forAll ids32 (fun c t => forAll ((chan t c).wbuf.filter (unplaced (chan t c))) (fun w u => reissue w.lpn w c false u) t) s

/-- R315, R334: the channels whose sweep is urgent in a stage are counted, with the lowest A of the minute. -/
def urgentCount (s : State) : State :=
  let cs := (serving s).filter (urgent s)
  if cs.isEmpty then s
  else
    let low := cs.foldl (fun m c => min m (freeA s c)) 4294967295
    bumpMin 0x0904 3 low (forAll cs (bumpBit 0x0904 2) (bump 0x0904 1 1 s))

/-- STAGE_TICK (R122, R43, R134, R140, R306). -/
def stageTick (s : State) : State :=
  let pl := { s.planner with
    stage := s.planner.stage + 1, cycle := 0, maintShare := s.planner.snapShare, shares := s.planner.snapShares
    maintPending := if s.planner.maintPending = s.planner.snapShare then 0 else s.planner.maintPending }
  let s1 := urgentCount { abandonIdle s with planner := pl, way := { s.way with drover := s.sad.img.drover } }
  let s2 := { s1 with chans := tmap s1.chans (tickChan s1) }
  placeWaiting (copyLedger (journalFill (alertCheck (healthTick (replaceUnplaced (plannerRegs (accrue s2)))))))

/-! ### The window boundary -/

/-- R127: whether a read is older: earlier ingress, then lower port, then lower tag. -/
def older (a b : RdItem) : Bool :=
  decide (a.age < b.age) || (a.age == b.age && (decide (a.port < b.port) || (a.port == b.port && decide (a.tag < b.tag))))

/-- R127: the oldest read of a queue. -/
def oldest (l : List RdItem) : Option RdItem :=
  l.foldl (fun (m : Option RdItem) r => match m with | none => some r | some x => if older r x then some r else some x) none

/-- R135: unspent whole credits, read and write, of all partitions on a channel. -/
def unspent (s : State) (c : Nat) : Nat :=
  sumN ((s.planner.readCredit ++ s.planner.writeCredit).map (fun p => if p.1 % 32 = c then p.2 / 1024 else 0))

/-- R131: the transfers of M that placed programs have still to take. -/
def claimed (x : Chan) : Nat :=
  (x.plan.seqs.filter (fun p => seqXfers p.seq == 1 && (bankOf x p.bank).planned.contains p.seq)).length

/-- R131, R135: host transfers that may still be used: those of H_eff, and from window 8 those of M that nothing claims. -/
def hostAvail (x : Chan) (w : Nat) : Nat := x.hostLeft + (if 8 ≤ w then x.maintLeft - claimed x else 0)

/-- R135: the transfers granted to work that has not started: guaranteed reads, and programs that have passed hand-over. -/
def granted (x : Chan) : Nat :=
  sumN (x.banks.map (fun p => p.2.guarQ.length)) + (x.wbuf.filter (fun w => !w.passed && !w.dropped)).length -
  (x.banks.filter (fun p => match p.2.seq with | some (.program ..) => true | _ => false)).length

/-- Take one transfer of the host's or of maintenance. -/
def takeXfer (maint : Bool) (x : Chan) : Chan :=
  if maint then { x with maintLeft := x.maintLeft - 1 }
  else if x.hostLeft = 0 then { x with maintLeft := x.maintLeft - 1 } else { x with hostLeft := x.hostLeft - 1 }

/-- R135: the best-effort pool admits a grant. -/
def poolAdmits (s : State) (c w : Nat) : Bool :=
  let a := hostAvail (chan s c) w - granted (chan s c)
  decide (0 < a) && (decide (unspent s c < a) || decide (14 ≤ w))

/-- R130, R131: a maintenance read may start: a transfer of M that no placed program claims, and two of the channel's slots;
other requesters leave a traverse its part (R244). -/
def maintAdmits (s : State) (c : Nat) (r : RdItem) : Bool :=
  let x := chan s c
  let trav := match r.work with
    | .bale lbi _ => (match tget s.way.rebales lbi with | some j => j.traverse | none => false)
    | _ => false
  decide (claimed x + (if trav then 0 else travFloor s c x.plan.m - (x.plan.m - x.maintLeft)) < x.maintLeft) && decide (2 ≤ x.slotsLeft)

/-- R170: a speculative read not granted in the stage in which it arrived is dropped, unless a request has joined it. -/
def dropSpec (c b : Nat) (s : State) : State :=
  let late := fun (r : RdItem) => match r.specStage with
    | some n => n != s.planner.stage && (tgetD s.cache.fills r.lpn {}).spec | none => false
  let gone := (bankOf (chan s c) b).otherQ.filter late
  let s1 := modBank c b (fun x => { x with otherQ := x.otherQ.filter (fun r => !late r) }) s
  forAll gone (fun r t =>
    let t1 := { t with cache := { t.cache with fills := tdel t.cache.fills r.lpn } }
    match findWay t1 r.lpn with | some k => if (lineAt t1 k).st = .filling then dropWay k t1 else t1 | none => t1) s1

/-- R136: best-effort reads whose partition has credit again move under its guaranteed share. -/
def promoteOne (c b : Nat) (r : RdItem) (s : State) : State :=
  if r.cls = .bestEffort ∧ r.specStage.isNone ∧ 1024 ≤ rdCredit s r.part c then
    modBank c b (fun x => { x with otherQ := x.otherQ.erase r, guarQ := x.guarQ ++ [{ r with cls := .guaranteed }] })
      (spendRead r.part c s)
  else s
/-- R136. -/
def promote (c b : Nat) (s : State) : State := forAll ((bankOf (chan s c) b).otherQ) (promoteOne c b) s

/-- R319: an array read of a Fast tile counts; at REFRESH_READS the tile is queued for a sweep. -/
def countArrayRead (ppa : Nat) (s : State) : State :=
  if !isFast s ppa then s
  else
    let k := tileKey ppa
    let s1 := modTile k (fun t => { t with reads := sat 16777215 (t.reads + 1) }) s
    if s.way.drover.refreshReads ≤ (tileAt s1 k).reads ∧ !s1.way.refreshTiles.contains k ∧ (tileAt s1 k).st ≠ .sweeping then
      bump 0x0905 1 1 { s1 with way := { s1.way with refreshTiles := s1.way.refreshTiles ++ [k] } }
    else s1

/-- R268: a read with its first offsets filled in. -/
def withOffsets (s : State) (r : RdItem) : RdItem :=
  if r.base.isEmpty then { r with base := firstOffsets s r.ppa, offs := firstOffsets s r.ppa } else r

/-- A read starts at a bank: its frame, its transfer, and the array read. `again`: a re-read (R276). -/
def startRead (c b : Nat) (again : Bool) (r0 : RdItem) (s : State) : State :=
  let r := { withOffsets s r0 with reads := r0.reads + 1 }
  let out := loadAt s r.ppa
  let s1 := modChan c (fun x => { takeXfer (r.cls == .maint) x with
    slotsLeft := if r.cls = .maint then x.slotsLeft - 2 else x.slotsLeft
    outs := match out with | some w => tset x.outs b w | none => tdel x.outs b }) s
  let s2 := modBank c b (fun x => { x with run := .read r, frame := readFrame r.ppa (isFast s r.ppa) again (driftSet s r.ppa)
                                           retryReg := if again then r.offs else x.retryReg }) s1
  let s3 := match r.cls, again with
    | .guaranteed, true => meter r.part (fun m => { m with xferGuar := m.xferGuar + 1 }) s2
    | .bestEffort, _ => meter r.part (fun m => { m with xferBe := m.xferBe + 1 }) s2
    | _, _ => s2
  countArrayRead r.ppa s3

/-- R127 item 3: the reads of the best-effort pool and of maintenance that may start now. -/
def otherReady (s : State) (c w : Nat) (r : RdItem) : Bool := if r.cls = .maint then maintAdmits s c r else poolAdmits s c w

/-- R135: a re-read takes a transfer of its kind, ahead of every grant not yet made. -/
def retryReady (s : State) (c w : Nat) (r : RdItem) : Bool :=
  if r.cls = .maint then decide (0 < (chan s c).maintLeft) else decide (0 < hostAvail (chan s c) w)

/-- R280, R282: the next pulse of a bank's sequence. -/
def startPulse (b : Nat) (x : Bank) : Bank :=
  match x.seq with
  | none => x
  | some q => if !x.outcomeKnown then { x with outcomeKnown := true }
    else { x with run := .pulse, pulseWin := x.pulseWin + 1
                  frame := match q with | .reset .. => resetPulseFrame b | _ => pulseFrame b }

/-- R141, R142: a channel on which pulse sequences may start. -/
def mayPulse (s : State) (c : Nat) : Bool :=
  if s.planner.emergency then !forbidden (chan s c) || (serving s).all (fun d => forbidden (chan s d))
  else !forbidden (chan s c) && s.health.st != 5

/-- R137, R141: a host program fits the slots that the plan leaves open on its bank. -/
def hostSlot (x : Chan) (b : Nat) (q : PulseSeq) : Bool :=
  decide ((bankOf x b).hostUsed + 2 * seqWindows q ≤ tgetD x.plan.hostSlots b 24)

/-- R126, R137, R142, R519: whether a planned sequence may start at a window: a host program in the slots left open for it, a
maintenance sequence where the plan places it. -/
def seqReady (s : State) (c b w : Nat) (q : PulseSeq) : Bool :=
  let x := chan s c
  let fits := decide (w + seqWindows q ≤ 16) && decide (seqAfter s q ≤ s.planner.stage)
  if !mayPulse s c || !fits then false
  else if s.planner.emergency then flushSeq q
  else if decide (12 < (bankOf x b).pulseWin + seqWindows q) then false
  else if isMaint q then x.plan.seqs.any (fun p => p.bank == b && p.seq == q && decide (p.first ≤ w)) && decide (seqXfers q ≤ x.maintLeft)
  else hostSlot x b q && decide (0 < hostAvail x w) && (x.plan.fW == 1024 || decide (x.progStarted < x.plan.hEff * x.plan.fW / 1024))

/-- R125: what a sequence takes of its channel as it starts. -/
def chargeSeq (q : PulseSeq) (x : Chan) : Chan :=
  match q with
  | .program .. => { takeXfer false x with progStarted := x.progStarted + 1 }
  | .maint .. => takeXfer true x
  | .reset .. => x

/-- R259: what the LOAD of a sequence puts in the bank's page buffer. -/
def seqLoad (s : State) (q : PulseSeq) : Option Load :=
  match q with
  | .program _ _ _ _ w _ _ => some (.word w)
  | .maint w .. => (progOf s w).map (·.load)
  | .reset .. => none

/-- R280: the sequence that starts, with the first frame it needs. -/
def startSeq (c b : Nat) (q : PulseSeq) (s : State) : State :=
  modBank c b (fun x => { x with
    planned := x.planned.erase q, seq := some q, run := .pulse, pulseWin := x.pulseWin + 1
    hostUsed := if isMaint q then x.hostUsed else x.hostUsed + 2 * seqWindows q
    frame := match q with
      | .program _ p f .. => loadFrame p f
      | .maint _ p f .. => loadFrame p f
      | .reset t g f .. => resetStartFrame t g f }) (modChan c (fun x => match seqLoad s q with
    | some l => { chargeSeq q x with pages := tset x.pages b l } | none => chargeSeq q x) s)

/-- R141, R291: programs that wait on a write-forbidden channel are placed on another. -/
def moveForbidden (c b : Nat) (s : State) : State :=
  if mayPulse s c ∨ s.health.st = 5 then s
  else match (bankOf (chan s c) b).planned.find? (fun q => !isMaint q) with
    | some (.program lpn p f n w part a) => match wbEntry s c lpn p, nextChannel s with
      | some q, some _ => reissue lpn q c false
          (modBank c b (fun x => { x with planned := x.planned.erase (.program lpn p f n w part a) }) s)
      | _, _ => s
    | _ => s

/-- R142: a bank handles the emergency signal at its next window boundary: a maintenance sequence is abandoned under R128. -/
def emergencyAt (c b : Nat) (s : State) : State :=
  if !s.planner.emergency ∨ (bankOf (chan s c) b).emerg then s
  else
    let s1 := match (bankOf (chan s c) b).seq with
      | some q => if flushSeq q then s else abandonSeq c b s
      | none => s
    modBank c b emergencyBank s1

/-- R127: what the bank starts at a window. -/
def startItem (c b w : Nat) (s : State) : State :=
  let k := bankOf (chan s c) b
  let all := s.planner.emergency
  match k.retryQ.find? (fun r => all || retryReady s c w r) with
  | some r => startRead c b true r (modBank c b (fun x => { x with retryQ := x.retryQ.erase r }) s)
  | none =>
    match (if 0 < hostAvail (chan s c) w ∨ all then oldest k.guarQ else none) with
    | some r => startRead c b false r (modBank c b (fun x => { x with guarQ := x.guarQ.erase r }) s)
    | none =>
      match oldest (k.otherQ.filter (fun r => all || otherReady s c w r)) with
      | some r => startRead c b false r (modBank c b (fun x => { x with otherQ := x.otherQ.erase r }) s)
      | none =>
        if k.seq.isSome then modBank c b (startPulse b) s
        else match k.planned.find? (seqReady s c b w) with
          | some q => startSeq c b q s
          | none => moveForbidden c b s

/-- WINDOW_BOUNDARY (R127, R269): nothing starts on a bank whose last window's outcome is not known (R291). -/
def windowBoundary (c b w : Nat) (s : State) : State :=
  let x := chan s c
  if !inService x ∨ 128 ≤ b ∨ 16 ≤ w ∨ x.diesOut.getLsbD (b / 16) ∨ (bankOf x b).run ≠ .idle then s
  else startItem c b w (promote c b (dropSpec c b (abandonCheck c b w (emergencyAt c b
    (modChan c (fun y => { y with window := w, bframe := statusFrame }) s)))))

/-- WINDOW_BOUNDARY (R127). -/
def execWindowBoundary (ch bank w : Nat) (s : State) : Out := .next (whenMain (windowBoundary ch bank w) s)

end Sys2Proof.Machine
end

