-- ==== Sys2Proof/Machine/Media.lean ====
section
/-! DEFINITION. The media channels: STATUS replies (R269 to R271, R280 to R283, R291), decoding, retry and deep
recovery (R275 to R279), unsealing of what comes back (R215), bring-up (R284 to R289) and failures (R288). -/

namespace Sys2Proof.Machine

/-! ### Reads that end in poison -/

/-- R62, R215, R279: a medium or Seal failure poisons a parcel: the Waybill records it, and its LDs are told. -/
def poisonParcel (lpn : Nat) (s : State) : State :=
  fillReady lpn .readyPoison (newlyPoisoned lpn (poisonMark lpn s))

/-- A maintenance read has ended, with what it read or in poison: a re-bale's source (R303), or a sweep's (R316). -/
def readGave (it : RdItem) (got : Option Load) (s : State) : State :=
  match it.work with
  | .bale lbi i => rebaleRead lbi i got s
  | .sweep tile => sweepRead tile it.ppa got s
  | .host | .scrub | .reseal => s

/-- R288: a read on lost media completes with poison, without a medium access. -/
def lostRead (it : RdItem) (s : State) : State :=
  if it.cls = .maint then readGave it none s
  else fillReady it.lpn .readyPoison (if listed s it.lpn then s else newlyPoisoned it.lpn s)

/-- R215, R279: a read has ended in poison: a tenant's parcel is recorded as poisoned, a system parcel is programmed again from its
other copy (R224). -/
def readEnds (it : RdItem) (s : State) : State :=
  readGave it none (if 81920 ≤ lpnLeg it.lpn then repairSys it.lpn s else poisonParcel it.lpn s)

/-- R278: a deep-recovery entry is free for the first read that waits. -/
def freeDeep (c : Nat) (s : State) : State :=
  match (chan s c).deepWait with
  | [] => modChan c (fun x => { x with deepUsed := x.deepUsed - 1 }) s
  | r :: rest =>
    let q := { r with deepReads := 1, deep := true, offs := addOffset r.base (-6) }
    modBank c (ppaBank r.ppa) (fun b => { b with retryQ := b.retryQ ++ [q] }) (modChan c (fun x => { x with deepWait := rest }) s)

/-- R276, R277: a re-read waits at its bank: THRESH_SET loads the retry register at once, unless another retry waits there, whose READ
frame goes first. -/
def queueRetry (c b : Nat) (q : RdItem) (s : State) : State :=
  modBank c b (fun x =>
    let y := { x with retryQ := x.retryQ ++ [q] }
    if x.retryQ.isEmpty then { y with retryReg := q.offs, frame := threshFrame b q.offs none } else y) s

/-- R276, R278: the next re-read of a read whose decode failed; none when it has made them all. -/
def nextRetry (s : State) (c : Nat) (it : RdItem) : Option (RdItem × Bool) :=
  if it.deep then
    (deepTable[it.deepReads]?).map (fun d => ({ it with deepReads := it.deepReads + 1, offs := addOffset it.base d }, false))
  else if it.retry < 3 then
    some ({ it with retry := it.retry + 1, offs := addOffset it.base (retryTable (isFast s it.ppa) (it.retry + 1)) }, false)
  else if (chan s c).deepUsed < 8 then some ({ it with deep := true, deepReads := 1, offs := addOffset it.base (-6) }, true)
  else none

/-- R276, R278, R351: a decode has failed: a threshold retry, deep recovery, or poison for a flush read. -/
def readFailed (c b : Nat) (it0 : RdItem) (s : State) : State :=
  let it := withOffsets s it0
  if s.belay.step ≠ 0 ∧ 1 ≤ it.retry then fillReady it.lpn .readyPoison s
  else match nextRetry s c it with
    | some (q, enters) =>
      let s1 := if enters then modChan c (fun x => { x with deepUsed := x.deepUsed + 1 }) s
        else if it.deep then s else bumpCh 0x0A09 c (bump 0x0A09 1 1 s)
      queueRetry c b q s1
    | none =>
      if it.deep then modBank c b (fun x => { x with received := x.received ++ [it] }) s
      else modChan c (fun x => { x with deepWait := x.deepWait ++ [it] }) s

/-! ### Programs and resets -/

/-- R302: a bale whose OVCNT reaches REBALE_COUNT is queued. -/
def queueRebale (lbi : Nat) (s : State) : State :=
  if s.way.drover.rebaleCount ≤ (baleAt s lbi).ovcnt ∧ !s.way.rebaleQ.contains lbi then
    { s with way := { s.way with rebaleQ := s.way.rebaleQ ++ [lbi] } } else s

/-- The write-buffer entry and pending eviction of a parcel's program end. -/
def endPending (c lpn ppa : Nat) (s : State) : State :=
  let s1 := modChan c (fun x => { x with wbuf := x.wbuf.filter (fun w => !(w.lpn == lpn && w.ppa == ppa)) }) s
  let other := fun (p : Nat × PendEv) => !(p.1 == lpn && p.2.ppa == ppa)
  { s1 with cache := { s1.cache with pend := s1.cache.pend.filter other, pendOld := s1.cache.pendOld.filter other } }

/-- The WSEQ of a codeword (R261). -/
def wordSeq (w : Codeword) : BitVec 32 := w.mdat.extractLsb' 29 32
/-- Whether a WSEQ is older than another, modulo 2^32. -/
def seqOlder (a b : BitVec 32) : Bool := a != b && decide ((b - a).toNat < 2147483648)

/-- R38, R180: once a copy of a parcel is visible, the programs of older copies change nothing when they pass. -/
def supersede (lpn : Nat) (wseq : BitVec 32) (s : State) : State :=
  let f := fun (w : WbEntry) => if w.lpn = lpn ∧ seqOlder (wordSeq w.word) wseq then { w with stale := true } else w
  { s with chans := tmap s.chans (fun _ x => { x with wbuf := x.wbuf.map f }) }

/-- R227: whether the map still names what a re-seal read. -/
def resealHolds (s : State) (q : WbEntry) : Bool :=
  match q.reseal with
  | none => true
  | some (some p) => lookup s q.lpn == .at_ p
  | some none => lookup s q.lpn == .poison

/-- R180, R227: a passed program becomes visible: overlay entry, OVL_SET, and the pending eviction ends. -/
def landProgram (c : Nat) (q : WbEntry) (s : State) : State :=
  let w := wordSeq q.word
  let s1 := supersede q.lpn w (setLocated q.lpn q.ppa w s)
  let s2 := if s.belay.step ≠ 0 ∧ forbidden (chan s c) then
    { s1 with medium := { s1.medium with forbidden := s1.medium.forbidden ++ [q.ppa] } } else s1
  let s3 := if s.belay.step ≠ 0 then { s2 with belay := { s2.belay with parcels := s2.belay.parcels + 1 } } else s2
  queueRebale (lpnLbi q.lpn) (endPending c q.lpn q.ppa (companionCommit q.lpn w s3))

/-- R180, R331, R344: a program passes verify. The location of a dropped or superseded copy is invalid; a hold (R310)
or a tail at its budget delays the map change. -/
def passProgram (c b lpn ppa : Nat) (word : Codeword) (s : State) : State :=
  let s1 := modBank c b (fun x => { x with seq := none }) { s with medium := { s.medium with cells := tset s.medium.cells ppa word } }
  match wbEntry s1 c lpn ppa with
  | none => s1
  | some q =>
    if q.dropped || q.stale || !resealHolds s1 q then endPending c lpn ppa s1
    else if lookupHeld s1 lpn ∨ (s.belay.step = 0 ∧ journalBudget s1 ≤ tailRecords s1) then
      modChan c (fun x => { x with wbuf := x.wbuf.map (fun w => if w.lpn = lpn ∧ w.ppa = ppa then { w with passed := true } else w) }) s1
    else landProgram c q s1

/-- R324: a tile with three failed programs is closed and queued for its last sweep. -/
def tileFailure (k : Nat) (s : State) : State :=
  let s1 := modTile k (fun t => { t with pfail := min 3 (t.pfail + 1) }) s
  if (tileAt s1 k).pfail < 3 ∨ s1.way.refreshTiles.contains k then s1
  else
    let s2 := modChan (tileCh k) (fun x => { x with openTiles := x.openTiles.filter (fun p => p.2 ≠ k) })
      (modTile k (fun t => { t with st := .full }) s1)
    { s2 with way := { s2.way with refreshTiles := s2.way.refreshTiles ++ [k] } }

/-- R281: a program fails: counted against the tile and re-issued to another bank. -/
def failProgram (c b lpn ppa : Nat) (s : State) : State :=
  let s1 := bumpCh 0x0A0C c (bumpBit 0x0A0C 2 c (bump 0x0A0C 1 1 (modBank c b (fun x => { x with seq := none }) s)))
  programElsewhere c b lpn ppa (tileFailure (tileKey ppa) s1)

/-- R281, R128: a maintenance program fails: counted against the tile and asked for again. -/
def failMaint (c b : Nat) (w : MWork) (ppa : Nat) (s : State) : State :=
  let s1 := bumpCh 0x0A0C c (bumpBit 0x0A0C 2 c (bump 0x0A0C 1 1 (modBank c b (fun x => { x with seq := none, excludedUntil := s.planner.stage + 3 }) s)))
  remake w ppa (s.planner.stage + 1) (tileFailure (tileKey ppa) s1)

/-- The keys of a segment's parcels. -/
def inSegment (t g p : Nat) : Bool := p / 256 == t * 64 + g

/-- R475: the bounds of the tile-reset histogram, as WEAR. -/
def wearBounds : List Int := [375000, 750000, 1500000, 2250000, 2700000, 2850000, 3000000]

/-- R312, R324, R384: a tile whose segments are all reset: WEAR grows; it becomes FREE, or is retired. A ledger tile goes on in its
slot. -/
def tileReset (t : Nat) (fast : Bool) (s : State) : State :=
  let w := (tileAt s t).wear + (if fast then 1 else 10)
  let s1 := cairnSample 0x24 (binOf wearBounds w) (modTile t (fun y => { y with wear := w }) s)
  if (tileAt s t).pfail = 3 then spareCheck (retireTile t 2 s1)
  else if 3000000 ≤ w then spareCheck (retireTile t 3 s1)
  else
    let y : Tile := if ledgerTile s t then { tileAt s t with st := .full, wear := w } else { wear := w, deferStage := (tileAt s t).deferStage }
    journal [.tileState t y] (modTile t (fun _ => y) s1)

/-- Whether a bank still holds a reset of a tile. -/
def resetsLeft (x : Bank) (t : Nat) : Bool :=
  (x.seq.toList ++ x.planned).any (fun q => match q with | .reset u .. => u == t | _ => false)

/-- R282: a segment reset passes its verify: the segment holds nothing. -/
def segmentDone (c b t g : Nat) (fast : Bool) (s : State) : State :=
  let s1 := modBank c b (fun x => { x with seq := none, abandonedResets := tdel x.abandonedResets (t * 64 + g) })
    { s with medium := { s.medium with cells := s.medium.cells.filter (fun p => !inSegment t g p.1)
                                       sys := s.medium.sys.filter (fun p => !inSegment t g p.1)
                                       forbidden := s.medium.forbidden.filter (fun p => !inSegment t g p) } }
  if resetsLeft (bankOf (chan s1 c) b) t then s1 else tileReset t fast s1

/-- R282: a reset verify fails: repeated once in a later stage; a second failure retires the tile. -/
def segmentFail (c b t g : Nat) (fast : Bool) (attempt : Nat) (s : State) : State :=
  let s1 := modBank c b (fun x => { x with seq := none }) s
  if attempt = 0 then
    modBank c b (fun x => { x with planned := x.planned ++ [.reset t g fast 0 1 (s.planner.stage + 1)] }) s1
  else
    let s2 := modBank c b (fun x => { x with planned := x.planned.filter (fun q => match q with | .reset u .. => u != t | _ => true) }) s1
    spareCheck (retireTile t 1 (emit 0x0A0D c c (b / 16) (b % 16) (t % 8192) s2))

/-- R373: the wear of a pulse-verify pair, with the reset share at the final pair. -/
def chargeWear (part : Nat) (final : Bool) (s : State) : State :=
  meter part (fun m => { m with wear := m.wear + 1024 + (if final then 48 else 0) }) s

/-- R280 to R282, R373: a pulse of the bank's sequence has ended. -/
def pulseEnds (c b : Nat) (done : Bool) (s : State) : State :=
  match (bankOf (chan s c) b).seq with
  | none => s
  | some (.program lpn ppa f n word part a) =>
    let last := decide ((if f then 2 else 8) ≤ n + 1)
    let s1 := chargeWear part (done || last) s
    if done then passProgram c b lpn ppa word s1
    else if last then failProgram c b lpn ppa s1
    else modBank c b (fun x => { x with seq := some (.program lpn ppa f (n + 1) word part a) }) s1
  | some (.maint w ppa f n a) =>
    let last := decide ((if f then 2 else 8) ≤ n + 1)
    let s1 := chargeWear (workPart s w) (done || last) s
    if done then passMaint w ppa (modBank c b (fun x => { x with seq := none }) s1)
    else if last then failMaint c b w ppa s1
    else modBank c b (fun x => { x with seq := some (.maint w ppa f (n + 1) a) }) s1
  | some (.reset t g f n k a) =>
    if n + 1 < 12 then modBank c b (fun x => { x with seq := some (.reset t g f (n + 1) k a) }) s
    else if done then segmentDone c b t g f s else segmentFail c b t g f k s

/-! ### Channel and die failures -/

/-- Whether the map names a location on a channel (R326). -/
def namesChannel (s : State) (c : Nat) : Bool :=
  s.way.map.overlay.any (fun p => p.2.kind == .located && ppaCh p.2.ppa == c) ||
  s.way.map.bales.any (fun p => (p.2.st == .baled || p.2.st == .sparse) && p.2.ch == c)

/-- R288: the banks that fail: their reads end in poison and their programs are placed elsewhere. -/
def failBanks (c : Nat) (hit : Nat → Bool) (s : State) : State :=
  let bs := (chan s c).banks.filter (fun p => hit p.1)
  let reads := bs.flatMap (fun p => bankReads p.2) ++ (chan s c).deepWait.filter (fun r => hit (ppaBank r.ppa))
  let progs := (chan s c).wbuf.filter (fun w => hit (ppaBank w.ppa) && !w.passed)
  let maint := s.way.progs.filter (fun p => p.placed && !p.passed && ppaCh p.ppa == c && hit (ppaBank p.ppa))
  let s1 := modChan c (fun x => { x with
    banks := x.banks.filter (fun p => !hit p.1)
    deepWait := x.deepWait.filter (fun r => !hit (ppaBank r.ppa))
    deepUsed := x.deepUsed - (reads.filter (fun r => r.deep)).length
    openTiles := x.openTiles.filter (fun p => !hit (p.1 / 3)) }) s
  forAll maint (fun p t => remake p.work p.ppa (s.planner.stage + 1) t)
    (forAll progs (fun q t => reissue q.lpn q c false t) (forAll reads lostRead s1))

/-- R288: the channel becomes FAILED at once. -/
def channelDown (c : Nat) (s : State) : State :=
  failBanks c (fun _ => true) (modChan c (fun x => { x with st := .failed, heldData := namesChannel s c, crcRun := 0 }) s)

/-- R288: a channel whose module is trained fails; record 0x0A07 (cause 1 MOD_PRES_N, 2 ALERT_N held, 3 STATUS CRC). -/
def channelFail (c cause : Nat) (s : State) : State :=
  if inService (chan s c) ∨ (chan s c).st = .new then channelDown c (emit 0x0A07 c c cause 0 0 s) else s

/-- R288: a die leaves service; record 0x0A08. -/
def dieOut (c d cause : Nat) (s : State) : State :=
  if (chan s c).diesOut.getLsbD d then s
  else failBanks c (fun b => b / 16 == d) (emit 0x0A08 c c d cause 0 (modChan c (fun x => { x with diesOut := x.diesOut ||| bit1 d }) s))

/-- MOD_PRES_LOST (R288). -/
def execModPresLost (ch : Nat) (s : State) : Out := .next (whenMain (channelFail ch 1) s)
/-- ALERT_N_HELD (R288). -/
def execAlertNHeld (ch : Nat) (s : State) : Out := .next (whenMain (channelFail ch 2) s)

/-! ### STATUS replies -/

/-- R266, R271: frame errors reported for a bank: the frame counts as not executed. -/
def frameLost (c b : Nat) (parity : Bool) (s : State) : State :=
  let s1 := bumpCh 0x0A0E c (bump 0x0A0E (if parity then 1 else 2) 1 s)
  match (bankOf (chan s1 c) b).run with
  | .read r => modBank c b (fun x => { x with run := .idle, retryQ := x.retryQ ++ [r] }) s1
  | _ => modBank c b (fun x => { x with run := .idle }) s1

/-- R271: one bank's outcome of the window just ended. -/
def bankOutcome (c : Nat) (o : BankOutcome) (s : State) : State :=
  let b := o.bank
  if 1 ≤ o.cause ∧ o.cause ≤ 3 then frameLost c b (o.cause == 3) s
  else if o.cause = 4 then dieOut c (b / 16) 4 s
  else
    let s1 := modBank c b (fun x => { x with run := .idle }) s
    match (bankOf (chan s c) b).run with
    | .idle => s
    | .read r => if o.done then modBank c b (fun x => { x with received := x.received ++ [r] }) s1 else readFailed c b r s1
    | .pulse => match o.cause, (bankOf (chan s c) b).seq with
      | 5, some (.program lpn ppa ..) => failProgram c b lpn ppa s1
      | 5, some (.maint w ppa ..) => failMaint c b w ppa s1
      | _, _ => pulseEnds c b o.done s1

/-- R291: banks whose outcome is unknown: reads are taken as received, pulses as not yet verified. -/
def outcomeUnknown (x : Bank) : Bank :=
  match x.run with
  | .idle => x
  | .read r => { x with run := .idle, received := x.received ++ [r] }
  | .pulse => { x with run := .idle, outcomeKnown := false }

/-- STATUS_REPLY (R271, R291). -/
def statusReply (c : Nat) (r : StatusReply) (s : State) : State :=
  if !inService (chan s c) then s
  else if r.crcOk then forAll r.outcomes (bankOutcome c) (modChan c (fun x => { x with crcRun := 0 }) s)
  else
    let s1 := bumpBit 0x0A0F 2 c (bump 0x0A0F 1 1 s)
    if r.resendOk then forAll r.outcomes (bankOutcome c) (modChan c (fun x => { x with crcRun := 0 }) s1)
    else
      let s2 := modChan c (fun x => { x with crcRun := x.crcRun + 1, banks := tmap x.banks (fun _ b => outcomeUnknown b) })
        (bump 0x0A0F 3 1 (bump 0x0A0F 1 1 s1))
      if 3 ≤ (chan s2 c).crcRun then channelFail c 3 s2 else s2

/-- STATUS_REPLY (R271). -/
def execStatusReply (ch : Nat) (r : StatusReply) (s : State) : Out := .next (whenMain (statusReply ch r) s)

/-- ALERT_N_ASSERTED (R291): with CA parity, every frame of the window counts as not executed. -/
def execAlertNAsserted (ch : Nat) (caParity : Bool) (s : State) : Out :=
  .next (whenMain (fun s =>
    if !inService (chan s ch) then s
    else
      let s1 := bumpCh 0x0A0E ch (bump 0x0A0E (if caParity then 1 else 2) 1 s)
      let back := fun (x : Bank) => match x.run with
        | .read r => { x with run := .idle, retryQ := x.retryQ ++ [r] }
        | _ => { x with run := .idle }
      if caParity then modChan ch (fun x => { x with banks := tmap x.banks (fun _ b => back b) }) s1 else s1) s)

/-! ### Decoding -/

/-- R322: a parcel is queued for refresh: its bale if it lies in a base segment, else its tile. -/
def queueRefresh (lpn ppa : Nat) (s : State) : State :=
  if (tget s.way.map.overlay lpn).isNone ∧ !isFast s ppa then
    if s.way.rebaleQ.contains (lpnLbi lpn) then s else { s with way := { s.way with rebaleQ := s.way.rebaleQ ++ [lpnLbi lpn] } }
  else if s.way.refreshTiles.contains (tileKey ppa) then s
  else { s with way := { s.way with refreshTiles := s.way.refreshTiles ++ [tileKey ppa] } }

/-- R276, R279: a read that succeeded only after a retry or deep recovery is reported to the Drover. -/
def reportRetry (c : Nat) (it : RdItem) (s : State) : State :=
  if it.retry = 0 ∧ !it.deep then s
  else
    let s1 := bump 0x0905 3 1 (queueRefresh it.lpn it.ppa
      { s with health := { s.health with recovered := s.health.recovered + 1 } })
    if it.deep then
      freeDeep c (emit 0x0A0A c (it.ppa % 4294967296) (it.ppa / 4294967296) it.reads ((tbNow s - it.age) / 1000) s1)
    else bump 0x0A09 2 1 s1

/-- R227, R228: the plaintext of a re-seal (none: poisoned zeros) is sealed at the new MAJOR, and its program spends the partition's
write credit, or the best-effort pool. One that cannot be placed now is asked for again. -/
def resealProgram (lpn part : Nat) (d : Option Parcel) (loc : Option Nat) (s : State) : State :=
  match tget s.sealCtl.companions (lpn / 64), sealKey s part lpn, placeHost s with
  | some _, some key, some (ch, ppa, t) =>
    if !(decide (1024 ≤ wrCredit s part ch) || poolAdmits s ch (chan s ch).window || s.belay.step != 0) then s
    else
      let lf := leafAt t (lpn / 64)
      let w : WbEntry := {
        lpn := lpn, part := part, creditPart := part, plain := d.getD zeroParcel, poison := d.isNone, ppa := ppa
        word := sealWord key part lpn lf.major lf.minors[minorIdx lpn] d.isNone (d.getD zeroParcel), accepted := true, reseal := some loc }
      planSeq ch (ppaBank ppa) (.program lpn ppa true 0 w.word part 0)
        (modChan ch (fun x => { x with wbuf := x.wbuf ++ [w] }) (spendWrite part ch t))
  | _, _, _ => s

/-- What an unsealed read gives: a fill's data (R168), a re-seal's (R227), or a traverse's source (R243). -/
def unsealed (it : RdItem) (w : Codeword) (d : Option Parcel) (s : State) : State :=
  match it.work with
  | .reseal => resealProgram it.lpn it.part d (some it.ppa) s
  | .host => fillReady it.lpn (match d with | some p => .ready p | none => .readyPoison) s
  | _ => readGave it (some (.word w)) s

/-- R215, R62: a parcel that fails its checks again is unverifiable. -/
def unverifiable (it : RdItem) (reason : Nat) (s : State) : State :=
  let t := poisonParcel it.lpn (emitN true 0x0601 0xFF (it.lpn % 4294967296) (it.lpn / 4294967296) it.part reason s)
  match it.work with
  | .reseal => resealProgram it.lpn it.part none none t
  | _ => readGave it none t

/-- R234: a read beneath a lost node ends in poison, with no re-read, mark, event or record of its own. -/
def lostNodeRead (it : RdItem) (s : State) : State :=
  match it.work with
  | .host => fillReady it.lpn .readyPoison s
  | .reseal => s
  | _ => readGave it none s

/-- R215, R210, R234: a decoded codeword goes to the Seal engine; a maintenance copy stays sealed (R214, R303), but for a
traverse's (R243). -/
def unsealRead (c b : Nat) (it : RdItem) (s : State) : State :=
  if s.sealCtl.zeroed ∨ lostParcel s it.lpn then lostNodeRead it s
  else
    let w := tget s.medium.cells it.ppa
    let v := match w with | some w => verdict s it.part it.lpn w | none => 1
    if v ≠ 0 then
      if it.reseal then (if s.belay.step ≠ 0 then fillReady it.lpn .readyPoison s else unverifiable it v s)
      else
        let q := { it with reseal := true, offs := addOffset it.base (retryTable (isFast s it.ppa) 1) }
        bumpCh 0x0A09 c (bump 0x0A09 1 1 (queueRetry c b q s))
    else match w, w.bind (fun w => openKey s it.part (metaKg w.mdat)) with
      | some w, some k =>
        unsealed it w (if metaPoison w.mdat then none else some (unsealData k it.lpn (openCtr s it.lpn).1 (openCtr s it.lpn).2 w)) s
      | _, _ => s

/-- R243: whether a read's source is to be unsealed: a host's, a re-seal's, and a tenant parcel of a traverse. -/
def unseals (s : State) (it : RdItem) : Bool :=
  match it.work with
  | .host => true
  | .reseal => true
  | .bale lbi _ => (match tget s.way.rebales lbi with | some j => j.traverse | none => false)
  | .sweep _ | .scrub => false

/-- R275, R475: the sample of a hard decode. -/
def decodeSample (ok : Bool) (bits : Nat) (it : RdItem) (s : State) : State :=
  if it.retry ≠ 0 ∨ it.deep ∨ it.reseal then s
  else if ok then extremeHi 13 bits (cairnSample 0x23 (binOf [1, 3, 7, 13, 25, 49] bits) s)
  else cairnSample 0x23 7 s

/-- R279: whether a read has reached the end of its deep recovery, or of its wait for one. -/
def deepDue (s : State) (r : RdItem) : Bool := (r.deep || r.retry == 3) && decide (r.age + 40000 ≤ tbNow s)

/-- R279: the recovery ends with poison, whatever stage it has reached. -/
def endDeep (c : Nat) (r : RdItem) (s : State) : State :=
  let s1 := if r.deep then freeDeep c s else s
  readEnds r (emitN true 0x0A0B c (r.ppa % 4294967296) (r.ppa / 4294967296) r.reads ((tbNow s - r.age) / 1000) s1)

/-- CODEWORD_DECODE (R275 to R278, R215). Scrub does not unseal (R323). A deep recovery past its deadline ends in poison (R279). -/
def codewordDecode (c b : Nat) (ok : Bool) (bits : Nat) (s : State) : State :=
  match (bankOf (chan s c) b).received with
  | [] => s
  | it :: rest =>
    let s1 := decodeSample ok bits it (modBank c b (fun x => { x with received := rest }) s)
    if it.deep && deepDue s it then endDeep c it s1
    else if !ok then readFailed c b it s1
    else if it.work = .scrub then
      (if it.retry = 0 ∧ !it.deep then (if 24 < bits then queueRefresh it.lpn it.ppa s1 else s1) else reportRetry c it s1)
    else if unseals s it then unsealRead c b it (reportRetry c it s1)
    else readGave it (loadAt s it.ppa) (reportRetry c it s1)

/-- CODEWORD_DECODE (R275). -/
def execCodewordDecode (ch bank : Nat) (ok : Bool) (bits : Nat) (s : State) : Out :=
  .next (whenMain (fun s => if inService (chan s ch) then codewordDecode ch bank ok bits s else s) s)

/-- DEEP_RECOVERY_DEADLINE (R279): a re-read under way is discarded (R291). -/
def deepRecoveryDeadline (c b : Nat) (s : State) : State :=
  let k := bankOf (chan s c) b
  let due := (bankReads k).filter (deepDue s) ++ (chan s c).deepWait.filter (fun r => ppaBank r.ppa == b && deepDue s r)
  let s1 := modBank c b (fun x => { x with
    retryQ := x.retryQ.filter (fun r => !deepDue s r), received := x.received.filter (fun r => !deepDue s r)
    run := match x.run with | .read r => if deepDue s r then .idle else .read r | y => y }) s
  let s2 := modChan c (fun x => { x with deepWait := x.deepWait.filter (fun r => !(ppaBank r.ppa == b && deepDue s r)) }) s1
  forAll due (endDeep c) s2

/-- DEEP_RECOVERY_DEADLINE (R279). -/
def execDeepRecoveryDeadline (ch bank : Nat) (s : State) : Out := .next (whenMain (deepRecoveryDeadline ch bank) s)

/-! ### Bring-up -/

/-- R417: the code of a channel state. -/
def chanCode : ChanSt → Nat
  | .absent => 0 | .unsupported => 1 | .new => 2 | .active => 3 | .reduced => 4 | .failed => 5

/-- R258: a module's initial spares. -/
def initialSpares (gen : Nat) : Nat := if gen = 3 then 31457 else 21059

/-- R284: the final rate of training and the failed step, if any. -/
def train (b : BringUp) : Option (Nat × Option Nat) :=
  if b.generation = 3 then
    (match b.failFast with
     | none => some (4800, none)
     | some st => match b.failSlow with | none => some (3200, some st) | some _ => none)
  else (match b.failSlow with | none => some (3200, none) | some _ => none)

/-- R284: the step that failed at the last rate tried. -/
def failedStep (b : BringUp) : Nat := b.failSlow.getD 0

/-- R287: the tiles of the factory list are BAD. -/
def markBad (c : Nat) (l : List Nat) (s : State) : State :=
  forAll l (fun t u => modTile (c * 1048576 + t % 1048576) (fun y => { y with st := .bad }) u) s

/-- R285: a channel that does not serve. -/
def setUnserved (c : Nat) (st : ChanSt) (s : State) : State :=
  modChan c (fun x => { ({} : Chan) with
    st := st, railsGood := x.railsGood, pages := x.pages, clock := x.clock, offNs := x.offNs, gen := x.gen, serial := x.serial, dies := x.dies, tilesPerBank := x.tilesPerBank
    heldData := namesChannel s c, bframe := identFrame 0 }) s

/-- R289: the MODULE record of a channel is set. -/
def setModule (c : Nat) (m : ModuleRec) (s : State) : State :=
  modImg [rk 0x000C c] (fun i => { i with modules := tset i.modules c m }) s

/-- R284 step 7: write levelling loads a training pattern, whose content no rule states, into the page buffer of bank 0 of each die. -/
def trainedPages (l : Tbl Load) : Tbl Load := l.filter (fun p => p.1 % 16 ≠ 0)

/-- R285: a trained module with a matching record serves. -/
def setServing (c : Nat) (b : BringUp) (rate : Nat) (s : State) : State :=
  let st := if b.generation = 3 ∧ rate = 3200 then ChanSt.reduced else .active
  let gone := (s.way.map.tiles.filter (fun p => tileCh p.1 = c ∧ p.2.st = .retired)).length
  let s1 := modChan c (fun x => { ({} : Chan) with
    st := st, pages := trainedPages x.pages, gen := b.generation, rate := rate, serial := b.serial, dies := b.dies, tilesPerBank := b.tilesPerBank, railsGood := x.railsGood
    clock := x.clock, spares := initialSpares b.generation, consumed := gone, offNs := x.offNs, badTiles := b.badTiles, bframe := calFrame 0 0 }) s
  emit 0x0A01 c c b.generation rate (chanCode st) (markBad c b.badTiles s1)

/-- R284, R289: bring-up of a channel whose module trained at a rate. -/
def trainedUp (c : Nat) (b : BringUp) (rate : Nat) (s : State) : State :=
  let lo := b.serial.toNat % 4294967296
  let hi := b.serial.toNat / 4294967296
  match tget s.sad.img.modules c with
  | some m =>
    if m.serial = b.serial then setServing c b rate s
    else
      let s1 := setUnserved c .new s
      emit 0x0A05 c c lo hi m.serial.toNat
        (modChan c (fun x => { x with serial := b.serial, gen := b.generation, rate := rate, dies := b.dies, tilesPerBank := b.tilesPerBank, badTiles := b.badTiles }) s1)
  | none =>
    if s.boot.firstStart ∨ s.boot.lostRecs.contains (rk 12 c) then
      emit 0x0A06 c c lo hi 1 (setServing c b rate (setModule c { serial := b.serial, gen := b.generation } s))
    else
      emit 0x0A05 c c lo hi 0
        (modChan c (fun x => { x with serial := b.serial, gen := b.generation, rate := rate, dies := b.dies, tilesPerBank := b.tilesPerBank, badTiles := b.badTiles })
          (setUnserved c .new s))

/-- R284: bring-up of a channel, once in a main-domain power-up. -/
def channelBringUp (c : Nat) (b : BringUp) (s : State) : State :=
  if 32 ≤ c ∨ !(chan s c).railsGood ∨ (chan s c).brought then s
  else modChan c (fun x => { x with brought := true }) <|
  if !b.present then emit 0x0A04 c c 0 (Config.free 0x0A04 0) 0 (setUnserved c .absent s)
  else if !b.identityOk ∨ (b.generation ≠ 2 ∧ b.generation ≠ 3) then
    emit 0x0A04 c c 1 (Config.free 0x0A04 1) 0 (setUnserved c .unsupported s)
  else match train b with
    | none => emit 0x0A03 c c (failedStep b) 3200 0 (setUnserved c .failed s)
    | some (rate, low) =>
      let s1 := match low with | some st => emit 0x0A02 c c st 0 0 s | none => s
      if !b.badPagesOk then emit 0x0A04 c c 1 (Config.free 0x0A04 2) 0 (setUnserved c .unsupported s1)
      else trainedUp c b rate s1

/-- CHANNEL_BRING_UP (R284). -/
def execChannelBringUp (ch : Nat) (b : BringUp) (s : State) : Out := .next (whenMain (channelBringUp ch b) s)

/-- CAL_ZQ_PERIODIC (R274): CAL type 0 between two stages. -/
def execCalZqPeriodic (ch : Nat) (s : State) : Out :=
  .next (whenMain (fun s => if inService (chan s ch) then modChan ch (fun x => { x with bframe := calFrame 0 0 }) s else s) s)

/-- CAL_THRESHOLD_PERIODIC (R274): CAL type 1 on an idle bank, as a maintenance read, once the channel's maintenance capacity admits
it. -/
def execCalThresholdPeriodic (ch bank : Nat) (s : State) : Out :=
  .next (whenMain (fun s =>
    let it : RdItem := { lpn := 0, ppa := 0, cls := .maint, part := 0, age := tbNow s, work := .scrub }
    if inService (chan s ch) ∧ bank < 128 ∧ (bankOf (chan s ch) bank).run = .idle ∧ maintAdmits s ch it ∧ !s.planner.emergency then
      modChan ch (fun x => { takeXfer true x with slotsLeft := x.slotsLeft - 2 }) (modBank ch bank (fun x => { x with frame := calFrame 1 bank }) s)
    else s) s)

end Sys2Proof.Machine
end

