-- ==== Sys2Proof/Machine/Pannier.lean ====
section
/-! DEFINITION. The Pannier cache's own events: fills and forwards (R166 to R169, R172, R173), evictions (R176 to
R182), the dirty budget (R184, R185), patrols and slice retirement (R196 to R201), and held lookups (R311). -/

namespace Sys2Proof.Machine

/-! ### Fills -/

/-- R168, R169, R174, R188, R194: what a returning fill writes into its line; only sectors that are not VALID. A
line that was poisoned while the fill was outstanding takes no fetched byte, and keeps its VALID bits. -/
def installed (f : FillSt) (l : Line) : Line :=
  let st := if l.dirty = 0 then LineSt.clean else .dirty
  match f with
  | .waiting => l
  | .readyPoison => if l.poison then { l with st := st } else { l with st := st, poison := true, valid := l.dirty }
  | .ready d =>
    if l.poison then { l with st := st }
    else { l with st := st, valid := 15
                  data := Vector.ofFn (fun i => if l.valid.getLsbD i.val then l.data[i] else d[i]) }

/-- R38: the data that a request waiting on a fill leaves for the requests behind it. -/
def waiterData (d : Parcel) (r : Req) : Parcel :=
  let i : Fin 4 := ⟨r.sector % 4, Nat.mod_lt _ (by decide)⟩
  if r.op.isWrite then d.set i (mergeBytes d[i] r.wr.data r.wr.be) else d

/-- R168, R38: the waiting reads take the fill's data as soon as it is verified, each with the partial writes that
reached the slice before it. -/
def answerReads (f : Fill) (s : State) : State :=
  match f.st with
  | .waiting => s
  | .readyPoison => forAll (f.waiters.filter (fun r => r.op.isRead)) (fun r t => finish r .poison t) s
  | .ready d => (f.waiters.foldl (fun (a : Parcel × State) r =>
      (waiterData a.1 r, if r.op.isRead then finish r (.data (a.1[r.sector % 4]'(Nat.mod_lt _ (by decide)))) a.2 else a.2)) (d, s)).2

/-- R238: the sectors that tenant writes have touched when a fill delivers poison: those written in the line, and
those of partial writes that wait. -/
def touched (f : Fill) (l : Line) : BitVec 4 :=
  (f.waiters.filter (fun r => r.op.isWrite)).foldl (fun m r => m ||| bit1 r.sector) l.dirty

/-- R238: record 0x0604 when poison meets tenant-written sectors, and in a flush 0x0F08 for the DIRTY ones (R351). DESIGN CHOICE:
parameter 4, the sectors written or dirty, is a bitmap of them (log 85). -/
def partialLoss (lpn part : Nat) (f : Fill) (l : Line) (s : State) : State :=
  if f.st = .readyPoison ∧ touched f l ≠ 0 then
    let t := emit 0x0604 0xFF (lpn % 4294967296) (lpn / 4294967296) part (touched f l).toNat s
    if s.belay.step ≠ 0 ∧ l.dirty ≠ 0 then emit 0x0F08 0xFF (lpn % 4294967296) (lpn / 4294967296) part l.dirty.toNat t else t
  else s

/-- The fill-buffer entry is freed; the partial writes that waited merge (R172), but for bytes that a later write has
replaced (R38), and waiting requests are handled. -/
def fillEnds (lpn : Nat) (ws : List Req) (s : State) : State :=
  let late := fun (r : Req) => if r.overtaken then { r with wr := { r.wr with be := 0 } } else r
  retryWaiting (forAll ws (fun r t => writeAccess (late r) [] t) { s with cache := { s.cache with fills := tdel s.cache.fills lpn } })

/-- R201: a line that a fill brings into a slice offline drains, or is dropped. -/
def offlineLine (k : Nat) (s : State) : State :=
  let l := lineAt s k
  if s.cache.online.getLsbD (k / 32768) then s
  else if l.st = .clean then dropWay k s
  else evDue { lpn := l.lpn, why := .retire, creditPart := l.part } s

/-- R168, R169, R185, R196: the line of a fill is installed, or dropped; the merge reads out its VALID sectors. -/
def installLine (k : Nat) (f : FillSt) (parity : BitVec 4) (s : State) : State :=
  if (lineAt s k).dropOnFill then dropWay k s
  else
    let s1 := parityCheck k parity s
    let s2 := touch k (modLine k (installed f) s1)
    offlineLine k (if (lineAt s2 k).st = .dirty then setPressure k s2 else s2)

/-- R194: the fill of a dropped line returns: its reads are answered, its writes end with the line. -/
def dropFill (lpn : Nat) (ws : List Req) (s : State) : State :=
  let s1 := match findWay s lpn with | some k => if (lineAt s k).st = LineSt.filling then dropWay k s else s | none => s
  retryWaiting (forAll ws (fun r t => finish r .cmp t) { s1 with cache := { s1.cache with fills := tdel s1.cache.fills lpn } })

/-- FILL_COMPLETE (R168). A fill whose way is not yet free answers its reads and stays until the way is. -/
def fillComplete (lpn : Nat) (parity : BitVec 4) (s : State) : State :=
  match tget s.cache.fills lpn with
  | none => s
  | some f =>
    if f.st = .waiting then s
    else
      let ws := f.waiters.filter (fun r => r.op.isWrite)
      let s1 := answerReads f s
      if f.drop then dropFill lpn ws s1
      else match findWay s1 lpn with
      | some k => fillEnds lpn ws (installLine k f.st parity (partialLoss lpn f.part f (lineAt s1 k) s1))
      | none => match allotWay lpn true s1 with
        | (some k, t) =>
          fillEnds lpn ws (installLine k f.st 0 (partialLoss lpn f.part f {} (putLine k { lpn := lpn, part := f.part, st := .filling } t)))
        | (none, t) => modFill lpn (fun g => { g with waiters := ws }) t

/-- FILL_COMPLETE (R168). -/
def execFillComplete (f : FillEnd) (s : State) : Out := .next (whenMain (fillComplete f.lpn f.parity) s)

/-- R173: a DIRTY line not fully VALID for one whole stage. -/
def needsCompletion (s : State) (l : Line) : Bool :=
  l.st == .dirty && !l.poison && l.valid != 15 && decide (l.partialSince + 2 ≤ s.planner.stage)

/-- COMPLETION_FILL (R173). -/
def execCompletionFill (lpn : Nat) (s : State) : Out :=
  .next (whenMain (fun s => match findWay s lpn with
    | some k => if needsCompletion s (lineAt s k) && s.belay.step == 0 then completionFill lpn (lineAt s k).part [] s else s
    | none => s) s)

/-- MAP_STRIPE_HOLD_EXPIRY (R311): a lookup held for 2 ms completes with poison; the parcel is not recorded as poisoned. -/
def execMapStripeHoldExpiry (lpn : Nat) (s : State) : Out :=
  .next (whenMain (fun s => match tget s.way.heldLookups lpn with
    | none => s
    | some t => if tbNow s < t + 2000000 || !stripeHeld s lpn then s
      else fillReady lpn .readyPoison { s with way := { s.way with
        heldLookups := tdel s.way.heldLookups lpn, holdPoisoned := s.way.holdPoisoned + 1 } }) s)

/-! ### Evictions -/

/-- A line is no longer chosen for eviction. -/
def undue (lpn : Nat) (s : State) : State :=
  { s with cache := { s.cache with evDue := s.cache.evDue.filter (fun e => e.lpn ≠ lpn) } }

/-- R344: an eviction whose increment would make a further node dirty while the counter budget is spent. A flush is
not held by it. -/
def counterWaits (s : State) (lpn : Nat) : Bool :=
  s.belay.step == 0 && decide (counterBudget s ≤ counterDirty s) && !(leafAt s (lpn / 64)).dirty

/-- R142, R177: whether an eviction may spend on a channel: the paying partition's credit, maintenance transfers for a
retirement drain, or the best-effort pool; a flush is not bound by them. -/
def mayEvict (s : State) (d : EvDue) (ch : Nat) : Bool :=
  s.belay.step != 0 || (if d.why = .retire then decide (0 < (chan s ch).maintLeft) else decide (1024 ≤ wrCredit s d.creditPart ch)) ||
  poolAdmits s ch (chan s ch).window

/-- R177: what an eviction spends. -/
def spendEviction (d : EvDue) (ch : Nat) (s : State) : State :=
  if s.belay.step ≠ 0 then s
  else if d.why = .retire then
    (if 0 < (chan s ch).maintLeft then modChan ch (takeXfer true) s
     else meter d.creditPart (fun m => { m with xferBe := m.xferBe + 1 }) s)
  else spendWrite d.creditPart ch s

/-- R178 step 3, R225: the counter is incremented, the parcel is sealed, and the eviction is pending. -/
def handOver (d : EvDue) (k ch ppa : Nat) (key : KeySet) (s : State) : State :=
  let l := lineAt s k
  let s1 := incCounter d.lpn l.part (unwrittenMap s (d.lpn / 64)) (spendEviction d ch s)
  let lf := leafAt s1 (d.lpn / 64)
  let plain := if l.poison then zeroParcel else l.data
  let w : WbEntry := {
    lpn := d.lpn, part := l.part, creditPart := d.creditPart, plain := plain, poison := l.poison, ppa := ppa
    word := sealWord key l.part d.lpn lf.major lf.minors[minorIdx d.lpn] l.poison plain
    oldGen := (match tget s.travs l.part with | some t => key.gen == t.oldGen | none => false)
    dropped := l.dropOnFill }
  let s2 := modLine k (fun l => { l with st := .evicting }) (modChan ch (fun x => { x with wbuf := x.wbuf ++ [w] }) s1)
  let older := match tget s2.cache.pend d.lpn with | some p => [(d.lpn, p)] | none => []
  undue d.lpn { s2 with cache := { s2.cache with
    pendOld := s2.cache.pendOld ++ older
    pend := tset s2.cache.pend d.lpn { ch := ch, ppa := ppa, keep := d.keep, poison := l.poison, range := d.range } } }

/-- R237: an eviction beneath a lost node that is not replaced loses its data; the Waybill records the parcel. -/
def retiredLoss (lpn k : Nat) (s : State) : State := undue lpn (dropWay k (poisonMark lpn s))

/-- R178 steps 2 and 3: reservation and hand-over. The eviction waits while its subtree is lost (R234), its leaf
cannot roll (R228), the counter budget is spent (R344), or no channel takes it (R291, R299). -/
def reserve (d : EvDue) (k : Nat) (errs : List NodeErr) (s0 : State) : State :=
  let s := fetchPath errs d.lpn s0
  if underRetired s d.lpn then retiredLoss d.lpn k s
  else if underLost s d.lpn || rollWaits s d.lpn (lineAt s k).part || counterWaits s d.lpn then s
  else match placeHost s, sealKey s (lineAt s k).part d.lpn with
    | some (ch, ppa, t), some key => if mayEvict s d ch then handOver d k ch ppa key t else s
    | _, _ => s

/-- EVICTION_START (R178, R182, R196, R199): a chosen line that is DIRTY. With the slots zeroed its write waits (R210); in
a flush only the flush's own evictions start (R142, R195). -/
def evictionStart (lpn : Nat) (e : ReadEnv) (s0 : State) : State :=
  match s0.cache.evDue.find? (fun d => d.lpn = lpn), findWay s0 lpn with
  | none, _ => s0
  | some _, none => undue lpn s0
  | some d, some k =>
    if (lineAt s0 k).st = .clean then undue lpn s0
    else if (lineAt s0 k).st ≠ .dirty ∨ s0.sealCtl.zeroed ∨ (s0.belay.step ≠ 0 ∧ d.why ≠ .flush) then s0
    else
      let s := tagCheck k e.tagErr s0
      if (lineAt s k).st ≠ .dirty ∨ s.belay.step ≠ s0.belay.step then s else
      let s1 := parityCheck k e.parity s
      let l := lineAt s1 k
      let d := if l.maint then { d with creditPart := noPart, why := if d.why = .flush then .flush else .retire } else d
      if l.poison ∧ l.dirty = 0 then undue lpn (dropWay k s1)
      else if !l.poison ∧ l.valid ≠ 15 then completionFill lpn l.part e.nodes s1
      else reserve d k e.nodes s1

/-- EVICTION_START (R178). -/
def execEvictionStart (lpn : Nat) (e : ReadEnv) (s : State) : Out := .next (whenMain (evictionStart lpn e) s)

/-- R167, R178: a fill that has no way and belongs to a way's set takes the freed way. -/
def waitingFill (s : State) (k : Nat) : Option (Nat × Fill) :=
  s.cache.fills.find? (fun p => (findWay s p.1).isNone && wayKey (sliceNow s p.1) (setOf p.1) 0 == k / 16 * 16)

/-- R178 step 4: the way is freed, or given to the fill that waits for it. -/
def giveWay (k : Nat) (s0 : State) : State :=
  let s := dropWay k s0
  match waitingFill s k with
  | some (lpn, f) => putLine k { lpn := lpn, part := f.part, st := .filling } s
  | none => s

/-- R178 step 4, R187, R194, R201: the way of an eviction at its ordering point; a slice offline keeps no line. DESIGN
CHOICE: a POISON line evicted in WRITE_THROUGH becomes INVALID (R182), not CLEAN (log 85). -/
def orderWay (p : PendEv) (k : Nat) (s : State) : State :=
  if p.keep && !p.poison && !(lineAt s k).dropOnFill && s.cache.online.getLsbD (k / 32768) then
    modLine k (fun l => { l with st := .clean, dirty := 0, dir := none }) s
  else giveWay k s

/-- R178 step 4, R331: the write buffer has the sealed parcel; its program joins the bank, or is cancelled. -/
def queueProgram (lpn ch ppa : Nat) (s : State) : State :=
  match wbEntry s ch lpn ppa with
  | none => s
  | some w =>
    if w.dropped then endPending ch lpn ppa s
    else planSeq ch (ppaBank ppa) (.program lpn ppa true 0 w.word (wearPart w) 0)
      (modChan ch (fun x => { x with wbuf := x.wbuf.map (fun y => if y.lpn = lpn ∧ y.ppa = ppa then { y with accepted := true } else y) }) s)

/-- EVICTION_ORDERING_POINT (R178 step 4). -/
def evictionOrderingPoint (lpn : Nat) (s : State) : State :=
  match tget s.cache.pend lpn with
  | none => s
  | some p =>
    if p.atOrder then s
    else
      let s1 := { s with cache := { s.cache with pend := tset s.cache.pend lpn { p with atOrder := true } } }
      let s2 := match findWay s1 lpn with
        | some k => if (lineAt s1 k).st = .evicting then setPressure k (orderWay p k s1) else s1
        | none => s1
      retryWaiting (queueProgram lpn p.ch p.ppa s2)

/-- EVICTION_ORDERING_POINT (R178). -/
def execEvictionOrderingPoint (lpn : Nat) (s : State) : Out := .next (whenMain (evictionOrderingPoint lpn) s)

/-! ### The dirty budget -/

/-- R184: the waiting writes are handled again, oldest first: one that still may not make a line dirty waits on, and is
matched anew if the eviction matched to it has freed its share. -/
def releaseBudget (s : State) : State := forAll s.cache.budgetWait (access {}) { s with cache := { s.cache with budgetWait := [] } }

/-- DIRTY_BUDGET_RELEASE (R184). -/
def execDirtyBudgetRelease (s : State) : Out := .next (whenMain releaseBudget s)

/-- R183, R185: the dirty lines of a slice. -/
def sliceDirty (s : State) (z : Nat) : Nat :=
  (s.cache.lines.filter (fun p => decide (p.1 / 32768 = z) && lineCounts p.2)).length

/-- R185: the set of a slice with the most DIRTY ways not yet chosen, ties to the lower number. -/
def dirtiestSet (s : State) (z : Nat) : Option Nat :=
  let ok := fun (l : Line) => l.st == .dirty && !s.cache.evDue.any (fun e => e.lpn == l.lpn)
  let sets := ((s.cache.lines.filter (fun p => decide (p.1 / 32768 = z) && ok p.2)).map (fun p => p.1 / 16 % 2048)).eraseDups
  let cnt := fun (st : Nat) => ((List.range 16).filter (fun w => (lineAt s (wayKey z st w)).st = .dirty)).length
  (sets.foldl (fun (m : Option Nat) x => match m with
    | none => some x
    | some y => if cnt y < cnt x ∨ (cnt y = cnt x ∧ x < y) then some x else some y) none).bind (fun st =>
      lruWay s z st ok)

/-- R185: choose lines until `n` have been chosen. -/
def chooseBack : Nat → Nat → State → State
  | 0, _, s => s
  | n + 1, z, s => match dirtiestSet s z with
    | none => s
    | some k => chooseBack n z (evDue { lpn := (lineAt s k).lpn, why := .background, creditPart := (lineAt s k).part } s)

/-- R185: lines of a slice already chosen for eviction or on their way out. -/
def leaving (s : State) (z : Nat) : Nat :=
  (s.cache.lines.filter (fun p => decide (p.1 / 32768 = z) && (p.2.st == .evicting ||
    (p.2.st == .dirty && s.cache.evDue.any (fun e => e.lpn == p.2.lpn))))).length

/-- BACKGROUND_WRITEBACK (R185): above 7/8 of its share, a slice evicts until it is at or below 3/4. -/
def backgroundWriteback (z : Nat) (s : State) : State :=
  let n := (onlineSlices s.cache.online).length
  if sliceDirty s z * 8 * n ≤ 7 * dirtyLimit s then s
  else chooseBack (sliceDirty s z - leaving s z - 3 * dirtyLimit s / (4 * n)) z s

/-- BACKGROUND_WRITEBACK (R185). -/
def execBackgroundWriteback (slice : Nat) (s : State) : Out :=
  .next (whenMain (fun s => if s.cache.online.getLsbD slice ∧ s.belay.step = 0 then backgroundWriteback slice s else s) s)

/-! ### Patrol and retirement -/

/-- CACHE_PATROL (R196, R197, R199): a patrol reads one line; a clean sector in error is fetched again. -/
def cachePatrol (lpn : Nat) (e : ReadEnv) (s : State) : State :=
  match findWay s lpn with
  | none => s
  | some k =>
    let s0 := tagCheck k e.tagErr s
    if !s0.mainUp ∨ (lineAt s0 k).st = .invalid then s0
    else
      let l := lineAt s0 k
      if l.st = .evicting then s0
      else
        let s1 := parityCheck k e.parity s0
        let bad := e.parity &&& l.valid
        if bad ≠ 0 ∧ bad &&& l.dirty = 0 ∧ !l.poison ∧ s1.belay.step = 0 then completionFill lpn l.part e.nodes s1 else s1

/-- CACHE_PATROL (R196). -/
def execCachePatrol (lpn : Nat) (e : ReadEnv) (s : State) : Out := .next (whenMain (cachePatrol lpn e) s)

/-- R201: a slice's lines that still hold it: dirty lines without a pending-eviction entry. -/
def sliceHolds (s : State) (z : Nat) : Bool :=
  s.cache.lines.any (fun p => decide (p.1 / 32768 = z) && (p.2.st == .dirty || p.2.st == .filling))

/-- SLICE_RETIREMENT_END (R201, R203). -/
def sliceRetirementEnd (z : Nat) (s : State) : State :=
  match s.cache.retiring.find? (fun r => r.slice = z) with
  | none => s
  | some r =>
    if sliceHolds s z then s
    else
      let mine := fun (q : Req) => hashSlice q.lpn == z
      let s1 := { s with cache := { s.cache with
        retiring := s.cache.retiring.filter (fun x => x.slice ≠ z), heldReqs := s.cache.heldReqs.filter (fun q => !mine q) } }
      let s2 := emit 0x0503 z z (onlineSlices s.cache.online).length r.drained ((tbNow s - r.tb) / 1000) s1
      forAll (s.cache.heldReqs.filter mine) (access {}) s2

/-- SLICE_RETIREMENT_END (R201). -/
def execSliceRetirementEnd (slice : Nat) (s : State) : Out := .next (whenMain (sliceRetirementEnd slice) s)

end Sys2Proof.Machine
end

