-- ==== Sys2Proof/Machine/Parts.lean ====
section
/-! DEFINITION. Partitions, their legs and their keys: the free pool (R42, R84, R94, R300), LEG_RUNS (R459, R460), the
removal of legs (R85, R194, R331), key sets and wraps (R205, R208), crypto erase (R86, R248, R250), traverse start (R241). -/

namespace Sys2Proof.Machine

/-! ### The free pool -/

/-- R300: whether a partition is FAST_ONLY. -/
def fastOnly (s : State) (part : Nat) : Bool := match partRec s part with | some r => r.fastOnly | none => false

/-- R300: what a partition's position costs in free legs. -/
def legCost (s : State) (part : Nat) : Nat := if fastOnly s part then 3 else 1

/-- Legs held by partitions, those that a FAST_ONLY position withholds among them (R300), and legs being dropped. -/
def usedLegs (s : State) : Nat :=
  sumN (s.sad.img.runs.map (fun p => p.2.count * (if p.2.part = 0xFFFF then 1 else legCost s p.2.part)))

/-- R237: the retired legs that no run holds any longer. -/
def lostLegs (s : State) : List Nat :=
  s.gate.retiredLegs.filter (fun g => !s.sad.img.runs.any (fun p => decide (p.2.leg ≤ g) && decide (g < p.2.leg + p.2.count)) && !s.way.freeing.contains g)

/-- R84, R94: free legs. -/
def freeLegs (s : State) : Nat := legSpace s - usedLegs s - s.way.freeing.length - (lostLegs s).length

/-- Whether a run holds a leg. -/
def inRun (leg : Nat) (r : LegRun) : Bool := decide (r.leg ≤ leg) && decide (leg < r.leg + r.count)

/-- R84, R85: a leg in no run, not on its way back to the pool, and not retired. -/
def legFree (s : State) (runs : Tbl LegRun) (leg : Nat) : Bool :=
  decide (leg < legSpace s) && !runs.any (fun p => inRun leg p.2) && !s.way.freeing.contains leg && !s.gate.retiredLegs.contains leg

/-- The lowest free leg from a start. -/
def firstFree (s : State) (runs : Tbl LegRun) : Nat → Nat → Option Nat
  | 0, _ => none
  | f + 1, g => if legFree s runs g then some g else firstFree s runs f (g + 1)

/-- R84, R460: the leg for a position: the next leg of the run that ends before it, else one of the device's choice. -/
def pickLeg (s : State) (runs : Tbl LegRun) (part pos n : Nat) : Option Nat :=
  let next := (runs.find? (fun p => p.2.part = part ∧ p.2.pos + p.2.count = pos)).map (fun p => p.2.leg + p.2.count)
  match next.filter (legFree s runs) with
  | some g => some g
  | none => if legFree s runs (Config.legChoice n) then some (Config.legChoice n) else firstFree s runs (legSpace s) 0

/-- R459: put a position's leg in the runs: it extends the run before it, or takes the lowest free place. -/
def addRun (part pos leg : Nat) (runs : Tbl LegRun) : Option (Tbl LegRun) :=
  match runs.find? (fun p => p.2.part = part ∧ p.2.leg + p.2.count = leg ∧ (part = 0xFFFF ∨ p.2.pos + p.2.count = pos)) with
  | some p => some (tset runs p.1 { p.2 with count := p.2.count + 1 })
  | none =>
    let k := firstAbsent (runs.length + 1) 0 (tkeys runs)
    if 16384 ≤ k then none else some (tset runs k { part := part, pos := if part = 0xFFFF then 0 else pos, leg := leg, count := 1 })

/-- R459: take a leg out of the run that holds it; what is left of the run is one or two runs. -/
def cutRun (leg : Nat) (runs : Tbl LegRun) : Tbl LegRun :=
  match runs.find? (fun p => inRun leg p.2) with
  | none => runs
  | some p =>
    let i := leg - p.2.leg
    let rest : LegRun := { p.2 with pos := if p.2.part = 0xFFFF then 0 else p.2.pos + i + 1, leg := leg + 1, count := p.2.count - i - 1 }
    let base := if i = 0 then tdel runs p.1 else tset runs p.1 { p.2 with count := i }
    if rest.count = 0 then base else tset base (firstAbsent (base.length + 1) 0 (tkeys base)) rest

/-- R459: the LEG_RUNS records that differ. -/
def runRecs (a b : Tbl LegRun) : List Nat :=
  (((tkeys a ++ tkeys b).filter (fun k => tget a k ≠ tget b k)).map (fun k => rk 4 (k / 64))).eraseDups

/-- The records that a command's change of the runs leaves to commit. -/
def setRuns (runs : Tbl LegRun) (s : State) : State :=
  modImg (runRecs s.sad.img.runs runs) (fun m => { m with runs := runs }) s

/-- R84: fill positions with free legs, in order; none when the runs are full. -/
def fillPositions (s : State) (part : Nat) : List Nat → Nat → Tbl LegRun → Option (List Nat × Tbl LegRun)
  | [], _, runs => some ([], runs)
  | pos :: rest, n, runs =>
    match pickLeg s runs part pos n with
    | none => none
    | some g => match addRun part pos g runs with
      | none => none
      | some r => (fillPositions s part rest (n + 1) r).map (fun x => (g :: x.1, x.2))

/-- R85 step 1: the positions' legs leave the partition and are recorded as dropping. -/
def dropRuns (legs : List Nat) (runs : Tbl LegRun) : Tbl LegRun :=
  legs.foldl (fun r g => (addRun 0xFFFF 0 g (cutRun g r)).getD (cutRun g r)) runs

/-- R85 step 1: empty some positions of a partition. -/
def emptyPositions (part : Nat) (poss : List Nat) (s : State) : State :=
  setRuns (dropRuns (poss.filterMap (legAt s.sad.img.runs part)) s.sad.img.runs) s

/-! ### Dropping legs -/

/-- R401: a record with a change not yet committed. -/
def recBusy (s : State) (k : Nat) : Bool :=
  s.sad.dirty.contains k || (match s.sad.running with | some g => g.recs.any (fun r => r.1 == k) | none => false)

/-- R331: the Waybill drops a leg: its bales become UNWRITTEN, its sparse and overlay entries go, and DROP_LEG is
appended. -/
def dropLegMap (leg : Nat) (s : State) : State :=
  let mine := fun (lpn : Nat) => lpnLeg lpn == leg
  let lpns := (tkeys s.way.map.overlay).filter mine ++
    ((tkeys s.way.map.bales).filter (fun b => b / 16384 = leg)).flatMap (fun b =>
      ((List.range 256).map (fun i => b * 256 + i)).filter (fun l => !thas s.way.map.overlay l))
  let s1 := dropProgs (fun w => match w with | .bale b _ => b / 16384 == leg | _ => false) (forAll lpns dropOld s)
  let m := s1.way.map
  let out := fun (p : Nat × OvEntry) => !mine p.1
  journal [.dropLeg leg] { s1 with way := { s1.way with
    dropping := s1.way.dropping ++ [leg]
    rebaleQ := s1.way.rebaleQ.filter (fun b => b / 16384 ≠ leg)
    rebales := s1.way.rebales.filter (fun p => p.1 / 16384 ≠ leg)
    map := { m with overlay := m.overlay.filter out
                    bales := m.bales.filter (fun p => p.1 / 16384 ≠ leg)
                    sparse := m.sparse.filter (fun p => p.1 / 16384 ≠ leg) }
    stashUsed := stashOf (m.overlay.filter out) } }

/-- R85 steps 2 and 3: legs whose removal has committed leave the cache and the map. -/
def advanceDrops (s : State) : State :=
  let legs := (s.sad.img.runs.filter (fun p => p.2.part = 0xFFFF && !recBusy s (rk 4 (p.1 / 64)))).flatMap (fun p =>
    (List.range p.2.count).map (fun i => p.2.leg + i))
  let new := legs.filter (fun g => !s.way.dropping.contains g)
  if new.isEmpty then s else forAll new dropLegMap (dropLegs new s)

/-- R85 step 4: the DROP_LEG records of some legs have committed; the legs go to the free pool with the next commit. -/
def legsDropped (legs : List Nat) (s : State) : State :=
  let mine := legs.filter (fun g => s.way.dropping.contains g)
  if mine.isEmpty then s
  else setRuns (mine.foldl (fun r g => cutRun g r) s.sad.img.runs) { s with way := { s.way with
    dropping := s.way.dropping.filter (fun g => !mine.contains g), freeing := s.way.freeing ++ mine } }

/-- R85 step 4: whether a LEG_RUNS change still waits for its commit. -/
def runsBusy (s : State) : Bool :=
  s.sad.dirty.any (fun k => k / 65536 == 4) || (match s.sad.running with | some g => g.recs.any (fun r => r.1 / 65536 == 4) | none => false)

/-- R85 step 4: the legs are in the free pool once the commit is done. -/
def finishFreeing (s : State) : State := if runsBusy s then s else { s with way := { s.way with freeing := [] } }

/-- R85: whether some legs are back in the free pool. -/
def legsReturned (s : State) (legs : List Nat) : Bool :=
  legs.all (fun g => !s.sad.img.runs.any (fun p => inRun g p.2 && p.2.part == 0xFFFF) && !s.way.freeing.contains g)

/-! ### Keys -/

/-- R205: the key set that the random bit generator gives next, of a generation. -/
def newKeys (gen : BitVec 16) (s : State) : KeySet :=
  { dataKey := Config.rbgKey s.keeper.rbg, hashKey := Config.rbgHash s.keeper.rbg, gen := gen }

/-- R205, R208: a new key set of a partition is drawn and wrapped into a KEY_WRAP instance. -/
def wrapNew (part inst : Nat) (gen : BitVec 16) (s : State) : State :=
  let w := wrapKeys (kwkOf s) part s.sad.wrapSeq (newKeys gen s)
  modImg [rk 7 inst] (fun m => { m with wraps := tset m.wraps inst w })
    { s with sad := { s.sad with wrapSeq := s.sad.wrapSeq + 1 }, keeper := { s.keeper with rbg := s.keeper.rbg + 1 } }

/-- Change a tenant slot. -/
def modSlot (part : Nat) (f : KeySlot → KeySlot) (s : State) : State :=
  { s with sealCtl := { s.sealCtl with slots := tmod s.sealCtl.slots part {} f } }

/-- The offset of the first bale of a partition's lowest occupied position (R241). -/
def firstOffset (s : State) (part : Nat) : Nat :=
  match positions s part with
  | [] => 0
  | p :: ps => (ps.foldl (fun m q => min m q.1) p.1) * gib

/-- The bales of a partition (R417). -/
def baleTotal (s : State) (part : Nat) : Nat := (positions s part).length * 16384

/-- R241 step 4: the start commit is done: NEXT is loaded and the traverse runs; a change of RATE only is taken over. -/
def startTraverse (inst : Nat) (s : State) : State :=
  match tget s.sad.img.travs inst with
  | none => s
  | some r =>
    match tget s.travs r.part with
    | some t => { s with travs := tset s.travs r.part { t with rate := r.rate } }
    | none =>
      let s1 := modSlot r.part (fun k => { k with nxt := unwrapped s (1024 + inst) }) s
      let t : Trav := { inst := inst, oldGen := r.oldGen, newGen := r.newGen, rate := r.rate, w := r.mark, mark := r.mark,
                        committed := r.mark, startTb := tbNow s }
      emit 0x0701 0xFF r.part r.oldGen.toNat r.newGen.toNat r.rate { s1 with travs := tset s1.travs r.part t }

/-- R247, R595: a traverse ends early (cause 0 deletion, 1 NEXT wrap lost); its TRAVERSE record and NEXT wrap go, which a
traverse that finishes no longer has. -/
def endTraverse (part cause : Nat) (s : State) : State :=
  let run := tget s.travs part
  match s.sad.img.travs.find? (fun p => p.2.part = part) with
  | none => match run with
    | some t => emit 0x0704 0xFF part (t.mark % 4294967296) (t.mark / 4294967296) cause { s with travs := tdel s.travs part }
    | none => s
  | some (i, r) =>
    let m := match run with | some t => t.mark | none => r.mark
    let s1 := modImg [rk 8 i, rk 7 (1024 + i)] (fun g => { g with travs := tdel g.travs i, wraps := tdel g.wraps (1024 + i) }) s
    emit 0x0704 0xFF part (m % 4294967296) (m / 4294967296) cause { s1 with travs := tdel s1.travs part }

/-! ### Loading (R209) -/

/-- R209: the NEXT wrap of a partition's TRAVERSE record. -/
def nextWrap (s : State) (part : Nat) : Option Nat :=
  ((s.sad.img.travs.find? (fun p => p.2.part = part)).map (fun p => 1024 + p.1)).filter (thas s.sad.img.wraps)

/-- R209: an unwrap of the partition's key sets whose tag fails, or that a boot's operand fails. -/
def tagFails (s : State) (part : Nat) : Bool :=
  s.boot.unwrapFails.contains part || (thas s.sad.img.wraps part && (unwrapped s part).isNone) ||
  (match nextWrap s part with | some i => (unwrapped s i).isNone | none => false)

/-- R209, R459: a partition whose slot stays empty: an unwrap fails, or no copy of a record that serves it is valid. -/
def slotFails (s : State) (part : Nat) : Bool :=
  let lost := s.boot.lostRecs
  tagFails s part || lost.contains (rk 7 part) || lost.contains (rk 3 part) || (isActive s part && lost.any (fun k => k / 65536 == 4))

/-- R209: a partition's key sets are unwrapped into its slot. One that fails stays empty: record 0x0607 for a tag that fails, and a
Fatal event to each LD that maps the partition. -/
def loadPart (part : Nat) (s : State) : State :=
  if slotFails s part then
    let gen := ((partRec s part).map (·.keyGen.toNat)).getD 0
    let s1 : State := { s with sealCtl := { s.sealCtl with slots := tdel s.sealCtl.slots part, keyless := s.sealCtl.keyless.filter (· ≠ part) ++ [part] } }
    postEvent (ldsOfPart s part) 3 (evOf 0x0607 part gen 0 0) (if tagFails s part then emit 0x0607 0xFF part gen 0 0 s1 else s1)
  else modSlot part (fun _ => { cur := unwrapped s part, nxt := (nextWrap s part).bind (unwrapped s) }) s

/-! ### Crypto erase (R248) -/

/-- The KEY_WRAP records that name a partition. -/
def wrapsOf (s : State) (part : Nat) : List Nat := tkeys (s.sad.img.wraps.filter (fun p => p.2.part = part))

/-- R248 step 3: the KEY_WRAP records of which a shadow copy still holds a wrap of a partition. -/
def wrapCopies (s : State) (part : Nat) : List Nat :=
  let holds := fun (c : Option Shadow) => match c with
    | some { body := some (.wrap w), .. } => w.part == part
    | _ => false
  tkeys (s.sad.slots.filter (fun p => p.1 / 65536 == 7 && (holds p.2.a || holds p.2.b)))

/-- R248 step 4: a tenant slot is zeroed. -/
def zeroSlot (part : Nat) (s : State) : State :=
  { s with sealCtl := { s.sealCtl with slots := tdel s.sealCtl.slots part, keyless := s.sealCtl.keyless.filter (· ≠ part) } }

/-- R248 steps 4 to 6: after the second commit the slot is zeroed and the legs are removed. -/
def eraseLegs (part : Nat) (s : State) : State :=
  emptyPositions part ((positions s part).map (·.1)) (zeroSlot part s)

/-- R86, R248: the ID becomes FREE. -/
def freePart (part : Nat) (s : State) : State :=
  let s1 := meter part (fun m => { m with events := m.events ||| 2 }) (modImg [rk 3 part] (fun m => { m with parts := tdel m.parts part }) s)
  { s1 with gate := { s1.gate with freedMinute := tset s1.gate.freedMinute part s1.reck.openBank.minute } }

/-- R248, R250: the next step of a DEPARTING partition whose earlier commits are done. `back`: its legs are returned. -/
def advanceErase (part : Nat) (back : Bool) (s : State) : State :=
  let ws := wrapsOf s part
  if recBusy s (rk 3 part) ∨ (s.sad.dirty ++ (match s.sad.running with | some g => g.recs.map (·.1) | none => [])).any
      (fun k => k / 65536 == 7) then s
  else if !ws.isEmpty then
    modImg (ws.map (rk 7)) (fun m => { m with wraps := m.wraps.filter (fun p => p.2.part ≠ part) }) (endTraverse part 0 s)
  else if !(wrapCopies s part).isEmpty then markRecs (wrapCopies s part) s
  else if !(positions s part).isEmpty then eraseLegs part s
  else if back then freePart part (zeroSlot part s) else s

end Sys2Proof.Machine
end

