-- ==== Sys2Proof/Machine/Mailbox.lean ====
section
/-! DEFINITION. The mailboxes and the MCTP endpoint (R392 to R406, R421 to R425): paths, the command table, the
checks that every command meets, completion, and background commands. -/

namespace Sys2Proof.Machine

/-! ### The command table (R407, R412 to R420) -/

/-- What the manual's tables say of a command: who may issue it (bit 0 tenant LD, 1 management LD, 2 MCTP), its class,
and the restricted sets it belongs to. -/
structure CmdInfo where
  op : Nat
  frm : BitVec 3
  /-- R399. -/
  bg : Bool := false
  /-- R421. -/
  frozen : Bool := false
  /-- R422. -/
  biv : Bool := false
  /-- R423. -/
  recl : Bool := false
  /-- R424: needs programs or resets. -/
  ro : Bool := false
  /-- R403: the opcode can change a Saddlebag record. -/
  saddle : Bool := false
  deriving DecidableEq, Repr

/-- R407: the standard commands; no path may issue Set Timestamp. -/
def stdCmds : List CmdInfo :=
  [ { op := 0x0001, frm := 7, frozen := true, biv := true, recl := true }, { op := 0x0002, frm := 4, biv := true },
    { op := 0x0100, frm := 7, frozen := true, biv := true }, { op := 0x0101, frm := 7, frozen := true, biv := true },
    { op := 0x0102, frm := 7, frozen := true }, { op := 0x0103, frm := 7 },
    { op := 0x0200, frm := 7, frozen := true, biv := true }, { op := 0x0201, frm := 6, biv := true },
    { op := 0x0202, frm := 6, bg := true, biv := true }, { op := 0x0300, frm := 7, frozen := true }, { op := 0x0301, frm := 0 },
    { op := 0x0400, frm := 7, frozen := true, biv := true }, { op := 0x0401, frm := 7, frozen := true, biv := true },
    { op := 0x4000, frm := 7, frozen := true }, { op := 0x4100, frm := 1, frozen := true },
    { op := 0x4200, frm := 7, frozen := true }, { op := 0x4201, frm := 7, frozen := true }, { op := 0x4202, frm := 7 },
    { op := 0x4203, frm := 1, frozen := true }, { op := 0x4204, frm := 1 }, { op := 0x4300, frm := 1, frozen := true },
    { op := 0x4301, frm := 1, ro := true }, { op := 0x4302, frm := 1, ro := true },
    { op := 0x4800, frm := 1, frozen := true }, { op := 0x4801, frm := 1, frozen := true },
    { op := 0x4802, frm := 1, saddle := true }, { op := 0x4803, frm := 1, saddle := true },
    { op := 0x5400, frm := 6 }, { op := 0x5401, frm := 6 }, { op := 0x5604, frm := 6, saddle := true },
    { op := 0x5605, frm := 6, saddle := true } ]

/-- R412, R414: families 0xC0xx and 0xC1xx. -/
def tenantCmds : List CmdInfo :=
  [ { op := 0xC000, frm := 7, frozen := true, biv := true, recl := true }, { op := 0xC001, frm := 6, saddle := true },
    { op := 0xC002, frm := 6 }, { op := 0xC003, frm := 6, saddle := true }, { op := 0xC004, frm := 6 },
    { op := 0xC005, frm := 7, frozen := true, biv := true, recl := true }, { op := 0xC006, frm := 4, biv := true },
    { op := 0xC100, frm := 6, saddle := true }, { op := 0xC101, frm := 6, bg := true, saddle := true },
    { op := 0xC102, frm := 6, saddle := true }, { op := 0xC103, frm := 6, bg := true, saddle := true },
    { op := 0xC104, frm := 7, frozen := true }, { op := 0xC105, frm := 6, saddle := true },
    { op := 0xC106, frm := 7, frozen := true }, { op := 0xC107, frm := 6, saddle := true },
    { op := 0xC108, frm := 7, frozen := true }, { op := 0xC109, frm := 6, saddle := true },
    { op := 0xC10A, frm := 6, saddle := true }, { op := 0xC10B, frm := 7, frozen := true }, { op := 0xC10C, frm := 6 } ]

/-- R416 to R420: families 0xC2xx to 0xC8xx. -/
def unitCmds : List CmdInfo :=
  [ { op := 0xC200, frm := 7, frozen := true }, { op := 0xC201, frm := 6, saddle := true }, { op := 0xC202, frm := 6 },
    { op := 0xC203, frm := 6, saddle := true }, { op := 0xC204, frm := 7, frozen := true }, { op := 0xC205, frm := 7, frozen := true },
    { op := 0xC300, frm := 7, bg := true }, { op := 0xC301, frm := 7, bg := true }, { op := 0xC302, frm := 7, bg := true, ro := true },
    { op := 0xC400, frm := 6, saddle := true }, { op := 0xC401, frm := 7, frozen := true },
    { op := 0xC500, frm := 6 }, { op := 0xC501, frm := 6, bg := true, ro := true, saddle := true },
    { op := 0xC502, frm := 6, saddle := true }, { op := 0xC503, frm := 6 },
    { op := 0xC600, frm := 6, saddle := true }, { op := 0xC601, frm := 6 }, { op := 0xC602, frm := 6 }, { op := 0xC603, frm := 6 },
    { op := 0xC604, frm := 6, saddle := true }, { op := 0xC605, frm := 6 }, { op := 0xC606, frm := 7, frozen := true },
    { op := 0xC700, frm := 6, biv := true }, { op := 0xC701, frm := 6, biv := true }, { op := 0xC702, frm := 6, biv := true },
    { op := 0xC800, frm := 6, biv := true, recl := true }, { op := 0xC801, frm := 6, biv := true },
    { op := 0xC802, frm := 6, biv := true }, { op := 0xC803, frm := 6, biv := true },
    { op := 0xC804, frm := 6, biv := true }, { op := 0xC805, frm := 6, biv := true } ]

/-- Every command of the current generation. -/
def cmdTable : List CmdInfo := stdCmds ++ tenantCmds ++ unitCmds

/-- The table's row of an opcode. -/
def cmdInfo (op : Nat) : Option CmdInfo := cmdTable.find? (fun c => c.op == op)

/-! ### Paths and contexts -/

/-- The command context of a path (R394). -/
def ctx (s : State) : Path → Mailbox
  | .ld p l => (ldAt s (ldKey p l)).mbox
  | .mctp => s.mctp

/-- The background job of a path. -/
def jobOf (s : State) (p : Path) : Option Job := (ctx s p).bg.map (·.job)

/-- Change the context of a path. -/
def modCtx (p : Path) (f : Mailbox → Mailbox) (s : State) : State :=
  match p with
  | .ld q l => modLd (ldKey q l) (fun x => { x with mbox := f x.mbox }) s
  | .mctp => { s with mctp := f s.mctp }

/-- R392: the role of a path: bit 0 tenant LD, 1 management LD, 2 MCTP. -/
def pathRole (s : State) : Path → Nat
  | .mctp => 2
  | .ld p l => if mgmtKey s = some (ldKey p l) ∨ l = 16 then 1 else 0

/-- The LD of a path; MCTP reads the management LD's logs (R407). -/
def pathLd (s : State) : Path → Option Nat
  | .mctp => mgmtKey s
  | .ld p l => some (ldKey p l)

/-- R108: the master identifier of a path. -/
def pathMaster : Path → Nat
  | .mctp => mctpMaster
  | .ld p l => ldMaster p l

/-- Whether a path reaches Synet: MCTP whenever the main die is out of reset (R394), an LD over its port's link. -/
def pathLive (s : State) : Path → Bool
  | .mctp => true
  | .ld p l => (port s p).up && ldConfigured s p l

/-! ### Replies -/

/-- What a command answers: return code (R405), detail (R406), OFFSET (R400), output payload, the records whose commit
it waits for (R401) and what takes effect then, or the background job that it starts (R399). -/
structure Reply where
  rc : Nat := 0
  detail : Nat := 0
  off : Nat := 0xFFF
  out : List Byte := []
  recs : List Nat := []
  done : OnDone := .none
  job : Option Job := none
  deriving DecidableEq, Repr

/-- A rejection. -/
def rej (rc detail : Nat) (off : Nat := 0xFFF) : Reply := { rc := rc, detail := detail, off := off }

/-- A command: its opcode, which input lengths are valid (R404), its reserved input bytes, and its effect. -/
structure Cmd where
  op : Nat
  len : List Byte → Bool
  rsvd : List (Nat × Nat) := []
  body : Path → List Byte → State → Reply × State

/-- The length check of a command with a fixed input length. -/
def lenIs (n : Nat) (l : List Byte) : Bool := l.length == n

/-- The first reserved field that is not zero (R404, R406). -/
def rsvdOff (r : List (Nat × Nat)) (l : List Byte) : Option Nat :=
  (r.find? (fun p => !allZero l p.1 p.2)).map (fun p => firstNonZero l p.1 p.2)

/-- R400, R399: a completion at a path: doorbell 0, return code, output, VND_MB_XSTATUS. -/
def complete (op : Nat) (p : Path) (first4 : Nat) (r : Reply) (s : State) : State :=
  let busy := r.rc == 6 && (r.detail == 0x0D86 || r.detail == 0x0D87)
  let s1 := if (match cmdInfo op with | some i => i.saddle | none => false) && !busy && r.rc != 1 then
    emit 0x0D05 0xFF op (pathMaster p) first4 r.rc s else s
  modCtx p (fun m => { m with
    doorbell := false, retCode := r.rc, detail := r.detail, len := r.out.length, payload := patch m.payload 0 r.out
    xDetail := r.detail, xOffset := r.off, xValid := true, wait := none }) s1

/-- R399: the background command of a path ends with its final return code. -/
def endBg (p : Path) (rc detail : Nat) (s : State) : State :=
  match (ctx s p).bg with
  | none => s
  | some b =>
    let s1 := if (match cmdInfo b.opcode with | some i => i.saddle | none => false) then
      emit 0x0D05 0xFF b.opcode (pathMaster p) b.first4 rc s else s
    modCtx p (fun m => { m with
      bg := none, bgShown := false, bgOpcode := b.opcode, bgPct := if rc = 0 then 100 else b.pct, bgRet := rc, bgDetail := detail
      xDetail := detail, xOffset := 0xFFF, xFrozen := false, xBivouac := false, xRecall := false, xValid := true }) s1

/-- R399: Synet shows the background command that it runs in the registers. -/
def showBg (m : Mailbox) : Mailbox :=
  match m.bg with
  | some b => { m with bgShown := true, bgOpcode := b.opcode, bgPct := b.pct }
  | none => m

/-- R399: change the running background command of a path, and report it. -/
def modBg (p : Path) (f : Bg → Bg) (s : State) : State := modCtx p (fun m => showBg { m with bg := m.bg.map f }) s

/-! ### Taking a command -/

/-- R392, R404, R406: an opcode of no table: a vendor opcode (0xC000 to 0xFFFF) is not defined in the current generation;
another one is absent from every Command Effects Log, so no path may issue it. -/
def unlistedDetail (op : Nat) : Nat := if 0xC000 ≤ op then 0x0D88 else 0x0D82

/-- R392, R406: whether the path may issue an opcode: none, or the rejection. -/
def pathCheck (op : Nat) (p : Path) (s : State) : Option Reply :=
  match cmdInfo op with
  | none => some (rej 3 (unlistedDetail op))
  | some i => if i.frm.getLsbD (pathRole s p) then none else some (rej 3 0x0D82)

/-- R399, R542: whether a running background command rejects another of its path; Activate FW answers for itself. -/
def bgBlocks (op : Nat) (m : Mailbox) : Bool :=
  match m.bg with
  | none => false
  | some { job := .activate _, .. } => op != 0x0202
  | some _ => true

/-- R421 to R424, R399: the restrictions on a command that its path may issue, in order. -/
def stateCheck (i : CmdInfo) (p : Path) (s : State) : Option Reply :=
  if recalling s && !i.recl then some (rej 6 0x1080)
  else if s.health.st == 6 && (pathRole s p == 0 || !i.biv) then some (rej 7 0x0D85)
  else if (match p with | .ld q l => ldFrozen s q l | .mctp => false) && !i.frozen then some (rej 7 0x0D89)
  else if i.bg && bgBlocks i.op (ctx s p) then some (rej 6 0x0D86)
  else if s.health.st == 5 && i.ro then some (rej 7 0x0D8A)
  else none

/-- R404, R406: the form of the input. -/
def formCheck (c : Cmd) (inp : List Byte) : Option Reply :=
  if !c.len inp then some (rej 0x16 0x0D80)
  else (rsvdOff c.rsvd inp).map (fun o => rej 2 0x0D84 o)

/-- All checks of a command before its effect. -/
def checkCmd (c : Cmd) (p : Path) (inp : List Byte) (s : State) : Option Reply :=
  match pathCheck c.op p s with
  | some r => some r
  | none => match (cmdInfo c.op).bind (fun i => stateCheck i p s) with
    | some r => some r
    | none => formCheck c inp

/-- R425: commands rejected for their path are counted. -/
def countRejected (op : Nat) (p : Path) (r : Reply) (s : State) : State :=
  if r.detail = 0x0D82 then
    bumpSet 0x0D02 3 (fun _ => op) (bumpSet 0x0D02 2 (fun _ => pathMaster p) (bump 0x0D02 1 1 s)) else s

/-- R397, R400: the command is in Synet's hands, with the states in force when it is taken. -/
def takeIn (op : Nat) (p : Path) (inp : List Byte) (s : State) : State :=
  modCtx p (fun m => { m with
    doorbell := (match p with | .ld .. => true | .mctp => false), opcode := op, len := inp.length, payload := patch m.payload 0 inp
    xFrozen := (match p with | .ld q l => ldFrozen s q l | .mctp => false), xBivouac := s.health.st == 6
    xRecall := recalling s }) s

/-- What a reply does: it completes, waits for its records' commit, or starts its background job. -/
def settle (op : Nat) (p : Path) (inp : List Byte) (r : Reply) (s : State) : State :=
  match r.job with
  | some j =>
    modCtx p (fun m => { m with bg := some { opcode := op, job := j, first4 := fld inp 0 4 }
                                bgShown := true, bgOpcode := op, bgPct := 0, bgRet := 0, bgDetail := 0 })
      (complete op p (fld inp 0 4) { r with rc := 1, job := none } s)
  | none =>
    if r.recs.isEmpty then complete op p (fld inp 0 4) r s
    else modCtx p (fun m => { m with
      wait := some { opcode := op, first4 := fld inp 0 4, recs := r.recs, out := r.out, done := r.done, since := tbNow s } }) s

/-- A command is taken on a path (R397). A further MCTP request meets Busy (R394); an LD's doorbell that is already
set takes nothing (R396). A command that resets the main die leaves no context to complete in (R543). -/
def takeCmd (c : Cmd) (p : Path) (inp : List Byte) (s : State) : State :=
  if !pathLive s p then s
  else if (ctx s p).wait.isSome then
    (match p with
     | .mctp => modCtx p (fun m => { m with retCode := 6, detail := 0x0D87, xDetail := 0x0D87, xOffset := 0xFFF, xValid := true }) s
     | .ld .. => s)
  else
    let s1 := takeIn c.op p inp s
    match checkCmd c p inp s1 with
    | some r => complete c.op p (fld inp 0 4) r (countRejected c.op p r s1)
    | none => if (c.body p inp s1).2.mainUp then settle c.op p inp (c.body p inp s1).1 (c.body p inp s1).2 else (c.body p inp s1).2

/-- The outcome of a command row. -/
def runCmd (c : Cmd) (p : Path) (inp : List Byte) (s : State) : Out := .next (whenMain (takeCmd c p inp) s)

/-- R392, R406, R407: an opcode that no table lists. -/
def unlisted (op : Nat) : Cmd := { op := op, len := fun _ => true, body := fun _ _ s => (rej 3 (unlistedDetail op), s) }

/-- UNSUPPORTED_OPCODE (R407). -/
def execUnsupportedOpcode (p : Path) (opcode : Nat) (input : List Byte) (s : State) : Out :=
  .next (whenMain (fun s => if (cmdInfo opcode).isSome then s else takeCmd (unlisted opcode) p input s) s)

/-! ### Waiting commands -/

/-- R133, R143: a partition's shares apply from the next plan whose construction starts after this. -/
def setShares (part : Nat) (sh : Nat × Nat) (s : State) : State :=
  { s with planner := { s.planner with
    sharesSet := tset s.planner.sharesSet part sh, sharesTb := some (tbNow s)
    sharesOld := if s.planner.sharesTb = some (tbNow s) then s.planner.sharesOld else s.planner.sharesSet } }

/-- R89, R98, R100, R130, R133, R209: what takes effect when the records of a command have committed. -/
def applyDone (d : OnDone) (s : State) : State :=
  match d with
  | .none => s
  | .ldMap k m => setChg 2 k (modLd k (fun l => { l with map := { m with outstanding := l.map.outstanding, opcodes := l.map.opcodes, poisonLimit := l.map.poisonLimit } }) s)
  | .contract k m => modLd k (fun l =>
      if m.outstanding < l.outstanding ∧ m.outstanding < l.map.outstanding then
        { l with map := { l.map with opcodes := m.opcodes, poisonLimit := m.poisonLimit }, pendingOut := some m.outstanding }
      else { l with map := { l.map with outstanding := m.outstanding, opcodes := m.opcodes, poisonLimit := m.poisonLimit }, pendingOut := none }) s
  | .ranges k rs => setChg 2 k (modLd k (fun l => { l with map := { l.map with ranges := rs } }) s)
  | .slot part k sh => meter part (fun m => { m with events := m.events ||| 1 }) (setShares part sh
      (if s.sealCtl.zeroed then s else modSlot part (fun x => { x with cur := some k }) s))
  | .shares part sh => setShares part sh s
  | .release k part rs poss => emptyPositions part poss (setChg 2 k (modLd k (fun l => { l with map := { l.map with ranges := rs } }) s))
  | .traverse inst => startTraverse inst s
  | .stageCfg k => { s with planner := { s.planner with
      maintPending := if k = s.planner.maintShare then 0 else k, maintTb := some (tbNow s)
      maintOld := if s.planner.maintTb = some (tbNow s) then s.planner.maintOld else s.planner.maintPending } }

/-- Every path that has a context. -/
def allPaths (s : State) : List Path := (tkeys s.ports.lds).map (fun k => .ld (k / 17) (k % 17)) ++ [.mctp]

/-- R398, R425: a foreground command that exceeded its maximum of 1 ms, or 1 ms for each 64 tenant commands pending. -/
def lateRecord (p : Path) (w : WaitCmd) (s : State) : State :=
  let pending := ((allPaths s).filter (fun q => pathRole s q == 0 && (ctx s q).wait.isSome)).length
  let bound := 1000000 * (if pathRole s p = 0 then max 1 ((pending + 63) / 64) else 1)
  if bound < tbNow s - w.since then emit 0x0D03 0xFF (pathMaster p) w.opcode ((tbNow s - w.since) / 1000) pending s else s

/-- R401: the waiting commands whose records are all committed complete with Success. -/
def completeWaiting (s : State) : State :=
  let busy := fun (k : Nat) => s.sad.dirty.contains k || (match s.sad.running with | some g => g.recs.any (fun r => r.1 == k) | none => false)
  forAll (allPaths s) (fun p t => match (ctx t p).wait with
    | none => t
    | some w => if w.recs.any busy then t
      else complete w.opcode p w.first4 { out := w.out } (applyDone w.done (lateRecord p w t))) s

/-- R460: a commit that the supply check holds off for 10 ms fails the commands that need it. -/
def failWaiting (s : State) : State :=
  forAll (allPaths s) (fun p t => match (ctx t p).wait with
    | none => t
    | some w => if tbNow s < w.since + 10000000 then t else complete w.opcode p w.first4 (rej 6 0x1081) t) s

/-- MCTP_ASSEMBLY_TIMEOUT (R393, R425). -/
def execMctpAssemblyTimeout (eid packets bytes binding : Nat) (s : State) : Out :=
  .next (whenMain (emit 0x0D01 0xFF eid packets bytes binding) s)

/-- BACKGROUND_PROGRESS_UPDATE (R399). -/
def execBackgroundProgressUpdate (p : Path) (pct : Nat) (s : State) : Out :=
  .next (whenMain (fun s => if (ctx s p).bg.isSome then modBg p (fun b => { b with pct := max b.pct (min pct 99) }) s else s) s)

end Sys2Proof.Machine
end

