-- ==== Sys2Proof/Machine/RangeOps.lean ====
section
/-! DEFINITION. Address-range maintenance (R189 to R193): FLUSH_RANGE, INVALIDATE_RANGE, ZERO_RANGE and their steps. -/

namespace Sys2Proof.Machine

/-- R189: the LPN of a byte of a range: a partition offset, or a DPA of an LD. -/
def rangeLpn (s : State) (part : Nat) (ld : Option Nat) (a : Nat) : Option Nat :=
  match ld with
  | none => (legAt s.sad.img.runs part (a / gib)).map (fun g => lpnOf g a)
  | some k => ((rangePos (ldAt s k).map.ranges (a / gib)).bind (fun pos => legAt s.sad.img.runs (ldAt s k).map.part pos)).map
      (fun g => lpnOf g a)

/-- R189: every leg that a range touches is occupied. -/
def rangeOccupied (s : State) (part : Nat) (ld : Option Nat) (start len : Nat) : Bool :=
  len == 0 || (decide (len ≤ 70368744177664) &&
    (List.range ((start + len - 1) / gib + 1 - start / gib)).all (fun i => (rangeLpn s part ld ((start / gib + i) * gib)).isSome))

/-- R409: the contract right that a tenant's range command needs. -/
def rangeRight (kind : Nat) (m : LdMap) : Bool := if kind = 2 then m.opcodes.getLsbD 2 else m.opcodes.getLsbD 0

/-- R189, R409: FLUSH_RANGE (kind 0), INVALIDATE_RANGE (1) and ZERO_RANGE (2). -/
def rangeBody (kind : Nat) (p : Path) (i : List Byte) (s : State) : Reply × State :=
  let tenant := pathRole s p == 0
  let k := (pathLd s p).getD 0
  let form := fld i 0 1
  let part := if tenant then (ldAt s k).map.part else fld i 2 2
  let ld := if tenant then some k else none
  let start := fld i 8 8
  let len := fld i 16 8
  if form ≠ (if tenant then 1 else 0) then (rej 2 0x0D83 0, s)
  else if (tenant ∧ fld i 2 2 ≠ 0) ∨ 1024 ≤ fld i 2 2 then (rej 2 0x0D84 2, s)
  else if tenant ∧ !rangeRight kind (ldAt s k).map then (rej 2 0x0289, s)
  else if !tenant ∧ (partRec s part).map (·.st) ≠ some .active then (rej 2 0x0280 2, s)
  else if start % 256 ≠ 0 then (rej 2 0x0580 8, s)
  else if len % 256 ≠ 0 then (rej 2 0x0580 16, s)
  else if !rangeOccupied s part ld start len then (rej 2 0x0580 8, s)
  else ({ job := some (.range kind part start len 0 ld (tbNow s) [] false) }, s)

/-- FLUSH_RANGE (R189). -/
def cmdFlushRange : Cmd := { op := 0xC300, len := lenIs 24, rsvd := [(1, 1), (4, 4)], body := rangeBody 0 }
/-- INVALIDATE_RANGE (R189). -/
def cmdInvalidateRange : Cmd := { op := 0xC301, len := lenIs 24, rsvd := [(1, 1), (4, 4)], body := rangeBody 1 }
/-- ZERO_RANGE (R191). -/
def cmdZeroRange : Cmd := { op := 0xC302, len := lenIs 24, rsvd := [(1, 1), (4, 4)], body := rangeBody 2 }

/-- FLUSH_RANGE (R189). -/
def execFlushRange (p : Path) (input : List Byte) (s : State) : Out := runCmd cmdFlushRange p input s
/-- INVALIDATE_RANGE (R189). -/
def execInvalidateRange (p : Path) (input : List Byte) (s : State) : Out := runCmd cmdInvalidateRange p input s
/-- ZERO_RANGE (R191). -/
def execZeroRange (p : Path) (input : List Byte) (s : State) : Out := runCmd cmdZeroRange p input s

/-- R190, R192: a range operation chooses a line for eviction, or takes over the choice already made, and awaits it. -/
def rangeEvict (lpn part : Nat) (keep : Bool) (s : State) : State :=
  evAgain { lpn := lpn, why := .range, creditPart := part, keep := keep, range := true } (fun e => { e with keep := keep, range := true }) s

/-- What a range operation does at one parcel (R190): it waits there, having met the line EVICTING or not, or it goes on,
with an eviction to await (R192) or without. -/
inductive Visit where
  | stay (met : Bool) (s : State)
  | go (await : Bool) (s : State)

/-- R190: the action on one parcel. -/
def rangeAct (kind lpn part : Nat) (met : Bool) (s : State) : Visit :=
  if kind = 2 then (let z := zeroLine lpn part s.health.st s; if z.1 then .go false z.2 else .stay false z.2)
  else if met ∧ pending s lpn then .stay true s
  else if met ∧ kind = 0 then .go false s
  else match findWay s lpn with
    | none => if thas s.cache.fills lpn then .stay met s else .go false s
    | some k =>
      match (lineAt s k).st with
      | .clean => .go false (if kind = 1 then dropWay k s else s)
      | .dirty => .go true (rangeEvict lpn (lineAt s k).part (kind == 0) s)
      | .evicting => .stay true s
      | _ => .stay met s

/-- R402: an operation whose LD is frozen ends at its next parcel. -/
def rangeFrozen (s : State) (p : Path) : Bool :=
  match p with | .ld q l => ldFrozen s q l | .mctp => false

/-- RANGE_OP_STEP (R190, R402): the next parcel of the range. -/
def rangeOpStep (p : Path) (s : State) : State :=
  match (ctx s p).bg with
  | none => s
  | some b => match b.job with
    | .range kind part start len next ld since started met =>
      if len ≤ next then s
      else if rangeFrozen s p then endBg p 0x12 0x0582 (emit 0x0D04 0xFF (pathMaster p) b.opcode b.pct 0 s)
      else
        let go := fun (ev : List Nat) (t : State) =>
          modBg p (fun b => { b with pct := (next + 256) * 100 / len
                                     job := .range kind part start len (next + 256) ld (tbNow s) ev false }) t
        match rangeLpn s part ld (start + next) with
        | none => go started s
        | some lpn => match rangeAct kind lpn part met s with
          | .stay m t => modBg p (fun b => { b with job := .range kind part start len next ld since started m }) t
          | .go e t => go (if e then started ++ [lpn] else started) t
    | _ => s

/-- RANGE_OP_STEP (R190). -/
def execRangeOpStep (p : Path) (s : State) : Out := .next (whenMain (rangeOpStep p) s)

/-- R192: whether the evictions that an operation awaits have passed verify. -/
def rangeVerified (s : State) (started : List Nat) : Bool :=
  started.all (fun l => !(pendAll s).any (fun p => p.1 == l && p.2.range) && !s.cache.evDue.any (fun e => e.lpn == l && e.range))

/-- RANGE_OP_COMPLETE (R192). -/
def rangeOpComplete (p : Path) (s : State) : State :=
  match (ctx s p).bg with
  | none => s
  | some b => match b.job with
    | .range kind _ _ len next _ _ started _ =>
      if next < len then s else if kind = 2 ∨ rangeVerified s started then endBg p 0 0 s else s
    | _ => s

/-- RANGE_OP_COMPLETE (R192). -/
def execRangeOpComplete (p : Path) (s : State) : Out := .next (whenMain (rangeOpComplete p) s)

/-- RANGE_OP_NO_PROGRESS (R193): no progress for 1 s because no channel can be programmed. -/
def rangeOpNoProgress (p : Path) (s : State) : State :=
  match (ctx s p).bg with
  | none => s
  | some b => match b.job with
    | .range _ _ _ _ _ _ t _ _ => if tbNow s < t + 1000000000 ∨ (nextChannel s).isSome then s else endBg p 0x12 0x0581 s
    | _ => s

/-- RANGE_OP_NO_PROGRESS (R193). -/
def execRangeOpNoProgress (p : Path) (s : State) : Out := .next (whenMain (rangeOpNoProgress p) s)

end Sys2Proof.Machine
end

