-- ==== Sys2Proof/Machine/CmdStd.lean ====
section
/-! DEFINITION. The standard CXL commands (R67, R68, R407 to R410). Payload layouts that this manual leaves to the CXL
Specification are PRESUMED from it. -/

namespace Sys2Proof.Machine

/-- A command without input. -/
def noInput (op : Nat) (f : Path → State → List Byte) : Cmd :=
  { op := op, len := lenIs 0, body := fun p _ s => ({ out := f p s }, s) }

/-- A byte that the manual leaves open in an output payload: the field's tag and what it depends on. -/
def openBytes (n tag x : Nat) : List Byte := toLe n (Config.free tag x)

/-- Two's complement bytes. -/
def toLeI (n : Nat) (x : Int) : List Byte := toLe n (x % (256 ^ n : Nat)).toNat

/-! ### Identify, event logs -/

/-- IDENTIFY (R407, R65). -/
def cmdIdentify : Cmd := noInput 0x0001 (fun _ _ =>
  toLe 2 0x1D7E ++ toLe 2 0x1280 ++ openBytes 4 0x0001 0 ++ toLe 8 (Config.unitId.toNat % 18446744073709551616) ++ [16, 3])
/-- IDENTIFY (R407). -/
def execIdentify (p : Path) (input : List Byte) (s : State) : Out := runCmd cmdIdentify p input s

/-- BACKGROUND_OPERATION_STATUS (R399). -/
def cmdBgStatus : Cmd := noInput 0x0002 (fun p s =>
  let m := ctx s p
  [BitVec.ofNat 8 (2 * m.bgPct + (if m.bgShown then 1 else 0)), 0] ++ toLe 2 m.bgOpcode ++ toLe 2 m.bgRet ++ toLe 2 m.bgDetail)
/-- BACKGROUND_OPERATION_STATUS (R399). -/
def execBackgroundOperationStatus (p : Path) (input : List Byte) (s : State) : Out := runCmd cmdBgStatus p input s

/-- A log of an LD. -/
def logOf (l : Ld) (log : Nat) : EventLog := l.logs.getD log {}
/-- Change a log of an LD. -/
def modLog (log : Nat) (f : EventLog → EventLog) (l : Ld) : Ld :=
  { l with logs := (List.range 5).map (fun i => if i = log then f (logOf l i) else logOf l i), logsChanged := true }

/-- R62, R68: the UUID of a record. -/
def uuidOf (log : Nat) (e : EventRec) : List Byte :=
  if e.code = evMedia then [0xfb, 0xcd, 0x0a, 0x77, 0xc2, 0x60, 0x41, 0x7f, 0x85, 0xa9, 0x08, 0x8b, 0x16, 0x21, 0xeb, 0xa6]
  else if log = 4 then [0xca, 0x95, 0xaf, 0xa7, 0xf1, 0x83, 0x40, 0x18, 0x8c, 0x2f, 0x95, 0x26, 0x8e, 0x10, 0x1a, 0x2a]
  else padTo 16 Config.vendorUuid

/-- R92, R4: a Dynamic Capacity event's data as the CXL Specification lays it out (PRESUMED): type, flags with More, and the
extent. -/
def dcData (e : EventRec) : List Byte :=
  toLe 1 e.p1 ++ zeros 4 ++ toLe 1 e.p2 ++ zeros 2 ++ toLe 8 e.dpa.toNat ++ toLe 8 e.len ++ zeros 24 ++ zeros 32

/-- The data part of a record: a DPA first in a General Media Event; the Cairn parameters of R107 in a vendor record. -/
def eventData (log : Nat) (e : EventRec) : List Byte :=
  if e.code = evMedia then toLe 8 e.dpa.toNat ++ openBytes 72 0x0100 0
  else if log = 4 then dcData e
  else toLe 4 e.p1 ++ toLe 4 e.p2 ++ toLe 4 e.p3 ++ toLe 4 e.p4 ++ toLe 4 e.code ++ zeros 4 ++ toLe 8 e.dpa.toNat ++ toLe 8 e.len ++ zeros 40

/-- An event record of 128 B. -/
def eventBytes (log : Nat) (e : EventRec) : List Byte :=
  uuidOf log e ++ [128, BitVec.ofNat 8 (min log 3), 0, 0] ++ toLe 2 e.handle ++ [0, 0] ++ toLe 8 e.ts ++ zeros 16 ++ eventData log e

/-- R68: whether a path may name a log: the Dynamic Capacity log is on CXL 3.1 ports only. -/
def logNamed (s : State) (p : Path) (log : Nat) : Bool :=
  decide (log < 4) || (log == 4 && (match pathLd s p with | some k => (port s (k / 17)).cxl == 0x31 | none => false))

/-- GET_EVENT_RECORDS (R68): every record of the log, oldest first. -/
def cmdGetEventRecords : Cmd :=
  { op := 0x0100, len := lenIs 1, body := fun p i s =>
      let log := fld i 0 1
      let l := logOf (match pathLd s p with | some k => ldAt s k | none => {}) log
      if !logNamed s p log then (rej 2 0x0D83 0, s)
      else ({ out := [if l.overflow then 1 else 0, 0] ++ toLe 2 (min 65535 l.dropped) ++ toLe 8 l.firstTs ++ toLe 8 l.lastTs ++
                toLe 2 l.recs.length ++ zeros 10 ++ l.recs.flatMap (eventBytes log) }, s) }
/-- GET_EVENT_RECORDS (R68). -/
def execGetEventRecords (p : Path) (input : List Byte) (s : State) : Out := runCmd cmdGetEventRecords p input s

/-- R68: clear some records; a log left empty loses its overflow and drop count. -/
def clearLog (keep : EventRec → Bool) (l : EventLog) : EventLog :=
  if (l.recs.filter keep).isEmpty then { l with recs := [], overflow := false, dropped := 0, firstTs := 0, lastTs := 0 }
  else { l with recs := l.recs.filter keep }

/-- CLEAR_EVENT_RECORDS (R68). -/
def cmdClearEventRecords : Cmd :=
  { op := 0x0101, len := fun l => decide (6 ≤ l.length) && l.length == 6 + 2 * fld l 2 1, rsvd := [(3, 3)], body := fun p i s =>
      let log := fld i 0 1
      let hs := (List.range (fld i 2 1)).map (fun n => fld i (6 + 2 * n) 2)
      match pathLd s p with
      | none => ({}, s)
      | some k =>
        let have_ := (logOf (ldAt s k) log).recs.map (·.handle)
        if !logNamed s p log then (rej 2 0x0D83 0, s)
        else if 2 ≤ fld i 1 1 then (rej 2 0x0D84 1, s)
        else if fld i 1 1 = 1 then ({}, modLd k (modLog log (clearLog (fun _ => false))) s)
        else match hs.findIdx? (fun h => !have_.contains h) with
          | some n => (rej 2 0x0D83 (6 + 2 * n), s)
          | none => ({}, modLd k (modLog log (clearLog (fun e => !hs.contains e.handle))) s) }
/-- CLEAR_EVENT_RECORDS (R68). -/
def execClearEventRecords (p : Path) (input : List Byte) (s : State) : Out := runCmd cmdClearEventRecords p input s

/-- GET_EVENT_INTERRUPT_POLICY (R67): zero for every log. -/
def cmdGetEventInterruptPolicy : Cmd := noInput 0x0102 (fun p s => zeros (if logNamed s p 4 then 5 else 4))
/-- GET_EVENT_INTERRUPT_POLICY (R67). -/
def execGetEventInterruptPolicy (p : Path) (input : List Byte) (s : State) : Out := runCmd cmdGetEventInterruptPolicy p input s

/-- SET_EVENT_INTERRUPT_POLICY (R67): a request for interrupts is Invalid Input. -/
def cmdSetEventInterruptPolicy : Cmd :=
  { op := 0x0103, len := fun l => l.length == 4 || l.length == 5, body := fun _ i s =>
      match i.findIdx? (fun b => b &&& 3 != 0) with
      | some n => (rej 2 0x0D83 n, s)
      | none => ({}, s) }
/-- SET_EVENT_INTERRUPT_POLICY (R67). -/
def execSetEventInterruptPolicy (p : Path) (input : List Byte) (s : State) : Out := runCmd cmdSetEventInterruptPolicy p input s

/-! ### Time and logs -/

/-- GET_TIMESTAMP (R407): TB. -/
def cmdGetTimestamp : Cmd := noInput 0x0300 (fun _ s => toLe 8 (tbNow s))
/-- GET_TIMESTAMP (R407). -/
def execGetTimestamp (p : Path) (input : List Byte) (s : State) : Out := runCmd cmdGetTimestamp p input s

/-- SET_TIMESTAMP (R407): no path may issue it. -/
def cmdSetTimestamp : Cmd := { op := 0x0301, len := fun _ => true, body := fun _ _ s => (rej 3 0x0D82, s) }
/-- SET_TIMESTAMP (R407): Unsupported. -/
def execSetTimestamp (p : Path) (input : List Byte) (s : State) : Out := runCmd cmdSetTimestamp p input s

/-- The Command Effects Log's UUID. -/
def celUuid : List Byte := [0x0d, 0xa9, 0xc0, 0xb5, 0xbf, 0x41, 0x4b, 0x78, 0x8f, 0x79, 0x96, 0xb1, 0x62, 0x3b, 0x3f, 0x17]

/-- R407: the Command Effects Log of a path: exactly the opcodes that it accepts. The effects are open, but for the
background bit. -/
def celOf (s : State) (p : Path) : List Byte :=
  (cmdTable.filter (fun c => c.frm.getLsbD (pathRole s p))).flatMap (fun c =>
    toLe 2 c.op ++ toLe 2 ((Config.free 0x0401 c.op) % 64 + (if c.bg then 64 else 0)))

/-- GET_SUPPORTED_LOGS (R407): the Command Effects Log only. -/
def cmdGetSupportedLogs : Cmd := noInput 0x0400 (fun p s => toLe 2 1 ++ zeros 6 ++ celUuid ++ toLe 4 (celOf s p).length)
/-- GET_SUPPORTED_LOGS (R407). -/
def execGetSupportedLogs (p : Path) (input : List Byte) (s : State) : Out := runCmd cmdGetSupportedLogs p input s

/-- GET_LOG (R407). -/
def cmdGetLog : Cmd :=
  { op := 0x0401, len := lenIs 24, body := fun p i s =>
      let l := celOf s p
      if bytesAt i 0 16 ≠ celUuid then (rej 2 0x0D83 0, s)
      else if l.length < fld i 16 4 + fld i 20 4 then (rej 2 0x0D83 16, s)
      else ({ out := bytesAt l (fld i 16 4) (fld i 20 4) }, s) }
/-- GET_LOG (R407). -/
def execGetLog (p : Path) (input : List Byte) (s : State) : Out := runCmd cmdGetLog p input s

/-! ### Capacity and health -/

/-- R89, R92: an LD's DPA capacity in legs. -/
def dpaLegs (m : LdMap) : Nat :=
  if m.typ ≠ .tenant then 0 else if m.dynamic then 65536 - m.dcBase else maxN (m.ranges.map (fun r => r.dpaLeg + r.count))

/-- R89, R92: the DPA capacity that an LD reports, in legs: none on an LD that maps no tenant partition. -/
def ldLegs (s : State) (k : Nat) : Nat := if tenantLd s k then dpaLegs (ldAt s k).map else 0

/-- The DPA capacity of a path's LD, in legs. -/
def pathLegs (s : State) (p : Path) : Nat := match pathLd s p with | some k => ldLegs s k | none => 0

/-- IDENTIFY_MEMORY_DEVICE (R408). -/
def cmdIdentifyMemoryDevice : Cmd := noInput 0x4000 (fun p s =>
  padTo 16 (toLe 4 s.boot.version) ++ toLe 8 (4 * pathLegs s p) ++ zeros 8 ++ toLe 8 (4 * pathLegs s p) ++ zeros 8 ++
  toLe 2 64 ++ toLe 2 64 ++ toLe 2 64 ++ toLe 2 16 ++ zeros 4 ++ toLe 3 256 ++ toLe 2 8 ++ openBytes 2 0x4000 0 ++
  (if logNamed s p 4 then toLe 2 128 else []))
/-- IDENTIFY_MEMORY_DEVICE (R408). -/
def execIdentifyMemoryDevice (p : Path) (input : List Byte) (s : State) : Out := runCmd cmdIdentifyMemoryDevice p input s

/-- GET_PARTITION_INFO (R407): all capacity persistent. -/
def cmdGetPartitionInfo : Cmd := noInput 0x4100 (fun p s => zeros 8 ++ toLe 8 (4 * pathLegs s p) ++ zeros 16)
/-- GET_PARTITION_INFO (R407). -/
def execGetPartitionInfo (p : Path) (input : List Byte) (s : State) : Out := runCmd cmdGetPartitionInfo p input s

/-- R410: Health Status bits. -/
def healthStatus (s : State) : Nat :=
  (if s.health.st = 1 then 1 else 0) +
  (if s.therm.fH < 1024 ∨ (serving s).any (fun c => decide ((chan s c).fW < 1024)) then 2 else 0) + (if s.health.st = 4 then 4 else 0)

/-- R410: Media Status. -/
def mediaStatus (s : State) : Nat := if s.health.st = 6 then 1 else if 3 ≤ s.health.st ∧ s.health.st ≤ 5 then 2 else 0

/-- R410: the junction temperature in °C; open before the first reading. -/
def tempC (s : State) : Int := match s.therm.tj with | some t => t / 16 | none => Config.free 0x4200 0

/-- GET_HEALTH_INFO (R410). Additional Status shows the alerts that hold. -/
def cmdGetHealthInfo : Cmd := noInput 0x4200 (fun p s =>
  let l := match pathLd s p with | some k => ldAt s k | none => {}
  let a := alertsNow s l
  [BitVec.ofNat 8 (healthStatus s), BitVec.ofNat 8 (mediaStatus s),
   BitVec.ofNat 8 ((if a.getLsbD 0 then 1 else 0) + (if a.getLsbD 1 || a.getLsbD 2 then 4 else 0)), BitVec.ofNat 8 (lifeUsed s)] ++
  toLeI 2 (tempC s) ++ toLe 4 s.sad.img.boot.dirtyShutdowns ++ toLe 4 s.cache.cleanErrs ++ toLe 4 s.health.recovered)
/-- GET_HEALTH_INFO (R410). -/
def execGetHealthInfo (p : Path) (input : List Byte) (s : State) : Out := runCmd cmdGetHealthInfo p input s

/-- GET_ALERT_CONFIGURATION (R407): the critical thresholds are open. -/
def cmdGetAlertConfiguration : Cmd := noInput 0x4201 (fun p s =>
  let l := match pathLd s p with | some k => ldAt s k | none => {}
  [l.alertValid, 7] ++ openBytes 1 0x4201 0 ++ toLe 1 l.alertLife ++ openBytes 4 0x4201 1 ++ toLeI 2 l.alertTemp ++
  toLeI 2 l.alertUnder ++ zeros 4)
/-- GET_ALERT_CONFIGURATION (R407). -/
def execGetAlertConfiguration (p : Path) (input : List Byte) (s : State) : Out := runCmd cmdGetAlertConfiguration p input s

/-- A signed 16-bit field. -/
def fldI16 (l : List Byte) (off : Nat) : Int := (BitVec.ofNat 16 (fld l off 2)).toInt

/-- R407: the alerts that a Set Alert Configuration names take their thresholds, and are enabled or disabled. -/
def setAlerts (i : List Byte) (l : Ld) : Ld :=
  let v := BitVec.ofNat 8 (fld i 0 1)
  { l with alertValid := (l.alertValid &&& ~~~v) ||| (BitVec.ofNat 8 (fld i 1 1) &&& v)
           alertLife := if v.getLsbD 0 then fld i 2 1 else l.alertLife
           alertTemp := if v.getLsbD 1 then fldI16 i 4 else l.alertTemp
           alertUnder := if v.getLsbD 2 then fldI16 i 6 else l.alertUnder }

/-- SET_ALERT_CONFIGURATION (R407): life-used and device-temperature thresholds. -/
def cmdSetAlertConfiguration : Cmd :=
  { op := 0x4202, len := lenIs 12, rsvd := [(3, 1)], body := fun p i s =>
      if 8 ≤ fld i 0 1 then (rej 2 0x0D83 0, s)
      else if 8 ≤ fld i 1 1 then (rej 2 0x0D83 1, s)
      else match pathLd s p with
        | some k => ({}, modLd k (setAlerts i) s)
        | none => ({}, s) }
/-- SET_ALERT_CONFIGURATION (R407). -/
def execSetAlertConfiguration (p : Path) (input : List Byte) (s : State) : Out := runCmd cmdSetAlertConfiguration p input s

/-- GET_SHUTDOWN_STATE (R407). -/
def cmdGetShutdownState : Cmd := noInput 0x4203 (fun p s =>
  toLe 1 (match pathLd s p with | some k => (ldAt s k).shutdown | none => 0))
/-- GET_SHUTDOWN_STATE (R407). -/
def execGetShutdownState (p : Path) (input : List Byte) (s : State) : Out := runCmd cmdGetShutdownState p input s

/-- SET_SHUTDOWN_STATE (R407): stored per LD; the Dirty Shutdown Count is not affected (R356). -/
def cmdSetShutdownState : Cmd :=
  { op := 0x4204, len := lenIs 1, body := fun p i s => match pathLd s p with
      | some k => ({}, modLd k (fun l => { l with shutdown := fld i 0 1 }) s)
      | none => ({}, s) }
/-- SET_SHUTDOWN_STATE (R407). -/
def execSetShutdownState (p : Path) (input : List Byte) (s : State) : Out := runCmd cmdSetShutdownState p input s

/-! ### Poison (R408, R409) -/

/-- R408: the entries of an LD's poison list; an injected parcel that the device has also found is one entry. -/
def poisonEnts (l : Ld) : List PoisonEnt :=
  l.poisonList.filter (fun e => !e.injected ||
    !l.poisonList.any (fun f => !f.injected && decide (f.dpa ≤ e.dpa) && decide (e.dpa < f.dpa + f.len)))

/-- R408: the entries that meet a DPA range, cut to it. -/
def poisonIn (l : Ld) (lo hi : Nat) : List PoisonEnt :=
  ((poisonEnts l).filter (fun e => decide (e.dpa < hi) && decide (lo < e.dpa + e.len))).map (fun e =>
    { e with dpa := max lo e.dpa, len := min hi (e.dpa + e.len) - max lo e.dpa })

/-- R407: the source of an entry, in the low bits of its address (PRESUMED: the CXL Specification's codes, 2 internal and
3 injected). -/
def poisonSource (e : PoisonEnt) : Nat := if e.injected then 3 else 2

/-- GET_POISON_LIST (R408): at most 256 entries, with the overflow indication beyond that. -/
def cmdGetPoisonList : Cmd :=
  { op := 0x4300, len := lenIs 16, body := fun p i s =>
      let l := match pathLd s p with | some k => ldAt s k | none => {}
      let es := poisonIn l (fld i 0 8) (fld i 0 8 + 64 * fld i 8 8)
      let ovf := decide (256 < (poisonEnts l).length)
      ({ out := [if ovf then 2 else 0, 0] ++ openBytes 8 0x4300 0 ++ toLe 2 (min 256 es.length) ++ zeros 20 ++
          (es.take 256).flatMap (fun e => toLe 8 (e.dpa / 64 * 64 + poisonSource e) ++ toLe 4 (e.len / 64) ++ zeros 4) }, s) }
/-- GET_POISON_LIST (R408). -/
def execGetPoisonList (p : Path) (input : List Byte) (s : State) : Out := runCmd cmdGetPoisonList p input s

/-- A write that a command makes: it holds no tag, and its completion is not sent (R408). -/
def cmdWrite (k lpn sector : Nat) (w : WrData) (s : State) : Req :=
  { port := k / 17, ld := k % 17, tag := 0, op := .wr, dpa := 0, lpn := lpn, sector := sector, part := (ldAt s k).map.part, wr := w
    stamp := tbNow s, tagKind := .none, health := s.health.st, counted := false }

/-- R408: parcels that an LD holds injected. -/
def injectedOf (l : Ld) : List Nat := (l.poisonList.filter (·.injected)).map (·.dpa)

/-- INJECT_POISON (R408, R409). -/
def cmdInjectPoison : Cmd :=
  { op := 0x4301, len := lenIs 8, body := fun p i s => match pathLd s p with
      | none => ({}, s)
      | some k =>
        let d := fld i 0 8 / 256 * 256
        let m := (ldAt s k).map
        match rangeLpn s 0 (some k) d with
        | none => (rej 0xF 0 0, s)
        | some lpn =>
          if !(m.opcodes.getLsbD 2 && m.opcodes.getLsbD 6) then (rej 2 0x0289, s)
          else if !(injectedOf (ldAt s k)).contains d ∧ 8 ≤ (injectedOf (ldAt s k)).length then (rej 0x10 0, s)
          else
            let t := writeAccess (cmdWrite k lpn 0 { data := 0, poison := true } s) [] s
            ({}, if (injectedOf (ldAt s k)).contains d then t
              else modLd k (fun l => { l with poisonList := l.poisonList ++ [{ dpa := d, len := 256, injected := true }] }) t) }
/-- INJECT_POISON (R408). -/
def execInjectPoison (p : Path) (input : List Byte) (s : State) : Out := runCmd cmdInjectPoison p input s

/-- R46, R62, R63: whether a parcel is poisoned where a fill would read it. -/
def poisonBelow (s : State) (lpn : Nat) : Bool :=
  match wbOf s lpn with
  | some w => w.poison
  | none => match lookup s lpn with
    | .zeros => false
    | .poison => true
    | .at_ ppa => lostParcel s lpn || !served s ppa || (match tget s.medium.cells ppa with | some w => metaPoison w.mdat | none => true) ||
        listed s lpn

/-- R46, R62, R63: whether a parcel is poisoned: by its line, or beneath a line that does not hold all of it, since a
partial overwrite leaves a parcel poisoned. -/
def isPoisoned (s : State) (lpn : Nat) : Bool :=
  match findWay s lpn with
  | some k => (lineAt s k).poison || ((lineAt s k).valid != 15 && poisonBelow s lpn)
  | none => poisonBelow s lpn

/-- R408: the four writes of a Clear Poison on a poisoned parcel, or the one on another. -/
def clearWrites (k lpn sec : Nat) (d : Sector) (s : State) : List Req :=
  if isPoisoned s lpn then (List.range 4).map (fun j => cmdWrite k lpn j { data := if j = sec then d else 0 } s)
  else [cmdWrite k lpn sec { data := d } s]

/-- CLEAR_POISON (R408, R409). -/
def cmdClearPoison : Cmd :=
  { op := 0x4302, len := lenIs 72, body := fun p i s => match pathLd s p with
      | none => ({}, s)
      | some k =>
        let dpa := fld i 0 8
        match rangeLpn s 0 (some k) dpa with
        | none => (rej 0xF 0 0, s)
        | some lpn =>
          if !(ldAt s k).map.opcodes.getLsbD 2 then (rej 2 0x0289, s)
          else
            let ws := clearWrites k lpn (sectorOf dpa) (BitVec.ofNat 512 (fld i 8 64)) s
            ({}, meter (ldAt s k).map.part (fun m => { m with writeBytes := m.writeBytes + 64, writeOps := m.writeOps + 1 })
              (forAll ws (fun r t => writeAccess r [] t) s)) }
/-- CLEAR_POISON (R408). -/
def execClearPoison (p : Path) (input : List Byte) (s : State) : Out := runCmd cmdClearPoison p input s

/-! ### LD information -/

/-- R53: the LD-IDs of a port: its trained LD_COUNT, or that of the configuration while it is down. -/
def ldsOn (s : State) (p : Nat) : Nat :=
  let e := if (port s p).up then (port s p).ent else tgetD (governing s).ports p {}
  let mld := if (port s p).up then isMld (port s p) else e.mld
  if mld then e.ldCount else 1

/-- Whether a port runs, or is configured, as MLD. -/
def portMld (s : State) (p : Nat) : Bool := if (port s p).up then isMld (port s p) else (tgetD (governing s).ports p {}).mld

/-- GET_LD_INFO (R407): the LD count of the named MLD port. -/
def cmdGetLdInfo : Cmd :=
  { op := 0x5400, len := lenIs 1, body := fun _ i s =>
      if !portMld s (fld i 0 1) then (rej 2 0x0D83 0, s)
      else ({ out := openBytes 8 0x5400 0 ++ toLe 2 (ldsOn s (fld i 0 1)) ++ openBytes 1 0x5400 1 }, s) }
/-- GET_LD_INFO (R407). -/
def execGetLdInfo (p : Path) (input : List Byte) (s : State) : Out := runCmd cmdGetLdInfo p input s

/-- GET_LD_ALLOCATIONS (R407): each LD's DPA capacity in 1 GiB units. -/
def cmdGetLdAllocations : Cmd :=
  { op := 0x5401, len := lenIs 3, body := fun _ i s =>
      let p := fld i 0 1
      let n := min (ldsOn s p - fld i 1 1) (fld i 2 1)
      if !portMld s p then (rej 2 0x0D83 0, s)
      else ({ out := toLe 1 (ldsOn s p) ++ [2] ++ toLe 1 (fld i 1 1) ++ toLe 1 n ++
                (List.range n).flatMap (fun j => toLe 8 (ldLegs s (ldKey p (fld i 1 1 + j))) ++ zeros 8) }, s) }
/-- GET_LD_ALLOCATIONS (R407). -/
def execGetLdAllocations (p : Path) (input : List Byte) (s : State) : Out := runCmd cmdGetLdAllocations p input s

end Sys2Proof.Machine
end

