-- ==== Sys2Proof/Machine/CmdTenant.lean ====
section
/-! DEFINITION. Families 0xC0xx and 0xC1xx (R412 to R415) and dynamic capacity (R92 to R94): configuration, identity,
health, partitions, legs, LD maps, contracts, shares, freezes and THAW. -/

namespace Sys2Proof.Machine

/-! ### Operands (R91, R411) -/

/-- R55: the management LD; none exists while the port that MGMT_PORT names is down. -/
def mgmtLdOf (s : State) : Option Nat := mgmtKey s

/-- R91, R411: the LD that two payload bytes name, or the offset of the wrong byte. -/
def ldOperand (s : State) (i : List Byte) : Except Nat Nat :=
  let p := fld i 0 1
  let l := fld i 1 1
  if 32 ≤ p then .error 0
  else if l = 0xFF then (if mgmtLdOf s = some (ldKey p 16) then .ok (ldKey p 16) else .error 1)
  else if 16 ≤ l then .error 1 else .ok (ldKey p l)

/-- R411: whether a path may name an LD: a tenant LD only itself. -/
def ownsLd (s : State) (p : Path) (k : Nat) : Bool := pathRole s p != 0 || pathLd s p == some k

/-- R411: whether a path may name a partition: a tenant LD only the one it maps. -/
def ownsPart (s : State) (p : Path) (part : Nat) : Bool :=
  pathRole s p != 0 || (match pathLd s p with | some k => tenantLd s k && (ldAt s k).map.part == part | none => false)

/-- A signed 16-bit reading in 1/16 °C, 0x8000 for none (R418). -/
def reading (t : Option Int) : List Byte := match t with | some x => toLeI 2 x | none => toLe 2 0x8000

/-! ### Family 0xC0xx -/

/-- R549: the code of a life-cycle state. -/
def lifeCode : Life → Nat
  | .blank => 0 | .provision => 1 | .production => 2 | .ret => 3 | .scrapped => 4

/-- GET_DEVICE_INFO (R412). -/
def cmdGetDeviceInfo : Cmd := noInput 0xC000 (fun _ s =>
  toLe 2 0x1D7E ++ toLe 2 0x1280 ++ [0, 2, 1] ++ toLe 1 (lifeCode s.keeper.life) ++ toLe 16 Config.unitId.toNat ++ toLe 4 s.boot.version ++
  toLe 4 s.boot.secVersion ++ toLe 4 (maxLegs s) ++ toLe 4 (freeLegs s) ++
  toLe 2 (s.sad.img.parts.filter (fun p => p.2.st = .active)).length ++ toLe 1 (s.ports.ports.filter (fun p => p.2.up)).length ++
  toLe 1 s.health.st ++ zeros 20)
/-- GET_DEVICE_INFO (R412). -/
def execGetDeviceInfo (p : Path) (input : List Byte) (s : State) : Out := runCmd cmdGetDeviceInfo p input s

/-- R54: what is wrong with the entry of a port, as (byte within the entry, detail). -/
def portEntBad (i : List Byte) (n p : Nat) : Option (Nat × Nat) :=
  let o := 12 + 4 * p
  let b := fun (j : Nat) => fld i (o + j) 1
  if n ≤ p then ((List.range 4).find? (fun j => b j ≠ 0)).map (fun j => (o + j, 0x0180))
  else if b 0 < 4 ∨ 6 < b 0 then some (o, 0x0D83)
  else if b 1 ≠ 0x11 ∧ b 1 ≠ 0x20 ∧ b 1 ≠ 0x31 then some (o + 1, 0x0D83)
  else if 2 ≤ b 2 then some (o + 2, 0x0D83)
  else if b 2 = 1 ∧ b 1 = 0x11 then some (o + 2, 0x0180)
  else if b 3 = 0 then some (o + 3, 0x0D83)
  else if (b 2 = 0 ∧ 1 < b 3) ∨ 16 < b 3 then some (o + 3, 0x0180) else none

/-- R54: the first offending byte of a SET_PORT_CONFIG input, with its detail. -/
def portCfgBad (i : List Byte) : Option (Nat × Nat) :=
  let ms := (List.range 8).map (fun g => fld i g 1)
  let n := portCount ms
  match ms.findIdx? (fun m => decide (3 < m)) with
  | some g => some (g, 0x0D83)
  | none =>
    let mg := fld i 9 1
    if mg ≠ 0xFF ∧ (n ≤ mg ∨ fld i (12 + 4 * mg + 1) 1 = 0x11) then some (9, 0x0180)
    else ids32.findSome? (portEntBad i n)

/-- R53, R412: the record of a SET_PORT_CONFIG input. -/
def portCfgOf (i : List Byte) : PortCfg :=
  let ms := (List.range 8).map (fun g => fld i g 1)
  { groupMode := ms, clk := BitVec.ofNat 8 (fld i 8 1), mgmt := if fld i 9 1 = 0xFF then none else some (fld i 9 1)
    ports := (List.range (portCount ms)).map (fun p => (p, { maxGen := fld i (12 + 4 * p) 1, maxCxl := fld i (13 + 4 * p) 1,
                                                              mld := fld i (14 + 4 * p) 1 == 1, ldCount := fld i (15 + 4 * p) 1 })) }

/-- SET_PORT_CONFIG (R53, R54). -/
def cmdSetPortConfig : Cmd :=
  { op := 0xC001, len := lenIs 140, rsvd := [(10, 2)], body := fun _ i s => match portCfgBad i with
      | some (o, d) => (rej 2 d o, s)
      | none => ({ recs := [rk 1 0] }, modImg [rk 1 0] (fun m => { m with portCfg := portCfgOf i }) s) }
/-- SET_PORT_CONFIG (R54). -/
def execSetPortConfig (p : Path) (input : List Byte) (s : State) : Out := runCmd cmdSetPortConfig p input s

/-- R412: the stored port record in the SET_PORT_CONFIG layout. -/
def portCfgBytes (c : PortCfg) : List Byte :=
  c.groupMode.flatMap (toLe 1) ++ [c.clk] ++ toLe 1 (c.mgmt.getD 0xFF) ++ zeros 2 ++
  ids32.flatMap (fun p => if p < portCount c.groupMode then
    let e := tgetD c.ports p {}
    toLe 1 e.maxGen ++ toLe 1 e.maxCxl ++ [if e.mld then 1 else 0] ++ toLe 1 e.ldCount else zeros 4)

/-- GET_PORT_CONFIG (R412). -/
def cmdGetPortConfig : Cmd := noInput 0xC002 (fun _ s =>
  portCfgBytes s.sad.img.portCfg ++ ids32.flatMap (fun p =>
    let x := port s p
    [if x.up then 1 else 0] ++ toLe 1 x.gen ++ toLe 1 x.width ++ toLe 1 x.cxl))
/-- GET_PORT_CONFIG (R412). -/
def execGetPortConfig (p : Path) (input : List Byte) (s : State) : Out := runCmd cmdGetPortConfig p input s

/-- SET_STAGE_CONFIG (R130). -/
def cmdSetStageConfig : Cmd :=
  { op := 0xC003, len := lenIs 4, rsvd := [(1, 3)], body := fun _ i s =>
      let k := fld i 0 1
      if k < 1 ∨ 8 < k then (rej 2 0x0D83 0, s)
      else ({ recs := [rk 2 0], done := .stageCfg k }, modImg [rk 2 0] (fun m => { m with maintShare := k }) s) }
/-- SET_STAGE_CONFIG (R130). -/
def execSetStageConfig (p : Path) (input : List Byte) (s : State) : Out := runCmd cmdSetStageConfig p input s

/-- GET_STAGE_CONFIG (R412). -/
def cmdGetStageConfig : Cmd := noInput 0xC004 (fun _ s =>
  toLe 1 s.planner.maintShare ++ toLe 1 s.planner.maintPending ++ zeros 2 ++ toLe 4 s.planner.lastMisses ++
  toLe 4 s.planner.templateReg.toNat ++ zeros 4)
/-- GET_STAGE_CONFIG (R412). -/
def execGetStageConfig (p : Path) (input : List Byte) (s : State) : Out := runCmd cmdGetStageConfig p input s

/-- The highest reading of some. -/
def highest (l : List (Option Int)) : Option Int :=
  l.foldl (fun m x => match m, x with | none, y => y | y, none => y | some a, some b => some (max a b)) none

/-- GET_HEALTH (R412, R413). -/
def cmdGetHealth : Cmd := noInput 0xC005 (fun _ s =>
  toLe 1 s.health.st ++ [0] ++ toLe 2 s.health.conds.toNat ++ toLe 1 (onlineSlices s.cache.online).length ++ toLe 1 (sparePct s) ++ zeros 2 ++
  toLe 4 (bitmapOf (serving s)) ++
  toLe 4 (bitmapOf (ids32.filter (fun c => (chan s c).st = .failed ∨ (chan s c).st = .absent ∨ (chan s c).st = .unsupported))) ++
  reading s.therm.tj ++ reading (highest ((serving s).map (fun c => (chan s c).tMax))) ++ toLe 4 (s.belay.e / 20000000000) ++ toLe 4 (dirtyLimit s) ++
  zeros 4)
/-- GET_HEALTH (R413). -/
def execGetHealth (p : Path) (input : List Byte) (s : State) : Out := runCmd cmdGetHealth p input s

/-- R400: VND_MB_XSTATUS of a context. -/
def xstatus (m : Mailbox) : BitVec 32 :=
  BitVec.ofBool m.xValid ++ BitVec.ofBool m.xRecall ++ BitVec.ofBool m.xBivouac ++ BitVec.ofBool m.xFrozen ++ BitVec.ofNat 12 m.xOffset ++
    BitVec.ofNat 16 m.xDetail

/-- GET_LAST_XSTATUS (R400, R412): that of the previous MCTP completion. The bits of the command under way are those of
the previous one until it completes. -/
def cmdGetLastXstatus (prev : BitVec 32) : Cmd := noInput 0xC006 (fun _ _ => toLe 4 prev.toNat)
/-- GET_LAST_XSTATUS (R400). -/
def execGetLastXstatus (p : Path) (input : List Byte) (s : State) : Out := runCmd (cmdGetLastXstatus (xstatus s.mctp)) p input s

/-! ### Partitions (R81 to R86) -/

/-- R133: the sum of the shares of the ACTIVE partitions but one. -/
def shareSum (s : State) (butPart : Nat) : Nat :=
  sumN ((s.sad.img.parts.filter (fun p => p.2.st = .active ∧ p.1 ≠ butPart)).map (fun p => p.2.readShare + p.2.writeShare))

/-- CREATE_PARTITION (R81, R133, R205, R209, R379). -/
def cmdCreatePartition : Cmd :=
  { op := 0xC100, len := lenIs 8, rsvd := [(3, 1)], body := fun _ i s =>
      let part := fld i 0 2
      let r : PartRec := { fastOnly := fld i 2 1 == 1, readShare := fld i 4 2, writeShare := fld i 6 2 }
      if 1024 ≤ part then (rej 2 0x0D84 0, s)
      else if 2 ≤ fld i 2 1 then (rej 2 0x0D83 2, s)
      else if (partRec s part).isSome then (rej 2 0x0280 0, s)
      else if tget s.gate.freedMinute part = some s.reck.openBank.minute then (rej 6 0x0281 0, s)
      else if 896 < shareSum s part + r.readShare + r.writeShare then (rej 2 0x0480 4, s)
      else
        let k := newKeys 0 s
        ({ recs := [rk 3 part, rk 7 part], done := .slot part k (r.readShare, r.writeShare) },
         meter part id (modImg [rk 3 part] (fun m => { m with parts := tset m.parts part r }) (wrapNew part part 0 s))) }
/-- CREATE_PARTITION (R81). -/
def execCreatePartition (p : Path) (input : List Byte) (s : State) : Out := runCmd cmdCreatePartition p input s

/-- R85, R86: whether an LD range maps a position of a partition, or any when none is named. -/
def rangeMaps (s : State) (part : Nat) (pos : Option Nat) : Bool :=
  let hit := fun (m : LdMap) => m.typ == .tenant && m.part == part && m.ranges.any (fun r => match pos with
    | some q => decide (r.pos ≤ q) && decide (q < r.pos + r.count) | none => true)
  s.sad.img.ldMaps.any (fun p => hit p.2) || s.ports.lds.any (fun p => hit p.2.map)

/-- DELETE_PARTITION (R86, R248): the partition enters DEPARTING; the erase goes on as its commits complete. -/
def cmdDeletePartition : Cmd :=
  { op := 0xC101, len := lenIs 2, body := fun _ i s =>
      let part := fld i 0 2
      if 1024 ≤ part then (rej 2 0x0D84 0, s)
      else if !isActive s part then (rej 2 0x0280 0, s)
      else if rangeMaps s part none then (rej 2 0x0282 0, s)
      else
        let legs := (positions s part).map (·.2)
        ({ job := some (.deletePart part legs (wrapsOf s part).length (tbNow s)) },
         dropCredits (modImg [rk 3 part] (fun m => { m with parts := tmod m.parts part {} (fun r => { r with st := .departing }) }) s)) }
/-- DELETE_PARTITION (R86). -/
def execDeletePartition (p : Path) (input : List Byte) (s : State) : Out := runCmd cmdDeletePartition p input s

/-- The positions of an ADD_LEGS or REMOVE_LEGS input. -/
def posList (i : List Byte) : List Nat := (List.range (fld i 2 2)).map (fun k => fld i (4 + 2 * k) 2)

/-- R84, R85: the first entry that fails a test or repeats an earlier one, with its detail. -/
def badEntry (bad : Nat → Option Nat) : List Nat → List Nat → Nat → Option (Nat × Nat)
  | [], _, _ => none
  | p :: ps, seen, k =>
    if seen.contains p then some (4 + 2 * k, 0x0D83)
    else match bad p with
      | some d => some (4 + 2 * k, d)
      | none => badEntry bad ps (p :: seen) (k + 1)

/-- The length of an ADD_LEGS or REMOVE_LEGS input. -/
def legsLen (l : List Byte) : Bool := decide (4 ≤ l.length) && l.length == 4 + 2 * fld l 2 2

/-- R84, R92: put free legs in positions: the new runs with the legs, or why not. -/
def placeLegs (s : State) (part : Nat) (ps : List Nat) : Except Reply (List Nat × Tbl LegRun) :=
  if freeLegs s < ps.length * legCost s part then .error (rej 0x1D 0x0284)
  else match fillPositions s part ps s.freeCtr s.sad.img.runs with
    | some x => .ok x
    | none => .error (rej 0x1D 0x1082)

/-- ADD_LEGS (R84). -/
def cmdAddLegs : Cmd :=
  { op := 0xC102, len := legsLen, body := fun _ i s =>
      let part := fld i 0 2
      let ps := posList i
      if 1024 ≤ part then (rej 2 0x0D84 0, s)
      else if !isActive s part then (rej 2 0x0280 0, s)
      else if fld i 2 2 < 1 ∨ 1024 < fld i 2 2 then (rej 2 0x0D83 2, s)
      else match badEntry (fun q => if (legAt s.sad.img.runs part q).isSome then some 0x0283 else none) ps [] 0 with
        | some (o, d) => (rej 2 d o, s)
        | none => match placeLegs s part ps with
          | .error r => (r, s)
          | .ok (legs, runs) =>
            ({ out := toLe 2 ps.length ++ zeros 2 ++ legs.flatMap (toLe 4), recs := runRecs s.sad.img.runs runs }, setRuns runs (drawn s)) }
/-- ADD_LEGS (R84). -/
def execAddLegs (p : Path) (input : List Byte) (s : State) : Out := runCmd cmdAddLegs p input s

/-- R85: why a position cannot be removed. -/
def removeBad (s : State) (part q : Nat) : Option Nat :=
  if rangeMaps s part (some q) then some 0x0282 else if (legAt s.sad.img.runs part q).isNone then some 0x0D83 else none

/-- REMOVE_LEGS (R85): the positions are emptied; the removal goes on as its commits complete. -/
def cmdRemoveLegs : Cmd :=
  { op := 0xC103, len := legsLen, body := fun _ i s =>
      let part := fld i 0 2
      let ps := posList i
      if 1024 ≤ part then (rej 2 0x0D84 0, s)
      else if !isActive s part then (rej 2 0x0280 0, s)
      else if fld i 2 2 < 1 ∨ 1024 < fld i 2 2 then (rej 2 0x0D83 2, s)
      else match badEntry (removeBad s part) ps [] 0 with
        | some (o, d) => (rej 2 d o, s)
        | none => ({ job := some (.removeLegs (ps.filterMap (legAt s.sad.img.runs part))) }, emptyPositions part ps s) }
/-- REMOVE_LEGS (R85). -/
def execRemoveLegs (p : Path) (input : List Byte) (s : State) : Out := runCmd cmdRemoveLegs p input s

/-- The code of a partition's state (R414). -/
def partCode (s : State) (part : Nat) : Nat := match partRec s part with
  | none => 0 | some r => match r.st with | .active => 1 | .departing => 2

/-- R414: the occupancy bitmap of a partition. -/
def occupancy (s : State) (part : Nat) : List Byte :=
  let ps := (positions s part).map (·.1)
  (List.range 8192).map (fun b => if ps.any (fun q => q / 8 == b) then
    (List.range 8).foldl (fun (m : Byte) j => if ps.contains (8 * b + j) then m ||| bit1 j else m) 0 else 0)

/-- GET_PARTITION (R414). -/
def cmdGetPartition : Cmd :=
  { op := 0xC104, len := lenIs 2, body := fun p i s =>
      let part := fld i 0 2
      let r := (partRec s part).getD {}
      let n := (positions s part).length
      if 1024 ≤ part then (rej 2 0x0D84 0, s)
      else if !ownsPart s p part then (rej 2 0x0287 0, s)
      else ({ out := toLe 2 part ++ toLe 1 (partCode s part) ++ [if r.fastOnly then 1 else 0] ++ toLe 2 r.keyGen.toNat ++ toLe 2 r.readShare ++
                toLe 2 r.writeShare ++ toLe 2 n ++ toLe 4 (n * legCost s part) ++ toLe 4 (ldsOfPart s part).length ++ zeros 4 ++ occupancy s part }, s) }
/-- GET_PARTITION (R414). -/
def execGetPartition (p : Path) (input : List Byte) (s : State) : Out := runCmd cmdGetPartition p input s

/-- GET_PARTITION_LIST (R414). -/
def cmdGetPartitionList : Cmd := noInput 0xC10C (fun _ s => (List.range 1024).flatMap (fun n => toLe 1 (partCode s n)))
/-- GET_PARTITION_LIST (R414). -/
def execGetPartitionList (p : Path) (input : List Byte) (s : State) : Out := runCmd cmdGetPartitionList p input s

/-! ### LD maps and contracts (R87 to R100) -/

/-- The ranges of a SET_LD_MAP input. -/
def rangesOf (i : List Byte) : List Range :=
  (List.range (fld i 8 1)).map (fun k => { dpaLeg := fld i (16 + 8 * k) 4, count := fld i (20 + 8 * k) 2, pos := fld i (22 + 8 * k) 2 })

/-- Whether two ranges overlap in DPA. -/
def rangesMeet (a b : Range) : Bool := decide (a.dpaLeg < b.dpaLeg + b.count) && decide (b.dpaLeg < a.dpaLeg + a.count)

/-- R88: the offset of the first offending field of a range. -/
def rangeBad (rs : List Range) (k : Nat) : Option Nat :=
  match rs[k]? with
  | none => none
  | some r =>
    if r.count = 0 then some (20 + 8 * k)
    else if (rs.take k).any (rangesMeet r) then some (16 + 8 * k)
    else if 65536 < r.pos + r.count then some (22 + 8 * k) else none

/-- R88, R415: the offset of the first field for which a map record is rejected. -/
def ldMapBad (s : State) (k : Nat) (i : List Byte) : Option Nat :=
  let rs := rangesOf i
  let typ := fld i 2 1
  if (mgmtLdOf s = some k) ≠ (typ = 2) then some 2
  else if typ = 1 ∧ !isActive s (fld i 4 2) then some 4
  else if rs ≠ [] ∧ (typ ≠ 1 ∨ fld i 3 1 = 1) then some 8
  else (List.range rs.length).findSome? (rangeBad rs)

/-- R87: the map record of a SET_LD_MAP input; a DYNAMIC LD keeps the ranges of its accepted extents. -/
def ldMapOf (old : LdMap) (i : List Byte) : LdMap :=
  let dyn := fld i 3 1 == 1
  { old with
    typ := if fld i 2 1 = 1 then .tenant else if fld i 2 1 = 2 then .management else .unmapped
    part := if fld i 2 1 = 1 then fld i 4 2 else 0, dynamic := dyn, dcBase := if dyn then fld i 6 2 else 0
    ranges := if dyn && old.dynamic && old.part == fld i 4 2 && old.dcBase == fld i 6 2 then old.ranges else rangesOf i }

/-- R459: a block of n places from a, free of the blocks of other LDs. -/
def blockFree (used : List (Nat × Nat)) (n a : Nat) : Bool :=
  decide (a + n ≤ 4096) && used.all (fun u => decide (a + n ≤ u.1) || decide (u.1 + u.2 ≤ a))

/-- R459: where n ranges of an LD go: where they are, or the lowest block that is free. -/
def rangePlace (g : SadImage) (inst n : Nat) : Option Nat :=
  let used := (g.ldMaps.filter (fun p => p.1 ≠ inst ∧ p.2.ranges ≠ [])).map (fun p => (p.2.first, p.2.ranges.length))
  let at' := (tgetD g.ldMaps inst {}).first
  if n = 0 then some 0
  else if blockFree used n at' then some at' else ((0 :: used.map (fun u => u.1 + u.2)).filter (blockFree used n)).min?

/-- R459: every LD's ranges in one sequence. -/
def packRanges (t : Tbl LdMap) : Tbl LdMap :=
  (t.foldl (fun (a : Nat × Tbl LdMap) p => (a.1 + p.2.ranges.length, a.2 ++ [(p.1, { p.2 with first := a.1 })])) (0, [])).2

/-- R459: an LD_MAP instance takes a map; its ranges have a block of their own. DESIGN CHOICE: which block (log 87). -/
def withMap (inst : Nat) (m : LdMap) (g : SadImage) : SadImage :=
  match rangePlace g inst m.ranges.length with
  | some a => { g with ldMaps := tset g.ldMaps inst { m with first := a } }
  | none => { g with ldMaps := packRanges (tset g.ldMaps inst m) }

/-- R459: the LD_MAP and RANGES records in which two images differ. -/
def mapRecs (a b : SadImage) : List Nat :=
  ((tkeys a.ldMaps ++ tkeys b.ldMaps).filter (fun i => recBody a (rk 5 i) ≠ recBody b (rk 5 i))).eraseDups.map (rk 5) ++
  ((List.range 64).filter (fun i => slice (rangeEnts a) 64 i ≠ slice (rangeEnts b) 64 i)).map (rk 6)

/-- R462: the working SRAM's LD maps change; their records are dirty. -/
def setMaps (f : SadImage → SadImage) (s : State) : State := modImg (mapRecs s.sad.img (f s.sad.img)) f s

/-- R460: the ranges that the LD_MAP records hold, but one. -/
def rangeTotal (s : State) (but : Nat) : Nat :=
  sumN ((s.sad.img.ldMaps.filter (fun p => p.1 ≠ but)).map (fun p => p.2.ranges.length))

/-- SET_LD_MAP (R88, R89). -/
def cmdSetLdMap : Cmd :=
  { op := 0xC105, len := fun l => decide (16 ≤ l.length) && l.length == 16 + 8 * fld l 8 1, rsvd := [(9, 7)], body := fun _ i s =>
      match ldOperand s i with
      | .error o => (rej 2 0x0D83 o, s)
      | .ok k =>
        let m := ldMapOf (tgetD s.sad.img.ldMaps (ldInst k) {}) i
        if 3 ≤ fld i 2 1 then (rej 2 0x0D83 2, s)
        else if 2 ≤ fld i 3 1 then (rej 2 0x0D83 3, s)
        else if 1024 ≤ fld i 4 2 then (rej 2 0x0D84 4, s)
        else if 64 < fld i 8 1 then (rej 2 0x0D83 8, s)
        else match ldMapBad s k i with
          | some o => (rej 2 0x0285 o, s)
          | none =>
            if 4096 < rangeTotal s (ldInst k) + m.ranges.length then (rej 0x1D 0x1082, s)
            else
              let t := setMaps (withMap (ldInst k) m) s
              ({ recs := rk 5 (ldInst k) :: mapRecs s.sad.img t.sad.img, done := .ldMap k m }, markRecs [rk 5 (ldInst k)] t) }
/-- SET_LD_MAP (R88). -/
def execSetLdMap (p : Path) (input : List Byte) (s : State) : Out := runCmd cmdSetLdMap p input s

/-- R565: the code of an LD's type. -/
def typeCode : LdType → Nat
  | .unmapped => 0 | .tenant => 1 | .management => 2

/-- The LD-ID byte of a key: 0xFF for the FM-owned LD (R91). -/
def ldByte (k : Nat) : Nat := if k % 17 = 16 then 0xFF else k % 17

/-- R414: an LD map record in the SET_LD_MAP layout. -/
def ldMapBytes (k : Nat) (m : LdMap) : List Byte :=
  toLe 1 (k / 17) ++ toLe 1 (ldByte k) ++ toLe 1 (typeCode m.typ) ++ [if m.dynamic then 1 else 0] ++ toLe 2 m.part ++ toLe 2 m.dcBase ++
  toLe 1 m.ranges.length ++ zeros 7 ++ m.ranges.flatMap (fun r => toLe 4 r.dpaLeg ++ toLe 2 r.count ++ toLe 2 r.pos)

/-- GET_LD_MAP (R414). -/
def cmdGetLdMap : Cmd :=
  { op := 0xC106, len := lenIs 2, body := fun p i s => match ldOperand s i with
      | .error o => (rej 2 0x0D83 o, s)
      | .ok k => if !ownsLd s p k then (rej 2 0x0287 0, s)
          else ({ out := ldMapBytes k (let m := tgetD s.sad.img.ldMaps (ldInst k) {}; { m with typ := typeNow s k m }) }, s) }
/-- GET_LD_MAP (R414). -/
def execGetLdMap (p : Path) (input : List Byte) (s : State) : Out := runCmd cmdGetLdMap p input s

/-- R72, R100: the contracts in force of the other LDs of a port. -/
def contractSum (s : State) (k : Nat) : Nat :=
  sumN (((List.range (ldsOn s (k / 17))).filter (fun l => ldKey (k / 17) l ≠ k ∧ mgmtLdOf s ≠ some (ldKey (k / 17) l))).map (fun l =>
    max (ldAt s (ldKey (k / 17) l)).map.outstanding (if (ldAt s (ldKey (k / 17) l)).pendingOut.isSome then 0
      else (tgetD s.sad.img.ldMaps (ldInst (ldKey (k / 17) l)) {}).outstanding)))

/-- SET_CONTRACT (R98, R100, R72). -/
def cmdSetContract : Cmd :=
  { op := 0xC107, len := lenIs 8, rsvd := [(5, 1)], body := fun _ i s => match ldOperand s i with
      | .error o => (rej 2 0x0D83 o, s)
      | .ok k =>
        let n := fld i 2 2
        let m : LdMap := { tgetD s.sad.img.ldMaps (ldInst k) {} with
          outstanding := n, opcodes := BitVec.ofNat 7 (fld i 4 1), poisonLimit := fld i 6 2 }
        if 128 ≤ fld i 4 1 then (rej 2 0x0D84 4, s)
        else if mgmtLdOf s = some k then (rej 2 0x0D83 1, s)
        else if n < 1 ∨ 2016 < n then (rej 2 0x0D83 2, s)
        else if 2016 < contractSum s k + n then (rej 2 0x0286 2, s)
        else ({ recs := [rk 5 (ldInst k)], done := .contract k m },
              modImg [rk 5 (ldInst k)] (fun g => { g with ldMaps := tset g.ldMaps (ldInst k) m }) s) }
/-- SET_CONTRACT (R98). -/
def execSetContract (p : Path) (input : List Byte) (s : State) : Out := runCmd cmdSetContract p input s

/-- GET_CONTRACT (R414). -/
def cmdGetContract : Cmd :=
  { op := 0xC108, len := lenIs 2, body := fun p i s => match ldOperand s i with
      | .error o => (rej 2 0x0D83 o, s)
      | .ok k =>
        let l := ldAt s k
        if !ownsLd s p k then (rej 2 0x0287 0, s)
        else ({ out := toLe 1 (k / 17) ++ toLe 1 (ldByte k) ++ toLe 2 l.map.outstanding ++ toLe 1 l.map.opcodes.toNat ++ [0] ++
                  toLe 2 l.map.poisonLimit ++ toLe 2 (l.pendingOut.getD 0) ++ toLe 2 l.outstanding ++ zeros 4 }, s) }
/-- GET_CONTRACT (R414). -/
def execGetContract (p : Path) (input : List Byte) (s : State) : Out := runCmd cmdGetContract p input s

/-- SET_QOS (R133). -/
def cmdSetQos : Cmd :=
  { op := 0xC109, len := lenIs 8, rsvd := [(6, 2)], body := fun _ i s =>
      let part := fld i 0 2
      let sum := shareSum s part + fld i 2 2 + fld i 4 2
      if 1024 ≤ part then (rej 2 0x0D84 0, s)
      else if !isActive s part then (rej 2 0x0280 0, s)
      else if 896 < sum then (rej 2 0x0480 2, s)
      else ({ out := toLe 4 sum, recs := [rk 3 part], done := .shares part (fld i 2 2, fld i 4 2) },
            modImg [rk 3 part] (fun m => { m with parts := tmod m.parts part {} (fun r =>
              { r with readShare := fld i 2 2, writeShare := fld i 4 2 }) }) s) }
/-- SET_QOS (R133). -/
def execSetQos (p : Path) (input : List Byte) (s : State) : Out := runCmd cmdSetQos p input s

/-! ### Freezes (R116 to R118, R414, R415) -/

/-- R117: the trigger that met a frozen master in this cycle, and that starts a new freeze when THAW ends the old one. -/
def retrigger (s : State) (m : Nat) : Option Freeze := s.gate.again.find? (fun f => f.master == m && f.tb == tbNow s)

/-- R116 to R118: a master's flag is cleared, in the Tollgate, the latch and the FREEZE records. -/
def thawMaster (m path dur : Nat) (s : State) : State :=
  let keep := fun (f : Freeze) => f.master != m
  let s1 := emit 0x0210 0xFF m path (dur % 4294967296) (dur / 4294967296) { s with
    gate := { s.gate with freezes := s.gate.freezes.filter keep, again := s.gate.again.filter keep }, keeper := { s.keeper with latch := s.keeper.latch.filter keep } }
  forAll (chgLds s m) (setChg 1) (if m / 268435456 = 1 then
    forAll (masterLds s m) (fun k => modLd k (fun l => { l with poisonCnt := 0 })) s1 else s1)

/-- R116: the FREEZE records without a master. -/
def dropFreezeRec (m : Nat) (s : State) : State :=
  modImg [rk 9 (freezeSlot m / 64)] (fun g => { g with freezes := tdel g.freezes (freezeSlot m) }) s

/-- R108, R404: a master identifier with a bit of its RSVD fields, [27:13] or [7:5], set. -/
def masterRsvd (m : Nat) : Bool := m / 8192 % 32768 != 0 || m / 32 % 8 != 0

/-- R116 to R119: THAW of a frozen master: the flag goes, its record is dropped if it holds one, a trigger of the same
cycle freezes the master again, and requests that waited on the pool go on. -/
def thawNow (m path : Nat) (f : Freeze) (s : State) : Reply × State :=
  let dur := tbNow s - f.tb
  let t := thawMaster m path dur s
  let t1 := if thas s.sad.img.freezes (freezeSlot m) then dropFreezeRec m t else t
  let t2 := match retrigger s m with | some g => freeze m g.code g.addr g.detail t1 | none => t1
  let port := if 1 ≤ m / 268435456 ∧ m / 268435456 ≤ 3 then some (m / 256 % 32) else none
  ({ out := toLe 4 (if (retrigger s m).isSome then 1 else 0) ++ toLe 8 dur
     recs := if thas s.sad.img.freezes (freezeSlot m) then [rk 9 (freezeSlot m / 64)] else [] },
   match port with | some q => drainIngress q t2 | none => t2)

/-- THAW (R14, R116 to R118): a flag that was set in this very cycle stays set, and is reported as frozen. -/
def cmdThaw : Cmd :=
  { op := 0xC10A, len := lenIs 4, body := fun p i s =>
      let m := fld i 0 4
      if masterRsvd m then (rej 2 0x0D84 0, s) else
      match s.gate.freezes.find? (fun f => f.master = m) with
      | none => ({ out := zeros 12 }, s)
      | some f =>
        if f.tb = tbNow s then ({ out := toLe 4 1 ++ zeros 8 }, s)
        else thawNow m (if pathRole s p = 2 then 2 else 1) f s }
/-- THAW (R116). -/
def execThaw (p : Path) (input : List Byte) (s : State) : Out := runCmd cmdThaw p input s

/-- R415: the freezes that a path may see. -/
def freezeSeen (s : State) (p : Path) (f : Freeze) : Bool :=
  match p with
  | .mctp => true
  | .ld q l => pathRole s p != 0 || f.master == ldMaster q l || f.master == cofMaster q l || f.master == portMaster q

/-- GET_FREEZE (R414). -/
def cmdGetFreeze : Cmd :=
  { op := 0xC10B, len := lenIs 4, body := fun p i s =>
      let m := fld i 0 4
      let fs := s.gate.freezes.filter (fun f => freezeSeen s p f && (m == 0 || f.master == m))
      if masterRsvd m then (rej 2 0x0D84 0, s) else
      ({ out := toLe 4 fs.length ++ zeros 4 ++ fs.flatMap (fun f =>
          toLe 4 f.master ++ toLe 2 f.code ++ zeros 2 ++ toLe 8 f.tb ++ toLe 8 f.addr.toNat) }, s) }
/-- GET_FREEZE (R414). -/
def execGetFreeze (p : Path) (input : List Byte) (s : State) : Out := runCmd cmdGetFreeze p input s

/-! ### Dynamic capacity (R92 to R94) -/

/-- R92: the DYNAMIC LD of a path on a CXL 3.1 port. -/
def dcLd (s : State) (k : Nat) : Bool :=
  tenantLd s k && (ldAt s k).map.dynamic && (port s (k / 17)).up && (port s (k / 17)).cxl == 0x31

/-- A command of a DYNAMIC LD on a CXL 3.1 port; Unsupported on others. -/
def dcCmd (op : Nat) (len : List Byte → Bool) (saddle : Nat → List Byte → State → Reply × State) : Cmd :=
  { op := op, len := len, body := fun p i s => match pathLd s p with
      | some k => if dcLd s k then saddle k i s else (rej 3 0x0D82, s)
      | none => (rej 3 0x0D82, s) }

/-- GET_DYNAMIC_CAPACITY_CONFIGURATION (R92): one region of 1 GiB blocks. -/
def cmdGetDcConfig : Cmd := dcCmd 0x4800 (lenIs 2) (fun k i s =>
  let legs := dpaLegs (ldAt s k).map
  let n := if fld i 1 1 = 0 ∧ fld i 0 1 ≠ 0 then 1 else 0
  ({ out := [1] ++ toLe 1 n ++ zeros 6 ++ (if n = 1 then toLe 8 0 ++ toLe 8 (4 * legs) ++ toLe 8 (legs * gib) ++ toLe 8 gib ++
        openBytes 5 0x4800 0 ++ zeros 3 else []) ++ toLe 4 64 ++ toLe 4 (64 - (ldAt s k).map.ranges.length) ++ zeros 8 }, s))
/-- GET_DYNAMIC_CAPACITY_CONFIGURATION (R92). -/
def execGetDynamicCapacityConfiguration (p : Path) (input : List Byte) (s : State) : Out := runCmd cmdGetDcConfig p input s

/-- GET_DYNAMIC_CAPACITY_EXTENT_LIST (R92): the accepted extents. -/
def cmdGetDcExtents : Cmd := dcCmd 0x4801 (lenIs 8) (fun k i s =>
  let rs := (ldAt s k).map.ranges
  let sel := (rs.drop (fld i 4 4)).take (fld i 0 4)
  ({ out := toLe 4 sel.length ++ toLe 4 rs.length ++ toLe 4 (ldAt s k).extGen ++ zeros 4 ++ sel.flatMap (fun r =>
      toLe 8 (r.dpaLeg * gib) ++ toLe 8 (r.count * gib) ++ zeros 24) }, s))
/-- GET_DYNAMIC_CAPACITY_EXTENT_LIST (R92). -/
def execGetDynamicCapacityExtentList (p : Path) (input : List Byte) (s : State) : Out := runCmd cmdGetDcExtents p input s

/-- The extents of a host's or manager's list, entries of `n` bytes from an offset: (first byte, length). -/
def extents (i : List Byte) (cnt off n : Nat) : List (Nat × Nat) :=
  (List.range cnt).map (fun j => (fld i (off + n * j) 8, fld i (off + n * j + 8) 8))

/-- R92: the first extent that is not whole GiB. -/
def unaligned (es : List (Nat × Nat)) : Option Nat := es.findIdx? (fun e => e.1 % gib ≠ 0 ∨ e.2 % gib ≠ 0 ∨ e.2 = 0)

/-- R92: an accepted extent joins the ranges, merging with one that it continues. -/
def addRange (base : Nat) (rs : List Range) (a n : Nat) : List Range :=
  match rs.findIdx? (fun r => r.dpaLeg + r.count = a ∧ r.pos + r.count = base + a) with
  | some j => rs.mapIdx (fun x r => if x = j then { r with count := r.count + n } else r)
  | none => rs ++ [{ dpaLeg := a, count := n, pos := base + a }]

/-- Cut some DPA legs out of the ranges. -/
def cutRange (a n : Nat) (rs : List Range) : List Range :=
  rs.flatMap (fun r =>
    if a + n ≤ r.dpaLeg ∨ r.dpaLeg + r.count ≤ a then [r]
    else (if r.dpaLeg < a then [{ r with count := a - r.dpaLeg }] else []) ++
      (if a + n < r.dpaLeg + r.count then
        [{ dpaLeg := a + n, count := r.dpaLeg + r.count - (a + n), pos := r.pos + (a + n - r.dpaLeg) }] else []))

/-- The LD_MAP record of an LD takes new ranges. -/
def recRanges (k : Nat) (rs : List Range) (s : State) : State :=
  setMaps (fun g => withMap (ldInst k) { tgetD g.ldMaps (ldInst k) (ldAt s k).map with ranges := rs } g) s

/-- The DPA legs of an extent. -/
def legsOf (e : Nat × Nat) : List Nat := (List.range (e.2 / gib)).map (fun j => e.1 / gib + j)

/-- R92: the ranges with some offers accepted. -/
def withOffers (base : Nat) (rs : List Range) (os : List Offer) : List Range := os.foldl (fun r o => addRange base r o.dpaLeg o.count) rs

/-- R92: an extent that lies within an offer. -/
def offered (o : Offer) (e : Nat × Nat) : Bool := decide (o.dpaLeg ≤ e.1 / gib) && decide (e.1 / gib + e.2 / gib ≤ o.dpaLeg + o.count)

/-- R92: the first extent that no offer holds, or that repeats a leg of an earlier one. -/
def badAnswer (os : List Offer) (es : List (Nat × Nat)) : Option Nat :=
  (List.range es.length).find? (fun j => match es[j]? with
    | some e => !os.any (offered · e) || (legsOf e).any (fun d => ((es.take j).flatMap legsOf).contains d)
    | none => false)

/-- R92: the offers that a response answers: those of each Initiate of which it takes an extent, or the oldest's when it
takes none. -/
def answered (os : List Offer) (es : List (Nat × Nat)) : List Offer :=
  let gs := if es.isEmpty then (os.head?.map (·.group)).toList else (os.filter (fun o => es.any (offered o))).map (·.group)
  os.filter (fun o => gs.contains o.group)

/-- ADD_DYNAMIC_CAPACITY_RESPONSE (R92, R94): the host accepts extents of what it was offered; the rest of the offers that it
answers is emptied. DESIGN CHOICE: an Initiate's extents are one group, and a response answers the groups that it
touches, or the oldest when it is empty (log 84). -/
def cmdAddDcResponse : Cmd := dcCmd 0x4802 (fun l => decide (8 ≤ l.length) && l.length == 8 + 24 * fld l 0 4) (fun k i s =>
  let l := ldAt s k
  let es := extents i (fld i 0 4) 8 24
  match unaligned es, badAnswer l.offers es with
  | some j, _ => (rej 2 0x0285 (8 + 24 * j), s)
  | none, some j => (rej 2 0x0D83 (8 + 24 * j), s)
  | none, none =>
    let rs := es.foldl (fun r e => addRange l.map.dcBase r (e.1 / gib) (e.2 / gib)) l.map.ranges
    let gone := answered l.offers es
    let taken := es.flatMap legsOf
    let back := (gone.flatMap (fun o => (List.range o.count).map (o.dpaLeg + ·))).filter (fun d => !taken.contains d)
    let runs := dropRuns (back.filterMap (fun d => legAt s.sad.img.runs l.map.part (l.map.dcBase + d))) s.sad.img.runs
    let s1 := modLd k (fun x => { x with offers := x.offers.filter (fun o => !gone.contains o)
                                         extGen := if es.isEmpty then x.extGen else x.extGen + 1 }) (setRuns runs s)
    let t := if es.isEmpty then s1 else recRanges k rs s1
    if 64 < rs.length then (rej 0x1D 0x0288, s)
    else if 4096 < rangeTotal s (ldInst k) + rs.length then (rej 0x1D 0x1082, s)
    else ({ recs := runRecs s.sad.img.runs runs ++ mapRecs s.sad.img t.sad.img, done := if es.isEmpty then .none else .ranges k rs }, t))
/-- ADD_DYNAMIC_CAPACITY_RESPONSE (R92). -/
def execAddDynamicCapacityResponse (p : Path) (input : List Byte) (s : State) : Out := runCmd cmdAddDcResponse p input s

/-- RELEASE_DYNAMIC_CAPACITY (R92): the ranges go when the command completes, and the positions are then emptied. -/
def cmdReleaseDc : Cmd := dcCmd 0x4803 (fun l => decide (8 ≤ l.length) && l.length == 8 + 24 * fld l 0 4) (fun k i s =>
  let l := ldAt s k
  let es := extents i (fld i 0 4) 8 24
  match unaligned es, es.findIdx? (fun e => (legsOf e).any (fun d => (rangePos l.map.ranges d).isNone)) with
  | some j, _ => (rej 2 0x0285 (8 + 24 * j), s)
  | none, some j => (rej 2 0x0D83 (8 + 24 * j), s)
  | none, none =>
    let rs := es.foldl (fun r e => cutRange (e.1 / gib) (e.2 / gib) r) l.map.ranges
    let ps := (es.flatMap legsOf).filterMap (rangePos l.map.ranges)
    let t := recRanges k rs (modLd k (fun x => { x with extGen := x.extGen + 1 }) s)
    if 64 < rs.length then (rej 0x1D 0x0288, s)
    else if 4096 < rangeTotal s (ldInst k) + rs.length then (rej 0x1D 0x1082, s)
    else ({ recs := mapRecs s.sad.img t.sad.img, done := .release k l.map.part rs ps }, t))
/-- RELEASE_DYNAMIC_CAPACITY (R92). -/
def execReleaseDynamicCapacity (p : Path) (input : List Byte) (s : State) : Out := runCmd cmdReleaseDc p input s

/-- R16, R92, R93: the codes of the descriptors of Dynamic Capacity events: an offer, a release request, a forced release. -/
def evDc (kind : Nat) : Nat := 0x0CE8 + kind

/-- R92: a Dynamic Capacity event for an extent of an LD; `more` says that the same request has a further one. -/
def postDc (k kind a n : Nat) (more : Bool) (s : State) : State :=
  postEvent [k] 4 { evOf (evDc kind) kind (if more then 1 else 0) 0 0 with dpa := BitVec.ofNat 64 (a * gib), len := n * gib } s

/-- The events of a list of extents, (first byte, length). -/
def postExtents (k kind : Nat) : List (Nat × Nat) → State → State
  | [], s => s
  | e :: es, s => postExtents k kind es (postDc k kind (e.1 / gib) (e.2 / gib) (!es.isEmpty) s)

/-- The LD of a manager's dynamic capacity command: bytes 0 and 1 hold port and LD-ID. -/
def dcTarget (s : State) (i : List Byte) : Option Nat :=
  match ldOperand s i with | .ok k => if dcLd s k then some k else none | .error _ => none

/-- R92, R93: the length of a manager's input with its extents of 40 B. -/
def dcLen (l : List Byte) : Bool := decide (32 ≤ l.length) && l.length == 32 + 40 * fld l 28 4

/-- Consecutive DPA legs in ascending order as extents, (first byte, length). -/
def asExtents : List Nat → List (Nat × Nat)
  | [] => []
  | a :: l => match asExtents l with
    | (b, n) :: t => if b = (a + 1) * gib then (a * gib, n + gib) :: t else (a * gib, gib) :: (b, n) :: t
    | [] => [(a * gib, gib)]

/-- R92: the DPA legs of a region whose positions are empty. -/
def emptyLegs (s : State) (m : LdMap) : List Nat :=
  (List.range (65536 - m.dcBase)).filter (fun a => (legAt s.sad.img.runs m.part (m.dcBase + a)).isNone)

/-- R4, R92: the extents of an Initiate Dynamic Capacity Add by its selection policy (PRESUMED: the CXL Specification's
payload): 0 free and 1 contiguous leave them to the device, which takes the lowest DPA that serves; 2 prescriptive lists
them. -/
def addExtents (s : State) (m : LdMap) (i : List Byte) : Except Reply (List (Nat × Nat)) :=
  let n := fld i 4 8 / gib
  match fld i 2 1 % 16 with
  | 2 => .ok (extents i (fld i 28 4) 32 40)
  | 0 =>
    if fld i 4 8 % gib ≠ 0 ∨ n = 0 then .error (rej 2 0x0285 4)
    else if (emptyLegs s m).length < n then .error (rej 0x1D 0x0284) else .ok (asExtents ((emptyLegs s m).take n))
  | 1 =>
    if fld i 4 8 % gib ≠ 0 ∨ n = 0 then .error (rej 2 0x0285 4)
    else match (asExtents (emptyLegs s m)).find? (fun e => decide (n * gib ≤ e.2)) with
      | some e => .ok [(e.1, n * gib)]
      | none => .error (rej 0x1D 0x0284)
  | _ => .error (rej 2 0x0D83 2)

/-- R84, R92: the first extent with a position past the region, occupied, or named before, with its offset and detail. -/
def badPositions (s : State) (m : LdMap) (es : List (Nat × Nat)) : Option (Nat × Nat) :=
  (List.range es.length).findSome? (fun j => match es[j]? with
    | none => none
    | some e =>
      let ps := (legsOf e).map (m.dcBase + ·)
      let seen := ((es.take j).flatMap legsOf).map (m.dcBase + ·)
      if ps.any (fun q => decide (65536 ≤ q)) then some (32 + 40 * j, 0x0285)
      else if ps.any seen.contains then some (32 + 40 * j, 0x0D83)
      else if ps.any (fun q => (legAt s.sad.img.runs m.part q).isSome) then some (32 + 40 * j, 0x0283) else none)

/-- The number of the next Initiate of an LD. -/
def nextOffer (l : Ld) : Nat := maxN (l.offers.map (·.group)) + 1

/-- R92: what an LD is offered by one Initiate. -/
def offersOf (l : Ld) (es : List (Nat × Nat)) : List Offer :=
  es.map (fun e => { dpaLeg := e.1 / gib, count := e.2 / gib, group := nextOffer l })

/-- R92, R94: positions are filled and the extents offered. -/
def initiateAdd (k : Nat) (es : List (Nat × Nat)) (s : State) : Reply × State :=
  let l := ldAt s k
  let os := offersOf l es
  match unaligned es, badPositions s l.map es with
  | some j, _ => (rej 2 0x0285 (32 + 40 * j), s)
  | none, some (o, d) => (rej 2 d o, s)
  | none, none =>
    if 64 < (withOffers l.map.dcBase l.map.ranges (l.offers ++ os)).length then (rej 0x1D 0x0288, s)
    else match placeLegs s l.map.part ((es.flatMap legsOf).map (l.map.dcBase + ·)) with
      | .error r => (r, s)
      | .ok (_, runs) =>
        ({ recs := runRecs s.sad.img.runs runs },
         postExtents k 0 es (modLd k (fun x => { x with offers := x.offers ++ os }) (setRuns runs (drawn s))))

/-- INITIATE_DYNAMIC_CAPACITY_ADD (R92, R94). DESIGN CHOICE: extents offered and not yet answered count toward the 64 ranges
(log 84). -/
def cmdInitiateDcAdd : Cmd :=
  { op := 0x5604, len := dcLen, body := fun _ i s => match dcTarget s i with
      | none => (rej 2 0x0D83 0, s)
      | some k => match addExtents s (ldAt s k).map i with
        | .error r => (r, s)
        | .ok es => initiateAdd k es s }
/-- INITIATE_DYNAMIC_CAPACITY_ADD (R92). -/
def execInitiateDynamicCapacityAdd (p : Path) (input : List Byte) (s : State) : Out := runCmd cmdInitiateDcAdd p input s

/-- R92: the offer of exactly an extent. -/
def isOffer (e : Nat × Nat) (o : Offer) : Bool := o.dpaLeg == e.1 / gib && o.count == e.2 / gib

/-- R92: an unanswered offer is withdrawn: its positions are emptied. -/
def withdraw (k : Nat) (e : Nat × Nat) (s : State) : State :=
  let m := (ldAt s k).map
  modLd k (fun x => { x with offers := x.offers.filter (fun o => !isOffer e o) })
    (emptyPositions m.part ((legsOf e).map (m.dcBase + ·)) s)

/-- R93: a forced release removes the range at once, empties the positions and starts the grace. -/
def forceRelease (k : Nat) (e : Nat × Nat) (s : State) : State :=
  let m := (ldAt s k).map
  let rs := cutRange (e.1 / gib) (e.2 / gib) m.ranges
  let s1 := emptyPositions m.part ((legsOf e).filterMap (rangePos m.ranges)) (recRanges k rs s)
  postDc k 2 (e.1 / gib) (e.2 / gib) false (setChg 2 k (modLd k (fun x => { x with
    map := { x.map with ranges := rs }, extGen := x.extGen + 1
    graces := x.graces ++ [{ dpaLeg := e.1 / gib, count := e.2 / gib, since := tbNow s }] }) s1))

/-- R92, R93: what a release does with one extent: an offer is withdrawn, else it is forced, or the host is asked. -/
def releaseExtent (forced : Bool) (k : Nat) (e : Nat × Nat) (s : State) : State :=
  if (ldAt s k).offers.any (isOffer e) then withdraw k e s
  else if forced then forceRelease k e s else postDc k 1 (e.1 / gib) (e.2 / gib) false s

/-- R4, R92: the extents of an Initiate Dynamic Capacity Release by its removal policy (PRESUMED: the CXL Specification's
payload): 0 leaves them to the device, which takes the highest accepted DPA legs; 1 prescriptive lists them. -/
def releaseExtents (m : LdMap) (i : List Byte) : Except Reply (List (Nat × Nat)) :=
  let n := fld i 4 8 / gib
  let legs := sortBy (fun a b => decide (a ≤ b)) (m.ranges.flatMap (fun r => (List.range r.count).map (r.dpaLeg + ·)))
  match fld i 2 1 % 16 with
  | 1 => .ok (extents i (fld i 28 4) 32 40)
  | 0 =>
    if fld i 4 8 % gib ≠ 0 ∨ n = 0 then .error (rej 2 0x0285 4)
    else if legs.length < n then .error (rej 2 0x0D83 4) else .ok (asExtents (legs.drop (legs.length - n)))
  | _ => .error (rej 2 0x0D83 2)

/-- R92, R93: whether every leg of an extent is offered as it stands, or accepted. -/
def knownExtent (l : Ld) (e : Nat × Nat) : Bool :=
  l.offers.any (isOffer e) || (legsOf e).all (fun d => (rangePos l.map.ranges d).isSome)

/-- R92, R93: a manager's release of some extents. -/
def initiateRelease (forced : Bool) (k : Nat) (es : List (Nat × Nat)) (s : State) : Reply × State :=
  match unaligned es, es.findIdx? (fun e => !knownExtent (ldAt s k) e) with
  | some j, _ => (rej 2 0x0285 (32 + 40 * j), s)
  | none, some j => (rej 2 0x0D83 (32 + 40 * j), s)
  | none, none =>
    let t := forAll es (releaseExtent forced k) s
    if 64 < (ldAt t k).map.ranges.length then (rej 0x1D 0x0288, s)
    else if 4096 < rangeTotal t (ldInst k) + (ldAt t k).map.ranges.length then (rej 0x1D 0x1082, s) else
    ({ recs := runRecs s.sad.img.runs t.sad.img.runs ++ mapRecs s.sad.img t.sad.img }, t)

/-- INITIATE_DYNAMIC_CAPACITY_RELEASE (R92, R93): byte 2 bit 4 forces the release. -/
def cmdInitiateDcRelease : Cmd :=
  { op := 0x5605, len := dcLen, body := fun _ i s => match dcTarget s i with
      | none => (rej 2 0x0D83 0, s)
      | some k => match releaseExtents (ldAt s k).map i with
        | .error r => (r, s)
        | .ok es => initiateRelease (fld i 2 1 / 16 % 2 == 1) k es s }
/-- INITIATE_DYNAMIC_CAPACITY_RELEASE (R93). -/
def execInitiateDynamicCapacityRelease (p : Path) (input : List Byte) (s : State) : Out := runCmd cmdInitiateDcRelease p input s

end Sys2Proof.Machine
end

