-- ==== Sys2Proof/Machine/Drover.lean ====
section
/-! DEFINITION. The Drover and the Waybill's own work: re-baling (R302 to R304), the journal's commit (R306), checkpoint
rounds (R307), HBM errors (R309 to R311), sweep (R315, R316), refresh, tuning and scrub (R318 to R323), lost media
(R326), event-log parcels (R69), and the commands of family 0xC5xx (R417). -/

namespace Sys2Proof.Machine

/-! ### Maintenance work -/

/-- R330, R142, R423: whether the Drover may place programs and resets. -/
def maintMay (s : State) : Bool := s.belay.step == 0 && s.health.st != 5 && s.health.st != 6 && !recalling s

/-- Whether some channel can take a maintenance program. -/
def anyProgram (s : State) : Bool := (serving s).any (fun c => !forbidden (chan s c))

/-- The LPN whose current copy lies at a location. -/
def lpnAt (s : State) (ppa : Nat) : Option Nat :=
  match s.way.map.overlay.find? (fun p => p.2.kind == .located && p.2.ppa == ppa) with
  | some p => some p.1
  | none =>
    (s.way.map.bales.find? (fun p => (p.2.st == .baled || p.2.st == .sparse) && basePpa p.2 (ppa % 256) == ppa)).bind
      (fun p => let l := p.1 * 256 + ppa % 256; if lookup s l == .at_ ppa then some l else none)

/-! ### Re-baling (R302 to R304) -/

/-- R302: overlay pressure now. -/
def pressureNow (s : State) : Bool :=
  decide (805306368 < s.way.map.overlay.length) || (s.way.pressure && decide (671088640 < s.way.map.overlay.length))

/-- R302: the highest OVCNT of a bale. -/
def topOvcnt (s : State) : Nat := maxN (s.way.map.bales.map (fun p => p.2.ovcnt))

/-- R302: every overlay entry of the bale is COLD, and it has one. -/
def allCold (s : State) (lbi : Nat) : Bool :=
  let es := baleEntries s lbi
  !es.isEmpty && es.all (fun p => p.2.cold)

/-- R320: a Dense base segment whose age has reached DRIFT_REFRESH. -/
def driftDue (s : State) (lbi : Nat) : Bool :=
  let b := baleAt s lbi
  (b.st == .baled || b.st == .sparse) && !isFast s (basePpa b 0) && decide (s.way.drover.driftRefresh ≤ segAge s (basePpa b 0))

/-- R302: why a bale is re-baled. -/
def rebaleDue (s : State) (lbi : Nat) : Bool :=
  s.way.rebaleQ.contains lbi || decide (s.way.drover.rebaleCount ≤ (baleAt s lbi).ovcnt) || allCold s lbi || driftDue s lbi ||
  (pressureNow s && (baleAt s lbi).ovcnt == topOvcnt s && decide (0 < topOvcnt s)) ||
  (decide (192 < s.way.stashUsed) && (baleEntries s lbi).any (fun p => p.2.bucket == none))

/-- R328: in WRITE_SPENT only a bale that holds POISON entries or is LOST is re-baled. -/
def spentMay (s : State) (lbi : Nat) : Bool :=
  !s.health.spent || (baleEntries s lbi).any (fun p => p.2.kind == .poison) || (baleAt s lbi).st == .lost || (baleAt s lbi).st == .lostSparse

/-- R304: unwritten parcels whose zeros are not yet in the cache or on their way to the medium. -/
def zeroFillNeeds (s : State) (lbi : Nat) (srcs : List Src) : List Nat :=
  (((List.range 256).zip srcs).filter (fun p => p.2 == .unwritten)).map (fun p => lbi * 256 + p.1) |>.filter
    (fun l => !pending s l && (match findWay s l with | some k => (lineAt s k).st == .clean || (lineAt s k).st == .invalid | none => true))

/-- R304: ZERO_LINE of a parcel as maintenance work. -/
def zeroFillOne (part lpn : Nat) (s : State) : State :=
  match zeroLine lpn part 0 s with
  | (false, t) => t
  | (true, t) =>
    let u := match findWay t lpn with | some k => modLine k (fun l => { l with maint := true }) t | none => t
    bump 0x0807 2 1 (evDue { lpn := lpn, why := .retire, creditPart := noPart } u)

/-- R304: whether a re-bale that would end in SPARSE finds no free sparse entry. -/
def sparseFull (s : State) (lbi : Nat) : Bool := decide (4194304 ≤ s.way.map.sparse.length) && !thas s.way.map.sparse lbi

/-- R303 step 1, R304: the snapshot and its reads; what would end in SPARSE with no free sparse entry is zero-filled first. -/
def startRebale (trav fast : Bool) (part lbi : Nat) (s : State) : State :=
  let srcs := (List.range 256).map (fun i => srcOf s (lbi * 256 + i))
  if srcs.all (· == .unwritten) then { s with way := { s.way with rebaleQ := s.way.rebaleQ.filter (· ≠ lbi) } }
  else if srcs.contains .unwritten ∧ sparseFull s lbi then
    (if (zeroFillNeeds s lbi srcs).isEmpty then s else forAll (zeroFillNeeds s lbi srcs) (zeroFillOne part) (bump 0x0807 1 1 s))
  else
    let reads := srcs.filterMap (fun x => match x with | .entry e => if e.kind = .located then some e.ppa else none | _ => none)
    snapBale trav fast lbi { s with way := { s.way with pressure := if reads.isEmpty then s.way.pressure else pressureNow s } }

/-- R302, R293: the partition of a bale and whether its base segment is Fast; a system bale's is. -/
def baleOwner (s : State) (lbi : Nat) : Option (Nat × Bool) :=
  match posOfLeg s.sad.img.runs (lbi / 16384) with
  | some (part, _) => some (part, fastOnly s part)
  | none => if 81920 ≤ lbi / 16384 then some (0, true) else none

/-- REBALE (R302, R303): a bale's re-bale starts; one that is under way asks for what it still lacks. -/
def rebale (lbi : Nat) (s : State) : State :=
  match baleOwner s lbi with
  | none => s
  | some (part, fast) =>
    if !maintMay s || !anyProgram s then s
    else if thas s.way.rebales lbi then buildBale lbi (askReads lbi s)
    else if !rebaleDue s lbi || !spentMay s lbi then s
    else
      let t := startRebale false fast part lbi s
      if !thas t.way.rebales lbi then t
      else
        let t1 := if driftDue s lbi then bump 0x0905 2 1 t else t
        if pressureNow s then bump 0x0803 3 1 t1 else t1

/-- REBALE (R303). -/
def execRebale (lbi : Nat) (s : State) : Out := .next (whenMain (rebale lbi) s)

/-- R303 step 4: whether a parcel's source is still the one that was snapshotted. -/
def srcSame (s : State) (lpn : Nat) : Src → Bool
  | .entry e => (match tget s.way.map.overlay lpn with
    | some x => x.kind == e.kind && x.ppa == e.ppa && x.wseq == e.wseq && x.lastWrite == e.lastWrite | none => false)
  | .base => (tget s.way.map.overlay lpn).isNone
  | .unwritten => false

/-- R303 step 4: one parcel is taken: its old location becomes invalid and its overlay entry goes. -/
def takeParcel (lpn : Nat) (w : Option Load) (s : State) : State :=
  let s1 := dropOld lpn s
  let s2 := { s1 with way := { s1.way with map := { s1.way.map with overlay := tdel s1.way.map.overlay lpn } } }
  match w with
  | some c => companionCommit lpn (loadSeq c) s2
  | none => s2

/-- R303 step 4: the commit of a re-bale whose destination still serves. -/
def commitRebale (lbi dest : Nat) (j : RebaleJob) (s : State) : State :=
  let pairs := (List.range 256).zip j.srcs
  let taken := pairs.filter (fun p => srcSame s (lbi * 256 + p.1) p.2)
  let s1 := forAll taken (fun p t => takeParcel (lbi * 256 + p.1) (tget j.words p.1) t) s
  let bits := pairs.foldl (fun (m : BitVec 256) p => if p.2 = .unwritten then m else m ||| bit1 p.1) 0
  let sparse := bits ≠ BitVec.allOnes 256
  let keeps := (baleEntries s1 lbi).length
  let b : Bale := { baleLoc {} dest with st := if sparse then .sparse else .baled, ovcnt := min 63 keeps }
  let m := s1.way.map
  let s2 := { s1 with way := { s1.way with
    map := { m with bales := tset m.bales lbi b, sparse := if sparse then tset m.sparse lbi bits else tdel m.sparse lbi }
    stashUsed := stashOf m.overlay } }
  let s3 := forAll taken (fun p t => addLoc (basePpa b p.1) t) (dropRebale lbi s2)
  journal (baleRecs s3 lbi (if j.fast then 0 else tgetD s3.way.map.stamps (stampKey (basePpa b 0)) 0)) s3

/-- Change a running traverse. -/
def modTrav (part : Nat) (f : Trav → Trav) (s : State) : State :=
  match tget s.travs part with | some t => { s with travs := tset s.travs part (f t) } | none => s

/-- R243: once a traverse's re-bale of a bale has committed, MARK moves past the bale. -/
def markPast (lbi : Nat) (s : State) : State :=
  match partOfLpn s (lbi * 256) with
  | some part => modTrav part (fun x => { x with mark := offsetOfLpn s (lbi * 256) + 65536, bales := x.bales + 1 }) s
  | none => s

/-- REBALE_COMMIT (R303, R310, R331): the segment has passed verify whole. A commit waits for a hold on its bale's pages; one
whose segment has left service is discarded and the bale queued again. -/
def rebaleCommit (lbi : Nat) (s : State) : State :=
  match tget s.way.rebales lbi with
  | none => s
  | some j =>
    if s.belay.step ≠ 0 ∨ !segmentWhole s lbi j ∨ (List.range 256).any (fun i => lookupHeld s (lbi * 256 + i)) then s
    else
      let dest := j.dest.getD 0
      if !served s dest then
        let t := dropRebale lbi s
        { t with way := { t.way with rebaleQ := t.way.rebaleQ ++ [lbi] } }
      else if j.traverse then markPast lbi (commitRebale lbi dest j s) else commitRebale lbi dest j s

/-- REBALE_COMMIT (R303). -/
def execRebaleCommit (lbi : Nat) (s : State) : Out := .next (whenMain (rebaleCommit lbi) s)

/-- COLD_VISIT (R302): COLD is set, and a bale whose entries are all COLD is queued. -/
def coldVisit (lpn : Nat) (s : State) : State :=
  match tget s.way.map.overlay lpn with
  | none => s
  | some e =>
    if (nowStamp s + 4096 - e.lastWrite % 4096) % 4096 < s.way.drover.coldAge ∨ recalling s then s
    else
      let s1 := { s with way := { s.way with map := { s.way.map with overlay := tset s.way.map.overlay lpn { e with cold := true } } } }
      if allCold s1 (lpnLbi lpn) ∧ !s1.way.rebaleQ.contains (lpnLbi lpn) then
        { s1 with way := { s1.way with rebaleQ := s1.way.rebaleQ ++ [lpnLbi lpn] } } else s1

/-- COLD_VISIT (R302). -/
def execColdVisit (lpn : Nat) (s : State) : Out := .next (whenMain (coldVisit lpn) s)

/-! ### The journal's commit and checkpoint rounds (R306, R307) -/

/-- Records appended and not yet committed. -/
def uncommitted (s : State) : List JRec := s.way.parcels.flatMap (·.recs) ++ s.way.tail

/-- R187, R344: whether a write-through write may complete: its line is programmed and its record committed. -/
def throughDone (s : State) (r : Req) : Bool :=
  !pending s r.lpn && !s.cache.evDue.any (fun e => e.lpn == r.lpn) &&
  (match findWay s r.lpn with | some k => !lineCounts (lineAt s k) | none => true) &&
  !(uncommitted s).any (fun x => match x with | .ovlSet l _ _ => l == r.lpn | .ovlPoison l => l == r.lpn | _ => false)

/-- R187: the writes whose program has passed and whose record is committed complete. -/
def finishThrough (s : State) : State :=
  let done := s.cache.throughWait.filter (throughDone s)
  forAll done (fun r t => finish r .cmp t)
    { s with cache := { s.cache with throughWait := s.cache.throughWait.filter (fun r => !throughDone s r) } }

/-- R344, R310: programs that passed while the tail was at its budget or their pages were held make their map changes as room comes. -/
def landPassed (s : State) : State :=
  forAll ids32 (fun c t => forAll ((chan t c).wbuf.filter (·.passed)) (fun w u =>
    if lookupHeld u w.lpn ∨ (journalBudget u ≤ tailRecords u ∧ u.belay.step = 0) then u else landProgram c w u) t) s

/-- R306: the oldest parcel's copies have passed verify: its records are committed. -/
def commitParcel (p : JParcel) (s : State) : State :=
  let s1 := dropProgs (fun w => match w with | .journal j _ => j == p.jseq | _ => false)
    { s with way := { s.way with parcels := s.way.parcels.drop 1 } }
  legsDropped (p.recs.filterMap (fun r => match r with | .dropLeg g => some g | _ => none)) s1

/-- JOURNAL_COMMIT (R306): the parcels that have passed in both copies are committed, in JSEQ order; `fuel` bounds them. -/
def commitParcels : Nat → State → State
  | 0, s => s
  | fuel + 1, s => match s.way.parcels with
    | [] => s
    | p :: _ => if (bothPassed s (.journal p.jseq)).isSome then commitParcels fuel (commitParcel p s) else s

/-- JOURNAL_COMMIT (R306). -/
def journalCommit (s : State) : State := finishThrough (landPassed (commitParcels s.way.parcels.length s))

/-- JOURNAL_COMMIT (R306). -/
def execJournalCommit (s : State) : Out := .next (whenMain journalCommit s)

/-- R307: whether a round is due: 2^20 records or 10 s since the previous one began, which has ended. -/
def roundDue (s : State) : Bool :=
  s.way.round.isNone && s.way.roundDone.isNone && (decide (1048576 ≤ s.way.recsSinceRound) || decide (s.way.roundTb + 10000000000 ≤ tbNow s))

/-- R307: the PPA at which each journal lane resumes. -/
def laneMarks (s : State) : Tbl Nat :=
  (serving s).foldl (fun t c => ((chan s c).lanes).foldl (fun t p => tset t (c * 8 + p.1) (p.2.1 * 16384 + (tileAt s p.2.1).next)) t) []

/-- CHECKPOINT_ROUND_BEGIN (R307). -/
def roundBegin (s : State) : State :=
  if !roundDue s || !maintMay s || !anyProgram s || s.sealCtl.zeroed then s
  else
    let n := s.sad.img.ckpt.round + 1
    let r : Round := { num := n, image := s.way.map, jseq := s.way.jseq + s.way.tail.length / 15, lanes := laneMarks s,
                       todo := changedPages s.way.ckpt s.way.map, prev := (s.sad.img.ckpt.dirA, s.sad.img.ckpt.dirB) }
    let s1 := journal [.roundBegin n] s
    roundGoesOn { s1 with way := { s1.way with round := some r, recsSinceRound := 0, roundTb := tbNow s } }

/-- CHECKPOINT_ROUND_BEGIN (R307). -/
def execCheckpointRoundBegin (s : State) : Out := .next (whenMain roundBegin s)

/-- R307: whether ROUND_BEGIN of a round is committed. -/
def roundOpen (s : State) (n : Nat) : Bool := !(uncommitted s).contains (.roundBegin n)

/-- CHECKPOINT_ROUND_END (R307): the directory has passed verify in both copies: ROUND_END is appended and the CHECKPOINT record is
set to commit, once ROUND_BEGIN is. -/
def roundEnd (s : State) : State :=
  match s.way.round, bothPassed s .dir with
  | some r, some (a, b) =>
    if !roundOpen s r.num || !maintMay s then s
    else
      let pages := (changedPages s.way.ckpt r.image).length
      let s1 := dropProgs (fun w => match w with | .dir _ => true | _ => false)
        (bump 0x0804 3 pages (bumpMax 0x0804 2 ((tbNow s - s.way.roundTb) / 1000000) (bump 0x0804 1 1 (journal [.roundEnd r.num] s))))
      modImg [rk 10 0] (fun m => { m with ckpt := { round := r.num, jseq := r.jseq, dirA := a, dirB := b, lanes := r.lanes } })
        { s1 with way := { s1.way with round := none, roundDone := some r } }
  | _, _ => s

/-- CHECKPOINT_ROUND_END (R307). -/
def execCheckpointRoundEnd (s : State) : Out := .next (whenMain roundEnd s)

/-- R307: a page's 16 parcels of both copies are superseded. -/
def dropPage (p : Nat × Nat) (s : State) : State :=
  forAll (tkeys (pageParcels s p.1) ++ tkeys (pageParcels s p.2)) dropLoc s

/-- R307: the CHECKPOINT record of a round is committed: a recovery loads its pages, and what it supersedes is invalid: older copies
of its pages, the older directory, and the journal before its ROUND_BEGIN. -/
def roundCommitted (s : State) : State :=
  match s.way.roundDone with
  | none => s
  | some r =>
    if recBusy s (rk 10 0) then s
    else
      let old := s.way.dir.filter (fun p => tget r.dir p.1 ≠ some p.2)
      let s1 := forAll (tkeys (journalFrom s s.way.jFrom r.jseq)) dropLoc (forAll old (fun p t => dropPage p.2 t) s)
      let s2 := if r.num ≤ 1 then s1 else dropLoc r.prev.1 (dropLoc r.prev.2 s1)
      { s2 with way := { s2.way with ckpt := r.image, dir := r.dir, roundDone := none, jFrom := r.jseq } }

/-! ### HBM errors (R309 to R311) -/

/-- R41: the read of a fill that a hold delayed. -/
def heldItem (s : State) (lpn : Nat) : RdItem :=
  let f := tgetD s.cache.fills lpn {}
  match f.waiters with
  | r :: _ => itemOf r
  | [] => { lpn := lpn, ppa := 0, cls := .bestEffort, part := f.part, age := tbNow s, specStage := if f.spec then f.specStage else none }

/-- R310, R311: updates that no hold keeps any longer are made: poison marks, host programs, and passed maintenance programs. -/
def releaseUpdates (s : State) : State :=
  let marks := s.way.heldMarks.filter (fun l => !lookupHeld s l)
  let s1 := forAll marks putMark { s with way := { s.way with heldMarks := s.way.heldMarks.filter (fun l => !marks.contains l) } }
  let waits := fun (p : MProg) => p.passed && (match p.work with | .tree .. => true | .log .. => true | .sweep .. => true | _ => false)
  let s2 := landPassed s1
  forAll (s2.way.progs.filter waits) (fun p t => if (progOf t p.work).isSome then progSettled p.work p.ppa t else t) s2

/-- R310, R311: lookups and updates that no hold keeps any longer go on. -/
def releaseLookups (s0 : State) : State :=
  let s := releaseUpdates s0
  let free := (tkeys s.way.heldLookups).filter (fun l => !lookupHeld s l)
  forAll free (fun l t => if thas t.cache.fills l then resolveFill (heldItem t l) [] t else t)
    { s with way := { s.way with heldLookups := s.way.heldLookups.filter (fun p => !free.contains p.1) } }

/-- R310, R311: an unreadable map page is held; two of one stripe hold the stripe. -/
def holdPage (region page : Nat) (second : Option Nat) (s : State) : State :=
  let k := region * 4294967296 + page
  let double := (match second with | some q => q / 32 == page / 32 && q != page | none => false) ||
    s.way.heldPages.any (fun p => p != k && stripeOf p == stripeOf k)
  if double then
    { s with way := { s.way with
      heldStripes := if s.way.heldStripes.contains (stripeOf k) then s.way.heldStripes else s.way.heldStripes ++ [stripeOf k]
      heldPages := s.way.heldPages.filter (fun p => stripeOf p ≠ stripeOf k)
      holdPoisoned := if s.way.heldStripes.isEmpty then 0 else s.way.holdPoisoned } }
  else { s with way := { s.way with heldPages := if s.way.heldPages.contains k then s.way.heldPages else s.way.heldPages ++ [k] } }

/-- R381: a ring slot's error: an uncommitted slot is repaired from its other HBM copy, a committed one from the ledger,
which holds no histograms; a slot lost with both copies before its commit is gone. -/
def ringError (slot : Nat) (both : Bool) (s : State) : State :=
  match tget s.reck.ring slot with
  | none => s
  | some r =>
    let put := fun (o : Option RingSlot) (t : State) => { t with reck := { t.reck with ring := match o with
      | some x => tset t.reck.ring slot x | none => tdel t.reck.ring slot } }
    let note := fun (src : Nat) (t : State) => emit 0x0306 0xFF r.bank.minute src 0 0 t
    if r.committed then
      (if r.bank.hists.isEmpty then note 2 s else note 3 (note 2 (put (some { r with bank := { r.bank with hists := [] }, histLost := true }) s)))
    else if both then note 3 (put none s) else note 1 s

/-- R535: an activation ends with Internal Error; record 0x1506 (step 2 a body block, 3 the header). No rule gives the values
of the flash status. -/
def activationFails (s : State) : State :=
  let b := s.boot
  forAll (allPaths s) (fun p t => match jobOf t p with
    | some (.activate _) =>
      postEvent (mgmtLds t) 1 (evOf 0x1506 (b.actPhase + 1) b.actBlock 0 0)
        (emit 0x1506 0xFF (b.actPhase + 1) b.actBlock (freeVal t 0x1506) 0 (endBg p 4 0x1584
          (drawn { t with boot := { t.boot with staging := [], staged := false, transferPath := 0 } })))
    | _ => t) s

/-- R309: an uncorrectable error, by region. -/
def hbmLost (e : HbmError) (s : State) : State :=
  if e.region ≤ 4 then holdPage e.region e.page e.second s
  else if e.region = 6 then
    (if nodeDirty s e.level e.idx || !resident s e.level e.idx then s
     else fetchNode [] e.level e.idx (if e.level = 1 then modLeaf e.idx (fun l => { l with cached := false }) s
       else modNode e.level e.idx (fun n => { n with cached := false }) s))
  else if e.region = 7 then loseNode e.level e.idx s
  else if e.region = 9 then ringError (e.page % 1440) e.bothCopies s
  else if e.region = 10 then fatalFault 2 (e.addr % 4294967296) (e.addr / 4294967296) 0 s
  else if e.region = 11 then activationFails (discardStaging 3 s)
  else s

/-- R21: the stack that holds a location: the map structures are interleaved over the two stacks by 4 KiB pages, and so, here, is what
lies elsewhere. -/
def hbmStack (e : HbmError) : Nat := (if e.region ≤ 4 then e.page else e.addr / 4096) % 2

/-- HBM_PATROL (R309). -/
def hbmPatrol (e : HbmError) (s : State) : State :=
  let s1 := if e.single then bump 0x0B01 (2 + hbmStack e) 1 (bump 0x0B01 1 1 s) else s
  if e.uncorrectable then hbmLost e (emit 0x0B02 0xFF (e.addr % 4294967296) (e.addr / 4294967296 % 16) e.region 0 s1) else s1

/-- HBM_PATROL (R309). -/
def execHbmPatrol (e : HbmError) (s : State) : Out := .next (whenMain (hbmPatrol e) s)

/-- MAP_PAGE_REBUILT (R310). -/
def mapPageRebuilt (region page holdUs : Nat) (s : State) : State :=
  let k := region * 4294967296 + page
  if s.way.heldPages.contains k then
    releaseLookups (emit 0x0801 0xFF page region holdUs 0 { s with way := { s.way with heldPages := s.way.heldPages.filter (· ≠ k) } })
  else s

/-- MAP_PAGE_REBUILT (R310). -/
def execMapPageRebuilt (region page holdUs : Nat) (s : State) : Out := .next (whenMain (mapPageRebuilt region page holdUs) s)

/-- STRIPE_REBUILD_END (R311). -/
def stripeRebuildEnd (region stripe durationMs : Nat) (s : State) : State :=
  let k := region * 4294967296 + stripe
  if s.way.heldStripes.contains k then
    releaseLookups (emit 0x0802 0xFF (stripe * 32) region durationMs s.way.holdPoisoned
      { s with way := { s.way with heldStripes := s.way.heldStripes.filter (· ≠ k), holdPoisoned := 0 } })
  else s

/-- STRIPE_REBUILD_END (R311). -/
def execStripeRebuildEnd (region stripe durationMs : Nat) (s : State) : Out :=
  .next (whenMain (stripeRebuildEnd region stripe durationMs) s)

/-! ### Sweep (R315, R316) -/

/-- R315: whether the Drover sweeps a channel for space: from A below 4% until A is at 6%. -/
def sweepWanted (s : State) (c : Nat) : Bool :=
  decide (100 * freeA s c < 4 * chanTiles s c) || ((chan s c).sweeping && decide (100 * freeA s c < 6 * chanTiles s c))

/-- R326, R301: the locations of the journal and checkpoint parcels that a recovery needs. -/
def unmappedSys (s : State) : List Nat :=
  let rs := s.way.round.toList ++ s.way.roundDone.toList
  recoveryPpas s (s.way.dir ++ rs.flatMap (·.dir)) s.sad.img.ckpt s.way.jFrom (s.way.jseq + 1)

/-- R306, R307: a tile of a journal lane, or that holds journal or checkpoint parcels that a recovery needs. -/
def sysTile (s : State) (k : Nat) : Bool :=
  s.chans.any (fun c => c.2.lanes.any (fun l => l.2.1 == k || l.2.2 == k)) ||
  let rs := s.way.round.toList ++ s.way.roundDone.toList
  (unmappedSys s ++ rs.flatMap (fun r => [r.prev.1, r.prev.2])).any
    (fun a => tileKey a == k)

/-- A tile on which a program or a segment has not yet become part of the map, or that no sweep may move. -/
def tileBusy (s : State) (k : Nat) : Bool :=
  (chan s (tileCh k)).wbuf.any (fun w => tileKey w.ppa == k) || s.way.progs.any (fun p => p.placed && tileKey p.ppa == k) ||
  s.way.rebales.any (fun p => p.2.dest.any (fun d => tileKey d == k)) || s.way.sweeps.any (fun p => p.2.segs.any (fun d => tileKey d.2 == k)) ||
  sysTile s k

/-- R316: the FULL tile of a channel with the fewest valid parcels, ties to the lower number. -/
def sweepVictim (s : State) (c : Nat) : Option Nat :=
  ((s.way.map.tiles.filter (fun p => tileCh p.1 = c ∧ p.2.st = .full ∧ !tileBusy s p.1 ∧ !ledgerTile s p.1 ∧ !(chan s c).diesOut.getLsbD (tileBank p.1 / 16))).foldl
    (fun (m : Option (Nat × Nat)) p => match m with
      | none => some (p.2.valid, p.1)
      | some x => if p.2.valid < x.1 then some (p.2.valid, p.1) else some x) none).map (·.2)

/-- R319, R322, R324: a tile queued for a refresh sweep, ahead of ordinary victims. -/
def refreshVictim (s : State) (c : Nat) : Option Nat :=
  s.way.refreshTiles.find? (fun k => tileCh k = c ∧ !tileBusy s k ∧ !(chan s c).diesOut.getLsbD (tileBank k / 16) ∧
    ((tileAt s k).st = .full ∨ (tileAt s k).st = .openHost ∨ (tileAt s k).st = .openMaint))

/-- R316: the reads of a sweep's sources are asked for, but those that a bank already holds. -/
def askSweep (tile : Nat) (s : State) : State :=
  match tget s.way.sweeps tile with
  | none => s
  | some j =>
    forAll (j.todo.filter (fun a => !readHeld s (.sweep tile) a)) (fun a t => enqueueRead { lpn := (lpnAt t a).getD 0, ppa := a, cls := .maint, part := 0, age := tbNow t, work := .sweep tile } t) s

/-- R316: a base segment of the victim none of whose parcels is current any longer moves without a copy. -/
def moveEmpty (tile lbi : Nat) (b : Bale) (s : State) : State :=
  match freshSegment s ((tileAt s tile).cls == .fast) [tileCh tile] with
  | none => s
  | some (d, t) => match tget t.way.sweeps tile with
    | some j => moveSegment tile lbi d (stampSegment d { t with way := { t.way with sweeps := tset t.way.sweeps tile { j with copies := j.copies ++ [(basePpa b 0, d)] } } })
    | none => s

/-- R316: the tile is SWEEPING, and its valid data is read. -/
def sweepOut (c k : Nat) (forb : Bool) (s : State) : State :=
  let s1 := modChan c (fun x => { x with openTiles := x.openTiles.filter (fun p => p.2 ≠ k) }) (modTile k (fun t => { t with st := .sweeping }) s)
  let es := (s.way.map.overlay.filter (fun p => p.2.kind == .located && tileKey p.2.ppa == k)).map (fun p => p.2.ppa)
  let bs := s.way.map.bales.filter (fun p => (p.2.st == .baled || p.2.st == .sparse) && tileKey (basePpa p.2 0) == k)
  let cur := bs.flatMap (fun p => (baseCurrent s p.1 p.2).map (basePpa p.2))
  let s2 := { s1 with way := { s1.way with
    sweeps := tset s1.way.sweeps k { todo := es ++ cur, forbidden := forb }, refreshTiles := s1.way.refreshTiles.filter (· ≠ k) } }
  askSweep k (forAll (bs.filter (fun p => (baseCurrent s p.1 p.2).isEmpty)) (fun p t => moveEmpty k p.1 p.2 t) s2)

/-- R142, R322: a tile with parcels that a flush programmed on the channel while it was write-forbidden. -/
def forbiddenTile (s : State) (c : Nat) : Option Nat :=
  (s.medium.forbidden.filter (fun p => ppaCh p == c && !tileBusy s (tileKey p) && (tileAt s (tileKey p)).st != .sweeping &&
    (tileAt s (tileKey p)).st != .resetting)).head?.map tileKey

/-- SWEEP_TILE (R315, R316, R319, R322): the channel's sweeps ask for what they still lack, and a victim is taken. -/
def sweepTile (c : Nat) (s0 : State) : State :=
  if !inService (chan s0 c) || forbidden (chan s0 c) || !maintMay s0 then s0
  else
    let s := forAll ((tkeys s0.way.sweeps).filter (fun k => tileCh k = c)) askSweep s0
    let want := sweepWanted s c
    let s1 := modChan c (fun x => { x with sweeping := want }) s
    match forbiddenTile s c with
    | some k => sweepOut c k true (bump 0x0905 4 1 s1)
    | none => match refreshVictim s c with
      | some k => sweepOut c k false s1
      | none => if want then (match sweepVictim s c with | some k => sweepOut c k false s1 | none => s1) else s1

/-- SWEEP_TILE (R316). -/
def execSweepTile (ch : Nat) (s : State) : Out := .next (whenMain (sweepTile ch) s)

/-- R316: whether the records of a sweep's copies are committed. -/
def sweepCommitted (s : State) (j : SweepJob) : Bool :=
  !(uncommitted s).any (fun r => match r with
    | .ovlSet _ p _ => j.copies.any (fun c => c.2 == p)
    | .baleSet _ b _ _ => j.copies.any (fun c => c.2 / 256 * 256 == basePpa b 0)
    | _ => false)

/-- R316: whether a read on a tile has not completed. -/
def tileRead (x : Chan) (k : Nat) : Bool :=
  x.banks.any (fun p => (bankReads p.2).any (fun r => tileKey r.ppa == k)) || x.deepWait.any (fun r => tileKey r.ppa == k)

/-- R316: whether every source of a sweep is copied and its copies settled. -/
def sweepWhole (s : State) (k : Nat) (j : SweepJob) : Bool :=
  j.todo.isEmpty && j.segs.isEmpty && s.way.progs.all (fun p => match p.work with | .sweep t _ => t != k | _ => true)

/-- SWEEP_RESET (R316): every segment of the swept tile is to be reset; a retiring tile is then RETIRED (R324). `tile` is the tile's number on its channel. -/
def sweepReset (c tile : Nat) (s : State) : State :=
  let k := c * 1048576 + tile
  match tget s.way.sweeps k with
  | none => s
  | some j =>
    if !maintMay s || !inService (chan s c) || !sweepWhole s k j || !sweepCommitted s j || tileRead (chan s c) k then s
    else if (tileAt s k).pfail = 3 then spareCheck (retireTile k 2 { s with way := { s.way with sweeps := tdel s.way.sweeps k } })
    else
      let t := tileAt s k
      let fast := t.cls != .dense
      let seqs := (List.range (if fast then 16 else 48)).map (fun g => PulseSeq.reset k g fast 0 0 t.deferStage)
      let s1 := modTile k (fun y => { y with st := .resetting }) { s with way := { s.way with sweeps := tdel s.way.sweeps k } }
      modBank c (tileBank k) (fun b => { b with planned := b.planned ++ seqs }) s1

/-- SWEEP_RESET (R316). -/
def execSweepReset (ch tile : Nat) (s : State) : Out := .next (whenMain (sweepReset ch tile) s)

/-! ### Drift, tuning and scrub (R320 to R323) -/

/-- The largest x of `fuel` bits, above `x`, whose 160th power is at most a bound. -/
def root160 (bound : Nat) : Nat → Nat → Nat
  | 0, x => x
  | n + 1, x => root160 bound n (if (x + 2 ^ n) ^ 160 ≤ bound then x + 2 ^ n else x)

/-- R320: a = 2^((T - 70) ÷ 10) clamped to 1/16 to 4, in units of 2^-20, for T in 1/16 °C. -/
def clockRate (t16 : Int) : Nat :=
  let d := t16 - 1120
  let k := d / 160
  let f := (d % 160).toNat
  if 2 ≤ k then 4194304
  else if k < -4 then 65536
  else
    let x := root160 (2 ^ (3200 + f)) 22 0
    if 0 ≤ k then x * 2 ^ k.toNat else x / 2 ^ (-k).toNat

/-- R320: one second at the highest temperature that the module had in it; with no reading in it, at the last one. -/
def clockSecond (x : Chan) : Chan :=
  match x.tSec.orElse (fun _ => x.tMax) with
  | none => x
  | some t => { x with clock := x.clock + 1024 * clockRate t / 3600, tSec := none }

/-- THERMAL_CLOCK_ADVANCE (R320): once in each second of TB. -/
def execThermalClockAdvance (s : State) : Out :=
  .next (whenMain (fun s => if s.therm.clocked = secondNow s then s else
    { s with chans := tmap s.chans (fun _ x => if inService x then clockSecond x else x), therm := { s.therm with clocked := secondNow s } }) s)

/-- DRIFT_SET_TUNE (R321): at most once per hour per die, offsets of one drift set move by one. -/
def driftSetTune (c die set : Nat) (delta : List Int) (s : State) : State :=
  let x := chan s c
  let early := match tget x.tuned die with | some t => decide (tbNow s < t + 3600000000000) | none => false
  let ok := delta.length == 7 && delta.all (fun d => decide (-1 ≤ d) && decide (d ≤ 1)) && delta.any (· != 0)
  if !inService x || decide (8 ≤ die) || x.diesOut.getLsbD die || decide (8 ≤ set) || early || !ok || s.health.st == 6 then s
  else
    let o := (List.zip (tgetD x.driftSets (die * 8 + set) (List.replicate 7 (set : Int))) delta).map (fun p => clampI (-8) 7 (p.1 + p.2))
    let s1 := modChan c (fun x => { x with driftSets := tset x.driftSets (die * 8 + set) o, tuned := tset x.tuned die (tbNow s) }) s
    emit 0x0908 c c die set (delta.filter (· != 0)).length
      (forAll (List.range 16) (fun b t => modBank c (die * 16 + b) (fun k => { k with frame := threshFrame (die * 16 + b) o (some set) }) t) s1)

/-- DRIFT_SET_TUNE (R321). -/
def execDriftSetTune (ch die set : Nat) (delta : List Int) (s : State) : Out := .next (whenMain (driftSetTune ch die set delta) s)

/-- R323: a programmed parcel of an OPEN or FULL tile. -/
def scrubbable (s : State) (ppa : Nat) : Bool :=
  (loadAt s ppa).isSome && served s ppa &&
  ((tileAt s (tileKey ppa)).st == .full || (tileAt s (tileKey ppa)).st == .openHost || (tileAt s (tileKey ppa)).st == .openMaint)

/-- R323: the pass is complete when every such parcel has been read: record 0x0906. -/
def scrubPass (s : State) : State :=
  if ((tkeys s.medium.cells ++ tkeys s.medium.sys).filter (scrubbable s)).all (fun p => s.way.scrubbed.contains p) then
    emit 0x0906 0xFF ((tbNow s - s.way.scrubTb) / 3600000000000) (s.way.scrubbed.length / 1048576) s.way.scrubCorrected s.way.scrubRefreshed
      { s with way := { s.way with scrubbed := [], scrubNext := s.way.scrubTb + s.way.drover.scrubPeriod * 86400000000000
                                   scrubCorrected := 0, scrubRefreshed := 0 } }
  else s

/-- R323: whether a parcel is to be read in this SCRUB_PERIOD: once in a pass, and a pass once in a period. -/
def scrubDue (s : State) (ppa : Nat) : Bool := if s.way.scrubbed.isEmpty then decide (s.way.scrubNext ≤ tbNow s) else !s.way.scrubbed.contains ppa

/-- SCRUB_READ (R323): a maintenance read, once the channel's maintenance capacity admits it. -/
def scrubRead (ppa : Nat) (ok : Bool) (bits : Nat) (s : State) : State :=
  let c := ppaCh ppa
  let it : RdItem := { lpn := (lpnAt s ppa).getD 0, ppa := ppa, cls := .maint, part := 0, age := tbNow s, reads := 1, work := .scrub }
  if !scrubbable s ppa || !scrubDue s ppa || s.belay.step != 0 || s.health.st == 6 || recalling s || !maintAdmits s c it then s
  else
    let s1 := countArrayRead ppa (modChan c (fun x => { takeXfer true x with slotsLeft := x.slotsLeft - 2 }) (decodeSample ok bits it s))
    let s2 := { s1 with way := { s1.way with
      scrubbed := s1.way.scrubbed ++ [ppa], scrubTb := if s1.way.scrubbed.isEmpty then tbNow s else s1.way.scrubTb
      scrubCorrected := s1.way.scrubCorrected + (if ok ∧ bits ≠ 0 then 1 else 0) } }
    let s3 := match lpnAt s ppa with
      | none => s2
      | some l =>
        if !ok then readFailed c (ppaBank ppa) it s2
        else if 24 < bits then queueRefresh l ppa { s2 with way := { s2.way with scrubRefreshed := s2.way.scrubRefreshed + 1 } } else s2
    scrubPass s3

/-- SCRUB_READ (R323). -/
def execScrubRead (ppa : Nat) (ok : Bool) (bits : Nat) (s : State) : Out := .next (whenMain (scrubRead ppa ok bits) s)

/-! ### Lost media (R326) -/

/-- R326: whether a location is on the lost channel or die. -/
def onLost (s : State) (c : Nat) (die : Option Nat) (ppa : Nat) : Bool :=
  ppaCh ppa == c && (match die with
    | none => !inService (chan s c) && (chan s c).heldData
    | some d => ppaDie ppa == d && (chan s c).diesOut.getLsbD d)

/-- R326, R62: a located overlay entry on lost tiles becomes POISON. -/
def loseEntry (p : Nat × OvEntry) (s : State) : State :=
  let e : OvEntry := { p.2 with kind := .poison, ppa := 0, wseq := 0 }
  let s1 := dropLoc p.2.ppa s
  let s2 := journal [.ovlPoison p.1] { s1 with way := { s1.way with map := { s1.way.map with overlay := tset s1.way.map.overlay p.1 e } } }
  if 81920 ≤ lpnLeg p.1 then repairSys p.1 s2 else if listed s2 p.1 then s2 else newlyPoisoned p.1 s2

/-- R326, R62: a bale whose base segment is lost becomes LOST or LOST_SPARSE. -/
def loseBale (p : Nat × Bale) (s : State) : State :=
  let lost := ((List.range 256).map (fun i => p.1 * 256 + i)).filter (fun l => lookup s l == .at_ (basePpa p.2 (l % 256)))
  let b : Bale := { st := if p.2.st = .sparse then .lostSparse else .lost, ovcnt := p.2.ovcnt }
  let s1 := forAll lost dropOld s
  let s2 := { s1 with way := { s1.way with map := { s1.way.map with bales := tset s1.way.map.bales p.1 b } } }
  forAll (lost.filter (fun l => !listed s2 l)) (fun l t => if 81920 ≤ lpnLeg l then repairSys l t else newlyPoisoned l t) (journal (baleRecs s2 p.1 0) s2)

/-- R324: the tiles of a die that leaves service are retired. -/
def retireDie (c d : Nat) (s : State) : State :=
  let ks := (List.range 16).flatMap (fun b => (List.range (chan s c).tilesPerBank).map (fun t => tileMk c (d * 16 + b) t))
  forAll (ks.filter (fun k => (tileAt s k).st ≠ .retired ∧ (tileAt s k).st ≠ .bad)) (fun k t => retireTile k 4 t) s

/-- R326: those of them on lost tiles that have a surviving copy and are not yet copied. -/
def lostSys (s : State) (c : Nat) (die : Option Nat) : List Nat :=
  let l := unmappedSys s
  let asked := fun (p : Nat) => s.way.progs.any (fun q => match q.work with | .copy x _ => x == p | _ => false)
  (l.filter (fun p => onLost s c die p && !asked p && ((tget s.medium.sys p).bind (fun x => survivor s x l)).isSome)).eraseDups

/-- MEDIA_LOSS_HANDLING (R326): once for a loss, while the map still names the lost tiles or the die's are in use. -/
def mediaLoss (c : Nat) (die : Option Nat) (s : State) : State :=
  let es := s.way.map.overlay.filter (fun p => p.2.kind == .located && onLost s c die p.2.ppa)
  let bs := s.way.map.bales.filter (fun p => (p.2.st == .baled || p.2.st == .sparse) && onLost s c die (basePpa p.2 0))
  let live := match die with
    | some d => (chan s c).diesOut.getLsbD d && (List.range 16).any (fun b => (tileAt s (tileMk c (d * 16 + b) 0)).st != .retired && (tileAt s (tileMk c (d * 16 + b) 0)).st != .bad)
    | none => false
  let ss := lostSys s c die
  if (es.isEmpty ∧ bs.isEmpty ∧ !live ∧ ss.isEmpty) ∨ !maintMay s then s
  else
    let s1 := forAll ss (fun p t => copyLost p (unmappedSys t) t) (forAll bs loseBale (forAll es loseEntry s))
    let s2 := match die with
      | some d => retireDie c d s1
      | none => forAll ((s1.sad.img.ledgerChain.filter (fun p => tileCh p.2 = c)).map (·.2)) replaceLedger s1
    emit 0x0907 c c (die.getD 0xFF) bs.length es.length s2

/-- MEDIA_LOSS_HANDLING (R326). -/
def execMediaLossHandling (ch : Nat) (die : Option Nat) (s : State) : Out := .next (whenMain (mediaLoss ch die) s)

/-! ### Event-log parcels (R69) -/

/-- R69: the record places of each log: Informational, Warning, Failure, Fatal, Dynamic Capacity. -/
def logPlaces : List Nat := [64, 64, 64, 16, 128]

/-- R69: the number of an LD's area: by LD_MAP instance, the FM-owned LD's 512. -/
def logArea (k : Nat) : Nat := if k % 17 = 16 then 512 else k / 17 * 16 + k % 17

/-- R69: the 169 parcels of an LD's area: 168 with two record places each, and one with the overflow indications. -/
def logBody (logs : List EventLog) (p : Nat) : SysBody :=
  if p < 168 then
    let places := ((List.range 5).flatMap (fun i =>
      ((logs.getD i {}).recs.map some ++ List.replicate 128 none).take (logPlaces.getD i 0)))
    .log (((places.drop (2 * p)).take 2).filterMap id)
  else .logMeta ((List.range 5).map (fun i => { logs.getD i {} with recs := [] }))

/-- R69: what an area's parcel holds as both copies last had it: the newest program of it, or the map's. -/
def logStored (s : State) (n p : Nat) : SysBody :=
  match (progOf s (.log n 0)).map MProg.load with
  | some (Load.sys x) => x.body
  | _ => match (sysRead s 9 (logLpn n 0)).orElse (fun _ => sysRead s 10 (logLpn n 1)) with
    | some x => x.body
    | none => logBody [] p

/-- R69: a changed parcel of an area is programmed in both spaces. -/
def programLog (k p : Nat) (s : State) : State :=
  let n := logArea k * 169 + p
  let b := logBody (ldAt s k).logs p
  if logStored s n p = b then s
  else
    let t := dropProgs (fun w => match w with | .log m _ => m == n | _ => false) s
    askSys (.log n 1) 10 (logLpn n 1) 0 b (askSys (.log n 0) 9 (logLpn n 0) 0 b t)

/-- R69: the changed parcels of every changed log are programmed. -/
def programLogs (s : State) : State :=
  if s.boot.recovering ∨ s.sealCtl.zeroed then s else
  let ks := tkeys (s.ports.lds.filter (fun p => p.2.logsChanged))
  let t := forAll ks (fun k t => forAll (List.range 169) (programLog k) t) s
  { t with ports := { t.ports with lds := tmap t.ports.lds (fun _ l => { l with logsChanged := false }) } }

/-- EVENT_LOG_PROGRAM (R69): not in bivouac mode. -/
def execEventLogProgram (s : State) : Out :=
  .next (whenMain (fun s => if s.boot.running && maintMay s && anyProgram s then programLogs s else s) s)

/-! ### Commands of family 0xC5xx (R417) -/

/-- The highest WEAR of a channel's tiles. -/
def topWear (s : State) (c : Nat) : Nat := maxN ((s.way.map.tiles.filter (fun p => tileCh p.1 = c)).map (fun p => p.2.wear))

/-- GET_MEDIA_HEALTH (R417). -/
def cmdGetMediaHealth : Cmd := noInput 0xC500 (fun _ s =>
  toLe 4 (sparesInit s) ++ toLe 4 (sparesUsed s) ++ toLe 1 (lifeUsed s) ++ zeros 3 ++
  ids32.flatMap (fun c =>
    let x := chan s c
    toLe 1 (chanCode x.st) ++ toLe 1 x.gen ++ toLe 1 (if inService x then 255 - x.diesOut.toNat else 0) ++ zeros 1 ++
    toLe 4 (freeTiles s c) ++ toLe 4 x.consumed ++ toLe 4 (topWear s c)))
/-- GET_MEDIA_HEALTH (R417). -/
def execGetMediaHealth (p : Path) (input : List Byte) (s : State) : Out := runCmd cmdGetMediaHealth p input s

/-- R326: the data that the map still names on a channel whose module is adopted is lost. -/
def adoptLoss (c : Nat) (s : State) : State := mediaLoss c none s

/-- R289: the module's tiles are reset: its channel holds nothing, and its factory-bad tiles are listed. -/
def adoptTiles (c : Nat) (s : State) : State :=
  let s1 := { s with medium := { s.medium with cells := s.medium.cells.filter (fun p => ppaCh p.1 ≠ c), sys := s.medium.sys.filter (fun p => ppaCh p.1 ≠ c) }
                     way := { s.way with map := { s.way.map with tiles := s.way.map.tiles.filter (fun p => tileCh p.1 ≠ c) } } }
  markBad c (chan s c).badTiles s1

/-- ADOPT_MODULE (R289). -/
def cmdAdoptModule : Cmd :=
  { op := 0xC501, len := lenIs 16, rsvd := [(1, 7)], body := fun _ i s =>
      let c := fld i 0 1
      let x := chan s c
      if 32 ≤ c then (rej 2 0x0D83 0, s)
      else if x.st ≠ .new then (rej 2 0x0A80 0, s)
      else if x.serial.toNat ≠ fld i 8 8 then (rej 2 0x0A80 8, s)
      else ({ job := some (.adopt c x.serial) },
            setModule c { serial := x.serial, gen := x.gen } (adoptTiles c (adoptLoss c s))) }
/-- ADOPT_MODULE (R289). -/
def execAdoptModule (p : Path) (input : List Byte) (s : State) : Out := runCmd cmdAdoptModule p input s

/-- R289, R328: the MODULE record has committed: the channel serves, and WRITE_SPENT is evaluated again. -/
def adopted (c : Nat) (s : State) : State :=
  let x := chan s c
  let st := if x.gen = 3 ∧ x.rate = 3200 then ChanSt.reduced else .active
  let s1 := modChan c (fun x => { x with st := st, heldData := false, spares := initialSpares x.gen, consumed := 0, bframe := calFrame 0 0 }) s
  let s2 := emit 0x0A06 c c (x.serial.toNat % 4294967296) (x.serial.toNat / 4294967296) 2 s1
  { s2 with health := { s2.health with spent := s2.health.spent && sparesInit s2 == sparesUsed s2 } }

/-- R318: the field of SET_DROVER_CONFIG that is out of range. -/
def droverBad (i : List Byte) : Option Nat :=
  let out := fun (v lo hi : Nat) => decide (v < lo) || decide (hi < v)
  if out (fld i 0 1) 8 63 then some 0 else if out (fld i 2 2) 60 3000 then some 2
  else if out (fld i 4 4) 65536 2097152 then some 4 else if out (fld i 8 2) 240 2016 then some 8
  else if out (fld i 10 1) 1 28 then some 10 else none

/-- SET_DROVER_CONFIG (R318). -/
def cmdSetDroverConfig : Cmd :=
  { op := 0xC502, len := lenIs 16, rsvd := [(1, 1), (11, 5)], body := fun _ i s =>
      match droverBad i with
      | some o => (rej 2 0x0D83 o, s)
      | none => ({ recs := [rk 13 0] }, modImg [rk 13 0] (fun m => { m with drover :=
          { rebaleCount := fld i 0 1, coldAge := fld i 2 2, refreshReads := fld i 4 4, driftRefresh := fld i 8 2, scrubPeriod := fld i 10 1 } }) s) }
/-- SET_DROVER_CONFIG (R318). -/
def execSetDroverConfig (p : Path) (input : List Byte) (s : State) : Out := runCmd cmdSetDroverConfig p input s

/-- GET_DROVER_CONFIG (R318). -/
def cmdGetDroverConfig : Cmd := noInput 0xC503 (fun _ s =>
  let d := s.sad.img.drover
  toLe 1 d.rebaleCount ++ zeros 1 ++ toLe 2 d.coldAge ++ toLe 4 d.refreshReads ++ toLe 2 d.driftRefresh ++ toLe 1 d.scrubPeriod ++ zeros 5)
/-- GET_DROVER_CONFIG (R318). -/
def execGetDroverConfig (p : Path) (input : List Byte) (s : State) : Out := runCmd cmdGetDroverConfig p input s

end Sys2Proof.Machine
end

