-- ==== Sys2Proof/Machine/SealTrav.lean ====
section
/-! DEFINITION. The counter tree's own work: re-seals of rolling leaves (R227, R228), writeback and checkpoints (R229,
R230), replacement of lost nodes (R235 to R237); and the Traverse engine with its commands (R240 to R247). -/

namespace Sys2Proof.Machine

/-! ### Rolls (R227, R228) -/

/-- Whether a re-seal of a parcel is under way: its read, or its program. -/
def resealRuns (s : State) (lpn : Nat) : Bool :=
  s.chans.any (fun c => (c.2.deepWait ++ c.2.banks.flatMap (fun b => bankReads b.2)).any (fun r => r.work == .reseal && r.lpn == lpn) ||
    c.2.wbuf.any (fun w => w.lpn == lpn && w.reseal.isSome))

/-- R227: a line whose next eviction seals at the new MAJOR. -/
def sealsItself (s : State) (lpn : Nat) : Bool :=
  pending s lpn || (match tget s.cache.fills lpn with | some f => f.waiters.any (fun r => r.op == .wr || r.op == .wrPtl) | none => false) ||
  (match (findWay s lpn).map (lineAt s) with
    | some l => l.st == .dirty || l.st == .evicting || (l.st == .filling && l.dirty != 0) | none => false)

/-- R227: the plaintext of a CLEAN, fully VALID line. -/
def cleanData (s : State) (lpn : Nat) : Option Parcel :=
  match (findWay s lpn).map (lineAt s) with
  | some l => if l.st = .clean ∧ l.valid = 15 ∧ !l.poison then some l.data else none
  | none => none

/-- R227: the re-seal of a parcel whose leaf is resident: from its line, or by a read of where the map names it. -/
def resealParcel (part lpn : Nat) (s : State) : State :=
  match lookup s lpn with
  | .zeros => setDone lpn s
  | .poison => resealProgram lpn part none none s
  | .at_ p =>
    match cleanData s lpn with
    | some d => resealProgram lpn part (some d) (some p) s
    | none =>
      if served s p then enqueueRead { lpn := lpn, ppa := p, cls := .bestEffort, part := part, age := tbNow s, work := .reseal } s
      else resealProgram lpn part none (some p) s

/-- ROLL_RESEAL (R227, R228): it pauses with the slots zeroed (R210) and in READ_ONLY, and waits for the replacement of a lost
node (R234). -/
def rollReseal (lpn : Nat) (s0 : State) : State :=
  match tget s0.sealCtl.companions (lpn / 64) with
  | none => s0
  | some c =>
    if c.done.getLsbD (lpn % 64) || s0.sealCtl.zeroed || s0.health.st == 5 || lookupHeld s0 lpn || resealRuns s0 lpn || sealsItself s0 lpn then s0
    else
      let s := fetchPath [] lpn s0
      if underLost s lpn then s else resealParcel c.part lpn s

/-- ROLL_RESEAL (R227). -/
def execRollReseal (lpn : Nat) (s : State) : Out := .next (whenMain (rollReseal lpn) s)

/-! ### Writeback (R229 to R232) -/

/-- R229, R210: whether counter nodes can be written back. -/
def treeMay (s : State) : Bool := !s.sealCtl.zeroed && s.health.st != 5 && s.health.st != 6 && (s.belay.step != 0 || anyProgram s) && !(serving s).isEmpty

/-- R229: the oldest dirty node whose parcel does not wait, once the dirty data exceeds 3/4 of the budget. -/
def oldestDirty (s : State) : Option Nat :=
  if 4 * counterDirty s ≤ 3 * counterBudget s then none
  else s.sealCtl.dirtyOrder.find? (fun k => !parcelWaits s (k / 1099511627776) (k % 1099511627776 / 4))

/-- COUNTER_WRITEBACK (R229): of the node parcel that holds the oldest dirty node over 3/4 of the budget, or of one on the level that a
checkpoint writes. A dirty node's eviction (`evictNode`) writes its parcel back by itself. -/
def counterWriteback (level idx : Nat) (s : State) : State :=
  let dirty := decide (1 ≤ level) && decide (level ≤ 11) && (fourNodes s level (idx / 4)).any (nodeDirty s level)
  let due := s.sealCtl.ckptLevel == some level || (match oldestDirty s with
    | some k => k / 1099511627776 == level && k % 1099511627776 / 4 == idx / 4 | none => false)
  if treeMay s && dirty && due then writeParcel level (idx / 4) s else s

/-- COUNTER_WRITEBACK (R229). -/
def execCounterWriteback (level idx : Nat) (s : State) : Out := .next (whenMain (counterWriteback level idx) s)

/-- COUNTER_CHECKPOINT (R229): every 10 s; one that runs goes on. -/
def counterCheckpoint (s : State) : State :=
  if !treeMay s then s
  else if s.sealCtl.ckptLevel.isSome then treeGoesOn 12 s
  else if tbNow s < s.sealCtl.ckptTb + 10000000000 then s
  else treeGoesOn 12 { s with sealCtl := { s.sealCtl with ckptTb := tbNow s, ckptLevel := some 1 } }

/-- COUNTER_CHECKPOINT (R229). -/
def execCounterCheckpoint (s : State) : Out := .next (whenMain counterCheckpoint s)

/-! ### Lost nodes (R235 to R237) -/

/-- The first LPN beneath a node, and how many lie there. -/
def nodeSpan (level idx : Nat) : Nat × Nat := (idx * 64 * 8 ^ (level - 1), 64 * 8 ^ (level - 1))

/-- The logical legs that a node's range meets. -/
def nodeLegs (level idx : Nat) : List Nat :=
  let sp := nodeSpan level idx
  (List.range (lpnLeg (sp.1 + sp.2 - 1) + 1 - lpnLeg sp.1)).map (fun i => lpnLeg sp.1 + i)

/-- R236: join pieces that meet in the DPA space. -/
def joinPieces : List (Nat × Nat) → List (Nat × Nat)
  | [] => []
  | p :: rest => match joinPieces rest with
    | q :: more => if p.1 + p.2 = q.1 then (p.1, p.2 + q.2) :: more else p :: q :: more
    | [] => [p]

/-- R236: the pieces of a node's range that an LD maps, by DPA. -/
def nodePieces (s : State) (level idx k : Nat) : List (Nat × Nat) :=
  let sp := nodeSpan level idx
  let part := (ldAt s k).map.part
  let ps := (nodeLegs level idx).filterMap (fun g => match posOfLeg s.sad.img.runs g with
    | some (p, pos) => if p = part then (rangeDpa (ldAt s k).map.ranges pos).map (fun d =>
        let lo := max sp.1 (g * 4194304)
        let hi := min (sp.1 + sp.2) ((g + 1) * 4194304)
        (d * gib + (lo - g * 4194304) * 256, (hi - lo) * 256)) else none
    | none => none)
  joinPieces (sortBy (fun a b => decide (a.1 ≤ b.1)) ps)

/-- R236: the event records and poison-list entries of a lost node's range. -/
def reportLost (level idx : Nat) (s : State) : State :=
  forAll (tenantLds s) (fun k t => forAll (nodePieces t level idx k) (fun p u =>
    setChg 3 k (modLd k (fun l => { l with poisonList := l.poisonList ++ [{ dpa := p.1, len := p.2 }] })
      (postEvent [k] 2 { evOf 0x0603 level idx 0 0 with dpa := BitVec.ofNat 64 p.1, len := p.2 } u))) t) s

/-- Change a lost node's entry. -/
def modLost (level idx : Nat) (f : LostNode → LostNode) (s : State) : State :=
  { s with sealCtl := { s.sealCtl with lost := s.sealCtl.lost.map (fun l => if l.level = level ∧ l.idx = idx ∧ !l.replaced then f l else l) } }

/-- R235: what stands of a subtree is forgotten: its nodes, companion lines, losses and programs. -/
def forgetNodes (level idx : Nat) (s : State) : State :=
  let under := fun (l i : Nat) => decide (l ≤ level) && i / 8 ^ (level - l) == idx
  let nodeUnder := fun (k : Nat) => under (k / 1099511627776) (k % 1099511627776)
  let parcelUnder := fun (w : MWork) => match w with | .tree l q _ => decide (l < level) && under l (4 * q) | _ => false
  let c := s.sealCtl
  dropProgs parcelUnder { s with
    sealCtl := { c with
      leaves := c.leaves.filter (fun p => !under 1 p.1), nodes := c.nodes.filter (fun p => !nodeUnder p.1)
      companions := c.companions.filter (fun p => !under 1 p.1), lru := c.lru.filter (fun k => !nodeUnder k), dirtyOrder := c.dirtyOrder.filter (fun k => !nodeUnder k)
      lost := c.lost.filter (fun l => !(under l.level l.idx && !(l.level == level && l.idx == idx))) } }

/-- A node is resident and dirty. -/
def nodeChanged (level idx : Nat) (s : State) : State :=
  if level = 1 then dirtyLeaf idx id s
  else markDirty (nodeKey level idx) (modNode level idx (fun n => { n with dirty := true, cached := true }) s)

/-- R235 steps 2 and 3: the node and every node beneath it are created afresh in epoch e, and the parent's counter rises. The
three other nodes of its parcel are read in first, and are written with it: the spare MAC covers the four parent counters
(R222). -/
def replaceNode (level idx e : Nat) (s0 : State) : State :=
  let others := (fourNodes s0 level (idx / 4)).filter (· ≠ idx)
  let s := dropProgs (fun w => w == .tree level (idx / 4) 0 || w == .tree level (idx / 4) 1) (forAll others (bringSibling level) s0)
  let s1 := forgetNodes level idx s
  let under := fun (l i : Nat) => decide (l ≤ level) && i / 8 ^ (level - l) == idx
  let s2 := { s1 with tree := { s1.tree with fresh := s1.tree.fresh.filter (fun f => !under f.1 f.2.1) ++ [(level, idx, e)] } }
  let s3 := forAll (others.filter (resident s2 level)) (nodeChanged level) (useNode level idx (nodeChanged level idx s2))
  reportLost level idx (emitN true 0x0603 0xFF level idx e (8 ^ (level - 1))
    (modLost level idx (fun l => { l with replaced := true }) (bumpParent level idx s3)))

/-- R236, R237: at epoch 255 a lost node is not replaced: its legs are retired, once and for all boots. -/
def retireNode (level idx : Nat) (s : State) : State :=
  let legs := (nodeLegs level idx).filter (fun g => decide (g < legSpace s) && !s.gate.retiredLegs.contains g)
  let s1 := modLost level idx (fun l => { l with retired := true }) { s with
    gate := { s.gate with retiredLegs := s.gate.retiredLegs ++ legs }, tree := { s.tree with retired := s.tree.retired ++ [(level, idx)] } }
  reportLost level idx (emitN true 0x0608 0xFF level idx (8 ^ (level - 1)) legs.length
    (emitN true 0x0603 0xFF level idx s.sad.img.epoch (8 ^ (level - 1)) s1))

/-- LOST_NODE_REPLACE (R235, R237): the new Summit epoch is set to commit; the nodes are created once it has (R231). -/
def lostNodeReplace (level idx : Nat) (s : State) : State :=
  match s.sealCtl.lost.find? (fun l => l.level = level ∧ l.idx = idx ∧ !l.replaced ∧ !l.retired ∧ l.epoch = none) with
  | none => s
  | some _ =>
    if 255 ≤ s.sad.img.epoch then retireNode level idx s
    else
      let e := s.sad.img.epoch + 1
      modImg [rk 0x12 0] (fun m => { m with epoch := e }) (modLost level idx (fun l => { l with epoch := some e }) s)

/-- LOST_NODE_REPLACE (R235). -/
def execLostNodeReplace (level idx : Nat) (s : State) : Out := .next (whenMain (lostNodeReplace level idx) s)

/-- R235, R231: the epoch has committed: the nodes that wait for it are replaced. -/
def epochCommitted (s : State) : State :=
  if recBusy s (rk 0x12 0) then s
  else forAll (s.sealCtl.lost.filter (fun l => !l.replaced && !l.retired && l.epoch.isSome)) (fun l t => replaceNode l.level l.idx (l.epoch.getD 0) t) s

/-! ### Traverse (R240 to R247) -/

/-- R243: the offset of the next bale at or above a mark, in the occupied positions ascending. -/
def nextBale (s : State) (part mark : Nat) : Option Nat :=
  let ps := ((positions s part).map (·.1)).filter (fun p => decide (mark < (p + 1) * gib))
  match ps with
  | [] => none
  | p :: rest => some (max mark (rest.foldl min p * gib))

/-- The LBI of a partition offset. -/
def baleOfOffset (s : State) (part off : Nat) : Option Nat :=
  (legAt s.sad.img.runs part (off / gib)).map (fun g => g * 16384 + off % gib / 65536)

/-- R247, R210: why a traverse pauses: 0 none, 1 programs impossible, 2 slots zeroed. -/
def pauseCause (s : State) : Nat :=
  if s.sealCtl.zeroed then 2 else if s.health.st = 5 ∨ s.health.st = 6 ∨ !anyProgram s then 1 else 0

/-- R247: the pause's record; an alarm's pause writes none, and its resumption is that of the boot that reloads the slots
(`resumeTraverse`). -/
def travPause (part : Nat) (t : Trav) (s : State) : State :=
  let c := pauseCause s
  if c = t.pause ∨ s.belay.step ≠ 0 then s
  else
    let s1 := modTrav part (fun t => { t with pause := c }) s
    if c = 1 then emit 0x0705 0xFF part s.health.st 0 0 s1 else s1

/-- R243: evictions of a bale that were sealed under OLD_GEN and have not committed. -/
def oldEvictions (s : State) (lbi : Nat) : Bool :=
  s.chans.any (fun c => c.2.wbuf.any (fun w => w.oldGen && !w.dropped && lpnLbi w.lpn == lbi))

/-- R240: RATE bales per second. -/
def rateHolds (s : State) (t : Trav) : Bool := t.rate != 0 && decide (tbNow s < t.lastTb + 1000000000 / t.rate)

/-- R243: a bale that W has passed is re-baled under NEW_GEN, and a bale with nothing written is passed at once; what a re-bale under
way still lacks is asked for again. -/
def traverseOne (part lbi : Nat) (s : State) : State :=
  match tget s.way.rebales lbi with
  | some j => if segmentWhole s lbi j then rebaleCommit lbi s else if j.traverse then buildBale lbi (askReads lbi s) else s
  | none =>
    if (List.range 256).all (fun i => srcOf s (lbi * 256 + i) == .unwritten) then markPast lbi s
    else startRebale true (fastOnly s part) part lbi s

/-- R243: the next bale of a traverse that is not paused. -/
def traverseStep (part : Nat) (t : Trav) (s : State) : State :=
  match nextBale s part t.mark with
  | none => s
  | some off => match baleOfOffset s part off with
    | none => s
    | some lbi =>
      let w := off + 65536
      if t.w < w ∧ rateHolds s t then s
      else
        let s1 := if t.w < w then modTrav part (fun x => { x with w := w, lastTb := tbNow s }) s else s
        if oldEvictions s1 lbi || (List.range 256).any (fun i => lookupHeld s1 (lbi * 256 + i)) then s1 else traverseOne part lbi s1

/-- TRAVERSE_BALE (R243, R244, R247): no sooner than RATE allows. -/
def traverseBale (part : Nat) (s0 : State) : State :=
  match tget s0.travs part with
  | none => s0
  | some t =>
    let s := travPause part t s0
    if pauseCause s0 ≠ 0 || t.phase ≠ 0 || !maintMay s then s else traverseStep part t s

/-- TRAVERSE_BALE (R243). -/
def execTraverseBale (part : Nat) (s : State) : Out := .next (whenMain (traverseBale part) s)

/-- R245: the working marks are put in the TRAVERSE records and set to commit. -/
def commitMarks (s : State) : State :=
  forAll s.travs (fun p u => match tget u.sad.img.travs p.2.inst with
    | some r => if r.mark = p.2.mark then u else modImg [rk 8 p.2.inst] (fun m => { m with travs := tset m.travs p.2.inst { r with mark := p.2.mark } }) u
    | none => u) s

/-- TRAVERSE_MARK_COMMIT (R245). -/
def execTraverseMarkCommit (s : State) : Out := .next (whenMain commitMarks s)

/-- R245: the committed MARK of each traverse whose record is committed. -/
def marksCommitted (s : State) : State :=
  forAll s.travs (fun p u => if recBusy u (rk 8 p.2.inst) then u else match tget u.sad.img.travs p.2.inst with
    | some r => modTrav p.1 (fun t => { t with committed := r.mark }) u
    | none => u) s

/-- R246: the first group of a finish: KEY_GEN is NEW_GEN, the NEXT wrap takes the CUR wrap's place, the record goes. -/
def finishFirst (part : Nat) (t : Trav) (s : State) : State :=
  modImg [rk 3 part, rk 7 part, rk 7 (1024 + t.inst), rk 8 t.inst] (fun m => { m with
      parts := tmod m.parts part {} (fun r => { r with keyGen := t.newGen })
      wraps := match tget m.wraps (1024 + t.inst) with
        | some w => tset (tdel m.wraps (1024 + t.inst)) part w | none => tdel m.wraps (1024 + t.inst)
      travs := tdel m.travs t.inst }) (modTrav part (fun t => { t with phase := 1, w := 70368744177664 }) s)

/-- TRAVERSE_FINISH (R246). -/
def traverseFinish (part : Nat) (s : State) : State :=
  match tget s.travs part with
  | none => s
  | some t =>
    if t.phase ≠ 0 || (nextBale s part t.mark).isSome || !(isActive s part) || s.chans.any (fun c => c.2.wbuf.any (fun w => w.oldGen && w.part == part)) || s.sealCtl.zeroed then s
    else finishFirst part t s

/-- TRAVERSE_FINISH (R246). -/
def execTraverseFinish (part : Nat) (s : State) : Out := .next (whenMain (traverseFinish part) s)

/-- R246: the first commit is followed by a second of the same wraps; after it the old key set leaves the slot. DESIGN CHOICE: after a reset between
the two commits, the second is not made and record 0x0702 not written (log 86). -/
def finishStep (part : Nat) (t : Trav) (s : State) : State :=
  let busy := [rk 3 part, rk 7 part, rk 7 (1024 + t.inst), rk 8 t.inst].any (recBusy s)
  if busy ∨ t.phase = 0 then s
  else if t.phase = 1 then markRecs [rk 7 part, rk 7 (1024 + t.inst)] (modTrav part (fun t => { t with phase := 2 }) s)
  else
    let s1 := modSlot part (fun k => { cur := k.nxt, nxt := none }) { s with travs := tdel s.travs part }
    emit 0x0702 0xFF part t.newGen.toNat t.bales ((tbNow s - t.startTb) / 1000000000) s1

/-- R246: the finishes whose commits are done go on. -/
def advanceFinish (s : State) : State := forAll s.travs (fun p u => finishStep p.1 p.2 u) s

/-- TRAVERSE (R240, R241). -/
def cmdTraverse : Cmd :=
  { op := 0xC400, len := lenIs 8, rsvd := [(2, 2)], body := fun _ i s =>
      let part := fld i 0 2
      let rate := fld i 4 4
      if 1024 ≤ part then (rej 2 0x0D84 0, s)
      else if !isActive s part then (rej 2 0x0280 0, s)
      else if s.sealCtl.zeroed then (rej 6 0x0781, s)
      else match (tget s.travs part).filter (fun t => t.phase ≠ 0) with
      | some t => ({ out := toLe 2 t.newGen.toNat }, modTrav part (fun t => { t with rate := rate }) s)
      | none => match s.sad.img.travs.find? (fun p => p.2.part = part) with
        | some (n, r) => ({ out := toLe 2 r.newGen.toNat, recs := [rk 8 n], done := .traverse n },
            modImg [rk 8 n] (fun m => { m with travs := tset m.travs n { r with rate := rate } }) s)
        | none =>
          if 16 ≤ s.sad.img.travs.length then (rej 0x1D 0x0780, s)
          else
            let n := firstAbsent 17 0 (tkeys s.sad.img.travs)
            let old := ((partRec s part).getD {}).keyGen
            let r : TravRec := { part := part, oldGen := old, newGen := old + 1, rate := rate, mark := firstOffset s part }
            ({ out := toLe 2 r.newGen.toNat, recs := [rk 8 n, rk 7 (1024 + n)], done := .traverse n },
             modImg [rk 8 n] (fun m => { m with travs := tset m.travs n r }) (wrapNew part (1024 + n) r.newGen s)) }
/-- TRAVERSE (R240). -/
def execTraverse (p : Path) (input : List Byte) (s : State) : Out := runCmd cmdTraverse p input s

/-- GET_TRAVERSE (R417). -/
def cmdGetTraverse : Cmd :=
  { op := 0xC401, len := lenIs 2, body := fun p i s =>
      let part := fld i 0 2
      if 1024 ≤ part then (rej 2 0x0D84 0, s)
      else if !ownsPart s p part then (rej 2 0x0287 0, s)
      else
        let gen := match partRec s part with | some r => r.keyGen.toNat | none => 0
        let out := match tget s.travs part with
          | some t => [1, BitVec.ofNat 8 (pauseCause s)] ++ toLe 2 gen ++ toLe 2 t.oldGen.toNat ++ toLe 2 t.newGen.toNat ++
              toLe 8 t.w ++ toLe 8 t.committed ++ toLe 4 t.rate ++ toLe 4 t.bales
          | none => [0, 0] ++ toLe 2 gen ++ zeros 28
        ({ out := out ++ toLe 4 (baleTotal s part) }, s) }
/-- GET_TRAVERSE (R417). -/
def execGetTraverse (p : Path) (input : List Byte) (s : State) : Out := runCmd cmdGetTraverse p input s

end Sys2Proof.Machine
end

