-- ==== Sys2Proof/Machine/Commit.lean ====
section
/-! DEFINITION. The keeper's stores: commit groups (R455, R460, R462 to R465), what each commit lets go on, recall (R466
to R468, with the outcomes of R459), the keeper's supply (R453 to R457) and its power-on reset (R543). -/

namespace Sys2Proof.Machine

/-! ### Commit groups -/

/-- R455, R591: a store that fails the supply check waits. -/
def holdStore (s : State) : State :=
  let wait := match s.sad.heldSince with | some t => (tbNow s - t) / 1000 | none => 0
  let s1 := bumpMax 0x1005 4 wait (bumpMin 0x1005 3 s.keeper.ek (bumpMin 0x1005 2 s.keeper.vddKeep s))
  if s.sad.heldSince.isSome then s1
  else bump 0x1005 1 1 { s1 with sad := { s1.sad with heldSince := some (tbNow s) } }

/-- R241, R246: the records of a TRAVERSE instance that change together: with its NEXT wrap, and at a finish with the partition and
its CUR wrap. -/
def travBundle (s : State) (i : Nat) : List Nat :=
  [rk 8 i, rk 7 (1024 + i)] ++ (match s.travs.find? (fun p => p.2.inst = i ∧ p.2.phase = 1) with
    | some (part, _) => [rk 3 part, rk 7 part] | none => [])

/-- R459, R462: an LD_MAP record changes together with the RANGES records that hold its ranges. -/
def rangeBundle (s : State) (i : Nat) : List Nat :=
  let m := tgetD s.sad.img.ldMaps i {}
  [rk 5 i] ++ (List.range (m.ranges.length / 64 + 2)).map (fun j => rk 6 (m.first / 64 + j))

/-- R462: what must be committed in one group, at most so many times over: a bundle with a dirty record outside the group leaves it. -/
def cutBundles (bundles : List (List Nat)) (d : List Nat) : Nat → List Nat → List Nat
  | 0, g => g
  | n + 1, g =>
    let cut := bundles.filter (fun b => (b.filter d.contains).any (fun k => !g.contains k))
    cutBundles bundles d n (g.filter (fun k => !cut.any (fun b => b.contains k)))

/-- R231, R241, R246, R459: the records that must be committed in one group. -/
def bundlesOf (s : State) : List (List Nat) :=
  (List.range 16).map (travBundle s) ++
    (s.sad.dirty.filter (fun k => k / 65536 == 5)).map (fun k => rangeBundle s (k % 65536))

/-- R462, R231, R241, R246: the records of the next group: a Summit epoch by itself, else at most 64, with what must be committed in
one group whole or not at all; where nothing is left so, the first 64. -/
def nextGroup (s : State) : List Nat :=
  let d := s.sad.dirty
  if d.contains (rk 0x12 0) then [rk 0x12 0]
  else
    let g := cutBundles (bundlesOf s) d 64 (d.take 64)
    if g.isEmpty then d.take 64 else g

/-- R462: at most 1,000 groups start in a second. -/
def groupsSpent (s : State) : Bool := s.sad.groupSec == secondNow s && decide (1000 ≤ s.sad.groupsNow)

/-- R463 steps 1 and 2: the group's records are copied into the store buffer. -/
def startGroup (s : State) : State :=
  let ks := nextGroup s
  { s with sad := { s.sad with running := some (captureGroup ks s), heldSince := none, groupSec := secondNow s
                               groupsNow := (if s.sad.groupSec = secondNow s then s.sad.groupsNow else 0) + 1
                               dirty := s.sad.dirty.filter (fun k => !ks.contains k) } }

/-- COMMIT_GROUP (R455, R462, R463, R465): none starts while one runs, during a recall, in a flush, or after the second's 1,000. -/
def commitGroup (s : State) : State :=
  if s.sad.running.isSome || s.sad.dirty.isEmpty || s.sad.recalling || s.belay.step != 0 || groupsSpent s then s
  else if storeAllowed s then startGroup s else holdStore s

/-- COMMIT_GROUP (R463). -/
def execCommitGroup (s : State) : Out := .next (whenMain commitGroup s)

/-- R111: the latch entries whose freezes the committed FREEZE records hold are clear. -/
def clearLatch (s : State) : State :=
  let kept := fun (f : Freeze) => !(tget s.sad.img.freezes (freezeSlot f.master) == some f && !recBusy s (rk 9 (freezeSlot f.master / 64)))
  { s with keeper := { s.keeper with latch := s.keeper.latch.filter kept, latchArea := s.keeper.latchArea.filter kept } }

/-- R353: a commit of STATE = 0 outside a flush clears the flush-state latch and its area. -/
def clearFlushLatch (s : State) : State :=
  if s.belay.step = 0 ∧ s.sad.img.flush.state = 0 ∧ !recBusy s (rk 15 0) then
    { s with belay := { s.belay with latch := none }, keeper := { s.keeper with flushArea := none } } else s

/-- R86: the legs whose return a departing partition waits for, by its command if one runs. -/
def departLegs (s : State) (part : Nat) : List Nat :=
  ((allPaths s).filterMap (jobOf s)).flatMap (fun j => match j with
    | .deletePart p legs _ _ => if p = part then legs else []
    | _ => [])

/-- R86, R248, R250: every departing partition takes its next step. -/
def advanceDeparting (s : State) : State :=
  forAll (s.sad.img.parts.filter (fun p => p.2.st == .departing)) (fun p t =>
    advanceErase p.1 (legsReturned t (departLegs t p.1)) t) s

/-- R85, R86, R289: a background command whose last commit is done completes. -/
def finishJob (p : Path) (s : State) : State :=
  match jobOf s p with
  | some (.removeLegs legs) => if legsReturned s legs then endBg p 0 0 s else s
  | some (.deletePart part legs gens t0) =>
    if (partRec s part).isNone ∧ !recBusy s (rk 3 part) then
      endBg p 0 0 (emit 0x060A 0xFF part gens legs.length ((tbNow s - t0) / 1000000) s) else s
  | some (.adopt c _) => if recBusy s (rk 12 c) then s else endBg p 0 0 (adopted c s)
  | _ => s

/-- What a group's commit lets go on. -/
def afterCommit (s : State) : State :=
  let s1 := clearFlushLatch (clearLatch s)
  let s2 := advanceDeparting (finishFreeing (advanceDrops s1))
  let s3 := forAll (allPaths s2) finishJob s2
  completeWaiting (advanceFinish (marksCommitted (epochCommitted (roundCommitted s3))))

/-- COMMIT_GROUP_COMPLETE (R401, R463): the group is reported committed. -/
def commitGroupComplete (s : State) : State :=
  if s.sad.running.isSome then afterCommit (finishStore s) else s

/-- COMMIT_GROUP_COMPLETE (R463). -/
def execCommitGroupComplete (s : State) : Out := .next (whenMain commitGroupComplete s)

/-- STORE_SUPPLY_RECHECK (R455): the supply's readings are taken, and a store that waits starts if they pass. -/
def storeSupplyRecheck (vdd ek : Nat) (s0 : State) : State :=
  let s := extremeLo 10 vdd { s0 with keeper := { s0.keeper with vddKeep := vdd, ek := ek } }
  let s1 := if s.keeper.summitWaits && storeAllowed s then storeSummit s else s
  if s1.sad.heldSince.isSome then commitGroup s1 else s1

/-- STORE_SUPPLY_RECHECK (R455). -/
def execStoreSupplyRecheck (vddKeepMv ekUj : Nat) (s : State) : Out :=
  .next (if s.keeper.stopped then s else storeSupplyRecheck vddKeepMv ekUj s)

/-- STORE_HELD_TIMEOUT (R460). -/
def execStoreHeldTimeout (s : State) : Out :=
  .next (whenMain (fun s => match s.sad.heldSince with
    | some t => if t + 10000000 ≤ tbNow s then failWaiting s else s
    | none => s) s)

/-! ### Recall -/

/-- R459: the RUNNING state that a lost FLUSH_STATE is taken as. -/
def flushRunning : FlushRec := { state := 0 }

/-- R459: the freezes that stand for a lost FREEZE record: each of its masters, with trigger code 0. No rule states the
rest of such an entry: it is a free value. -/
def lostFreezes (fm inst : Nat) : Tbl Freeze :=
  (List.range 64).filterMap (fun i => (slotMaster fm (inst * 64 + i)).map (fun m =>
    let v := fun (k : Nat) => Config.free 0x1003 (k * 4096 + inst * 64 + i)
    (inst * 64 + i, { master := m, code := 0, addr := BitVec.ofNat 64 (v 0), detail := v 1 % 4294967296, tb := v 2 })))

/-- R459: what the working SRAM holds for a record of which no copy is valid. Types whose outcome is a BLANK, initial or
default value have it already. -/
def lostBody (key : Nat) (m : SadImage) : SadImage :=
  let i := key % 65536
  match key / 65536 with
  | 3 => { m with parts := tset m.parts i {} }
  | 6 => { m with ldMaps := m.ldMaps.filter (fun p => p.2.held = 0 || decide (64 * i + 64 ≤ p.2.first) || decide (p.2.first + p.2.held ≤ 64 * i)) }
  | 8 => (match tget m.wraps (1024 + i) with
    | some w =>
      let mark := (match (positionsOf m.runs w.part).map (·.1) with | [] => 0 | p :: ps => ps.foldl min p) * gib
      { m with travs := tset m.travs i { part := w.part, oldGen := (tgetD m.parts w.part {}).keyGen, newGen := w.gen, rate := 0, mark := mark } }
    | none => m)
  | 9 => { m with freezes := putAll (lostFreezes (m.portCfg.mgmt.getD 0) i) m.freezes }
  | 15 => { m with flush := flushRunning }
  | 18 => { m with epoch := 255 }
  | _ => m

/-- R466 to R468: the working SRAM as recall leaves it. -/
def recalledImage (r : Recalled) : SadImage :=
  r.taken.foldl (fun m t => if t.gone then lostBody t.key m else m) (recallImage r)

/-- R467, R468: records 0x1002, 0x1003, 0x1004 and 0x1001. -/
def recallRecords (r : Recalled) (us : Nat) (s : State) : State :=
  let s1 := forAll r.taken (fun t u =>
    let u1 := if t.tie then emit 0x1002 0xFF (t.key / 65536) (t.key % 65536) (match t.copy with | some c => c.seq | none => 0) 0 u else u
    if t.gone then emit 0x1003 0xFF (t.key / 65536) (t.key % 65536) 0 0 u1 else u1) s
  let s2 := match r.rolled with | some (g, n, k) => emit 0x1004 0xFF g n k 0 s1 | none => s1
  let took := r.taken.filter (fun t => t.copy.isSome)
  let older := r.taken.filter (fun t => match t.copy, t.other with | some c, some o => newer o.seq c.seq | _, _ => false)
  emit 0x1001 0xFF took.length older.length (r.taken.filter (·.gone)).length us s2

/-- R459, R207: the instances of a type of which no copy was valid. -/
def lostOf (r : Recalled) (typ : Nat) : List Nat :=
  (r.taken.filter (fun t => t.gone && t.key / 65536 == typ)).map (fun t => t.key % 65536)

/-- R111, R466: the freeze latch and its area are merged into the FREEZE records. -/
def mergeLatch (s : State) : State :=
  let fs := s.keeper.latchArea ++ s.keeper.latch
  if fs.isEmpty then s
  else modImg (fs.map (fun f => rk 9 (freezeSlot f.master / 64))) (fun m => { m with
    freezes := fs.foldl (fun t f => tset t (freezeSlot f.master) f) m.freezes }) s

/-- R353, R466: a flush-state latch or area that is set replaces the recalled FLUSH_STATE. -/
def mergeFlush (s : State) : State :=
  match (match s.belay.latch with | some f => some f | none => s.keeper.flushArea) with
  | some f => { s with sad := { s.sad with img := { s.sad.img with flush := f } } }
  | none => s

/-- R466 to R468: a recall that has ended, before its merges are committed. -/
def recallNow (bad : List (Nat × Nat × Bool × Bool)) (us : Nat) (s : State) : State :=
  let r := recallSlots s.sad.slots bad
  let s1 := recallRecords r us s
  mergeFlush (mergeLatch { s1 with sad := { s1.sad with
    img := recalledImage r, ahead := recallAhead r, dirty := [], running := none, recalling := false, heldSince := none } })

/-- RECALL_COMPLETE (R466, R468): the recall of a keeper POR ends. The recall of a main-die reset ends within its boot. No
rule states its duration, which is a free value. -/
def execRecallComplete (s : State) : Out :=
  .next (if s.sad.recalling ∧ !s.mainUp ∧ !s.keeper.stopped then recallNow [] (freeVal s 0x1001) (drawn s) else s)

/-! ### The keeper's supply -/

/-- Every staged record is stored, oldest first, with the drops. -/
def storeStaging (s : State) : State :=
  let c := s.cairn
  let all := c.staging ++ (if c.dropCount = 0 then [] else [{ mkRec s 0x1101 0xFF c.dropCount c.dropFirst 0 0 false with flags := 4 }])
  { s with cairn := { c with stored := all.reverse ++ c.stored, staging := [], dropCount := 0, dropFirst := 0 } }

/-- KEEPER_SUPPLY_FALL (R456): the running store finishes, then the final store in its order; the keeper
stops, and every enable is off with it (R490, R511). -/
def keeperSupplyFall (vdd ek : Nat) (s0 : State) : State :=
  let s := finishStore (extremeLo 10 vdd { s0 with keeper := { s0.keeper with vddKeep := vdd, ek := ek } })
  let r := mkRec s 0x1007 0xFF vdd ek (if s.rope.en ≠ 0 ∨ s.mainUp then 1 else 0) 0 false
  let s1 := { s with cairn := { s.cairn with stored := r :: s.cairn.stored } }
  let s2 := storeStaging (if s1.keeper.summitChanged then storeSummit s1 else s1)
  let s3 := storeStaging (closeEpoch true s2)
  { s3 with rope := { s3.rope with en := 0 }, keeper := { s3.keeper with
      storedTb := s3.keeper.lastTb + s3.keeper.since, latchArea := s3.keeper.latch
      flushArea := (match s3.belay.latch with | some f => some f | none => s3.keeper.flushArea), stopped := true } }

/-- KEEPER_SUPPLY_FALL (R456). -/
def execKeeperSupplyFall (vddKeepMv ekUj : Nat) (s : State) : Out :=
  .next (if s.keeper.stopped then s else keeperSupplyFall vddKeepMv ekUj s)

/-- R230: whether a stored copy of the Summit fails its CRC-32C at a recall: the spec does not say which copy is damaged when, so
it is a free value (log 69). -/
def summitBad (s : State) (copy : Nat) : Bool := (freeVal s (0x23000 + copy)).testBit 0

/-- R230: a stored copy, where it is valid. -/
def validCopy (s : State) (copy : Nat) (x : Option (Nat × Vector (BitVec 56) 8)) : Option (Nat × Vector (BitVec 56) 8) :=
  match x with
  | some v => if summitBad s copy then none else some v
  | none => none

/-- R230: the Summit copy that recall takes, and record 0x0609 for one that is not valid. -/
def recallSummit (s : State) : State :=
  let put := fun (x : Nat × Vector (BitVec 56) 8) (t : State) => { t with keeper := { t.keeper with
    summit := x.2, summitSeq := x.1, summitChanged := false, summitWaits := false } }
  match s.keeper.nvA, s.keeper.nvB with
  | some a, some b => put (if b.1 ≤ a.1 then a else b) s
  | some a, none => emit 0x0609 0xFF 1 a.1 0 0 (put a s)
  | none, some b => emit 0x0609 0xFF 0 b.1 0 0 (put b s)
  | none, none => put (0, Vector.replicate 8 0) s

/-- KEEPER_POR (R543, R457, R466, R497, R68): keeper logic and SRAM, RESET_INFO, the event logs and working copies are
reset, Rope is in HOLDOFF, and the recall begins. The shadow copies, Cairn's array, the fuses, the medium, the flash and
the security counter stay. -/
def keeperPor (s0 : State) : State :=
  let s := finishStore (if s0.mainUp then mainReset s0 else s0)
  let k := s.keeper
  let n : Keeper := {
    latch := k.latchArea, latchArea := k.latchArea, flushArea := k.flushArea, lastTb := k.storedTb, storedTb := k.storedTb
    nvA := validCopy s0 0 k.nvA, nvB := validCopy s0 1 k.nvB, resetTb := k.storedTb, life := k.life, root := k.root, rbg := k.rbg
    newPors := k.newPors + 1, newPowerUps := k.newPowerUps, newRestarts := k.newRestarts }
  recallSummit { s with
    freeCtr := s.freeCtr + 1, mainUp := false, keeper := n, rope := { holdTb := k.storedTb }, therm := {}, relay := {}
    belay := { s.belay with latch := none }
    cairn := { s.cairn with staging := [], dropCount := 0, dropFirst := 0, resetTb := none, epochCycles := 0
                            epoch := { number := s.cairn.life.number + 1, startTb := k.storedTb } }
    reck := { s.reck with counts := [] }
    sad := { s.sad with img := recallImage (recallSlots s.sad.slots []), ahead := recallAhead (recallSlots s.sad.slots []), dirty := [], running := none, recalling := true, heldSince := none } }

/-- KEEPER_POR (R543). -/
def execKeeperPor (s : State) : Out := .next (keeperPor s)

/-- KEEP_HOLD_MEASURE (R454): C_KH = 10 mA × t ÷ 0.2 V, in µF. -/
def keepHoldMeasure (tUs : Nat) (s : State) : State :=
  let c := tUs / 20
  let s1 := { s with keeper := { s.keeper with cKh := c } }
  if tUs < 16000 then
    let s2 := emit 0x1008 0xFF c 0 0 0 s1
    if s.mainUp then postEvent (mgmtLds s) 1 (evOf 0x1008 c 0 0 0) s2 else s2
  else s1

/-- KEEP_HOLD_MEASURE (R454). -/
def execKeepHoldMeasure (tUs : Nat) (s : State) : Out := .next (if s.keeper.stopped then s else keepHoldMeasure tUs s)

/-- KEEPER_LINK_LOSS (R457, R546): a fatal-fault reset without a flush. No rule states the values of record 0x1603 for this
cause. -/
def execKeeperLinkLoss (s : State) : Out :=
  .next (whenMain (fun s => fatalFault 4 (freeVal s 0) (freeVal s 1) (freeVal s 2 % 4) (drawn s)) s)

end Sys2Proof.Machine
end

