-- ==== Sys2Proof/Machine/Reckoner.lean ====
section
/-! DEFINITION. The Reckoner: the timebase's states, edges, slews and steps (R361 to R369), minutes and their records
(R370 to R380, R591), the meter ring and ledger (R381 to R386), and the commands of family 0xC2xx (R389, R416). -/

namespace Sys2Proof.Machine

/-- Change the Reckoner. -/
def modReck (f : Reck → Reck) (s : State) : State := { s with reck := f s.reck }

/-! ### Per-minute records (R591) -/

/-- A parameter of a code's count in a closed minute. -/
def cntOf (t : Tbl Nat) (code par : Nat) : Nat := tgetD t (code * 4 + par - 1) 0

/-- The channel with most counts of a code, ties to the lower number. -/
def mostOf (t : Tbl Nat) (code : Nat) : Nat :=
  ((ids32.map (fun c => (c, tgetD t (16777216 + code * 32 + c) 0))).foldl
    (fun (m : Nat × Nat) p => if m.2 < p.2 then p else m) (0, 0)).1

/-- A record whose parameters are its counts as they stand, written when the first is non-zero. -/
def plainRec (t : Tbl Nat) (code : Nat) (s : State) : State :=
  let v := cntOf t code
  if v 1 = 0 then s else emit code 0xFF (v 1) (v 2) (v 3) (v 4) s

/-- A record that names the channel with most, its second parameter being a number or the count of a bitmap. -/
def mostRec (t : Tbl Nat) (code : Nat) (bitmap : Bool) (s : State) : State :=
  let v := cntOf t code
  if v 1 = 0 ∧ v 2 = 0 then s else emit code 0xFF (v 1) (if bitmap then popNat (v 2) else v 2) (mostOf t code) 0 s

/-- R80: one record for each port whose replays exceeded 1,000. No rule states its parameters. -/
def replayRecs (t : Tbl Nat) (s : State) : State :=
  forAll (ids32.filter (fun p => decide (1000 < tgetD t (16777216 + 0x0103 * 32 + p) 0))) (fun p u => emitOpen 0x0103 p u) s

/-- R334: tiles and segments whose refresh is due, while READ_ONLY holds them. -/
def dueRec (s : State) : State :=
  let fast := (s.way.map.tiles.filter (fun p => p.2.cls == .fast && decide (s.way.drover.refreshReads ≤ p.2.reads))).length
  let dense := (s.way.map.bales.filter (fun p => driftDue s p.1)).length
  if s.health.st = 5 ∧ 0 < fast + dense then emit 0x090A 0xFF fast dense 0 0 s else s

/-- The records of a minute whose parameters need more than their counts. -/
def shapedRecs (t : Tbl Nat) (s : State) : State :=
  let v := cntOf t
  let any := fun (c : Nat) => decide (0 < v c 1 + v c 2 + v c 3 + v c 4)
  let limit := ((s.sealCtl.companions.map (fun p => p.2.part)).eraseDups.filter (fun p => decide (1024 ≤ rollsOf s p))).length
  let w := fun (c a b d e : Nat) (x : Bool) (u : State) => if x then emit c 0xFF a b d e u else u
  let s1 := w 0x0507 (v 0x0507 1) (popNat (v 0x0507 2)) (v 0x0507 3) (v 0x0507 4) (any 0x0507) s
  let s2 := w 0x0605 (v 0x0605 1) (v 0x0605 2) s.sealCtl.companions.length limit (any 0x0605) s1
  let s3 := w 0x0803 (v 0x0803 1 / 1048576) (v 0x0803 2) (v 0x0803 3) 0 (decide (1048576 ≤ v 0x0803 1) || decide (0 < v 0x0803 2 + v 0x0803 3)) s2
  let s4 := w 0x0905 (v 0x0905 1) (v 0x0905 2) (v 0x0905 3) (v 0x0905 4) (any 0x0905) s3
  let s5 := w 0x0909 (v 0x0909 1) (popNat (v 0x0909 2)) 0 0 (any 0x0909) s4
  let s6 := w 0x0A0F (v 0x0A0F 1) (popNat (v 0x0A0F 2)) (v 0x0A0F 3) 0 (any 0x0A0F) s5
  let s7 := w 0x0E01 (v 0x0E01 1) (v 0x0E01 2) (popNat (v 0x0E01 3)) (v 0x0E01 4 / 1024) (any 0x0E01) s6
  let s8 := w 0x0E06 (v 0x0E06 1) (v 0x0E06 2) (popNat (v 0x0E06 3)) 0 (any 0x0E06) s7
  let s9 := w 0x0F07 (v 0x0F07 1) (v 0x0F07 2) (v 0x0F07 3) (v 0x0F07 4) (decide (0 < v 0x0F07 3)) s8
  let s10 := w 0x0F09 (v 0x0F09 1) (v 0x0F09 2) (v 0x0F09 3) 0 (decide (0 < v 0x0F09 1 + v 0x0F09 2)) s9
  let s11 := w 0x1402 (v 0x1402 1 / 1000) (v 0x1402 2) (v 0x1402 3) 0 (decide (0 < v 0x1402 1)) s10
  w 0x1404 (v 0x1404 1) (v 0x1404 2 / 1000000) (v 0x1404 3) 0 (decide (0 < v 0x1404 1 + v 0x1404 2)) s11

/-- R591: every per-minute record of a sealed minute. -/
def minuteRecs (t : Tbl Nat) (s : State) : State :=
  let s1 := forAll [0x0304, 0x0307, 0x0401, 0x0501, 0x0807, 0x0904, 0x0B01, 0x0D02, 0x0E05, 0x1005] (plainRec t) (replayRecs t s)
  let s2 := mostRec t 0x0402 false (mostRec t 0x0A09 false (mostRec t 0x0A0C true (mostRec t 0x0A0E false s1)))
  dueRec (shapedRecs t s2)

/-- The code of the event that tells a tenant of its discarded writes (R44). -/
def evDiscarded : Nat := 0x0CE2

/-- R44: in READ_ONLY an LD's event log gets one record a minute with its count of discarded writes. -/
def discardedEvents (s : State) : State :=
  forAll ((s.ports.lds.filter (fun p => p.2.discarded ≠ 0)).map (fun p => (p.1, p.2.discarded))) (fun p t =>
    modLd p.1 (fun l => { l with discarded := 0 }) (postEvent [p.1] 1 (evOf evDiscarded p.2 0 0 0) t)) s

/-! ### Minutes (R376 to R380) -/

/-- R376. -/
def minuteOf (t : Nat) : Nat := t / 60000000000

/-- R370: the flags that the states in force set in the minute. -/
def flagsNow (s : State) : BitVec 8 :=
  (if s.reck.tod = .set then 0 else 2) ||| (if s.reck.st = .locked ∨ s.reck.st = .free then 0 else 4) |||
  (if s.reck.st = .refLost then 8 else 0)

/-- R370: the open minute carries the flags of the states in force. -/
def markFlags (s : State) : State :=
  modReck (fun r => { r with openBank := { r.openBank with flags := r.openBank.flags ||| flagsNow s } }) s

/-- R591: whether a count belongs to an epoch. -/
def perHour (k : Nat) : Bool := k / 4 == 0x0804 || k / 4 == 0x1308

/-- R377, R379, R591: the open bank becomes the closing one, and a cleared bank opens a minute. -/
def swapMinute (closeTs : Nat) (flags : BitVec 8) (next : Nat) (nextFlags : BitVec 8) (s0 : State) : State :=
  let s := markFlags (bumpMax 0x0803 2 s0.way.peakStash (bumpMax 0x0803 1 s0.way.peakPop s0))
  let live := tkeys s.sad.img.parts
  let b := s.reck.openBank
  let done : MinuteBank := { b with
    closeTs := closeTs, flags := b.flags ||| flags, counts := s.reck.counts.filter (fun p => !perHour p.1)
    recs := live.foldl (fun t p => tmod t p {} id) b.recs }
  let s1 := modReck (fun r => { r with
    closing := some done, openBank := { minute := next, flags := nextFlags }, openAge := 0
    counts := r.counts.filter (fun p => perHour p.1) }) s
  markFlags { s1 with way := { s1.way with peakPop := s1.way.map.overlay.length, peakStash := s1.way.stashUsed } }

/-- R384: a tile of the ledger is to be reset whole. -/
def resetLedgerTile (k : Nat) (s : State) : State :=
  let seqs := (List.range 16).map (fun g => PulseSeq.reset k g true 0 0 (tileAt s k).deferStage)
  if (tileAt s k).st != .full || !inService (chan s (tileCh k)) then s
  else modBank (tileCh k) (tileBank k) (fun b => { b with planned := b.planned ++ seqs }) (modTile k (fun y => { y with st := .resetting }) s)

/-- R384: the slots whose turn comes as the open minute moves on from a minute: those that follow a slot whose position 6 it
reaches. -/
def slotsReached (o m : Nat) : List Nat :=
  (List.range (min 8100 ((m + 2) / 8 - (o + 2) / 8))).map (fun i => ((m + 2) / 8 - i) % 8100)

/-- R384: the next slot's tiles are reset as the open minute reaches position 6 of a slot: its old minutes are erased. -/
def resetSlots (o : Nat) (s : State) : State :=
  if s.boot.recovering then s
  else forAll (((slotsReached o s.reck.openBank.minute).flatMap (fun q => [q, 8192 + q])).filterMap (tget s.sad.img.ledgerChain)) resetLedgerTile s

/-- The oldest sealed minute that is not committed, with its ring slot. -/
def oldestOpen (s : State) : Option (Nat × RingSlot) :=
  (s.reck.ring.filter (fun p => !p.2.committed)).foldl (fun (m : Option (Nat × RingSlot)) p => match m with
    | none => some p
    | some x => if p.2.bank.minute < x.2.bank.minute then some p else some x) none

/-- R382: both tiles of a minute's ledger slot, taken and chained if the slot has none yet. -/
def chainSlot (p : Nat) (s : State) : Option State :=
  let n := p / 8
  let one := fun (k : Nat) (t : State) =>
    if thas t.sad.img.ledgerChain k then some t
    else (takeLedgerTile ((tget t.sad.img.ledgerChain ((k + 8192) % 16384)).map tileCh) t (serving t)).map (fun r => setChain k r.1 r.2)
  (one n s).bind (one (8192 + n))

/-- R383: the oldest sealed minute that is not committed is programmed, one block at a time. -/
def ledgerStart (s : State) : State :=
  if s.reck.block.isSome || !ledgerMay s then s
  else match oldestOpen s with
    | none => s
    | some (_, r) => match chainSlot (r.bank.minute % 64800) s with
      | none => s
      | some t => ledgerFeed (modReck (fun x => { x with block := some r.bank.minute, blockNext := 0 }) t)

/-- R381, R383, R462: the closing bank is sealed into the ring, its records are written, TIMEKEEP is set to
commit, and the block's programs start. -/
def sealClosing (s : State) : State :=
  match s.reck.closing with
  | none => s
  | some b =>
    let s1 := modReck (fun r => { r with
      closing := none, lastClosed := some b.minute
      ring := tset r.ring (b.minute % 1440) { bank := { b with counts := [] }, sealTb := tbNow s } }) s
    let k : TimeKeep := { adj := s.reck.adj, lastMinute := b.minute, tod := s.reck.tod, clocks := ids32.map (fun c => (chan s c).clock / 1048576) }
    ledgerStart (modImg [rk 17 0] (fun m => { m with keep := k })
      (discardedEvents (minuteRecs b.counts { s1 with planner := { s1.planner with lastMisses := cntOf b.counts 0x0401 1 } })))

/-- MINUTE_BOUNDARY (R377, R378): TB has entered a later minute. In bivouac mode no record is made (R372). -/
def minuteBoundary (s : State) : State :=
  let m := minuteOf (tbNow s)
  if !s.boot.running || decide (m ≤ s.reck.openBank.minute) then s
  else
    let long : BitVec 8 := if 60000000000 < s.reck.openAge then 32 else 0
    resetSlots s.reck.openBank.minute (swapMinute ((s.reck.openBank.minute + 1) * 60000000000) long m 0 (sealClosing s))

/-- MINUTE_BOUNDARY (R377). -/
def execMinuteBoundary (s : State) : Out := .next (whenMain minuteBoundary s)

/-- MINUTE_SEAL (R377): 10 µs after the boundary. -/
def execMinuteSeal (s : State) : Out :=
  .next (whenMain (fun s => if s.reck.openAge < 10000 then s else sealClosing s) s)

/-- R378: a step of TB by d (cause 1 command, 2 acquisition); a step into a later minute closes the open one at once. -/
def stepTb (d : Int) (cause : Nat) (s : State) : State :=
  let t := ((tbNow s : Int) + d).toNat
  let s1 := emit 0x0302 0xFF (d % 4294967296).toNat (d / 4294967296 % 4294967296).toNat cause 0 (modReck (fun r => { r with tb := t, slew := 0, slewLeft := 0 }) s)
  if s.boot.running ∧ s.reck.openBank.minute < minuteOf t then
    resetSlots s.reck.openBank.minute (swapMinute (tbNow s) 16 (minuteOf t) 0 (sealClosing s1))
  else s1

/-- R361: a slew of d replaces any other. -/
def slewBy (d : Int) (s : State) : State :=
  modReck (fun r => { r with slew := if d < 0 then -429497 else if 0 < d then 429497 else 0, slewLeft := d.natAbs * 4294967296 }) s

/-- R368: d is applied by a slew up to 500 µs, else by a step. -/
def applyTime (d : Int) (s : State) : State :=
  if d.natAbs ≤ 500000 then slewBy d s else stepTb d 1 s

/-! ### The timebase (R362 to R369) -/

/-- R363: a state change writes record 0x0301. -/
def tbState (n : TbSt) (s : State) : State :=
  let code := fun (x : TbSt) => match x with | .free => 0 | .acquiring => 1 | .locked => 2 | .holdover => 3 | .refLost => 4
  if s.reck.st = n then s
  else markFlags (emit 0x0301 0xFF (code s.reck.st) (code n) (i32 s.reck.lastE) (i32 s.reck.adj)
    (modReck (fun r => { r with st := n, goodEdges := 0, rejRun := 0, firstAcq := n = .acquiring }) s))

/-- R366: HOLDOVER takes the mean of ADJ over the last 60 s of LOCKED. -/
def enterHoldover (s : State) : State :=
  let h := s.reck.adjHist
  let adj := if 60 ≤ h.length then (h.foldl (· + ·) 0) / 60 else s.reck.adj
  tbState .holdover (modReck (fun r => { r with adj := adj }) s)

/-- R362: a configuration that waits applies at the next edge. -/
def applyTimeCfg (s : State) : State :=
  match s.reck.cfgNext with
  | some c => modReck (fun r => { r with cfg := c, cfgNext := none }) s
  | none => s

/-- R364: ADJ is limited to ±100 ppm. -/
def clampAdj (a : Int) : Int := clampI (-429497) 429497 a

/-- R364, R368: what an accepted edge does to TB: an armed time, the step of acquisition, or ADJ and a slew. `e` is the
phase error, `c` the capture, `first` the first accepted edge of ACQUIRING. -/
def disciplineEdge (c e : Int) (first : Bool) (s : State) : State :=
  match s.reck.arm with
  | some n =>
    modImg [rk 17 0] (fun m => { m with keep := { m.keep with tod := .set } })
      (applyTime ((n : Int) * 1000000000 - c) (modReck (fun r => { r with arm := none, armAge := 0, tod := .set }) s))
  | none =>
    if first ∧ 500000 < e.natAbs then stepTb (-e) 2 s
    else slewBy (-e) (modReck (fun r => { r with adj := clampAdj (Config.ppsLoop r.adj e) }) s)

/-- R363: the state after an accepted edge. -/
def stateAfterEdge (e : Int) (s : State) : State :=
  let good : Bool := decide (e.natAbs ≤ 20)
  let s0 := modReck (fun r => { r with rejRun := 0, sinceEdge := 0, lastEdge := r.tb }) s
  match s.reck.st with
  | .holdover => modReck (fun r => { r with goodEdges := if good then 1 else 0, firstAcq := false }) (tbState .acquiring s0)
  | .acquiring =>
    let n := if good then s.reck.goodEdges + 1 else 0
    let s1 := modReck (fun r => { r with goodEdges := n, firstAcq := false }) s0
    if 8 ≤ n then tbState .locked s1 else s1
  | .locked => modReck (fun r => { r with adjHist := (r.adj :: r.adjHist).take 60 }) s0
  | _ => s0

/-- PPS_EDGE (R364): captured, then rejected in LOCKED, or used. -/
def ppsEdge (rising : Bool) (s0 : State) : State :=
  let s := applyTimeCfg s0
  if !s.reck.cfg.present || rising == s.reck.cfg.falling then s0
  else
    let c : Int := tbNow s - s.reck.cfg.delay
    let e : Int := c - (c + 500000000) / 1000000000 * 1000000000
    let s1 := modReck (fun r => { r with lastE := e }) s
    if s.reck.st = .locked ∧ (1000000 < e.natAbs ∨ s.reck.sinceEdge < 999000000) then
      let s2 := bumpMax 0x0304 2 e.natAbs (bump 0x0304 1 1 (modReck (fun r => { r with rejRun := r.rejRun + 1 }) s1))
      if 3 ≤ s2.reck.rejRun then tbState .acquiring s2 else s2
    else
      let first := s.reck.st == .holdover || (s.reck.st == .acquiring && s.reck.firstAcq)
      stateAfterEdge e (disciplineEdge c e first s1)

/-- PPS_EDGE (R364). -/
def execPpsEdge (rising : Bool) (s : State) : Out := .next (whenMain (ppsEdge rising) s)

/-- PPS_EDGE_TIMEOUT (R363): 1.5 s without an accepted edge. -/
def execPpsEdgeTimeout (s : State) : Out :=
  .next (whenMain (fun s =>
    if (s.reck.st = .acquiring ∨ s.reck.st = .locked) ∧ 1500000000 ≤ s.reck.sinceEdge then enterHoldover s else s) s)

/-- AT_PPS_ARM_DROP (R368): 2 s without an accepted edge. -/
def execAtPpsArmDrop (s : State) : Out :=
  .next (whenMain (fun s =>
    if s.reck.arm.isSome ∧ 2000000000 ≤ s.reck.armAge then modReck (fun r => { r with arm := none, armAge := 0, armDropped := true }) s
    else s) s)

/-- SLEW_END (R361): SLEW is 0 again. -/
def execSlewEnd (s : State) : Out :=
  .next (whenMain (fun s => if s.reck.slewLeft = 0 then modReck (fun r => { r with slew := 0 }) s else s) s)

/-- TB_TO_KEEPER (R369). -/
def execTbToKeeper (s : State) : Out :=
  .next (whenMain (fun s => { s with keeper := { s.keeper with lastTb := tbNow s, since := 0, tbKnown := true } }) s)

/-! ### The ledger (R382, R383) -/

/-- LEDGER_COMMIT (R383): every parcel of the block has passed verify in both copies: its minute is committed, and the oldest one
that waits is started. -/
def ledgerCommit (s : State) : State :=
  match s.reck.block with
  | none => ledgerStart s
  | some m =>
    if s.reck.blockNext < 512 ∨ blockFlying s m then ledgerFeed s
    else match tget s.reck.ring (m % 1440) with
      | none => ledgerStart (dropBlock m s)
      | some r =>
        let s1 := modReck (fun x => { x with ring := tset x.ring (m % 1440) { r with committed := true }, block := none, blockNext := 0 }) s
        ledgerStart (if r.sealTb + 1000000000 < tbNow s then bumpSet 0x0307 2 (fun _ => m) (bump 0x0307 1 1 s1) else s1)

/-- LEDGER_COMMIT (R383). -/
def execLedgerCommit (s : State) : Out := .next (whenMain ledgerCommit s)

/-! ### Reading (R389, R390, R416) -/

/-- GET_TIMEBASE (R416). -/
def cmdGetTimebase : Cmd := noInput 0xC200 (fun _ s =>
  let r := s.reck
  let st := match r.st with | .free => 0 | .acquiring => 1 | .locked => 2 | .holdover => 3 | .refLost => 4
  let tod := match r.tod with | .unset => 0 | .estimated => 1 | .set => 2
  toLe 8 r.tb ++ toLe 1 st ++ toLe 1 tod ++
  toLe 1 ((if r.arm.isSome then 1 else 0) + (if r.slew ≠ 0 then 2 else 0) + (if r.armDropped then 4 else 0)) ++ zeros 1 ++
  toLeI 4 r.adj ++ toLeI 8 r.lastE ++ toLe 8 r.lastEdge ++ zeros 8)
/-- GET_TIMEBASE (R416). -/
def execGetTimebase (p : Path) (input : List Byte) (s : State) : Out := runCmd cmdGetTimebase p input s

/-- R362: a new mode applies at once, other changes at the next edge. -/
def setTimeCfg (c : TimeCfg) (s : State) : State :=
  if c.present = s.reck.cfg.present then modReck (fun r => { r with cfgNext := some c }) s
  else
    let s1 := modReck (fun r => { r with cfg := c, cfgNext := none, sinceEdge := 0 }) s
    if s.reck.st = .refLost then s1 else tbState (if c.present then .acquiring else .free) s1

/-- SET_TIME_CONFIG (R362). -/
def cmdSetTimeConfig : Cmd :=
  { op := 0xC201, len := lenIs 4, body := fun _ i s =>
      let d := fldI16 i 2
      if 1 < fld i 0 1 then (rej 2 0x0D83 0, s)
      else if 1 < fld i 1 1 then (rej 2 0x0D83 1, s)
      else if d < -1000 ∨ 1000 < d then (rej 2 0x0D83 2, s)
      else
        let c : TimeCfg := { present := fld i 0 1 == 0, falling := fld i 1 1 == 1, delay := d }
        ({ recs := [rk 16 0] }, setTimeCfg c (modImg [rk 16 0] (fun m => { m with time := c }) s)) }
/-- SET_TIME_CONFIG (R362). -/
def execSetTimeConfig (p : Path) (input : List Byte) (s : State) : Out := runCmd cmdSetTimeConfig p input s

/-- GET_TIME_CONFIG (R416). -/
def cmdGetTimeConfig : Cmd := noInput 0xC202 (fun _ s =>
  let c := s.sad.img.time
  toLe 1 (if c.present then 0 else 1) ++ toLe 1 (if c.falling then 1 else 0) ++ toLeI 2 c.delay)
/-- GET_TIME_CONFIG (R416). -/
def execGetTimeConfig (p : Path) (input : List Byte) (s : State) : Out := runCmd cmdGetTimeConfig p input s

/-- SET_TIME_OF_DAY (R367, R368). -/
def cmdSetTimeOfDay : Cmd :=
  { op := 0xC203, len := lenIs 16, rsvd := [(1, 7)], body := fun _ i s =>
      let v := fld i 8 8
      if 1 < fld i 0 1 then (rej 2 0x0D83 0, s)
      else if fld i 0 1 = 0 then
        let d : Int := (v : Int) - tbNow s
        let s1 := modImg [rk 17 0] (fun m => { m with keep := { m.keep with tod := .set } })
          (applyTime d (modReck (fun r => { r with tod := .set }) s))
        ({ out := toLeI 8 d ++ toLe 1 (if d.natAbs ≤ 500000 then 0 else 1) ++ zeros 3, recs := [rk 17 0] }, s1)
      else if s.reck.st = .free ∨ s.reck.st = .refLost then (rej 6 0x0380, s)
      else ({ out := zeros 8 ++ toLe 1 2 ++ zeros 3 }, modReck (fun r => { r with arm := some v, armAge := 0, armDropped := false }) s) }
/-- SET_TIME_OF_DAY (R368). -/
def execSetTimeOfDay (p : Path) (input : List Byte) (s : State) : Out := runCmd cmdSetTimeOfDay p input s

/-- R370: the 128 bytes of a meter record. -/
def meterBytes (minute part : Nat) (closeTs : Nat) (flags : BitVec 8) (m : Meter) : List Byte :=
  let b := toLe 4 minute ++ toLe 2 part ++ toLe 1 (flags ||| m.flags).toNat ++ toLe 1 m.events.toNat ++ toLe 8 closeTs ++
    toLe 8 m.readBytes ++ toLe 8 m.readOps ++ toLe 8 m.writeBytes ++ toLe 8 m.writeOps ++ toLe 8 m.wear ++
    toLe 8 (m.capNs / 4294967296) ++ toLe 8 m.shareHeld ++ toLe 8 m.xferGuar ++ toLe 8 m.xferBe ++
    toLe 8 (m.cacheNs / 4294967296) ++ toLe 8 m.throttleNs ++ toLe 8 m.freezeNs ++ toLe 8 m.cofferBytes ++ zeros 4
  b ++ toLe 4 (crc32c b)

/-- R390: the closed minutes that can be read, from the ring and then from the ledger, oldest first. -/
def heldMinutes (s : State) : List MinuteBank :=
  let ring := s.reck.ring.map (fun p => p.2.bank)
  let rest := ((ledgerMinutes s).map (·.2)).filter (fun b => !ring.any (fun r => r.minute == b.minute))
  sortBy (fun a b => decide (a.minute ≤ b.minute)) (ring ++ rest)

/-- R390: a partition's record of a bank, if the minute has one and lies in the range. -/
def recordIn (part first count : Nat) (flags : BitVec 8) (b : MinuteBank) : List Byte :=
  if first ≤ b.minute ∧ b.minute < first + count then
    (match tget b.recs part with | some m => meterBytes b.minute part b.closeTs (b.flags ||| flags) m | none => [])
  else []

/-- R390: the records of a range of minutes; closing and open minutes are running records. -/
def meterRecords (s : State) (part first count : Nat) : List Byte :=
  let run := (match s.reck.closing with | some b => recordIn part first count 1 b | none => []) ++
    (if s.boot.running ∧ (partRec s part).isSome then
      recordIn part first count 1 { s.reck.openBank with recs := tmod s.reck.openBank.recs part {} id } else [])
  (heldMinutes s).flatMap (recordIn part first count 0) ++ run

/-- GET_METERS (R390). No rule states the oldest retained minute when none is. -/
def cmdGetMeters : Cmd :=
  { op := 0xC204, len := lenIs 8, body := fun p i s =>
      let part := fld i 0 2
      let n := fld i 2 2
      if 1024 ≤ part then (rej 2 0x0D84 0, s)
      else if !ownsPart s p part then (rej 2 0x0287 0, s)
      else if n < 1 ∨ 500 < n then (rej 2 0x0D83 2, s)
      else
        let recs := meterRecords s part (fld i 4 4) n
        let oldest := match heldMinutes s with | b :: _ => b.minute | [] => Config.free 0xC204 part
        ({ out := toLe 4 oldest ++ toLe 2 (recs.length / 128) ++ zeros 2 ++ recs }, s) }
/-- GET_METERS (R390). -/
def execGetMeters (p : Path) (input : List Byte) (s : State) : Out := runCmd cmdGetMeters p input s

/-- R416: an entry of GET_HISTOGRAM. -/
def histEntry (key : Nat) (r : RingSlot) : List Byte :=
  let h := tgetD r.bank.hists key []
  toLe 4 r.bank.minute ++ toLe 1 (if r.histLost then 1 else 0) ++ zeros 3 ++ (List.range 64).flatMap (fun b => toLe 8 (tgetD h b 0))

/-- GET_HISTOGRAM (R387 to R390, R416): of the minutes in the ring. -/
def cmdGetHistogram : Cmd :=
  { op := 0xC205, len := lenIs 12, rsvd := [(1, 1), (10, 2)], body := fun p i s =>
      let kind := fld i 0 1
      let x := fld i 2 2
      let first := fld i 4 4
      let n := fld i 8 2
      let mine := match p with | .ld q _ => q == x | .mctp => true
      if 1 < kind then (rej 2 0x0D83 0, s)
      else if kind = 0 ∧ 1024 ≤ x then (rej 2 0x0D84 2, s)
      else if kind = 1 ∧ portCount s.ports.inForce.groupMode ≤ x then (rej 2 0x0D83 2, s)
      else if (kind = 0 ∧ !ownsPart s p x) ∨ (kind = 1 ∧ pathRole s p = 0 ∧ !mine) then (rej 2 0x0287 2, s)
      else if n < 1 ∨ 120 < n then (rej 2 0x0D83 8, s)
      else
        let rs := sortBy (fun (a b : RingSlot) => decide (a.bank.minute ≤ b.bank.minute)) ((s.reck.ring.map (·.2)).filter
          (fun r => decide (first ≤ r.bank.minute) && decide (r.bank.minute < first + n) && (kind == 1 || thas r.bank.recs x)))
        ({ out := toLe 2 rs.length ++ zeros 6 ++ rs.flatMap (histEntry (if kind = 0 then x else 1024 + x)) }, s) }
/-- GET_HISTOGRAM (R416). -/
def execGetHistogram (p : Path) (input : List Byte) (s : State) : Out := runCmd cmdGetHistogram p input s

end Sys2Proof.Machine
end

