-- ==== Sys2Proof/Machine/Clock.lean ====
section
/-! DEFINITION. The stage clock: what one idle cycle of 1 ns does (R122, R361, R369, R374, R375, R115, R474). -/

namespace Sys2Proof.Machine

/-- R361: what the slew adds in a cycle, in 2^-32 ns, and what it has then left. -/
def slewStep (r : Reck) : Int × Nat :=
  let n := min r.slewLeft r.slew.natAbs
  (if r.slew < 0 then -(n : Int) else n, r.slewLeft - n)

/-- R361: TB advances by 1 ns + (ADJ + SLEW) × 2^-32 ns; the ages that R363, R368 and R377 count advance with it. -/
def tickTb (r : Reck) : Reck :=
  let sl := slewStep r
  let f := ((r.frac : Int) + 4294967296 + r.adj + sl.1).toNat
  { r with tb := r.tb + f / 4294967296, frac := f % 4294967296, slewLeft := sl.2
           sinceEdge := r.sinceEdge + 1, armAge := if r.arm.isSome then r.armAge + 1 else 0
           openAge := r.openAge + f / 4294967296 }

/-- R115: whether an LD or Coffer page that maps a partition is frozen, or sits on a frozen port. -/
def partFrozen (s : State) (part : Nat) : Bool :=
  (ldsOfPart s part).any (fun k => ldFrozen s (k / 17) (k % 17) || cofFrozen s (k / 17) (k % 17))

/-- R374: the partition's lines in the cache. -/
def partLines (s : State) (part : Nat) : Nat :=
  (s.cache.lines.filter (fun p => p.2.part == part && p.2.st != .invalid)).length

/-- R374, R375, R115: the integrals of one partition for one cycle, at a rate part in 2^-32 ns. -/
def accrueCycle (s : State) (rate : Nat) (part : Nat) (m : Meter) : Meter :=
  { m with capNs := m.capNs + (positions s part).length * legCost s part * rate
           cacheNs := m.cacheNs + partLines s part * rate
           throttleNs := m.throttleNs + (if throttled s then 1 else 0)
           freezeNs := m.freezeNs + (if partFrozen s part then 1 else 0) }

/-- The integrals of every partition; in bivouac mode the Reckoner makes no record (R372). -/
def accrueMeters (s : State) : State :=
  if !s.boot.running then s
  else
    let rate := (4294967296 + s.reck.adj).toNat
    forAll (tkeys s.sad.img.parts) (fun p t => meter p (accrueCycle s rate p) t) s

/-- R518, R522, R591: the time that f_h and f_w spend below 100%. -/
def throttleCounts (s : State) : State :=
  let s1 := if s.therm.fH < 1024 then bump 0x1402 1 1 s else s
  if (serving s).any (fun c => decide ((chan s c).fW < 1024)) then bump 0x1404 2 1 s1 else s1

/-- R43: the conditions at the end of a cycle are what an evaluation in the next cycle sees. -/
def seeConds (s : State) : State := { s with health := { s.health with seen := condBits s } }

/-- One cycle of the stage clock with no command waiting; the keeper counts by itself while the main die is off. -/
def idleCycle (s : State) : State :=
  let s1 : State := { s with keeper := { s.keeper with since := s.keeper.since + 1 } }
  if !s.mainUp then s1
  else
    let s2 := seeConds (markFlags (throttleCounts (accrueMeters s1)))
    { s2 with reck := tickTb s2.reck, planner := { s2.planner with cycle := s2.planner.cycle + 1 }
              cairn := { s2.cairn with epochCycles := s2.cairn.epochCycles + 1 } }

end Sys2Proof.Machine
end

