-- ==== Sys2Proof/Machine/Recover.lean ====
section
/-! DEFINITION. What a boot recovers from the medium (R530 step 3): the map (R308), the counter tree (R233), the ledger (R386), the event
logs (R69), and the traverses (R245, R595). -/

namespace Sys2Proof.Machine

/-- Change the boot state. -/
def modBoot (f : Boot → Boot) (s : State) : State := { s with boot := f s.boot }

/-! ### Traverses -/

/-- R595: a traverse whose NEXT wrap is lost ends. -/
def endLostTraverse (part : Nat) (s : State) : State :=
  postEvent (ldsOfPart s part) 3 (evOf 0x0704 part 0 0 1) (endTraverse part 1 s)

/-- R245, R247: a traverse resumes from its committed MARK; record 0x0703 (cause 1 power loss, 2 alarm), but not in a flush. DESIGN CHOICE:
the bales and the duration of its 0x0702 then count from the boot (log 86). -/
def resumeTraverse (i : Nat) (r : TravRec) (s : State) : State :=
  let t : Trav := { inst := i, oldGen := r.oldGen, newGen := r.newGen, rate := r.rate, w := r.mark, mark := r.mark,
                    committed := r.mark, startTb := tbNow s }
  let u := { s with travs := tset s.travs r.part t }
  if s.belay.step = 0 then emit 0x0703 0xFF r.part (r.mark % 4294967296) (r.mark / 4294967296) (if s.boot.alarmed then 2 else 1) u else u

/-- R245, R595: the recalled traverses. -/
def bootTraverses (s : State) : State :=
  forAll s.sad.img.travs (fun x t =>
    if thas t.sad.img.wraps (1024 + x.1) then resumeTraverse x.1 x.2 t else endLostTraverse x.2.part t) s

/-! ### The map (R308) -/

/-- R308 step 2: one record applied to the map; `rest` are the records after it. -/
def replayOne (now : Nat) (r : JRec) (rest : List JRec) (m : MapImage) : MapImage :=
  match r with
  | .ovlSet l p w => { m with overlay := overlayPut l { kind := .located, ppa := p, wseq := w, lastWrite := now } m.overlay }
  | .ovlPoison l => { m with overlay := overlayPut l { kind := .poison, lastWrite := now } m.overlay }
  | .baleSet i b st n =>
    let keep := (rest.take n).filterMap (fun x => match x with | .ovlKeep l => some l | _ => none)
    { m with bales := tset m.bales i b
             overlay := m.overlay.filter (fun p => lpnLbi p.1 ≠ i || keep.contains p.1)
             sparse := if b.st = .sparse ∨ b.st = .lostSparse then m.sparse else tdel m.sparse i
             stamps := if b.st = .baled ∨ b.st = .sparse then tset m.stamps (stampKey (basePpa b 0)) st else m.stamps }
  | .sparseMap i q x =>
    let hole : BitVec 256 := ~~~((BitVec.allOnes 64).zeroExtend 256 <<< (64 * q))
    { m with sparse := tset m.sparse i ((tgetD m.sparse i 0 &&& hole) ||| (x.zeroExtend 256 <<< (64 * q))) }
  | .tileState k t => { m with tiles := tmod m.tiles k {} (fun o => { o with st := t.st, cls := t.cls, wear := t.wear, reads := if t.st = .free then 0 else o.reads }) }
  | .dropLeg g => { m with overlay := m.overlay.filter (fun p => lpnLeg p.1 ≠ g)
                           bales := m.bales.filter (fun p => p.1 / 16384 ≠ g), sparse := m.sparse.filter (fun p => p.1 / 16384 ≠ g) }
  | .pad => m | .ovlKeep _ => m | .roundBegin _ => m | .roundEnd _ => m

/-- R308 step 2: the journal is replayed in JSEQ order. -/
def replay (now : Nat) : List JRec → MapImage → MapImage
  | [], m => m
  | r :: rest, m => replay now rest (replayOne now r rest m)

/-- R293, R294: OVCNT and the OVERLAY state follow from the overlay entries. -/
def recount (m : MapImage) : MapImage :=
  let ks := (tkeys m.bales ++ (tkeys m.overlay).map lpnLbi).eraseDups
  let fix := fun (i : Nat) (b : Bale) =>
    let n := (m.overlay.filter (fun p => lpnLbi p.1 = i)).length
    { b with ovcnt := min 63 n, st := if b.st = .unwritten ∧ n ≠ 0 then .overlay else if b.st = .overlay ∧ n = 0 then .unwritten else b.st }
  { m with bales := ks.foldl (fun t i => tmod t i {} (fix i)) m.bales }

/-- R308 step 3: of two entries of one LPN the one with the newer WSEQ stays, compared modulo 2^32. -/
def newerEntry (a b : OvEntry) : Bool := decide ((a.wseq - b.wseq).toNat < 2147483648)

/-- R308 steps 1 and 3: a page joins the loaded image. -/
def joinImage (m n : MapImage) : MapImage :=
  let put := fun {α : Type} (t u : Tbl α) => u.foldl (fun t p => tset t p.1 p.2) t
  { bales := put m.bales n.bales, sparse := put m.sparse n.sparse, tiles := put m.tiles n.tiles, stamps := put m.stamps n.stamps
    overlay := n.overlay.foldl (fun t p => match tget t p.1 with
      | some e => if newerEntry e p.2 then t else tset t p.1 p.2
      | none => tset t p.1 p.2) m.overlay }

/-- R307: the directory that a location holds, where it opens and is of the round that the CHECKPOINT record names. -/
def dirAt (s : State) (ppa : Nat) : Option (Tbl (Nat × Nat)) :=
  match (tget s.medium.sys ppa).filter (fun p => served s ppa && (p.space == 5 || p.space == 6) && sysOpens s p.space p.lpn p) with
  | some p => (match p.body with
    | .dir n d => if n = s.sad.img.ckpt.round then some d else none
    | _ => none)
  | none => none

/-- R308 step 1: the directory of the last committed round; empty before the first. -/
def ckptDir (s : State) : Option (Tbl (Nat × Nat)) :=
  let c := s.sad.img.ckpt
  if c.round = 0 then some [] else (dirAt s c.dirA).orElse (fun _ => dirAt s c.dirB)

/-- R308 step 1: every page of a directory, from either copy. -/
def pageList (s : State) (d : Tbl (Nat × Nat)) : Option (List MapImage) :=
  d.foldr (fun p o => o.bind (fun ms => ((pageAt s p.1 p.2.1).orElse (fun _ => pageAt s p.1 p.2.2)).map (· :: ms))) (some [])

/-- R308 steps 1 and 3: the image that the pages of a directory make. -/
def loadPages (s : State) (d : Tbl (Nat × Nat)) : Option MapImage := (pageList s d).map (·.foldl joinImage {})

/-- R308 step 3, R334: the overlay entries of the pages that the image does not keep. -/
def duplicates (s : State) (d : Tbl (Nat × Nat)) (m : MapImage) : Nat :=
  sumN (((pageList s d).getD []).map (fun n => n.overlay.length)) - m.overlay.length

/-- R308 step 1, R459: the pages and the directory of the last committed round; none without the CHECKPOINT record, or where a page's
copies both fail. -/
def loadedRound (s : State) : Option (MapImage × Tbl (Nat × Nat)) :=
  if s.boot.lostRecs.contains (rk 10 0) then none else (ckptDir s).bind (fun d => (loadPages s d).map (fun m => (m, d)))

/-- R308 step 2: the journal parcel with a JSEQ, from either copy: the newest after the program count of the last one replayed, which
no parcel that an earlier recovery left out has. -/
def journalAt (s : State) (j last : Nat) : Option (Nat × JParcel) :=
  (s.medium.sys.filter (fun p => (p.2.space == 3 || p.2.space == 4) && served s p.1 && sysOpens s p.2.space p.2.lpn p.2 && decide (last < p.2.count))).foldl
    (fun m p => match p.2.body with
      | .journal x _ => if x.jseq == j && (match m with | some y => decide (y.1 < p.2.count) | none => true) then some (p.2.count, x) else m
      | _ => m) none

/-- R308 step 2: the journal parcels from a JSEQ to the first that neither copy holds. -/
def journalRun (s : State) : Nat → Nat → Nat → List JParcel
  | 0, _, _ => []
  | fuel + 1, j, last => match journalAt s j last with
    | some (c, x) => x :: journalRun s fuel (j + 1) c
    | none => []

/-- R308 step 4: the locations that the maps name. -/
def currentPpas (m : MapImage) : List Nat :=
  m.overlay.filterMap (fun p => if p.2.kind = .located then some p.2.ppa else none) ++
  (m.bales.filter (fun p => p.2.st = .baled ∨ p.2.st = .sparse)).flatMap (fun p =>
    ((List.range 256).filter (fun i => !thas m.overlay (p.1 * 256 + i) && (p.2.st == .baled || (tgetD m.sparse p.1 0).getLsbD i))).map (basePpa p.2))

/-- R308 steps 4 and 5: VALID is recomputed and every open tile is closed as FULL. A tile whose sweep or reset was cut short
holds what it held (R317). -/
def settleTile (cur : List Nat) (ledger : Bool) (k : Nat) (t : Tile) : Tile :=
  let st := if t.st = .openHost ∨ t.st = .openMaint ∨ t.st = .sweeping ∨ t.st = .resetting then .full else t.st
  { t with st := st, valid := if ledger then 4096 else (cur.filter (fun p => tileKey p = k)).length, next := tileCap t.cls }

/-- The locations on the medium that hold anything. -/
def heldPpas (s : State) : List Nat := tkeys s.medium.cells ++ tkeys s.medium.sys

/-- R308 step 5: a tile that holds parcels, and whose opening the journal no longer shows, is FULL. -/
def fillTiles (s : State) (m : MapImage) : MapImage :=
  let ts := ((heldPpas s).map tileKey).eraseDups.filter (fun k => (tgetD m.tiles k {}).st = .free)
  let cls := fun (k : Nat) => if (heldPpas s).any (fun p => tileKey p = k ∧ 4096 ≤ ppaParcel p) then TileClass.dense else .fast
  { m with tiles := ts.foldl (fun t k => tmod t k {} (fun x => { x with st := .full, cls := cls k })) m.tiles }

/-- R459: without a checkpoint, every bale of every occupied leg is LOST. -/
def lostMap (s : State) : MapImage :=
  let legs := (tkeys s.sad.img.parts).flatMap (fun p => (positions s p).map (·.2))
  { bales := (legs.flatMap (fun g => (List.range 16384).map (fun i => g * 16384 + i))).foldl (fun t i => tset t i { st := .lost }) [] }

/-- R308 steps 5 and 7: the tiles queued ahead of ordinary victims: FULL tiles without a valid parcel, and Fast tiles read
half as often as the refresh limit. -/
def orphans (m : MapImage) : List Nat := tkeys (m.tiles.filter (fun p => p.2.st = .full ∧ p.2.valid = 0))

/-- R308 steps 1 to 3: the map as the pages, the journal and the records that wait make it. -/
def rebuiltMap (s : State) (base : MapImage) (js : List JParcel) : MapImage :=
  recount (replay (nowStamp s) (js.flatMap (·.recs) ++ s.way.tail) base)

/-- R308 step 4: with VALID from what the maps, the checkpoint and the journal name. -/
def settledMap (s : State) (named : List Nat) (m0 : MapImage) : MapImage :=
  let m := fillTiles s m0
  { m with tiles := tmap m.tiles (fun k t => settleTile (currentPpas m ++ named) (ledgerTile s k) k t) }

/-- R287, R325, R326: what a channel keeps of the map that is recovered after it was brought up: its factory-bad tiles, its consumed
spares, and whether a channel out of service held data. -/
def settleChan (c : Nat) (s : State) : State :=
  let t := markBad c (chan s c).badTiles s
  let gone := (t.way.map.tiles.filter (fun p => tileCh p.1 = c ∧ p.2.st = .retired)).length
  modChan c (fun x => if inService x then { x with consumed := gone } else { x with heldData := namesChannel t c }) t

/-- R308, R459, R320, R331, R334: map memory after recovery; records 0x0805 and 0x0808. -/
def recoverMap (s : State) : State :=
  let noCkpt := s.boot.lostRecs.contains (rk 10 0)
  let r := loadedRound s
  let js := if r.isSome then journalRun s s.medium.sys.length s.sad.img.ckpt.jseq 0 else []
  let jFrom := if r.isSome then s.sad.img.ckpt.jseq else 1 + maxN (s.medium.sys.map (fun p => match p.2.body with | .journal x _ => x.jseq | _ => 0))
  let dir := (r.map (·.2)).getD []
  let jseq := jFrom + js.length
  let m := settledMap s (recoveryPpas s dir s.sad.img.ckpt jFrom jseq) (rebuiltMap s ((r.map (·.1)).getD (lostMap s)) js)
  let worn := tkeys (m.tiles.filter (fun p => p.2.st = .full ∧ p.2.cls = .fast ∧ p.2.valid ≠ 0 ∧ s.sad.img.drover.refreshReads / 2 ≤ p.2.reads))
  let dense := tkeys (m.bales.filter (fun p => (p.2.st = .baled ∨ p.2.st = .sparse) ∧ (tgetD m.tiles (tileKey (basePpa p.2 0)) {}).cls = .dense))
  let n := sumN (js.map (fun p => p.recs.length))
  let s1 := { s with way := { s.way with
    map := m, jseq := jseq, jFrom := jFrom, ckpt := (r.map (·.1)).getD {}, dir := dir
    stashUsed := stashOf m.overlay, peakPop := m.overlay.length, peakStash := stashOf m.overlay
    refreshTiles := orphans m ++ worn, drover := s.sad.img.drover, recsSinceRound := n, roundTb := tbNow s
    rebaleQ := if s.boot.lostRecs.contains (rk 17 0) then dense else [] } }
  let s2 := emit 0x0805 0xFF (n / 1024) (orphans m).length (orphans m).length s.boot.recoveryMs (forAll ids32 settleChan s1)
  let dups := (r.map (fun x => duplicates s x.2 x.1)).getD 0
  let s3 := if dups = 0 then s2 else emit 0x0808 0xFF dups 0 0 0 s2
  advanceDrops (if noCkpt then postEvent (tenantLds s3) 3 (evOf 0x1003 10 0 0 0) s3 else s3)

/-! ### The counter tree (R233) -/

/-- R233, R220: the nodes of a level whose parcels the medium holds, or whose parent's counter says that they were written. -/
def treeNodes (s : State) (level : Nat) : List Nat :=
  let stored := (s.medium.sys.filter (fun p => p.2.space = 1 ∧ (treePos (p.2.lpn - sysLeg 1 * 4194304)).1 = level)).flatMap (fun p =>
    (List.range 4).map (fun i => 4 * (treePos (p.2.lpn - sysLeg 1 * 4194304)).2 + i))
  let kids := if level = 11 then List.range 8
    else ((tkeys (s.sealCtl.nodes.filter (fun p => p.1 / 1099511627776 == level + 1))).map (· % 1099511627776)).flatMap (fun i =>
      (List.range 8).map (fun j => i * 8 + j))
  ((stored ++ kids.filter (fun i => (parentCtr s level i).extractLsb' 0 48 != 0)).eraseDups).filter (fun i => decide (i < nodesOf (legSpace s) level))

/-- R233: a node of levels 11 to 4 is verified against its parent and loaded from either copy, or is lost. -/
def bootNode (level idx : Nat) (s : State) : State :=
  let above := s.sealCtl.lost.any (fun l => decide (level ≤ l.level) && idx / 8 ^ (l.level - level) == l.idx)
  let e := s.boot.nodeErrs.find? (fun e => e.level == level && e.idx == idx)
  let bad := fun (c : Nat) => match e with | some e => if c = 0 then e.copyA else e.copyB | none => false
  if above then s
  else if asCreated s level idx then loadNew level idx s
  else match copyLine s level idx 0 (bad 0) with
    | some (x, _) => loadLine level idx x s
    | none => match copyLine s level idx 1 (bad 1) with
      | some (x, _) => repairCopy level (idx / 4) 0 (loadLine level idx x (emit 0x0602 0xFF level idx 0 0 s))
      | none => loseNode level idx s

/-- R233: a roll resumes from the companion lines stored with its leaf, where the leaf verifies. -/
def bootCompanion (leaf : Nat) (s : State) : State :=
  let t := fetchPath s.boot.nodeErrs (leaf * 64) s
  match (copyLine t 1 leaf 0 false).orElse (fun _ => copyLine t 1 leaf 1 false) with
  | some (_, some c) => if resident t 1 leaf then { t with sealCtl := { t.sealCtl with companions := tset t.sealCtl.companions leaf c } } else t
  | _ => t

/-- The leaves whose stored parcels hold companion lines. -/
def rollingLeaves (s : State) : List Nat :=
  (s.medium.sys.flatMap (fun p => match p.2.body with | .tree _ comps _ => tkeys comps | _ => [])).eraseDups

/-- R233, R237: levels 11 down to 4, and the companion lines of rolls that go on; the nodes left unreplaced stay lost. -/
def recoverTree (s : State) : State :=
  let s0 := { s with sealCtl := { s.sealCtl with
    lost := s.tree.retired.map (fun p => { level := p.1, idx := p.2, retired := true }), ckptTb := tbNow s } }
  let s1 := forAll [11, 10, 9, 8, 7, 6, 5, 4] (fun l t => forAll (treeNodes t l) (bootNode l) t) s0
  forAll (rollingLeaves s1) bootCompanion s1

/-! ### The ledger (R386) -/

/-- The newest minute of some. -/
def newestMinute (l : Tbl MinuteBank) : Option Nat := (l.map (·.2.minute)).max?

/-- R386: minutes that the ledger lacks; record 0x0303. Where the ledger holds none, no rule states the first. -/
def missingMinutes (held : Tbl MinuteBank) (l : Nat) (s : State) : State :=
  let cause := if s.boot.wasDirty then 1 else 2
  match newestMinute held with
  | some n => if n < l then emit 0x0303 0xFF (n + 1) l cause 0 s else s
  | none => emit 0x0303 0xFF (freeVal s 0x0303) l cause 0 (drawn s)

/-- R381, R386: the ring as reloaded from the ledger, beside the minutes sealed since the start. -/
def reloadRing (held : Tbl MinuteBank) (ring : Tbl RingSlot) : Tbl RingSlot :=
  match newestMinute held with
  | none => ring
  | some n => (held.filter (fun p => decide (n < p.2.minute + 1440))).foldl (fun t p =>
      if thas t (p.2.minute % 1440) then t
      else tset t (p.2.minute % 1440) { bank := p.2, committed := true, histLost := true }) ring

/-- R378, R459: after a lost TIMEKEEP record, the last closed minute is the ledger's newest; an open minute that is not later closes as
LONG. -/
def lateMinute (n : Nat) (s : State) : State :=
  let r := s.reck
  let late := r.openBank.minute ≤ n
  { s with reck := { r with
    lastClosed := some (match r.lastClosed with | some l => max l n | none => n)
    openBank := if late then { r.openBank with minute := n + 1, flags := r.openBank.flags ||| 32 } else r.openBank } }

/-- R386: the ledger chain is read, once the map is recovered. -/
def recoverLedger (s0 : State) : State :=
  let held := ledgerMinutes s0
  let s := match s0.boot.lastMinute with | some l => resetSlots l s0 | none => s0
  let s1 := { s with reck := { s.reck with ring := reloadRing held s.reck.ring } }
  match s.boot.lastMinute with
  | some l => missingMinutes held l s1
  | none => if s.boot.lostRecs.contains (rk 17 0) then (match newestMinute held with | some n => lateMinute n s1 | none => s1) else s1

/-! ### Event logs (R69) -/

/-- R69: an LD's logs as the medium holds them. -/
def storedLogs (s : State) (k : Nat) : List EventLog :=
  let body := fun (p : Nat) => logStored s (logArea k * 169 + p) p
  let top := match body 168 with | .logMeta l => l | _ => []
  (List.range 5).map (fun i =>
    let first := sumN (logPlaces.take i) / 2
    { top.getD i {} with recs := (List.range (logPlaces.getD i 0 / 2)).flatMap (fun j => match body (first + j) with | .log l => l | _ => []) })

/-- R69: a log of the medium, with the records posted since the start. -/
def joinLog (i : Nat) (old new : EventLog) : EventLog :=
  let l := new.recs.foldl (fun m e => addEvent (logCap i) e m) old
  if new.dropped = 0 then l
  else { l with overflow := true, dropped := l.dropped + new.dropped, firstTs := if l.dropped = 0 then new.firstTs else l.firstTs, lastTs := new.lastTs }

/-- R69: the event logs are rebuilt from the medium; after a keeper POR they are emptied and written empty. -/
def recoverLogs (s : State) : State :=
  { s with ports := { s.ports with lds := tmap s.ports.lds (fun k l =>
    if s.boot.emptyLogs then { l with logsChanged := true }
    else
      let old := storedLogs s k
      { l with logs := (List.range 5).map (fun i => joinLog i (old.getD i {}) ((fiveLogs l).getD i {})) }) } }

/-! ### The recovery (R530 step 3) -/

/-- R530 step 3: the map and the tree, and then what they let go on (R69, R245, R386, R595). -/
def rebuild (s : State) : State :=
  bootTraverses (recoverLogs (recoverLedger (recoverTree (recoverMap (modBoot (fun b => { b with recovering := false }) s)))))

/-- R284: whether every channel whose rails are good has been brought up. -/
def chansUp (s : State) : Bool := ids32.all (fun c => !(chan s c).railsGood || (chan s c).brought)

/-- R353: STATE = 0 is set to commit when recovery has ended. -/
def setRunning (s : State) : State := modImg [rk 15 0] (fun m => { m with flush := flushRunning }) s

/-- R463: the records that wait are stored as one group and reported, where the supply check allows. -/
def commitNow (s : State) : State :=
  if s.sad.dirty.isEmpty || !storeAllowed s then s else afterCommit (finishStore (startGroup s))

/-- R79: Memory_Active is set on every port whose link is up. -/
def openService (s : State) : State := forAll ids32 activateLds (commitNow (advanceDeparting (setRunning s)))

/-- R530 step 3: the recovery, once the channels are up. While the slots stay zeroed (R555) service goes on without it, as R210
states, and a flush makes it after it has derived the keys. -/
def recoverStep (s : State) : State :=
  if !s.boot.running || !s.boot.recovering || s.belay.step != 0 || s.sad.recalling then s
  else if s.sealCtl.zeroed then (if s.sad.img.flush.state = 0 then s else openService s)
  else if chansUp s then openService (rebuild s)
  else s

end Sys2Proof.Machine
end

