-- ==== Sys2Proof/Machine/Belay.lean ====
section
/-! DEFINITION. Belay: the hold-up energy and the dirty budgets (R337, R343 to R346), the capacitance test (R340 to R342),
the flush's steps (R349 to R354), and its commands (R338, R339, R358, R418). Energies are in 1/20 pJ. -/

namespace Sys2Proof.Machine

/-- Change Belay. -/
def modBelay (f : Belay → Belay) (s : State) : State := { s with belay := f s.belay }

/-! ### Energy and budgets -/

/-- R337, R342: ½ × C × (V² − V_MIN²), with 0.9 × C until the power-up test has succeeded; v2 is V² in mV² × 100. -/
def energyAt (s : State) (v2 : Nat) : Nat :=
  let b := s.sad.img.belay
  (match b.c with | some c => c * (if s.belay.tested then 10 else 9) * (v2 - 100 * b.vMin * b.vMin) / 100 | none => 0)

/-- R337: E at a bank voltage. -/
def energy (s : State) (v : Nat) : Nat := energyAt s (100 * v * v)

/-- R343: s × 1,024 from E. -/
def scaleOf (e : Nat) : Nat := min 1024 (1024 * (e - 6000000000000) / 10000000000000)

/-- R345: the scales that E has stayed at or above, each with the time since when, after a result x at a time. -/
def raises (x now : Nat) (l : List (Nat × Nat)) : List (Nat × Nat) :=
  let keep := l.filter (fun p => decide (p.1 ≤ x))
  match l.find? (fun p => decide (x < p.1)) with
  | some p => if keep.any (fun q => q.1 == x) then keep else keep ++ [(x, p.2)]
  | none => if keep.any (fun q => q.1 == x) then keep else keep ++ [(x, now)]

/-- R360: a change of the budgets is counted, with the lowest and highest scale of the minute. -/
def setScale (x : Nat) (s : State) : State :=
  if x = s.belay.s then s
  else bumpMax 0x0F07 2 x (bumpMin 0x0F07 1 x (bump 0x0F07 3 1 (modBelay (fun b => { b with s := x }) s)))

/-- R343, R345: a lower result applies at once, a higher one waits; during a test the budgets are those of E_low. -/
def applyScale (e : Nat) (s : State) : State :=
  let x := scaleOf e
  if s.belay.test.isSome ∨ s.belay.step ≠ 0 then s
  else
    let l := raises x (tbNow s) s.belay.raise
    let s1 := modBelay (fun b => { b with raise := l.filter (fun p => decide (min x b.s < p.1)) }) s
    if x < s.belay.s then setScale x s1 else s1

/-- R346: WRITE_THROUGH at or below 0.30 J, and since when E has stayed at or above 0.34 J. -/
def applyThrough (e : Nat) (s : State) : State :=
  modBelay (fun b => { b with
    through := b.through || decide (e ≤ 6000000000000)
    above34 := if e < 6800000000000 then none else match b.above34 with | some t => some t | none => some (tbNow s) }) s

/-- R475: the bounds of the hold-up energy histogram. -/
def energyBounds : List Int :=
  [6000000000000, 8000000000000, 11000000000000, 14000000000000, 16000000000000, 20000000000000, 30000000000000]

/-- R475, R476, R360: the samples of a computation. -/
def energySamples (e : Nat) (s : State) : State :=
  let mj := e / 20000000000
  let s1 := bumpMin 0x0F07 4 mj (bumpMax 0x0F07 2 s.belay.s (bumpMin 0x0F07 1 s.belay.s (extremeLo 11 mj s)))
  if s.belay.sampled = tbNow s / 1000000000 + 1 then s1
  else cairnSample 0x22 (binOf energyBounds e) (modBelay (fun b => { b with sampled := tbNow s / 1000000000 + 1 }) s1)

/-- R186, R203: the dirty budget has fallen below the dirty count. -/
def budgetLowered (before s : State) : State :=
  if dirtyLimit s < dirtyLimit before ∧ dirtyLimit s < dirtyCount s then
    emit 0x0508 0xFF (dirtyLimit before) (dirtyLimit s) (dirtyCount s) 0 s else s

/-- ENERGY_COMPUTATION (R337, R343, R345, R346). -/
def energyComputation (v : Nat) (s : State) : State :=
  let e := energy s v
  energySamples e (budgetLowered s (applyThrough e (applyScale e (modBelay (fun b => { b with v := v, e := e }) s))))

/-- R337: the bank voltage in mV from the mean HOLDUP_SENSE in µV and SENSE_RATIO. -/
def bankMv (s : State) (senseUv : Nat) : Nat := senseUv * s.sad.img.belay.senseRatio / 256000

/-- ENERGY_COMPUTATION (R337). -/
def execEnergyComputation (senseUv : Nat) (s : State) : Out := .next (whenMain (energyComputation (bankMv s senseUv)) s)

/-- R345: the highest scale that has been held for 1 s. -/
def raiseDue (s : State) : Nat :=
  maxN ((s.belay.raise.filter (fun p => decide (p.2 + 1000000000 ≤ tbNow s))).map (·.1))

/-- BUDGET_RAISE (R345). -/
def budgetRaise (s : State) : State :=
  let x := raiseDue s
  if s.belay.test.isSome ∨ s.belay.step ≠ 0 ∨ x ≤ s.belay.s then s
  else setScale x (modBelay (fun b => { b with raise := b.raise.filter (fun p => decide (x < p.1)) }) s)

/-- BUDGET_RAISE (R345). -/
def execBudgetRaise (s : State) : Out := .next (whenMain budgetRaise s)

/-- WRITE_THROUGH_RELEASE (R346). -/
def execWriteThroughRelease (s : State) : Out :=
  .next (whenMain (fun s => match s.belay.above34 with
    | some t => if t + 1000000000 ≤ tbNow s then modBelay (fun b => { b with through := false }) s else s
    | none => s) s)

/-! ### The capacitance test -/

/-- R340 step 2: every dirty count is at or below its budget. -/
def drained (s : State) : Bool :=
  decide (dirtyCount s ≤ dirtyLimit s) && decide (counterDirty s ≤ counterBudget s) && decide (tailRecords s ≤ journalBudget s)

/-- R340 step 3: HOLDUP_TEST goes high once the dirty data has drained. -/
def testHigh (s : State) : State :=
  match s.belay.test with
  | some t => if !t.high && drained s then modBelay (fun b => { b with test := some { t with high := true, startTb := tbNow s }, holdupTest := true }) s else s
  | none => s

/-- R340, R341: the test's first step, or its refusal for want of headroom. -/
def beginTest (v : Nat) (s0 : State) : State :=
  let s := modBelay (fun b => { b with testDue := false, lastTest := tbNow s0 }) s0
  if 90 * v * 100 ≤ 102 * s.sad.img.belay.vTrip * 100 then emit 0x0F05 0xFF 2 v 0 0 s
  else
    let low := scaleOf (energyAt s (81 * v * v))
    let s1 := modBelay (fun b => { b with raise := [], test := some { v0 := v, startTb := tbNow s } }) s
    testHigh (if low < s.belay.s then budgetLowered s (setScale low s1) else s1)

/-- R342: how often the time of day has been TEST_TOD by a TB. -/
def testDays (s : State) (t : Nat) : Nat := (t / 1000000000 + 86400 - s.sad.img.belay.testTod) / 86400

/-- R342, R339, R340: a test is due after a power-up, a new R_TEST or a postponement, and daily: at TEST_TOD, or 24 h after the last one
while the time of day is not set. -/
def testWanted (s : State) : Bool :=
  s.belay.testDue || (if s.reck.tod = .set then decide (testDays s s.belay.lastTest < testDays s (tbNow s))
    else decide (s.belay.lastTest + 86400000000000 ≤ tbNow s))

/-- CAPACITANCE_TEST_START (R340 to R342): a test that waits for its drain goes on where it stands. -/
def capacitanceTestStart (v : Nat) (s : State) : State :=
  if s.sad.img.belay.rTest = 0 || s.belay.step != 0 || decide (tbNow s < s.belay.notBefore) then s
  else if s.belay.test.isSome then testHigh s else if testWanted s then beginTest v s else s

/-- CAPACITANCE_TEST_START (R340). -/
def execCapacitanceTestStart (senseUv : Nat) (s : State) : Out := .next (whenMain (capacitanceTestStart (bankMv s senseUv)) s)

/-- R340 steps 5 and 7: HOLDUP_TEST is low and the budgets follow E again. -/
def endTest (b : Belay) : Belay := { b with test := none, holdupTest := false, raise := [] }

/-- CAPACITANCE_TEST_POSTPONE (R340, R341): after 100 ms; the tenth in succession fails the test. -/
def capacitanceTestPostpone (s : State) : State :=
  match s.belay.test with
  | none => s
  | some t =>
    if t.high ∨ tbNow s < t.startTb + 100000000 then s
    else if 9 ≤ s.belay.postponed then emit 0x0F05 0xFF 4 t.v0 0 0 (modBelay (fun b => { endTest b with postponed := 0 }) s)
    else modBelay (fun b => { endTest b with postponed := b.postponed + 1, testDue := true, notBefore := tbNow s + 60000000000 }) s

/-- CAPACITANCE_TEST_POSTPONE (R340). -/
def execCapacitanceTestPostpone (s : State) : Out := .next (whenMain capacitanceTestPostpone s)

/-- R340 step 6: C in µF from t in µs and R_TEST in mΩ; ln(V_a ÷ V_b) is ln(98 ÷ 90). -/
def capacitance (tUs rMohm : Nat) : Nat := tUs * 1000 * 10000000000000000 / (rMohm * 851578083403068)

/-- R341: a C more than 20% below the previous one. -/
def warnFall (old : Option Nat) (c : Nat) (s : State) : State :=
  match old with
  | some p => if 100 * c < 80 * p then postEvent (mgmtLds s) 1 (evOf 0x0F06 p c 0 0) (emit 0x0F06 0xFF p c 0 0 s) else s
  | none => s

/-- CAPACITANCE_TEST_END (R340). -/
def capacitanceTestEnd (tUs : Nat) (s : State) : State :=
  match s.belay.test with
  | none => s
  | some t =>
    if !t.high ∨ s.sad.img.belay.rTest = 0 then s
    else
      let c := capacitance tUs s.sad.img.belay.rTest
      let s1 := emit 0x0F04 0xFF c t.v0 tUs 0 (modBelay (fun b => { endTest b with tested := true, postponed := 0 }) s)
      modImg [rk 14 0] (fun m => { m with belay := { m.belay with c := some c, testTb := tbNow s } }) (warnFall s.sad.img.belay.c c s1)

/-- CAPACITANCE_TEST_END (R340). -/
def execCapacitanceTestEnd (tUs : Nat) (s : State) : Out := .next (whenMain (capacitanceTestEnd tUs) s)

/-- CAPACITANCE_TEST_TIMEOUT (R341): 500 ms after HOLDUP_TEST rose. -/
def execCapacitanceTestTimeout (s : State) : Out :=
  .next (whenMain (fun s => match s.belay.test with
    | some t => if t.high ∧ t.startTb + 500000000 ≤ tbNow s then emit 0x0F05 0xFF 1 t.v0 0 0 (modBelay endTest s) else s
    | none => s) s)

/-! ### The flush (R348 to R354) -/

/-- R354: PFAIL_N and a V_TRIP crossing in one cycle are one flush of cause 1, whichever is taken first. -/
def pfailWins (s : State) : State :=
  let fix := fun (r : CairnRec) => if r.code = 0x0F01 ∧ r.ts = tbNow s then { r with p1 := 1 } else r
  let rel := { s.relay with queues := tmap s.relay.queues (fun _ q => { q with fill := q.fill.map fix, drain := q.drain.map fix }) }
  { modBelay (fun b => { b with cause := 1, latch := b.latch.map (fun f => { f with cause := 1 }) }) s with
    relay := rel, cairn := { s.cairn with staging := s.cairn.staging.map fix } }

/-- PFAIL_N_LOW (R348, R354, R532). -/
def execPfailNLow (s : State) : Out :=
  .next (whenMain (fun s =>
    let t := startFlush 1 (modBelay (fun b => { b with pfail := true }) s)
    if s.belay.step = 1 ∧ s.belay.cause = 2 ∧ s.belay.startTb = tbNow s then pfailWins t else t) s)

/-- V_TRIP_CROSSING (R348, R532). -/
def execVTripCrossing (s : State) : Out := .next (whenMain (startFlush 2) s)

/-- FLUSH_START (R348 to R350). -/
def execFlushStart (cause : Nat) (s : State) : Out :=
  .next (whenMain (fun s => if 1 ≤ cause ∧ cause ≤ 6 then startFlush cause s else s) s)

/-- R353: the next step starts. -/
def nextStep (s : State) : State :=
  latchFlush (s.belay.step + 1) (modBelay (fun b => { b with step := b.step + 1 }) s)

/-- R210, R349: the system keys are derived and the key sets of the partitions with dirty lines unwrapped again. -/
def rederive (s : State) : State :=
  if !s.sealCtl.zeroed then s
  else
    let parts := match s.belay.latch with | some f => f.parts | none => []
    let t := forAll parts loadPart (loadSystem s)
    if t.boot.recovering then rebuild t else t

/-- R349 step 2: every bank is in emergency mode: it has handled the signal, or has nothing that the signal discards. -/
def banksCalm (s : State) : Bool :=
  (serving s).all (fun c => (chan s c).banks.all (fun p =>
    p.2.emerg || (p.2.run == .idle && p.2.seq.isNone && (bankReads p.2).isEmpty && p.2.planned.all flushSeq)))

/-- R349 step 3: whether every dirty line and pending eviction has been programmed. A line of a partition without a key set (R209)
can never be sealed. -/
def linesOut (s : State) : Bool :=
  !s.cache.lines.any (fun p => lineCounts p.2 && (sealKey s p.2.part p.2.lpn).isSome) && (pendAll s).isEmpty && s.chans.all (fun c => c.2.wbuf.isEmpty)

/-- R349 step 4, R232: every dirty node and companion line is written back as a checkpoint does, and the Summit is stored. -/
def flushTree (s : State) : State :=
  if treeMay s then treeGoesOn 12 { s with sealCtl := { s.sealCtl with ckptLevel := some (s.sealCtl.ckptLevel.getD 1) } }
  else { s with keeper := { s.keeper with summitWaits := true } }

/-- R230, R232: step 4 ends once the Summit is stored. -/
def treeOut (s : State) : State :=
  let t := if s.sealCtl.ckptLevel.isSome then treeGoesOn 12 s else s
  if t.sealCtl.ckptLevel.isNone && t.keeper.summitWaits && storeAllowed t then storeSummit t else t

/-- R385: the open minute closes with SHORT and PARTIAL; it and the newest sealed minute that waits are written, and any older one is
lost. -/
def flushMinutes (s : State) : State :=
  let s1 := sealClosing s
  let s2 := sealClosing (swapMinute (tbNow s) 0x50 (s1.reck.openBank.minute + 1) 0 s1)
  let open' := ((s2.reck.ring.filter (fun p => !p.2.committed)).map (fun p => p.2.bank.minute))
  let top := maxN open'
  let next := maxN (open'.filter (· ≠ top))
  let keep := fun (p : Nat × RingSlot) => p.2.committed || p.2.bank.minute == top || p.2.bank.minute == next
  ledgerStart (ledgerFeed (modReck (fun r => { r with ring := r.ring.filter keep }) s2))

/-- R349 step 5: the journal tail, the minutes and the changed event-log parcels. -/
def flushBooks (s : State) : State := programLogs (deliverAll (journalFill (flushMinutes s)))

/-- R349 step 5: what still waits goes on. -/
def booksGoOn (s : State) : State := placeWaiting (journalCommit (journalFill (ledgerCommit s)))

/-- R349 step 5: whether the tail is committed and every program of a ledger or event-log parcel that has a place has passed. -/
def booksOut (s : State) : Bool :=
  let waits := s.way.progs.any (fun p => p.placed && (match p.work with | .ledger .. => true | .log .. => true | _ => false))
  (s.way.tail.isEmpty && s.way.parcels.isEmpty || (serving s).isEmpty || s.boot.recovering) && !waits &&
  (s.reck.block.isNone || !ledgerMay s || s.way.progs.any (fun p => !p.placed))

/-- R349 step 6: one commit of every dirty record with STATE 7, stored whole. -/
def flushCommit (s : State) : State :=
  let f : FlushRec := (match s.belay.latch with | some f => { f with state := 7 } | none => { state := 7, cause := s.belay.cause, start := s.belay.startTb })
  let clocks := ids32.map (fun c => (chan s c).clock / 1048576)
  let s1 := modImg [rk 15 0, rk 17 0] (fun m => { m with flush := f, keep := { m.keep with clocks := clocks } }) (freezeCommit (commitMarks (finishStore s)))
  let s2 := finishStore { s1 with sad := { s1.sad with running := some (captureGroup s1.sad.dirty s1), dirty := [] } }
  clearLatch { s2 with belay := { s2.belay with latch := none }, keeper := { s2.keeper with flushArea := none } }

/-- R349 step 7, R544: the hand-over to Rope. -/
def handOver7 (v : Nat) (s : State) : State :=
  let s1 := emit 0x0F02 0xFF ((tbNow s - s.belay.startTb) / 1000) s.belay.parcels s.belay.nodeParcels v s
  if s.belay.cause = 6 then (if s.belay.pfail then powerDown 1 1 s1 else restart s1) else powerDown 1 s.belay.cause s1

/-- FLUSH_STEP_ADVANCE (R349): the step in progress has ended. -/
def flushStepAdvance (v : Nat) (s : State) : State :=
  match s.belay.step with
  | 1 => nextStep (rederive s)
  | 2 => if banksCalm s then nextStep s else s
  | 3 => if linesOut s then flushTree (nextStep s) else s
  | 4 =>
    let t := treeOut s
    if t.sealCtl.ckptLevel.isNone && !t.keeper.summitWaits then flushBooks (nextStep t) else t
  | 5 =>
    let t := booksGoOn s
    if booksOut t && storeAllowed t then flushCommit (nextStep t) else t
  | 6 => handOver7 v (modBelay (fun b => { b with step := 7 }) s)
  | _ => s

/-- FLUSH_STEP_ADVANCE (R349). -/
def execFlushStepAdvance (senseUv : Nat) (s : State) : Out := .next (whenMain (flushStepAdvance (bankMv s senseUv)) s)

/-! ### Commands (R418) -/

/-- R338, R339: why a configuration is rejected: DETAIL and OFFSET. -/
def belayBad (i : List Byte) : Option (Nat × Nat) :=
  let f := fld i
  if f 0 4 < 1024 ∨ 16384 < f 0 4 then some (0x0D83, 0)
  else if f 4 4 < 1000 ∨ 60000 < f 4 4 then some (0x0D83, 4)
  else if 60000 < f 8 4 then some (0x0D83, 8)
  else if f 12 4 ≠ 0 ∧ (f 12 4 < 500 ∨ 100000 < f 12 4) then some (0x0D83, 12)
  else if 86399 < f 16 4 then some (0x0D83, 16)
  else if f 8 4 ≤ f 4 4 then some (0x0F80, 8) else none

/-- SET_BELAY_CONFIG (R338, R339): a new R_TEST discards C, and a test may start at once. -/
def cmdSetBelayConfig : Cmd :=
  { op := 0xC600, len := lenIs 24, rsvd := [(20, 4)], body := fun _ i s =>
      match belayBad i with
      | some (d, o) => (rej 2 d o, s)
      | none =>
        let r := fld i 12 4
        let new := r ≠ s.sad.img.belay.rTest
        let s1 := modImg [rk 14 0] (fun m => { m with belay := { m.belay with
          senseRatio := fld i 0 4, vMin := fld i 4 4, vTrip := fld i 8 4, rTest := r, testTod := fld i 16 4
          c := if new then none else m.belay.c } }) s
        ({ recs := [rk 14 0] }, if new then modBelay (fun b => { b with tested := false, testDue := true, notBefore := 0 }) s1 else s1) }
/-- SET_BELAY_CONFIG (R339). -/
def execSetBelayConfig (p : Path) (input : List Byte) (s : State) : Out := runCmd cmdSetBelayConfig p input s

/-- GET_BELAY_CONFIG (R418). -/
def cmdGetBelayConfig : Cmd := noInput 0xC601 (fun _ s =>
  let b := s.sad.img.belay
  toLe 4 b.senseRatio ++ toLe 4 b.vMin ++ toLe 4 b.vTrip ++ toLe 4 b.rTest ++ toLe 4 b.testTod ++ zeros 4 ++
  toLe 4 (b.c.getD 0) ++ toLe 4 (s.belay.e / 20000000000) ++ toLe 2 s.belay.s ++ toLe 1 (if s.belay.through then 1 else 0) ++ zeros 1 ++
  toLe 8 b.testTb ++ zeros 4)
/-- GET_BELAY_CONFIG (R418). -/
def execGetBelayConfig (p : Path) (input : List Byte) (s : State) : Out := runCmd cmdGetBelayConfig p input s

/-- Whether an activation runs on some path (R542). -/
def activating (s : State) : Bool :=
  (allPaths s).any (fun p => match jobOf s p with | some (.activate _) => true | _ => false)

/-- PREPARE_POWER_OFF (R358, R542): it completes when it has started a flush of cause 4. -/
def cmdPreparePowerOff : Cmd :=
  { op := 0xC602, len := lenIs 0, body := fun _ _ s => if activating s then (rej 6 0x1581, s) else ({}, startFlush 4 s) }
/-- PREPARE_POWER_OFF (R358). -/
def execPreparePowerOff (p : Path) (input : List Byte) (s : State) : Out := runCmd cmdPreparePowerOff p input s

end Sys2Proof.Machine
end

