-- ==== Sys2Proof/Machine/CairnRows.lean ====
section
/-! DEFINITION. Cairn's array, its window and its commands (R470 to R479, R419), and the Relay queues' own steps (R480 to
R487). -/

namespace Sys2Proof.Machine

/-! ### The array (R470 to R473) -/

/-- R472: how many records have been stored; they are numbered from 0. -/
def cairnCount (s : State) : Nat := s.cairn.stored.length

/-- R470, R478: the number of the oldest ring record; 8,192 until the ring has wrapped. -/
def cairnOldest (s : State) : Nat := max 8192 (cairnCount s - 65536)

/-- R470: whether the array holds a record number. -/
def cairnHeld (s : State) (n : Nat) : Bool := decide (n < cairnCount s) && (decide (n < 8192) || decide (cairnOldest s ≤ n))

/-- R478: the number of the newest stored record; no rule states it while there is none. -/
def cairnNewest (s : State) : Nat := if cairnCount s = 0 then Config.free 0x900C 0 % 4294967296 else cairnCount s - 1

/-- R473: a stored record as it is returned. -/
def cairnRecord (s : State) (n : Nat) : CairnRec :=
  let r := s.cairn.stored.getD (cairnCount s - 1 - n) { code := 0 }
  if s.cairn.unreadable.contains n then { code := 0x1100, inst := r.inst, ts := r.ts, flags := 32 } else r

/-- R471: the 32 bytes of a record. -/
def recordBytes (r : CairnRec) : List Byte :=
  toLe 2 r.code ++ toLe 1 r.inst ++ toLe 1 r.flags ++ toLe 4 r.boot ++ toLe 8 r.ts ++ toLe 4 r.p1 ++ toLe 4 r.p2 ++ toLe 4 r.p3 ++ toLe 4 r.p4

/-- R419: a requested number that has left the ring is advanced to the oldest ring record. -/
def cairnStart (s : State) (n : Nat) : Nat := if 8192 ≤ n ∧ n < cairnOldest s then cairnOldest s else n

/-- R419: the consecutive numbers that a read returns. -/
def cairnRun (s : State) (start count : Nat) : List Nat := ((List.range count).map (start + ·)).takeWhile (cairnHeld s)

/-- CAIRN_RECORD_ARRIVAL (R472). -/
def execCairnRecordArrival (r : CairnRec) (s : State) : Out :=
  .next (if s.keeper.stopped then s else { s with cairn := stagePut r s.cairn })

/-- CAIRN_STORE (R455, R472): the oldest staged record is stored, once the supply check passes. -/
def cairnStore (s : State) : State :=
  if s.cairn.staging.isEmpty then s
  else if storeAllowed s then { s with cairn := cairnStoreOne s.cairn (mkRec s 0x1101 0xFF 0 0 0 0 false) }
  else if s.cairn.held then s
  else bump 0x1005 1 1 (bumpMin 0x1005 3 s.keeper.ek (bumpMin 0x1005 2 s.keeper.vddKeep { s with cairn := { s.cairn with held := true } }))

/-- CAIRN_STORE (R472). -/
def execCairnStore (s : State) : Out := .next (cairnStore s)

/-- CAIRN_POINTER_MISMATCH (R472, R44). -/
def execCairnPointerMismatch (s : State) : Out :=
  .next (if s.keeper.stopped then s else
    stageRec 0x1102 0xFF s.cairn.staging.length 0 0 0 { s with cairn := { s.cairn with staging := [], held := false, resetTb := some (nowTb s) } })

/-- EPOCH_CLOSE (R474). -/
def execEpochClose (s : State) : Out :=
  .next (whenMain (fun s => if s.cairn.epochCycles < 3600000000000 then s else closeEpoch false s) s)

/-! ### Blocks (R477) -/

/-- R477: the bins of a histogram. -/
def histBins (b : CairnBlock) (id w : Nat) : List Byte := (List.range 8).flatMap (fun i => toLe w (tgetD b.hist (id * 8 + i) 0))

/-- R476: an extreme's value and time; no rule states them before its first reading. -/
def extremeOf (b : CairnBlock) (i : Nat) : Int × Nat := (tget b.extremes i).getD ((Config.free 0x0476 i : Nat), Config.free 0x0476 (16 + i))

/-- R477: the bytes of an epoch block, or of the lifetime block. -/
def blockBytes (life : Bool) (b : CairnBlock) : List Byte :=
  let w := if life then 8 else 6
  let body := toLe 4 b.number ++ toLe 8 b.startTb ++ toLe 2 b.flags ++ zeros 2 ++ (List.range 38).flatMap (fun i => histBins b i w) ++
    (List.range 14).flatMap (fun i => toLeI 4 (extremeOf b i).1 ++ toLe 8 (extremeOf b i).2)
  let all := padTo (if life then 4092 else 2044) body
  all ++ toLe 4 (crc32c all)

/-- R477: the block that an epoch value selects, and whether it is the lifetime block. -/
def blockOf (s : State) (k : Nat) : Option (Bool × CairnBlock) :=
  if k = 0 then some (true, s.cairn.life) else (s.cairn.epochs[k - 1]?).map (fun b => (false, b))

/-! ### The window (R478, R479) -/

/-- R479: the window's content for its registers. -/
def loadWindow (s : State) (w : CairnWin) : CairnWin :=
  let d : CairnWin := { w with ready := true, loading := false, advanced := false, notHeld := false, half := false }
  if w.space then
    match blockOf s (w.position / 65536) with
    | some (life, b) =>
      let u := bytesAt (blockBytes life b) (w.position % 65536 * 64) 64
      if u.length = 64 then { d with data := u } else { d with notHeld := true, data := zeros 64 }
    | none => { d with notHeld := true, data := zeros 64 }
  else
    let n := cairnStart s w.position
    let d1 : CairnWin := { d with position := n, advanced := n != w.position }
    if !cairnHeld s n then { d1 with notHeld := true, data := zeros 64 }
    else if cairnHeld s (n + 1) then { d1 with data := recordBytes (cairnRecord s n) ++ recordBytes (cairnRecord s (n + 1)) }
    else { d1 with half := true, data := recordBytes (cairnRecord s n) ++ zeros 32 }

/-- CAIRN_WINDOW_LOAD (R479): the load that a write started ends. -/
def execCairnWindowLoad (p l : Nat) (s : State) : Out :=
  .next (whenMain (fun s =>
    if mgmtKey s = some (ldKey p l) ∧ (ldAt s (ldKey p l)).win.loading then
      modLd (ldKey p l) (fun x => { x with win := loadWindow s x.win }) s else s) s)

/-- R479: a load starts: READY and every status flag are clear. -/
def startLoad (w : CairnWin) : CairnWin := { w with ready := false, advanced := false, notHeld := false, half := false, data := [], loading := true }

/-- CAIRN_WINDOW_AUTO_ADVANCE (R478): the read's own data is what the window held. -/
def autoAdvance (p l : Nat) (s : State) : State :=
  let w := (ldAt s (ldKey p l)).win
  if mgmtKey s ≠ some (ldKey p l) then s
  else
    let s1 := { s with ports := { s.ports with readData := if w.ready then fld w.data 60 4 else 0 } }
    if !w.auto then s1
    else modLd (ldKey p l) (fun x => { x with win := startLoad { x.win with position := (x.win.position + (if x.win.space then 1 else 2)) % 4294967296 } }) s1

/-- CAIRN_WINDOW_AUTO_ADVANCE (R478). -/
def execCairnWindowAutoAdvance (p l : Nat) (s : State) : Out := .next (whenMain (autoAdvance p l) s)

/-! ### Commands (R419) -/

/-- GET_CAIRN_INFO (R419). -/
def cmdGetCairnInfo : Cmd := noInput 0xC700 (fun _ s =>
  toLe 4 (cairnCount s) ++ toLe 4 (min (cairnCount s) 8192) ++ toLe 4 (cairnOldest s) ++ toLe 4 (cairnNewest s) ++
  toLe 4 s.cairn.epochs.length ++ toLe 4 (match s.cairn.epochs with | e :: _ => e.number | [] => 0) ++ zeros 8)
/-- GET_CAIRN_INFO (R419). -/
def execGetCairnInfo (p : Path) (input : List Byte) (s : State) : Out := runCmd cmdGetCairnInfo p input s

/-- R419: the answer to a read of n records from a record number. -/
def cairnReadOut (s : State) (first n : Nat) : List Byte :=
  let a := cairnStart s first
  let run := cairnRun s a n
  toLe 4 a ++ toLe 2 run.length ++ zeros 2 ++ run.flatMap (fun k => recordBytes (cairnRecord s k))

/-- CAIRN_READ (R419). -/
def cmdCairnRead : Cmd :=
  { op := 0xC701, len := lenIs 8, rsvd := [(6, 2)], body := fun _ i s =>
      let n := fld i 4 2
      if n < 1 ∨ 2047 < n then (rej 2 0x0D83 4, s) else ({ out := cairnReadOut s (fld i 0 4) n }, s) }
/-- CAIRN_READ (R419). -/
def execCairnRead (p : Path) (input : List Byte) (s : State) : Out := runCmd cmdCairnRead p input s

/-- GET_CAIRN_HISTOGRAM (R477). -/
def cmdGetCairnHistogram : Cmd :=
  { op := 0xC702, len := lenIs 4, body := fun _ i s =>
      let id := fld i 0 2
      let k := fld i 2 2
      if 0x26 < id then (rej 2 0x0D83 0, s)
      else if 720 < k then (rej 2 0x0D83 2, s)
      else
        let b := match blockOf s k with | some (_, b) => b | none => { number := 0 }
        let flags := (if (blockOf s k).isNone then 1 else 0) + (if b.flags % 2 = 1 then 2 else 0)
        let held := (blockOf s k).isSome
        let body := if !held then zeros (if id = 0x26 then 224 else 64)
          else if id = 0x26 then (List.range 14).flatMap (fun j => toLeI 4 (extremeOf b j).1 ++ zeros 4 ++ toLe 8 (extremeOf b j).2)
          else histBins b id 8
        ({ out := toLe 2 id ++ toLe 2 k ++ toLe 4 b.number ++ toLe 1 flags ++ zeros 7 ++ body }, s) }
/-- GET_CAIRN_HISTOGRAM (R477). -/
def execGetCairnHistogram (p : Path) (input : List Byte) (s : State) : Out := runCmd cmdGetCairnHistogram p input s

/-! ### The Relay queues (R480 to R487) -/

/-- R481: the event descriptor that an item of queues 10 and 11 is: INSTANCE names the LD, parameter 1 the log. -/
def descOf (r : CairnRec) : EventDesc :=
  { lds := [r.inst], log := r.p1, ev := { handle := 0, code := r.code, ts := r.ts, p2 := r.p2, p3 := r.p3, p4 := r.p4 } }

/-- R480: the queue of an event log. -/
def logQueue (log : Nat) : Nat := if log < 2 then 10 else 11

/-- RELAY_ITEM_PRODUCED (R481 to R484). -/
def relayItemProduced (q : Nat) (r : CairnRec) (s : State) : State :=
  if q ≤ 9 then { s with relay := relayPut q { r with boot := 0 } s.relay }
  else if q = logQueue r.p1 ∧ r.p1 ≤ 4 then { s with relay := eventPut (descOf r) s.relay } else s

/-- RELAY_ITEM_PRODUCED (R482). -/
def execRelayItemProduced (queue : Nat) (r : CairnRec) (s : State) : Out := .next (whenMain (relayItemProduced queue r) s)

/-- R482: the consumer's read of a queue: the item and the queue after it. -/
def queueTake (x : RelayQ) : Option (CairnRec × RelayQ) :=
  let y := if x.drain.isEmpty ∧ !x.fill.isEmpty then swapBanks x else x
  match y.drain with
  | [] => none
  | r :: rest => some (r, swapIfFull { y with drain := rest })

/-- RELAY_ITEM_DRAIN (R481, R482, R484, R68). -/
def relayItemDrain (q : Nat) (s : State) : State :=
  if q = 10 then
    match s.relay.evq10 with
    | [] => s
    | e :: rest => deliver e { s with relay := refillEvents { s.relay with evq10 := rest } }
  else if q = 11 then
    match s.relay.evq11 with
    | [] => s
    | e :: rest => deliver e { s with relay := refillEvents { s.relay with evq11 := rest } }
  else match queueTake (tgetD s.relay.queues q {}) with
    | none => s
    | some (r, x) => forward r { s with relay := { s.relay with queues := tset s.relay.queues q x } }

/-- RELAY_ITEM_DRAIN (R482). -/
def execRelayItemDrain (queue : Nat) (s : State) : Out := .next (whenMain (relayItemDrain queue) s)

/-- R486: the marker in entry 0 after a reset of a queue. -/
def resetMarker (s : State) (q : Nat) (items : List CairnRec) : CairnRec :=
  { code := 0x1201, inst := q, ts := tbNow s, p1 := items.length
    p2 := (items.filter (fun r => r.flags / 16 % 2 = 1)).length, p3 := (items.map (·.code)).headD 0 }

/-- RELAY_POINTER_MISMATCH (R486, R487, R44). -/
def relayPointerMismatch (q ptr : Nat) (s : State) : State :=
  let now := { s with cairn := { s.cairn with resetTb := some (tbNow s) } }
  if q ≤ 9 then
    let x := tgetD s.relay.queues q {}
    let items := x.drain ++ x.fill
    stageRec 0x1202 0xFF q items.length ptr 0 { now with relay := { s.relay with
      queues := tset s.relay.queues q { fill := [resetMarker s q items] }
      lostNotices := tmod s.relay.lostNotices q [] (· ++ items.filter (fun r => r.flags / 16 % 2 = 1)) } }
  else if q = 10 then
    stageRec 0x1202 0xFF 10 s.relay.evq10.length ptr 0 { now with relay := { s.relay with
      evq10 := [], lostEvents := tmod s.relay.lostEvents 10 [] (· ++ s.relay.evq10) } }
  else if q = 11 then
    stageRec 0x1202 0xFF 11 s.relay.evq11.length ptr 0 { now with relay := { s.relay with
      evq11 := [], lostEvents := tmod s.relay.lostEvents 11 [] (· ++ s.relay.evq11) } }
  else s

/-- RELAY_POINTER_MISMATCH (R486): the pointer is 1 producer or 2 consumer. -/
def execRelayPointerMismatch (queue ptr : Nat) (s : State) : Out := .next (whenMain (relayPointerMismatch queue ptr) s)

/-- NOTICE_RECONCILE (R485): the missing records and events of a queue, each exactly once. -/
def noticeReconcile (q : Nat) (s : State) : State :=
  let rs := tgetD s.relay.lostNotices q []
  let es := tgetD s.relay.lostEvents q []
  if rs.isEmpty ∧ es.isEmpty then s
  else
    let s1 := forAll rs forward { s with relay := { s.relay with
      lostNotices := tdel s.relay.lostNotices q, lostEvents := tdel s.relay.lostEvents q } }
    stageRec 0x1203 0xFF q rs.length es.length 0 (forAll es (fun e t => { t with relay := eventPut e t.relay }) s1)

/-- NOTICE_RECONCILE (R485). -/
def execNoticeReconcile (queue : Nat) (s : State) : Out := .next (whenMain (noticeReconcile queue) s)

end Sys2Proof.Machine
end

