-- ==== Sys2Proof/Machine/Rope.lean ====
section
/-! DEFINITION. Rope, the power sequencer of the keeper die: the pitch table (R493 to R495), power-up in step on the ROPE
line (R496 to R504), faults while on (R505, R506), power-down (R507 to R511), and its commands (R418). -/

namespace Sys2Proof.Machine

/-- Change Rope. -/
def modRope (f : Rope → Rope) (s : State) : State := { s with rope := f s.rope }

/-- Rope works while the keeper does (R490). -/
def whenKeeper (f : State → State) (s : State) : State := if s.keeper.stopped then s else f s

/-- R493: an entry of the table in force. -/
def pitchAt (s : State) (i : Nat) : PitchEnt := s.rope.table.getD i {}

/-- R493: an entry that names a rail. -/
def isRail (e : PitchEnt) : Bool := e.role == 1 || e.role == 2

/-- R498: the enables of a pitch. -/
def enablesAt (s : State) (q : Nat) : List Nat := (List.range 16).filter (fun i => isRail (pitchAt s i) && (pitchAt s i).pitch == q)

/-- R492: the nominal voltage of a rail monitor in mV. -/
def nominal (mon : Nat) : Nat := [750, 850, 900, 1200, 1100, 1800, 1100, 1800, 1800].getD mon 0

/-! ### Power-up -/

/-- R499: ROPE is driven low and reads high: a line fault, handled as a start fault. -/
def lineFault (s : State) : State := powerDown 6 0 (emit 0x130A 0xFF s.rope.pitch 0 0 0 s)

/-- A time in ns has passed on the keeper's clock since another. -/
def ropeAge (s : State) (since ns : Nat) : Bool := decide (since + ns ≤ keeperNow s)

/-- R499: Rope advances one pitch and raises its enables in the same cycle. -/
def nextPitch (s : State) : State :=
  let on := enablesAt s (s.rope.pitch + 1)
  modRope (fun r => { r with pitch := r.pitch + 1, pitchDone := false, driveLow := false, pitchTb := keeperNow s
                             en := on.foldl (fun (m : BitVec 16) i => m ||| bit1 i) r.en }) s

/-- R503: the ROLE 2 rails of a channel are all on. -/
def railsOn (s : State) (c : Nat) : Bool :=
  (List.range 16).all (fun i => (pitchAt s i).role != 2 || !(pitchAt s i).channels.getLsbD c ||
    (s.rope.en.getLsbD i && !s.rope.lostModules.getLsbD i))

/-- R503: module rails good is reported for every channel whose rails are on, or that no entry names. -/
def reportRails (s : State) : State := forAll ids32 (fun c t => modChan c (fun x => { x with railsGood := railsOn s c }) t) s

/-- R503: Rope enters ON. -/
def ropeOn (s : State) : State :=
  let us := (keeperNow s - s.rope.upTb) / 1000
  setReset 1 (emit 0x1301 0xFF us s.rope.attempts s.rope.holdMs 0 (reportRails (modRope (fun r => { r with st := .on, driveLow := false }) s)))

/-- ROPE_LINE_RISE (R499, R503): ROPE has risen and read high for 1 µs; a participant that has released it advances, not earlier
than 1 µs after the release (R513). -/
def ropeLineRise (s : State) : State :=
  match s.rope.st with
  | .holdoff => lineFault s
  | .rising =>
    if s.rope.driveLow then lineFault s
    else if (s.rope.pitch ≠ 0 ∧ !s.rope.pitchDone) ∨ !ropeAge s s.rope.relTb 1000 then s
    else if 15 ≤ s.rope.pitch then ropeOn s else nextPitch s
  | _ => s

/-- ROPE_LINE_RISE (R499). -/
def execRopeLineRise (s : State) : Out := .next (whenKeeper ropeLineRise s)

/-- PITCH_DRIVE_LOW (R499): 20 µs into a pitch; a line that then reads high for 1 µs is a fault. -/
def pitchDriveLow (readsHigh : Bool) (s : State) : State :=
  if s.rope.st = .rising ∧ 1 ≤ s.rope.pitch ∧ !s.rope.pitchDone ∧ ropeAge s s.rope.pitchTb 20000 then
    (if readsHigh then lineFault (modRope (fun r => { r with driveLow := true }) s) else modRope (fun r => { r with driveLow := true }) s)
  else s

/-- PITCH_DRIVE_LOW (R499). -/
def execPitchDriveLow (readsHigh : Bool) (s : State) : Out := .next (whenKeeper (pitchDriveLow readsHigh) s)

/-- R492, R476: a rail's monitor reports a reading. -/
def railReading (mon mv : Nat) (s : State) : State :=
  if mon < 8 then extremeLo (2 + mon) mv (modRope (fun r => { r with rails := r.rails.set mon mv }) s) else s

/-- R498: the monitors of a complete pitch read at least 95% of nominal; within that, and up to the 108% of R505, the
reading is a free value. -/
def completeReadings (s : State) : State :=
  drawn (forAll (enablesAt s s.rope.pitch) (fun i t =>
    let m := (pitchAt s i).mon
    railReading m (nominal m * 95 / 100 + freeVal s m % (nominal m * 13 / 100 + 1)) t) s)

/-- R498, R499: the earliest that a pitch's ROPE release can be: its rails good for 200 µs, and ROPE driven low for 1 µs from
20 µs on. -/
def pitchTime (s : State) : Nat := if (enablesAt s s.rope.pitch).isEmpty then 21000 else 200000

/-- PITCH_COMPLETE (R498, R499, R502). -/
def pitchComplete (pfailLow : Bool) (s : State) : State :=
  if s.rope.st = .rising ∧ 1 ≤ s.rope.pitch ∧ s.rope.driveLow ∧ !s.rope.pitchDone ∧ ropeAge s s.rope.pitchTb (pitchTime s) then
    let s1 := completeReadings s
    if s.rope.pitch = 1 ∧ pfailLow then powerDown 5 0 (bump 0x1308 1 1 s1)
    else modRope (fun r => { r with pitchDone := true, driveLow := false, relTb := keeperNow s }) s1
  else s

/-- PITCH_COMPLETE (R498). -/
def execPitchComplete (pfailLow : Bool) (s : State) : Out := .next (whenKeeper (pitchComplete pfailLow) s)

/-- ROPE_TIMEOUT (R501): ROPE stays low for 100 ms after the release at a pitch of 1 or above. -/
def ropeTimeout (s : State) : State :=
  let ms := (keeperNow s - s.rope.relTb) / 1000000
  if s.rope.st = .rising ∧ 1 ≤ s.rope.pitch ∧ s.rope.pitchDone ∧ 100 ≤ ms then powerDown 4 0 (emit 0x1304 0xFF s.rope.pitch ms 0 0 s) else s

/-- ROPE_TIMEOUT (R501). -/
def execRopeTimeout (s : State) : Out := .next (whenKeeper ropeTimeout s)

/-- PFAIL_DURING_RISING (R502): PFAIL_N low for 200 ns between pitch 1 and ON. -/
def pfailDuringRising (s : State) : State :=
  if s.rope.st = .rising ∧ 1 ≤ s.rope.pitch then powerDown 5 0 s else s

/-- PFAIL_DURING_RISING (R502). -/
def execPfailDuringRising (s : State) : Out := .next (whenKeeper pfailDuringRising s)

/-- START_FAULT (R504): cause 1, not complete by 10 ms; 2, the third PG fall of a rail that a PG input confirms. -/
def startFault (i cause mv : Nat) (s : State) : State :=
  if s.rope.st = .rising ∧ 1 ≤ s.rope.pitch ∧ !s.rope.pitchDone ∧ (enablesAt s s.rope.pitch).contains i ∧
      ((cause = 1 ∧ ropeAge s s.rope.pitchTb 10000000) ∨ (cause = 2 ∧ (pitchAt s i).pg ≠ 255)) then
    powerDown 2 0 (emit 0x1303 0xFF s.rope.pitch i cause mv s)
  else s

/-- START_FAULT (R504). -/
def execStartFault (enable cause mv : Nat) (s : State) : Out := .next (whenKeeper (startFault enable cause mv) s)

/-! ### Faults while on -/

/-- R505: a rail whose own pitch has completed. -/
def railUp (s : State) (i : Nat) : Bool :=
  (pitchAt s i).role == 1 && s.rope.en.getLsbD i &&
    (s.rope.st == .on || (s.rope.st == .rising && (decide ((pitchAt s i).pitch < s.rope.pitch) || s.rope.pitchDone)))

/-- R505: within 1 h of the first rail fault. -/
def railRepeats (s : State) : Bool := match s.rope.railFaultTb with | some t => decide (nowTb s < t + 3600000000000) | none => false

/-- RAIL_FAULT (R505): a rail out of tolerance for 10 µs; no flush runs. -/
def railFault (i mv us : Nat) (s : State) : State :=
  if i < 16 ∧ railUp s i ∧ 10 ≤ us then
    let again := railRepeats s
    let s1 := emit 0x1305 0xFF i mv us (if again then 2 else 1) (railReading (pitchAt s i).mon mv s)
    powerDown 3 0 (modRope (fun r => { r with railRepeat := again, railFaultTb := if again then r.railFaultTb else some (nowTb s) }) s1)
  else s

/-- RAIL_FAULT (R505). -/
def execRailFault (enable mv durationUs : Nat) (s : State) : Out := .next (whenKeeper (railFault enable mv durationUs) s)

/-- R506: the ROLE 2 entries that a lost module rail takes with it. -/
def overlapping (s : State) (i : Nat) : List Nat :=
  (List.range 16).filter (fun j => (pitchAt s j).role == 2 && s.rope.en.getLsbD j &&
    (j == i || (pitchAt s j).channels &&& (pitchAt s i).channels != 0))

/-- R506: every channel that one of the entries names becomes FAILED. -/
def failChannels (l : List Nat) (s : State) : State :=
  let m := l.foldl (fun (m : BitVec 32) j => m ||| (pitchAt s j).channels) 0
  forAll (ids32.filter (fun c => m.getLsbD c)) (fun c t => channelDown c (modChan c (fun x => { x with railsGood := false, pages := [], outs := [] }) t)) s

/-- MODULE_RAIL_PG_FALL (R506). -/
def moduleRailPgFall (i : Nat) (s : State) : State :=
  if s.rope.st = .on ∧ i < 16 ∧ (pitchAt s i).role = 2 ∧ s.rope.en.getLsbD i then
    let off := (overlapping s i).foldl (fun (m : BitVec 16) j => m ||| bit1 j) 0
    let s1 := modRope (fun r => { r with en := r.en &&& ~~~off, lostModules := r.lostModules ||| off, fallTb := keeperNow s }) s
    emit 0x1307 0xFF i (pitchAt s i).channels.toNat 0 0 (failChannels (overlapping s i) s1)
  else s

/-- MODULE_RAIL_PG_FALL (R506). -/
def execModuleRailPgFall (enable : Nat) (s : State) : Out := .next (whenKeeper (moduleRailPgFall enable) s)

/-! ### Power-down -/

/-- R523: a thermal shutdown that recurs within 1 h of the restart that followed the previous one. -/
def thermalAgain (s : State) : Bool := match s.rope.thermalTb with | some t => decide (s.rope.downTb < t + 3600000000000) | none => false

/-- R509, R497, R523: the state that a power-down ends in, and its HOLDOFF in ms. -/
def afterDown (s : State) : RopeSt × Nat :=
  let r := s.rope
  if r.notFallen ≠ 0 then (.fault, 0)
  else match r.downCause with
    | 1 => if r.flushCause = 4 ∨ (r.flushCause = 5 ∧ thermalAgain s) then (.off, 0) else (.holdoff, 50)
    | 3 => if r.railRepeat then (.fault, 0) else (.holdoff, 150)
    | 4 => (.holdoff, 150)
    | 5 => (.holdoff, 150)
    | _ => (.fault, 0)

/-- R509: the end of a power-down. -/
def endDown (s : State) : State :=
  let n := afterDown s
  let us := (keeperNow s - s.rope.downTb) / 1000
  let s1 := modRope (fun r => { r with
    st := n.1, driveLow := n.1 != .off, holdMs := n.2, holdTb := keeperNow s
    thermalHold := r.downCause == 1 && r.flushCause == 5 }) s
  emit 0x1302 0xFF s.rope.downCause s.rope.topPitch us s.rope.notFallen.toNat s1

/-- R507: every rail of the current pitch has fallen, or its wait has ended. -/
def fallNext (s : State) : State :=
  let s1 := modRope (fun r => fallTo (r.pitch - 1) { r with fallTb := keeperNow s }) s
  if s1.rope.pitch = 0 then endDown s1 else s1

/-- R508: the FALL_TIME of the ROLE 2 rails of the current pitch, in ns. -/
def pitchFall (s : State) : Nat :=
  1000000 * maxN (((List.range 16).filter (fun i => (pitchAt s i).role = 2 ∧ (pitchAt s i).pitch = s.rope.pitch)).map (fun i => (pitchAt s i).fallTime))

/-- RAIL_FALLEN (R507, R508, R509): not before the FALL_TIME of the pitch's ROLE 2 rails. -/
def railFallen (s : State) : State :=
  if s.rope.st = .falling ∧ ropeAge s s.rope.fallTb (pitchFall s) then fallNext s else s

/-- RAIL_FALLEN (R508). -/
def execRailFallen (s : State) : Out := .next (whenKeeper railFallen s)

/-- RAIL_FALL_TIMEOUT (R508): within a power-down, or of a module rail that was turned off in ON. -/
def railFallTimeout (i mv : Nat) (s : State) : State :=
  if !ropeAge s s.rope.fallTb 100000000 then s
  else if s.rope.st = .falling ∧ i < 16 ∧ isRail (pitchAt s i) ∧ (pitchAt s i).pitch = s.rope.pitch then
    fallNext (emit 0x1306 0xFF i mv 0 0 (modRope (fun r => { r with notFallen := r.notFallen ||| bit1 i }) s))
  else if s.rope.st = .on ∧ i < 16 ∧ s.rope.lostModules.getLsbD i then emit 0x1306 0xFF i mv 0 0 s
  else s

/-- RAIL_FALL_TIMEOUT (R508). -/
def execRailFallTimeout (enable mv : Nat) (s : State) : Out := .next (whenKeeper (railFallTimeout enable mv) s)

/-- R497, R523: after a thermal shutdown, every keeper-die sensor has read below 108 °C for 10 s. -/
def cooled (s : State) : Bool :=
  !s.rope.thermalHold || (match s.therm.keeperCoolTb with | some t => decide (t + 10000000000 ≤ keeperNow s) | none => false)

/-- HOLDOFF_END (R497, R493, R495): Rope rises from pitch 0 with the stored table. -/
def holdoffEnd (s : State) : State :=
  if s.rope.st = .holdoff ∧ s.rope.holdTb + s.rope.holdMs * 1000000 ≤ keeperNow s ∧ cooled s then
    modRope (fun r => { r with
      st := .rising, pitch := 0, driveLow := false, pitchDone := false, en := 0, lostModules := 0, upTb := keeperNow s, relTb := keeperNow s
      attempts := r.attempts + 1, table := if s.keeper.life = .blank then defaultPitch else s.sad.img.pitch
      thermalTb := if r.thermalHold then some (keeperNow s) else r.thermalTb, thermalHold := false }) s
  else s

/-- HOLDOFF_END (R497). -/
def execHoldoffEnd (s : State) : Out := .next (whenKeeper holdoffEnd s)

/-! ### Commands (R418, R493, R494) -/

/-- R418: the code of a sequencer state. -/
def ropeCode : RopeSt → Nat
  | .off => 0 | .rising => 1 | .on => 2 | .falling => 3 | .holdoff => 4 | .fault => 5

/-- R418: the power-good inputs: those of rails that are on read high; of an input that no entry names, and of the ROPE
line, the level is open. -/
def pgLevels (s : State) : Nat :=
  bitmapOf ((List.range 16).filter (fun p => match (List.range 16).find? (fun i => isRail (pitchAt s i) && (pitchAt s i).pg == p) with
    | some i => s.rope.en.getLsbD i
    | none => freeVal s (0x1400 + p) % 2 == 1))

/-- R336, R418, R490: the SEQ_EN levels; the HOLDUP_TEST output follows Belay's test. -/
def enLevels (s : State) : BitVec 16 :=
  (List.range 16).foldl (fun (m : BitVec 16) i => if (pitchAt s i).role = 3 ∧ s.belay.holdupTest then m ||| bit1 i else m) s.rope.en

/-- R418: the output of GET_ROPE_STATUS. -/
def ropeStatus (s : State) : List Byte :=
  toLe 1 s.rope.pitch ++ toLe 1 (ropeCode s.rope.st) ++ toLe 2 (enLevels s).toNat ++ toLe 2 (pgLevels s) ++
  toLe 1 (freeVal s 0x1410 % 2) ++ zeros 1 ++ (s.rope.rails.set 8 s.keeper.vddKeep).flatMap (toLe 2) ++ zeros 6

/-- GET_ROPE_STATUS (R418): the levels that are open are drawn anew for each answer. -/
def cmdGetRopeStatus : Cmd := { op := 0xC603, len := lenIs 0, body := fun _ _ s => ({ out := ropeStatus s }, drawn s) }
/-- GET_ROPE_STATUS (R418). -/
def execGetRopeStatus (p : Path) (input : List Byte) (s : State) : Out := runCmd cmdGetRopeStatus p input s

/-- R493: an entry of the record's bytes. -/
def pitchOf (i : List Byte) (n : Nat) : PitchEnt :=
  let b := 8 + 12 * n
  { role := fld i b 1, pitch := fld i (b + 1) 1, pg := fld i (b + 2) 1, mon := fld i (b + 3) 1
    fallTime := fld i (b + 4) 2, channels := BitVec.ofNat 32 (fld i (b + 8) 4) }

/-- R493: the bytes of an entry. -/
def pitchBytes (e : PitchEnt) : List Byte :=
  toLe 1 e.role ++ toLe 1 e.pitch ++ toLe 1 e.pg ++ toLe 1 e.mon ++ toLe 2 e.fallTime ++ zeros 2 ++ toLe 4 e.channels.toNat

/-- R493: the record's bytes. -/
def pitchTable (l : List PitchEnt) : List Byte := toLe 1 1 ++ zeros 7 ++ l.flatMap pitchBytes ++ zeros 56

/-- R493: the byte of an entry that is outside its range. -/
def entryRange (e : PitchEnt) : Option Nat :=
  if 3 < e.role then some 0
  else if 15 < e.pitch ∨ (e.role = 1 ∧ e.pitch = 0) then some 1
  else if 15 < e.pg ∧ e.pg ≠ 255 then some 2
  else if (e.role = 1 ∧ 7 < e.mon) ∨ (e.role ≠ 1 ∧ e.mon ≠ 255) then some 3
  else if e.role = 2 ∧ (e.fallTime = 0 ∨ 100 < e.fallTime) then some 4
  else if e.role ≠ 2 ∧ e.channels ≠ 0 then some 8
  else none

/-- R494: the bytes of entry n that offend against the rest of the table t. -/
def entryBad (t : List PitchEnt) (n : Nat) : List Nat :=
  let at_ := fun (k : Nat) => t.getD k {}
  let e := at_ n
  let prior := List.range n
  let pitchOfMon := fun (m : Nat) => ((t.find? (fun x => x.role == 1 && x.mon == m)).map (·.pitch)).getD 0
  let late := fun (a b : Nat) => decide (e.role = 1 ∧ e.mon = b ∧ e.pitch < pitchOfMon a)
  let top := maxN ((t.filter (fun x => x.role == 1)).map (·.pitch))
  (if (n = 0 ∧ e.role ≠ 1) ∨ (e.role = 3 ∧ prior.any (fun k => (at_ k).role == 3)) then [0] else []) ++
  (if (n = 0 ∧ e.pitch ≠ 1) ∨ (n ≠ 0 ∧ e.pitch = 1) ∨ late 0 1 ∨ late 2 3 ∨ late 5 4 ∨ (e.role = 2 ∧ e.pitch ≤ top) ∨
      ((e.role = 0 ∨ e.role = 3) ∧ e.pitch ≠ 0) then [1] else []) ++
  (if (n = 0 ∧ e.pg ≠ 0) ∨ (e.role = 2 ∧ e.pg = 255) ∨ (e.pg ≠ 255 ∧ prior.any (fun k => (at_ k).pg == e.pg)) ∨
      ((e.role = 0 ∨ e.role = 3) ∧ e.pg ≠ 255) then [2] else []) ++
  (if (n = 0 ∧ e.mon ≠ 7) ∨ (e.role = 1 ∧ prior.any (fun k => (at_ k).role == 1 && (at_ k).mon == e.mon)) then [3] else [])

/-- R494: a monitor that no ROLE 1 entry names offends at the first entry that is not of ROLE 1. -/
def monMissing (t : List PitchEnt) : List Nat :=
  if (List.range 8).all (fun m => t.any (fun x => x.role == 1 && x.mon == m)) then []
  else [8 + 12 * t.findIdx (fun x => x.role != 1)]

/-- R494: the first offending byte of a table. -/
def tableBad (t : List PitchEnt) : Option Nat :=
  (monMissing t ++ (List.range 16).flatMap (fun n => (entryBad t n).map (· + 8 + 12 * n))).min?

/-- R493, R494, R406: why a table is rejected: DETAIL and OFFSET. -/
def pitchBad (i : List Byte) : Option (Nat × Nat) :=
  if fld i 0 1 ≠ 1 then some (0x0D83, 0)
  else match (List.range 16).findSome? (fun n => (entryRange (pitchOf i n)).map (· + 8 + 12 * n)) with
    | some o => some (0x0D83, o)
    | none => (tableBad ((List.range 16).map (pitchOf i))).map (fun o => (0x1380, o))

/-- SET_PITCH_TABLE (R493, R494). -/
def cmdSetPitchTable : Cmd :=
  { op := 0xC604, len := lenIs 256, rsvd := [(1, 7)] ++ (List.range 16).map (fun n => (14 + 12 * n, 2)) ++ [(200, 56)], body := fun _ i s =>
      match pitchBad i with
      | some (d, o) => (rej 2 d o, s)
      | none => ({ recs := [rk 20 0] }, modImg [rk 20 0] (fun m => { m with pitch := (List.range 16).map (pitchOf i) }) s) }
/-- SET_PITCH_TABLE (R493). -/
def execSetPitchTable (p : Path) (input : List Byte) (s : State) : Out := runCmd cmdSetPitchTable p input s

/-- GET_PITCH_TABLE (R493). -/
def cmdGetPitchTable : Cmd := noInput 0xC605 (fun _ s => pitchTable s.sad.img.pitch)
/-- GET_PITCH_TABLE (R493). -/
def execGetPitchTable (p : Path) (input : List Byte) (s : State) : Out := runCmd cmdGetPitchTable p input s

end Sys2Proof.Machine
end

