-- ==== Sys2Proof/Machine/Thermal.lean ====
section
/-! DEFINITION. The thermal monitor (R514 to R524): junction and module readings, throttling, write windows, thermal
shutdown and hardware trip, GET_THERMAL (R418), and TIME_REF (R25, R363). Temperatures are in 1/16 °C. -/

namespace Sys2Proof.Machine

/-- Change the thermal monitor. -/
def modTherm (f : Thermal → Thermal) (s : State) : State := { s with therm := f s.therm }

/-- A condition that is entered at a value and left below another (R516). -/
def hysteresis (was : Bool) (enter leave x : Int) : Bool := if was then decide (leave ≤ x) else decide (enter ≤ x)

/-! ### Junction -/

/-- R514: the main-die sensors that are not excluded, with their readings. -/
def validSensors (s : State) (t : List (Option Int)) : List (Nat × Int) :=
  ids32.filterMap (fun i => if s.therm.excluded.contains i then none else (t.getD i none).map (fun x => (i, x)))

/-- R515: the median of readings; of an even number, the mean of the two in the middle. -/
def median (l : List Int) : Int :=
  let o := sortBy (fun a b => decide (a ≤ b)) l
  let n := o.length
  if n % 2 = 1 then o.getD (n / 2) 0 else (o.getD (n / 2 - 1) 0 + o.getD (n / 2) 0) / 2

/-- R515: a sensor is excluded until the next main-die reset; record 0x1408. -/
def excludeSensor (t : List (Option Int)) (i : Nat) (reading med : Int) (s : State) : State :=
  let s1 := modTherm (fun h => { h with excluded := h.excluded ++ [i], outlier := tdel h.outlier i }) s
  emit 0x1408 0xFF i (i32 reading) (i32 med) (validSensors s1 t).length s1

/-- R515: sensors whose oscillator has stopped. A stopped oscillator gives no reading: it is a free value. -/
def excludeStopped (t : List (Option Int)) (s : State) : State :=
  let med := median ((validSensors s t).map (·.2))
  forAll (ids32.filter (fun i => !s.therm.excluded.contains i && (t.getD i none).isNone))
    (fun i u => excludeSensor t i (freeVal u i : Nat) med (drawn u)) s

/-- R515: sensors that have read more than 15 °C from the median for 1 ms. -/
def excludeOutliers (t : List (Option Int)) (s : State) : State :=
  let med := median ((validSensors s t).map (·.2))
  (validSensors s t).foldl (fun (u : State) (p : Nat × Int) =>
    if (p.2 - med).natAbs ≤ 240 then modTherm (fun h => { h with outlier := tdel h.outlier p.1 }) u
    else match tget u.therm.outlier p.1 with
      | none => modTherm (fun h => { h with outlier := tset h.outlier p.1 (tbNow u) }) u
      | some t0 => if t0 + 1000000 ≤ tbNow u then excludeSensor t p.1 p.2 med u else u) s

/-- R515: the highest of the valid sensors and the HBM sensors (36 and 37 in the order of R418), with its number. -/
def topJunction (s : State) (t : List (Option Int)) : Option (Nat × Int) :=
  (validSensors s t ++ s.therm.hbm.zipIdx.map (fun (p : Int × Nat) => (36 + p.2, p.1))).foldl (fun (m : Option (Nat × Int)) p => match m with
    | none => some p
    | some q => if q.2 < p.2 then some p else some q) none

/-- R518: f_h × 1,024 in junction throttle. -/
def throttleFh (tj : Int) : Nat := max 256 (1024 - 82 * (max 1 (tj / 16 - 104)).toNat)

/-- R475, R476: the junction sample, once per second, and the extreme. -/
def junctionSample (tj : Int) (s : State) : State :=
  let s1 := extremeHi 0 tj s
  if s.therm.sampledJ = secondNow s then s1
  else cairnSample 0x20 (binOf [1280, 1440, 1520, 1600, 1680, 1760, 1888] tj) (modTherm (fun h => { h with sampledJ := secondNow s }) s1)

/-- R517: junction warning entered or left. -/
def junctionWarn (tj : Int) (s : State) : State :=
  let w := hysteresis s.therm.warn 1600 1520 tj
  if w = s.therm.warn then s
  else
    let s1 := emit 0x1401 0xFF (i32 tj) s.therm.tjSensor (if w then 1 else 0) 0 (modTherm (fun h => { h with warn := w }) s)
    if w then postEvent (mgmtLds s) 1 (evOf 0x1401 (i32 tj) s.therm.tjSensor 1 0) s1 else s1

/-- R515, R518: f_h after a reading; record 0x1402 counts while it is below 1,024. -/
def junctionThrottle (tj : Int) (few : Bool) (s : State) : State :=
  let th := hysteresis s.therm.throttle 1680 1600 tj
  let fh := if few then 256 else if th then throttleFh tj else 1024
  let s1 := modTherm (fun h => { h with throttle := th, fH := fh }) s
  if fh < 1024 then bumpMax 0x1402 3 tj.toNat (bumpMin 0x1402 2 fh s1) else s1

/-- R523: thermal shutdown, which Synet starts. -/
def thermalShutdown (tj : Int) (s : State) : State :=
  let sh := hysteresis s.therm.shut 1888 1728 tj
  if !s.boot.running then s
  else if sh && !s.therm.shut then
    startFlush 5 (emit 0x1406 0xFF (i32 tj) s.therm.tjSensor 0 0 (modTherm (fun h => { h with shut := true }) s))
  else modTherm (fun h => { h with shut := sh }) s

/-- R515 to R518, R523: what a T_J reading does. -/
def junctionUpdate (tj : Nat × Int) (few : Bool) (s : State) : State :=
  let s1 := modTherm (fun h => { h with tj := some tj.2, tjSensor := tj.1 }) s
  thermalShutdown tj.2 (junctionThrottle tj.2 few (junctionWarn tj.2 (junctionSample tj.2 s1)))

/-- JUNCTION_READING (R514, R515, R518): the 32 main-die sensors (none: stopped) and the HBM sensors. -/
def junctionReading (t : List (Option Int)) (hbm : List Int) (s : State) : State :=
  let s1 := modTherm (fun h => { h with
    sensors := ids32.foldl (fun m i => match t.getD i none with | some x => tset m i x | none => tdel m i) h.sensors
    hbm := if hbm.isEmpty then h.hbm else hbm.take 2 }) s
  let s2 := excludeOutliers t (excludeStopped t s1)
  match topJunction s2 t with
  | some j => junctionUpdate j (decide ((validSensors s2 t).length < 16)) s2
  | none => modTherm (fun h => { h with tj := none, fH := 256 }) s2

/-- JUNCTION_READING (R518). -/
def execJunctionReading (t : List (Option Int)) (hbm : List Int) (s : State) : Out := .next (whenMain (junctionReading t hbm) s)

/-- HARDWARE_TRIP (R524): a valid main-die sensor has read 125 °C for 1 ms; the keeper writes the record. -/
def hardwareTrip (i : Nat) (t16 : Int) (s : State) : State :=
  if i < 32 ∧ !s.therm.excluded.contains i ∧ 2000 ≤ t16 then powerDown 7 0 (stageRec 0x1407 0xFF i (i32 t16) 0 0 s) else s

/-- HARDWARE_TRIP (R524). -/
def execHardwareTrip (sensor : Nat) (t16 : Int) (s : State) : Out := .next (whenMain (hardwareTrip sensor t16) s)

/-- KEEPER_SENSOR_READING (R514, R497): the four keeper-die sensors. -/
def keeperSensorReading (t : List (Option Int)) (s : State) : State :=
  let cool := (List.range 4).all (fun i => match t.getD i none with | some x => decide (x < 1728) | none => false)
  modTherm (fun h => { h with
    sensors := (List.range 4).foldl (fun m i => match t.getD i none with | some x => tset m (32 + i) x | none => tdel m (32 + i)) h.sensors
    keeperCoolTb := if cool then some (h.keeperCoolTb.getD (keeperNow s)) else none }) s

/-- KEEPER_SENSOR_READING (R514). -/
def execKeeperSensorReading (t : List (Option Int)) (s : State) : Out := .next (whenKeeper (keeperSensorReading t) s)

/-! ### Modules -/

/-- R519: f_w × 1,024 in module throttle. -/
def throttleFw (t : Int) : Nat := 1024 - 154 * (max 1 (t / 16 - 79)).toNat

/-- R475, R476: the module sample, once per second, and the extreme. -/
def moduleSample (t : Int) (s : State) : State :=
  let s1 := extremeHi 1 t s
  if s.therm.sampledM = secondNow s then s1
  else
    let hot := ((serving s).filterMap (fun c => (chan s c).tMax)).foldl max t
    cairnSample 0x21 (binOf [0, 640, 960, 1120, 1200, 1280, 1408] hot) (modTherm (fun h => { h with sampledM := secondNow s }) s1)

/-- R517: module warning entered or left. -/
def moduleWarn (c : Nat) (t : Int) (s : State) : State :=
  let w := hysteresis (chan s c).warn 1200 1120 t
  if w = (chan s c).warn then s
  else
    let s1 := emit 0x1403 c c (i32 t) (if w then 1 else 0) 0 (modChan c (fun x => { x with warn := w }) s)
    if w then postEvent (mgmtLds s) 1 (evOf 0x1403 c (i32 t) 1 0) s1 else s1

/-- R519: f_w after a reading; record 0x1404 counts while it is below 1,024. -/
def moduleThrottle (c : Nat) (t : Int) (s : State) : State :=
  let th := hysteresis (chan s c).throttle 1280 1200 t
  let fw := if th then throttleFw t else 1024
  let s1 := modChan c (fun x => { x with throttle := th, fW := fw }) s
  if fw < 1024 then bumpMin 0x1404 3 fw (bumpBit 0x1404 1 c s1) else s1

/-- R516, R520: the write window; record 0x1405 at each change. -/
def writeWindow (c : Nat) (hi lo : Int) (s : State) : State :=
  let out := if (chan s c).outside then !(decide (hi ≤ 1360) && decide (48 ≤ lo)) else decide (1408 < hi) || decide (lo < 0)
  if out = (chan s c).outside then s
  else
    let s1 := modChan c (fun x => { x with outside := out }) s
    let cause := if !out then 0 else if 1408 < hi then 1 else 2
    emit 0x1405 c c (i32 (if cause = 2 then lo else hi)) cause (bitmapOf (forbiddenSet s1)) s1

/-- R320: the power-off interval passes in the thermal clock at the rate of the first reading. -/
def clockCatchUp (t : Int) (x : Chan) : Chan :=
  { x with clock := x.clock + 1024 * clockRate t * x.offNs / 3600000000000, offNs := 0 }

/-- TEMP_REPLY (R515 to R520): a reply whose CRC is good. -/
def tempReply (c : Nat) (r : TempReply) (s : State) : State :=
  match r.crcOk && inService (chan s c), r.dies with
  | true, d :: ds =>
    let hi := ds.foldl max d
    let lo := ds.foldl min d
    let s1 := modChan c (fun x => { clockCatchUp hi x with tMax := some hi, tMin := some lo, tSec := some (max hi (x.tSec.getD hi)), tempMissStages := 0, tempMissing := false }) s
    writeWindow c hi lo (moduleThrottle c hi (moduleWarn c hi (moduleSample hi s1)))
  | _, _ => s

/-- TEMP_REPLY (R515). -/
def execTempReply (ch : Nat) (r : TempReply) (s : State) : Out := .next (whenMain (tempReply ch r) s)

/-- MODULE_TEMP_MISSING (R515): no good reply for 64 stages. -/
def moduleTempMissing (c : Nat) (s : State) : State :=
  let x := chan s c
  if inService x ∧ !x.tempMissing ∧ 64 ≤ x.tempMissStages then
    emit 0x1409 c c x.tempMissStages 0 0 (modChan c (fun y => { y with tempMissing := true }) s)
  else s

/-- MODULE_TEMP_MISSING (R515). -/
def execModuleTempMissing (ch : Nat) (s : State) : Out := .next (whenMain (moduleTempMissing ch) s)

/-! ### Command and time reference -/

/-- GET_THERMAL (R418). -/
def cmdGetThermal : Cmd := noInput 0xC606 (fun _ s =>
  let h := s.therm
  (List.range 36).flatMap (fun i => reading (if h.excluded.contains i then none else tget h.sensors i)) ++
  (List.range 2).flatMap (fun i => reading h.hbm[i]?) ++
  ids32.flatMap (fun c => reading (chan s c).tMax) ++ toLe 4 (bitmapOf (forbiddenSet s)) ++ toLe 2 h.fH ++ zeros 2 ++
  ids32.flatMap (fun c => toLe 2 (chan s c).fW))
/-- GET_THERMAL (R418). -/
def execGetThermal (p : Path) (input : List Byte) (s : State) : Out := runCmd cmdGetThermal p input s

/-- TIME_REF_LOSS (R25, R363). -/
def execTimeRefLoss (s : State) : Out :=
  .next (whenMain (tbState .refLost) { s with timeRef := false })

/-- TIME_REF_RETURN (R25, R363). -/
def execTimeRefReturn (s : State) : Out :=
  .next (whenMain (fun s => if s.reck.st = .refLost then tbState (if s.reck.cfg.present then .acquiring else .free) s else s) { s with timeRef := true })

end Sys2Proof.Machine
end

