-- ==== Sys2Proof/Machine/Loader.lean ====
section
/-! DEFINITION. The Bivouac loader's checks of the firmware image (R526 to R529) and what a start sets up: ports, freezes and
keys (R53, R106, R209, R555) and the Reckoner (R363, R378). -/

namespace Sys2Proof.Machine

/-- R50, R55: the management LD that the configuration in force names, up or down: what a boot's events are for. -/
def mgmtTarget (s : State) : List Nat :=
  match s.ports.mgmt with
  | none => []
  | some p => if (port s p).up then mgmtLds s else [ldKey p (if (tgetD (governing s).ports p {}).mld then 16 else 0)]

/-! ### The image (R527, R528) -/

/-- R527: the header. -/
def headerOf (s : State) : List Byte := flashBytes s.boot.flash 0 4096
/-- R527: the body. -/
def bodyOf (s : State) (h : List Byte) : List Byte := flashBytes s.boot.flash 4096 (fld h 16 4)
/-- R528: a component entry. -/
def compEntry (h : List Byte) (i : Nat) : List Byte := bytesAt h (96 + 32 * i) 32
/-- R528: the entry of a component type. -/
def compOf (h : List Byte) (t : Nat) : List Byte :=
  match (List.range 3).find? (fun i => fld (compEntry h i) 0 1 = t) with
  | some i => compEntry h i
  | none => []
/-- R528: a component's VERSION. -/
def compVersion (h : List Byte) (t : Nat) : Nat := fld (compOf h t) 4 4

/-- R528: a component entry that fits the body. -/
def compFits (h e : List Byte) : Bool :=
  allZero e 1 3 && allZero e 24 8 && fld e 8 4 % 4096 == 0 && decide (fld e 8 4 + fld e 12 4 ≤ fld h 16 4)

/-- R529 step 5: BODY_LENGTH and the component entries. -/
def layoutOk (h : List Byte) : Bool :=
  fld h 16 4 % 4096 == 0 && decide (fld h 16 4 ≤ 8388608) && (List.range 3).all (fun i => compFits h (compEntry h i)) &&
    [1, 2, 3].all (fun t => (List.range 3).any (fun i => fld (compEntry h i) 0 1 == t))

/-- R529 step 3, R534: MAGIC, HDR_VERSION and HEADER_CRC. -/
def headerWhole (h : List Byte) : Bool :=
  bytesAt h 0 4 == [0x42, 0x56, 0x41, 0x43] && fld h 4 1 == 1 && crc32c (h.take 4092) == fld h 4092 4

/-- R529 step 4: the fused image-key hash and the signature. -/
def headerSigned (h : List Byte) : Bool :=
  Config.fusedKeyHashes.contains (sha384 (bytesAt h 1216 97)) &&
    ecdsaOk (sha384 (h.take 1408)) (bytesAt h 1408 96) (bytesAt h 1216 97)

/-- R529 step 7: the unit list. -/
def unitListed (h : List Byte) : Bool :=
  !(fld h 5 1).testBit 0 || (List.range (fld h 20 1)).any (fun i => bytesAt h (192 + 16 * i) 16 == toLe 16 Config.unitId.toNat)

/-- R65: the die's stepping, A0. -/
def dieStepping : Nat := 0

/-- R529 steps 3 to 10, the header read: the first check that fails; 0 for none. -/
def imageCause (h : List Byte) (body : Unit → List Byte) (counter bodyFails : Nat) : Nat :=
  if !headerWhole h then 1
  else if !headerSigned h then 4
  else if !layoutOk h then 1
  else if fld h 6 2 ≠ 0x1280 then 2
  else if !unitListed h then 5
  else if fld h 12 4 < counter then 6
  else if !(bytesAt h 80 16).contains (BitVec.ofNat 8 dieStepping) then 7
  else if 3 ≤ bodyFails then 8
  else if sha384 (body ()) ≠ bytesAt h 32 48 then 3 else 0

/-- R529: the cause of bivouac mode, 0 for none, from step 2; `hdrFails` header reads have failed. -/
def checkImage (s : State) (hdrFails bodyFails : Nat) : Nat :=
  if 3 ≤ hdrFails then 8 else imageCause (headerOf s) (fun _ => bodyOf s (headerOf s)) s.boot.secCounter bodyFails

/-- R528, R420: the pairing status bits. -/
def pairingOf (h : List Byte) : BitVec 3 :=
  let a := fun (t : Nat) => fld (compOf h t) 16 4
  let b := fun (t : Nat) => fld (compOf h t) 20 4
  let v := compVersion h
  (if a 1 = v 2 ∧ b 2 = v 1 then 1 else 0) ||| (if a 2 = v 3 ∧ b 3 = v 2 then 2 else 0) ||| (if b 1 = v 3 ∧ a 3 = v 1 then 4 else 0)

/-! ### Ports, freezes, keys -/

/-- R53, R55: the LDs that a record's ports have. -/
def recordLds (c : PortCfg) : List Nat :=
  (List.range (portCount c.groupMode)).flatMap (fun p =>
    let e := tgetD c.ports p {}
    (List.range (if e.mld then e.ldCount else 1)).map (ldKey p) ++ (if e.mld ∧ c.mgmt = some p then [ldKey p 16] else []))

/-- R53: this boot follows a main-domain power-up or a management-requested warm reset. -/
def fullRestart (s : State) : Bool := s.keeper.mainBit == 1 || (s.keeper.mainBit == 3 && s.keeper.mgmtWarm)

/-- R53, R593: GROUP_MODE and the fields that R593 binds to it come into force; MGMT_PORT too where the numbering changes. -/
def forceConfig (s : State) : State :=
  if fullRestart s then
    let c := s.sad.img.portCfg
    { s with ports := { s.ports with
      inForce := c, mgmt := if c.groupMode = s.ports.inForce.groupMode then s.ports.mgmt else c.mgmt } }
  else s

/-- R53, R69, R87, R593, R62: ports and LDs as a boot leaves them; the poison lists stand. -/
def bootPorts (s : State) : State :=
  let img := s.sad.img
  let s1 := forceConfig s
  let ks := recordLds (governing s1) ++ (tkeys img.ldMaps).map (instKey img)
  { s1 with ports := { s1.ports with lds := ks.foldl (fun t k => tset t k { map := tgetD img.ldMaps (ldInst k) {}, poisonList := tgetD s.medium.poison k [] }) [] } }

/-- R106, R116: the freezes that the records hold are in force. -/
def bootFreezes (s : State) : State := { s with gate := { s.gate with freezes := s.sad.img.freezes.map (·.2) } }

/-- R555: an alarm source still active leaves the slots zero. -/
def reloadBlocked (src : Nat) (s : State) : State :=
  let n := s.keeper.alarmTries + 1
  stageRec 0x1802 0xFF src s.keeper.alarmDetector n 0 { s with
    keeper := { s.keeper with alarmOut := true, alarmTries := n }
    sealCtl := { s.sealCtl with slots := [], sysKeys := [], kwk := none, keyless := [], zeroed := true } }

/-- R207, R209: the system keys are derived, and the key sets of every partition are unwrapped into their slots. -/
def loadKeys (s : State) : State :=
  forAll (tkeys s.sad.img.parts) loadPart (loadSystem { s with sealCtl := { s.sealCtl with slots := [], keyless := [] } })

/-- R207, R209, R554, R555: the reload of the key slots. -/
def reloadKeys (s : State) : State :=
  match s.boot.alarmActive with
  | some src => reloadBlocked src s
  | none => loadKeys { s with keeper := { s.keeper with alarmOut := false, alarmTries := 0 } }

/-! ### The Reckoner (R363, R367, R369, R378) -/

/-- R378, R459: the last closed minute that the recalled TIMEKEEP record holds. -/
def recalledMinute (s : State) : Option Nat :=
  if thas s.sad.slots (rk 17 0) && !s.boot.lostRecs.contains (rk 17 0) then some s.sad.img.keep.lastMinute else none

/-- R363, R367, R378, R457: the Reckoner at a start of Synet; the ledger's part follows the recovery of the map. -/
def bootReckoner (s : State) : State :=
  let k := s.sad.img.keep
  let cfg := s.sad.img.time
  let last := recalledMinute s
  let m := minuteOf (tbNow s)
  let late := match last with | some l => decide (m ≤ l) | none => false
  markFlags (modReck (fun r => { r with
    adj := k.adj, cfg := cfg, st := if cfg.present then .acquiring else .free
    tod := if !s.keeper.tbKnown || k.tod == .unset then .unset else .estimated
    lastClosed := last
    openBank := { minute := if late then (last.getD 0) + 1 else m, flags := if late then 32 else 0 } })
    (modBoot (fun b => { b with lastMinute := last }) s))

end Sys2Proof.Machine
end

