-- ==== Sys2Proof/Machine/Boot.lean ====
section
/-! DEFINITION. Boot and update (R529 to R542), recovery from an incomplete flush (R356), resets and RESET_INFO (R543 to
R548), alarms (R554), and the commands of families 0x02xx and 0xC8xx (R420). -/

namespace Sys2Proof.Machine

/-! ### The start of Synet (R530) -/

/-- R548: the counts of a start of Synet, with the keeper's own since the last one. -/
def countBoot (dirty : Bool) (s : State) : State :=
  let k := s.keeper
  modImg [rk 19 0] (fun m => { m with boot := {
      boots := p32 (m.boot.boots + 1), keeperPors := p32 (m.boot.keeperPors + k.newPors), powerUps := p32 (m.boot.powerUps + k.newPowerUps)
      warmResets := p32 (m.boot.warmResets + k.newRestarts), dirtyShutdowns := p32 (m.boot.dirtyShutdowns + (if dirty then 1 else 0)) } })
    { s with keeper := { k with newPors := 0, newPowerUps := 0, newRestarts := 0 } }

/-- R352, R356: the flush did not complete. -/
def unclean (s : State) : Bool := s.sad.img.flush.state != 7

/-- R356: the partitions that an incomplete flush flags. -/
def flagged (s : State) : List Nat :=
  let f := s.sad.img.flush
  if f.state = 0 then tkeys (s.sad.img.parts.filter (fun p => p.2.st = .active)) else f.parts

/-- R356: the LDs that learn of an incomplete flush. -/
def uncleanLds (s : State) : List Nat :=
  let f := s.sad.img.flush
  if f.state = 0 then tenantLds s else if f.state = 6 then [] else (f.parts.flatMap (ldsOfPart s)).eraseDups

/-- R356: record 0x0F03, UNCLEAN and the Fatal events. -/
def recoverUnclean (s : State) : State :=
  let f := s.sad.img.flush
  let n := (flagged s).length
  postEvent (uncleanLds s) 3 (evOf 0x0F03 f.state n f.start (f.start / 4294967296))
    (setReset 2 (emit 0x0F03 0xFF f.state n f.start (f.start / 4294967296) s))

/-- R469: the records whose stored VERSION is older than the one that the image knows, which is 1 for every type. -/
def olderRecs (s : State) : List Nat :=
  let old := fun (c : Option Shadow) => match c with | some x => decide (x.version < 1) | none => false
  tkeys (s.sad.slots.filter (fun p => old p.2.a && (p.2.b.isNone || old p.2.b) || (p.2.a.isNone && old p.2.b)))

/-- R469: migration: every older record is written again as one group; record 0x1006. -/
def migrate (s : State) : State :=
  let ks := olderRecs s
  if ks.isEmpty then s
  else
    let s1 := finishStore { s with sad := { s.sad with running := some (captureGroup ks s) } }
    drawn (emit 0x1006 0xFF ks.length ((ks.length + 63) / 64) (freeVal s 0x1006) s.sad.img.infoFormat s1)

/-- R289, R320, R506: the channels at a start: the thermal clocks, the power-off time, and modules whose rail was lost. -/
def bootChans (s : State) : State :=
  let ks := s.sad.img.keep.clocks
  let cut := fun (c : Nat) => s.rope.st == .on && !railsOn s c
  forAll ids32 (fun c t => modChan c (fun x => { x with
    clock := ks.getD c 0 * 1048576, offNs := s.boot.offNs, st := if cut c then .failed else x.st }) t)
    (modBoot (fun b => { b with firstStart := s.sad.img.modules.isEmpty && !b.lostRecs.any (fun k => k / 65536 == 12) }) s)

/-- R130, R133: the planner's settings in force at a start. -/
def bootPlanner (s : State) : State :=
  let sh := tmap (s.sad.img.parts.filter (fun p => p.2.st = .active)) (fun _ p => (p.readShare, p.writeShare))
  { s with planner := { s.planner with
    maintShare := s.sad.img.maintShare, snapShare := s.sad.img.maintShare, shares := sh, snapShares := sh, sharesSet := sh } }

/-- R530 step 3, R356: keys and channels; the recovery of the map and the tree follows once the channels are up (`recoverStep`). -/
def startRecovery (dirty : Bool) (s : State) : State :=
  let s1 := reloadKeys (bootChans (bootPlanner (bootReckoner s)))
  modBoot (fun b => { b with recovering := true }) (if dirty then recoverUnclean s1 else s1)

/-- R530: Synet starts; `us` is the loader's time. -/
def synetStart (us : Nat) (s : State) : State :=
  let h := headerOf s
  let pair := pairingOf h
  let dirty := unclean s
  let s1 := countBoot dirty (modBoot (fun b => { b with
    wasDirty := dirty, alarmed := s.keeper.alarmOut, emptyLogs := decide (0 < s.keeper.newPors)
    running := true, version := fld h 8 4, secVersion := fld h 12 4, cause := 0, pairing := pair, step1 := true
    pendingVersion := none }) s)
  let s2 := emit 0x1501 0xFF (fld h 8 4) (fld h 12 4) us s1.sad.img.boot.boots s1
  let s3 := if pair = 7 then s2 else emit 0x1508 0xFF pair.toNat (compVersion h 1) (compVersion h 2) (compVersion h 3) s2
  commitNow (startRecovery dirty (migrate s3))

/-- STAGE_TICK (R122, R530). -/
def execStageTick (s : State) : Out := .next (whenMain (fun s => stageTick (recoverStep s)) s)

/-! ### Main-die reset release (R23, R529, R532) -/

/-- R532: bivouac mode: record 0x1502, the Fatal event and the loader's health evaluation (R592). -/
def bivouac (cause attempts : Nat) (s : State) : State :=
  let h := headerOf s
  let known := cause ≠ 9 ∧ cause ≠ 4 ∧ headerWhole h = true ∧ headerSigned h = true
  let v := if known then fld h 8 4 else 0
  let sec := if known then fld h 12 4 else 0
  let s1 := modBoot (fun b => { b with running := false, version := 0, secVersion := 0, cause := cause, attempts := attempts }) s
  let s2 := postEvent (mgmtTarget s1) 3 (evOf 0x1502 cause v sec attempts) (emit 0x1502 0xFF cause v sec attempts s1)
  evalHealth (condBits s2) s2

/-- R529, R545: how many times the header was read in this boot. -/
def headerReads (s : State) (fails : Nat) : Nat := min 3 (s.boot.readAttempts + fails + 1)

/-- R529: the loader's checks from step 2, and what follows them. -/
def loadImage (hdrFails bodyFails us : Nat) (s : State) : State :=
  let c := checkImage s (s.boot.readAttempts + hdrFails) bodyFails
  if c = 0 then synetStart us (modBoot (fun b => { b with attempts := headerReads s hdrFails }) s) else bivouac c (headerReads s hdrFails) s

/-- R361, R369, R457, R578: the main die leaves reset: TB, the management address, and the boot's own inputs. -/
def leaveReset (b : BootEnv) (s : State) : State :=
  let off := max s.keeper.since b.keeperNs
  { s with
    mainUp := true
    reck := { s.reck with tb := if s.keeper.tbKnown then s.keeper.lastTb + off else s.keeper.lastTb, frac := 0 }
    boot := { s.boot with mgmtAddr := 0x30 + b.straps % 4, alarmActive := b.alarmActive, offNs := off, recoveryMs := b.recoveryMs
                          unwrapFails := b.unwrapFails, nodeErrs := b.nodeErrs } }

/-- R459, R466: the recall of a boot; the records of which no copy was valid are noted. -/
def bootRecall (b : BootEnv) (s : State) : State :=
  let r := recallSlots s.sad.slots b.crcFails
  modBoot (fun x => { x with lostRecs := (r.taken.filter (·.gone)).map (·.key) }) (recallNow b.crcFails b.recallUs s)

/-- R548: record 0x1601. The FLUSH_STATE found is that of the recalled record, before recovery. -/
def resetRecord (found : Nat) (s : State) : State :=
  emit 0x1601 0xFF s.keeper.mainBit s.sad.img.boot.boots found s.boot.prevVersion s

/-- MAIN_DIE_RESET_RELEASE (R23, R503, R529, R530, R532): recall, the loader's checks, then Synet or bivouac mode. -/
def mainDieResetRelease (b : BootEnv) (s : State) : State :=
  if s.mainUp ∨ s.keeper.stopped ∨ s.rope.st ≠ .on ∨ !s.timeRef ∨ !b.timeRef then s
  else
    let s1 := bootFreezes (bootPorts (commitNow (bootRecall b (leaveReset b s))))
    resetRecord s1.sad.img.flush.state
      (if s1.keeper.life = .scrapped then bivouac 9 0 s1 else loadImage b.headerReadFails b.bodyReadFails b.loaderUs s1)

/-- MAIN_DIE_RESET_RELEASE (R529). -/
def execMainDieResetRelease (b : BootEnv) (s : State) : Out := .next (mainDieResetRelease b s)

/-- R533, R545: the loader runs its checks again, from step 2 and without a reset. -/
def rerunLoader (hdrFails : Nat) (s : State) : State :=
  if s.keeper.life = .scrapped then s else loadImage hdrFails 0 (freeVal s 0x1501) (modBoot (fun b => { b with readAttempts := 0 }) (drawn s))

/-- LOADER_WATCHDOG_EXPIRY (R545): before the boot's row it uses up one header read; in bivouac mode the loader starts again
at step 2. -/
def execLoaderWatchdogExpiry (s : State) : Out :=
  .next (if s.mainUp then (if s.boot.running then s else rerunLoader 1 s)
    else if s.rope.st = .on then modBoot (fun b => { b with readAttempts := b.readAttempts + 1 }) s else s)

/-! ### Watchdog, fatal faults, alarms -/

/-- WATCHDOG_EXPIRY (R545, R544): Synet's cores restart their watchdogs; a flush that runs goes on. -/
def execWatchdogExpiry (core progress : Nat) (s : State) : Out :=
  .next (whenMain (fun s =>
    if s.boot.running then
      let s1 := emit 0x1602 0xFF core progress 0 0 s
      if s.belay.step = 0 then startFlush 6 (setReset 4 s1) else s1
    else s) s)

/-- R104: an Outpost access outside its rights writes record 0x0213; no rule states where its access type is found. -/
def outpostRefused (v1 v2 core : Nat) (s : State) : State :=
  drawn (emit 0x0213 0xFF (coreMaster core) v1 v2 (freeVal s 0x0213) s)

/-- FATAL_FAULT (R546, R104). -/
def execFatalFault (cause v1 v2 core : Nat) (s : State) : Out :=
  .next (whenMain (fun s =>
    if 1 ≤ cause ∧ cause ≤ 5 then fatalFault cause v1 v2 core (if cause = 1 then outpostRefused v1 v2 core s else s) else s) s)

/-- R449, R447: an alarm erases a Coffer page's slots and stops its descriptor with KEYS_LOST. -/
def alarmPage (now : Nat) (p : CofPage) : CofPage :=
  { cofRaise 1 now p with keys := [], run := p.run.map (fun r => { r with lost := true }) }

/-- R452: the pages that hold a key, and those with a running descriptor. -/
def keyPages (s : State) : Nat := (s.ports.lds.filter (fun p => p.2.cof.keys.any (fun x => x.2.valid))).length
/-- R452. -/
def runPages (s : State) : Nat := (s.ports.lds.filter (fun p => p.2.cof.run.isSome)).length

/-- R210, R449, R554: what an alarm does on the main die. -/
def alarmMain (source detector reading : Nat) (s : State) : State :=
  let s0 := emit 0x0606 0xFF source (dirtyParts s).length 0 0 { s with
    sealCtl := { s.sealCtl with slots := [], sysKeys := [], kwk := none, zeroed := true }
    ports := { s.ports with lds := tmap s.ports.lds (fun _ l => raiseChg 16 (nowTb s) { l with cof := alarmPage (nowTb s) l.cof }) } }
  let s1 := if keyPages s + runPages s = 0 then s0 else emit 0x0E03 0xFF source (keyPages s) (runPages s) 0 s0
  if s.boot.running then postEvent (mgmtTarget s1) 3 (evOf 0x1801 source detector reading 0) s1 else s1

/-- R553: whether an alarm source is armed: the mesh, VDD_KEEP and the keeper's clock always, VDD_CORE while the main die is
out of reset. -/
def alarmArmed (s : State) (source : Nat) : Bool :=
  decide (1 ≤ source) && decide (source ≤ 4) && (source != 2 || (s.mainUp && s.rope.st == .on))

/-- ALARM (R553, R554). -/
def alarm (source detector reading : Nat) (s : State) : State :=
  if alarmArmed s source then
    let s1 := stageRec 0x1801 0xFF source detector reading 0
      { s with keeper := { s.keeper with alarmOut := true, alarmSource := source, alarmDetector := detector } }
    whenMain (alarmMain source detector reading) s1
  else s

/-- ALARM (R554). -/
def execAlarm (source detector reading : Nat) (s : State) : Out := .next (whenKeeper (alarm source detector reading) s)

/-! ### Firmware commands (R534 to R539) -/

/-- R537: a version as text, in the 16 B of a revision field. -/
def versionText (v : Nat) : List Byte :=
  let dec := fun (n : Nat) => (toString n).toList.map (fun c => BitVec.ofNat 8 c.toNat)
  padTo 16 (dec (v / 16777216 % 256) ++ [0x2E] ++ dec (v / 65536 % 256) ++ [0x2E] ++ dec (v / 256 % 256) ++ [0x2E] ++ dec (v % 256))

/-- GET_FW_INFO (R537): the layout of the CXL Specification. A version that waits for activation shows as staged in slot 1,
with its text in the second revision field. -/
def cmdGetFwInfo : Cmd := noInput 0x0200 (fun _ s =>
  toLe 1 1 ++ toLe 1 (1 + (if s.boot.pendingVersion.isSome then 8 else 0)) ++ toLe 1 1 ++ zeros 13 ++
  versionText s.boot.version ++ (match s.boot.pendingVersion with | some v => versionText v | none => zeros 16) ++ zeros 32)
/-- GET_FW_INFO (R537). -/
def execGetFwInfo (p : Path) (input : List Byte) (s : State) : Out := runCmd cmdGetFwInfo p input s

/-- R534: the path of a transfer: 1 management LD, 2 MCTP. -/
def fwPath : Path → Nat
  | .mctp => 2
  | .ld .. => 1

/-- R534: the staged image's checks at End. -/
def stagedOk (b : List Byte) : Bool := headerWhole (b.take 4096) && fld b 6 2 == 0x1280 && b.length == 4096 + fld b 16 4

/-- R534: a chunk joins the staging. -/
def addChunk (data : List Byte) (s : State) : State := modBoot (fun b => { b with staging := b.staging ++ data }) s

/-- R534, R542: Initiate. -/
def fwInitiate (p : Path) (off : Nat) (data : List Byte) (s : State) : Reply × State :=
  if activating s then (rej 6 0x1581, s)
  else if s.boot.transferPath ≠ 0 ∧ !s.boot.staged ∧ s.boot.transferPath ≠ fwPath p then (rej 8 0, s)
  else if off ≠ 0 then (rej 9 0, s)
  else ({}, modBoot (fun b => { b with staging := data, staged := false, transferPath := fwPath p }) s)

/-- R534: whether a transfer of this path is in progress and the chunk follows without a gap. -/
def inOrder (p : Path) (off : Nat) (s : State) : Bool :=
  !s.boot.staged && s.boot.transferPath == fwPath p && off == s.boot.staging.length

/-- R534: End. -/
def fwEnd (p : Path) (slot off : Nat) (data : List Byte) (s : State) : Reply × State :=
  if slot ≠ 1 then (rej 0xB 0, s)
  else if !inOrder p off s then (rej 9 0, s)
  else
    let s1 := addChunk data s
    if stagedOk s1.boot.staging then ({}, modBoot (fun b => { b with staged := true }) s1) else (rej 0xA 0, discardStaging 4 s1)

/-- TRANSFER_FW (R534): byte 0 the action, byte 1 the slot, bytes 4 to 7 the offset in 128 B units, then the data. -/
def cmdTransferFw : Cmd :=
  { op := 0x0201, len := fun l => decide (128 ≤ l.length), rsvd := [(2, 2), (8, 120)], body := fun p i s =>
      let off := fld i 4 4 * 128
      let data := i.drop 128
      let over_ := 8392704 < off + data.length
      match fld i 0 1 with
      | 0 => (rej 2 0x1582 0, s)
      | 1 => fwInitiate p off data s
      | 2 => if !inOrder p off s then (rej 9 0, s) else if over_ then (rej 2 0x0D83 4, s) else ({}, addChunk data s)
      | 3 => if over_ then (rej 2 0x0D83 4, s) else fwEnd p (fld i 1 1) off data s
      | 4 => if activating s then (rej 6 0x1581, s) else ({}, discardStaging 1 s)
      | _ => (rej 2 0x0D83 0, s) }
/-- TRANSFER_FW (R534). -/
def execTransferFw (p : Path) (input : List Byte) (s : State) : Out := runCmd cmdTransferFw p input s

/-- ACTIVATE_FW (R535, R542): byte 0 the action (0 online), byte 1 the slot. -/
def cmdActivateFw : Cmd :=
  { op := 0x0202, len := lenIs 2, body := fun p i s =>
      if activating s then (rej 6 0x1581, s)
      else if fld i 0 1 ≠ 0 then (rej 2 0x1582 0, s)
      else if fld i 1 1 ≠ 1 then (rej 2 0x1582 1, s)
      else if !s.boot.staged then (rej 2 0x1582, s)
      else
        let s1 := emit 0x1504 0xFF (fld s.boot.staging 8 4) (fld s.boot.staging 12 4) (fwPath p) 0 s
        ({ job := some (.activate (tbNow s)) },
          modBoot (fun b => { b with actPhase := 0, actBlock := 0, actSecond := false, actRewritten := 0 }) s1) }
/-- ACTIVATE_FW (R535). -/
def execActivateFw (p : Path) (input : List Byte) (s : State) : Out := runCmd cmdActivateFw p input s

/-- Change the flash. -/
def modFlash (f : List Host.Cell → List Host.Cell) (s : State) : State := modBoot (fun b => { b with flash := f b.flash }) s

/-- R535: bytes are erased, programmed and read back; where they do not compare, what the flash then holds is open. -/
def writeFlash (a n : Nat) (data : List Byte) (ok : Bool) (s : State) : State :=
  let d := if ok then data else (List.range data.length).map (fun i => BitVec.ofNat 8 (freeVal s i))
  drawn (modFlash (fun m => flashProgram (flashErase m a n) a d) s)

/-- R535: the blocks of the body range. -/
def bodyBlocks (b : Boot) : Nat := (fld b.staging 16 4 + 65535) / 65536

/-- R535, R533: the activation has ended with Success; in bivouac mode the loader runs its checks again. -/
def activationDone (s : State) : State :=
  let b := s.boot
  let v := fld b.staging 8 4
  let s1 := forAll (allPaths s) (fun p t => match jobOf t p with
    | some (.activate t0) => endBg p 0 0 (emit 0x1505 0xFF v (fld b.staging 12 4) ((tbNow t - t0) / 1000000) b.actRewritten t)
    | _ => t) s
  let s2 := modBoot (fun x => { x with staging := [], staged := false, transferPath := 0, pendingVersion := some v }) s1
  if b.running then s2 else rerunLoader 0 s2

/-- R535 step 2: one body block. -/
def bodyStep (ok : Bool) (s : State) : State :=
  let k := s.boot.actBlock
  let s1 := writeFlash (4096 + 65536 * k) 65536 (bytesAt s.boot.staging (4096 + 65536 * k) 65536) ok s
  if ok then
    let next := k + 1
    modBoot (fun b => { b with
      actBlock := next, actRewritten := b.actRewritten + (if b.actSecond then 1 else 0), actSecond := false
      actPhase := if bodyBlocks b ≤ next then 2 else 1 }) s1
  else if s.boot.actSecond then activationFails s1 else modBoot (fun b => { b with actSecond := true }) s1

/-- R535 step 3: the header. -/
def headerStep (ok : Bool) (s : State) : State :=
  let s1 := writeFlash 0 4096 (bytesAt s.boot.staging 0 4096) ok s
  if ok then activationDone s1 else if s.boot.actSecond then activationFails s1 else modBoot (fun b => { b with actSecond := true }) s1

/-- ACTIVATION_FLASH_STEP (R535, R536): the header's erase, one body block, or the header. -/
def activationFlashStep (ok : Bool) (s : State) : State :=
  if !activating s || s.belay.step != 0 then s
  else match s.boot.actPhase with
    | 0 => modBoot (fun b => { b with actPhase := if bodyBlocks b = 0 then 2 else 1, actSecond := false })
        (modFlash (fun m => flashErase m 0 4096) s)
    | 1 => bodyStep ok s
    | _ => headerStep ok s

/-- ACTIVATION_FLASH_STEP (R535). -/
def execActivationFlashStep (compareOk : Bool) (s : State) : Out := .next (whenMain (activationFlashStep compareOk) s)

/-! ### Family 0xC8xx (R420) -/

/-- R539: the running image is confirmed. -/
def confirmed (s : State) : Bool := s.boot.running && s.boot.secVersion == s.boot.secCounter

/-- GET_BOOT_INFO (R420). -/
def cmdGetBootInfo : Cmd := noInput 0xC800 (fun _ s =>
  toLe 1 (if s.boot.running then 0 else 1) ++ toLe 1 s.boot.cause ++ zeros 2 ++ toLe 4 s.boot.version ++ toLe 4 s.boot.secVersion ++
  toLe 4 s.boot.secCounter ++ toLe 1 (if confirmed s then 1 else 0) ++ zeros 3 ++ toLe 4 s.sad.img.boot.boots ++
  toLe 4 s.boot.pairing.toNat ++ zeros 4)
/-- GET_BOOT_INFO (R420). -/
def execGetBootInfo (p : Path) (input : List Byte) (s : State) : Out := runCmd cmdGetBootInfo p input s

/-- CONFIRM_FW (R539): the counter only ever increases. -/
def cmdConfirmFw : Cmd :=
  { op := 0xC801, len := lenIs 0, body := fun _ _ s =>
      if !s.boot.running then (rej 2 0x1583, s)
      else if confirmed s then (rej 2 0x1580, s)
      else if !storeAllowed s then (rej 6 0x1081, s)
      else
        let n := max s.boot.secCounter s.boot.secVersion
        ({ out := toLe 4 n }, modBoot (fun b => { b with secCounter := n }) (emit 0x1507 0xFF s.boot.secCounter n s.boot.version 0 s)) }
/-- CONFIRM_FW (R539). -/
def execConfirmFw (p : Path) (input : List Byte) (s : State) : Out := runCmd cmdConfirmFw p input s

/-- GET_RESET_INFO (R547). -/
def cmdGetResetInfo : Cmd := noInput 0xC802 (fun _ s =>
  toLe 4 s.keeper.resetInfo.toNat ++ toLe 8 s.keeper.resetTb ++ toLe 4 s.keeper.lastCause)
/-- GET_RESET_INFO (R547). -/
def execGetResetInfo (p : Path) (input : List Byte) (s : State) : Out := runCmd cmdGetResetInfo p input s

/-- R14, R547: the bits that CLEAR_RESET_INFO clears: a bit set in the same cycle stays set. -/
def clearable (s : State) : BitVec 11 := if s.keeper.resetTb = nowTb s then ~~~s.keeper.resetNow else BitVec.allOnes 11

/-- CLEAR_RESET_INFO (R547): each 1 clears a bit. -/
def cmdClearResetInfo : Cmd :=
  { op := 0xC803, len := lenIs 4, body := fun _ i s =>
      if 2048 ≤ fld i 0 4 then (rej 2 0x0D84 (if 2048 ≤ fld i 0 2 then 1 else 2 + (if fld i 2 1 = 0 then 1 else 0)), s)
      else ({}, { s with keeper := { s.keeper with resetInfo := s.keeper.resetInfo &&& ~~~(BitVec.ofNat 11 (fld i 0 2) &&& clearable s) } }) }
/-- CLEAR_RESET_INFO (R547). -/
def execClearResetInfo (p : Path) (input : List Byte) (s : State) : Out := runCmd cmdClearResetInfo p input s

/-- R53, R547: a warm reset, with whether WARM_RESET requested it. -/
def warmReset (mgmt : Bool) (s : State) : State :=
  let s1 := setReset 3 s
  startFlush 6 { s1 with keeper := { s1.keeper with mgmtWarm := mgmt } }

/-- WARM_RESET (R542, R544, R533): the reset follows the completion. -/
def cmdWarmReset : Cmd :=
  { op := 0xC804, len := lenIs 0, body := fun _ _ s =>
      if activating s then (rej 6 0x1581, s)
      else ({}, if s.belay.step = 0 then warmReset true s else s) }
/-- WARM_RESET (R544). -/
def execWarmReset (p : Path) (input : List Byte) (s : State) : Out := runCmd cmdWarmReset p input s

/-- GET_LIFECYCLE (R420). -/
def cmdGetLifecycle : Cmd := noInput 0xC805 (fun _ s =>
  toLe 1 (lifeCode s.keeper.life) ++ toLe 1 (if s.survey.level.isSome then 1 else 0) ++ zeros 2)
/-- GET_LIFECYCLE (R420). -/
def execGetLifecycle (p : Path) (input : List Byte) (s : State) : Out := runCmd cmdGetLifecycle p input s

end Sys2Proof.Machine
end

