-- ==== Sys2Proof/Machine/Coffer.lean ====
section
/-! DEFINITION. The Coffer cipher service (R426 to R452): key slots, the checks of a submit, the modes, the parcels of
a running descriptor, the end of a pass, and zeroing. -/

namespace Sys2Proof.Machine

/-! ### Modes: a block's byte 0 is its bits [127:120] (FIPS 197 order) -/

/-- A block of 16 bytes; missing bytes are zero. -/
def aesBlock (l : List Byte) : BitVec 128 := BitVec.ofNat 128 (beVal (padTo 16 l))
/-- The 16 bytes of a block. -/
def aesBytes (b : BitVec 128) : List Byte := (toLe 16 b.toNat).reverse
/-- The i-th 16 bytes of a byte list. -/
def nthBlock (l : List Byte) (i : Nat) : List Byte := bytesAt l (16 * i) 16

/-- R430: the cipher of a key slot's data key. -/
def encKey (k : CofKey) (b : BitVec 128) : BitVec 128 :=
  if k.keySize then aes256 k.key b else aes128 (k.key.truncate 128) b
/-- Its inverse. -/
def decKey (k : CofKey) (b : BitVec 128) : BitVec 128 :=
  if k.keySize then aes256Inv k.key b else aes128Inv (k.key.truncate 128) b
/-- The cipher of the tweak key. -/
def encTweak (k : CofKey) (b : BitVec 128) : BitVec 128 :=
  if k.keySize then aes256 k.tweak b else aes128 (k.tweak.truncate 128) b

/-- R435: the 16 bytes of IV0 to IV3 or TAG0 to TAG3. -/
def regBytes (l : List (BitVec 32)) : List Byte := (padTo 16 (l.flatMap (fun w => toLe 4 w.toNat)))
/-- The four registers of 16 bytes. -/
def regsOf (l : List Byte) : List (BitVec 32) := (List.range 4).map (fun i => BitVec.ofNat 32 (fld l (4 * i) 4))

/-- Multiply by x in GF(2^128) on a little-endian value (XTS). -/
def xtsDouble (t : Nat) : Nat := (2 * t % 2 ^ 128) ^^^ (if 2 ^ 127 ≤ t then 0x87 else 0)
/-- The tweak of block j of the data unit. -/
def xtsTweak (k : CofKey) (iv : List Byte) (j : Nat) : List Byte :=
  toLe 16 (Nat.repeat xtsDouble j (leVal (aesBytes (encTweak k (aesBlock iv)))))
/-- One XTS block under tweak j. -/
def xtsBlock (dec : Bool) (k : CofKey) (iv : List Byte) (j : Nat) (b : List Byte) : List Byte :=
  let t := aesBlock (xtsTweak k iv j)
  aesBytes ((if dec then decKey k (aesBlock b ^^^ t) else encKey k (aesBlock b ^^^ t)) ^^^ t)
/-- SP 800-38E: the last full block m − 1 and the partial block of n bytes, by ciphertext stealing. -/
def xtsSteal (dec : Bool) (k : CofKey) (iv : List Byte) (m n : Nat) (full part : List Byte) : List Byte :=
  let a := xtsBlock dec k iv (if dec then m else m - 1) full
  xtsBlock dec k iv (if dec then m - 1 else m) (part ++ a.drop n) ++ a.take n

/-- The counter-mode stream of data from an initial counter block, under a step of the counter. -/
def ctrStream (k : CofKey) (first : BitVec 128) (inc : BitVec 128 → Nat → BitVec 128) (d : List Byte) : List Byte :=
  (List.range ((d.length + 15) / 16)).flatMap (fun j =>
    let b := nthBlock d j
    (aesBytes (aesBlock b ^^^ encKey k (inc first j))).take b.length)
/-- R435: CTR counts modulo 2^128. -/
def incAll (c : BitVec 128) (j : Nat) : BitVec 128 := c + BitVec.ofNat 128 j
/-- SP 800-38D: GCM counts in the last 32 bits. -/
def incLow (c : BitVec 128) (j : Nat) : BitVec 128 :=
  (c.extractLsb' 32 96 ++ (c.extractLsb' 0 32 + BitVec.ofNat 32 j) : BitVec 128)
/-- GCM's pre-counter block of a 96-bit IV. -/
def gcmJ0 (iv : List Byte) : BitVec 128 := aesBlock (iv.take 12 ++ [0, 0, 0, 1])
/-- A byte list as blocks, the last one padded with zeros. -/
def blocksOf (l : List Byte) : List (BitVec 128) := (List.range ((l.length + 15) / 16)).map (fun j => aesBlock (nthBlock l j))
/-- GCM's tag of additional data and ciphertext. -/
def gcmTag (k : CofKey) (iv aad c : List Byte) : List Byte :=
  let lens : BitVec 128 := BitVec.ofNat 128 (8 * aad.length * 2 ^ 64 + 8 * c.length)
  aesBytes (ghashBlocks (encKey k 0) (blocksOf aad ++ blocksOf c ++ [lens]) ^^^ encKey k (gcmJ0 iv))

/-- CBC encryption of the first n blocks. -/
def cbcEnc (k : CofKey) (iv d : List Byte) (n : Nat) : List Byte :=
  ((List.range n).foldl (fun (a : List Byte × BitVec 128) j =>
    let c := encKey k (aesBlock (nthBlock d j) ^^^ a.2)
    (a.1 ++ aesBytes c, c)) ([], aesBlock iv)).1
/-- CBC decryption of the first n blocks. -/
def cbcDec (k : CofKey) (iv d : List Byte) (n : Nat) : List Byte :=
  (List.range n).flatMap (fun j =>
    aesBytes (decKey k (aesBlock (nthBlock d j)) ^^^ aesBlock (if j = 0 then iv else nthBlock d (j - 1))))
/-- PKCS #7: the pad bytes of a length. -/
def pkcs (n : Nat) : List Byte := List.replicate (16 - n % 16) (BitVec.ofNat 8 (16 - n % 16))
/-- PKCS #7: the pad length of a last block, none when it is not valid. -/
def padLen (b : List Byte) : Option Nat :=
  let v := (b.getD 15 0).toNat
  if 1 ≤ v ∧ v ≤ 16 ∧ (b.drop (16 - v)).all (fun x => x.toNat == v) then some v else none

/-- SP 800-38B: CMAC. -/
def cmacTag (k : CofKey) (d : List Byte) : List Byte :=
  let k1 := cmacDouble (encKey k 0)
  let n := (d.length + 15) / 16
  let last := nthBlock d (n - 1)
  let m := if n ≠ 0 ∧ last.length = 16 then aesBlock last ^^^ k1
    else aesBlock (padTo 16 ((if n = 0 then [] else last) ++ [0x80])) ^^^ cmacDouble k1
  let c := (List.range (n - 1)).foldl (fun (c : BitVec 128) j => encKey k (c ^^^ aesBlock (nthBlock d j))) 0
  aesBytes (encKey k (c ^^^ m))

/-! ### Descriptors -/

/-- R433: the fields of DESC_CTRL. -/
def CofDesc.mode (d : CofDesc) : Nat := d.ctrl.toNat % 16
/-- R433: DIR. -/
def CofDesc.dec (d : CofDesc) : Bool := d.ctrl.getLsbD 4
/-- R433: KEY_SLOT. -/
def CofDesc.slot (d : CofDesc) : Nat := d.ctrl.toNat / 256 % 4
/-- R433: TAG_LEN; 0 means 16. -/
def CofDesc.tagLen (d : CofDesc) : Nat := let n := d.ctrl.toNat / 4096 % 16; if n = 0 then 16 else n
/-- R434: the source length. -/
def CofDesc.srcLen (d : CofDesc) : Nat := d.aadLen.toNat + d.len.toNat
/-- R436: the destination length; for a CBC PAD decrypt it is LENGTH. An invalid mode has none. -/
def CofDesc.dstLen (d : CofDesc) (pad : Bool) : Nat :=
  if 4 ≤ d.mode then 0 else if d.mode = 3 ∧ !d.dec ∧ pad then 16 * (d.len.toNat / 16 + 1) else d.len.toNat

/-- R439: MODE, TAG_LEN, AAD_LEN, the fields that a mode leaves unused, and the RSVD bits. -/
def fieldBad (d : CofDesc) : Bool :=
  let tl := d.ctrl.toNat / 4096 % 16
  let tagUsed := d.mode == 1 || d.mode == 4
  decide (4 < d.mode) || (tagUsed && decide (1 ≤ tl) && decide (tl < 12)) || (!tagUsed && tl != 0) ||
  (d.mode != 1 && d.aadLen != 0) || (d.mode == 1 && d.iv.getD 3 0 != 0) || (d.mode == 4 && d.iv.any (· != 0)) ||
  (!tagUsed && d.tag.any (· != 0)) || d.ctrl &&& 0xFFFF0CE0 != 0

/-- R436: the limits of LENGTH and AAD_LEN. -/
def lengthBad (d : CofDesc) (pad : Bool) : Bool :=
  let n := d.len.toNat
  decide (16777216 < n) || decide (65535 < d.aadLen.toNat) ||
  (match d.mode with
   | 0 => decide (n < 16) || (!pad && n % 16 != 0)
   | 1 => n == 0
   | 2 => n == 0
   | 3 => if pad && !d.dec then n == 0 else decide (n < 16) || n % 16 != 0
   | _ => false)

/-- R437: the destination overlaps the source in another way than in place. -/
def overlapBad (d : CofDesc) (pad : Bool) : Bool :=
  let a := d.src.toNat; let b := d.dst.toNat; let m := d.dstLen pad
  m != 0 && decide (a < b + m) && decide (b < a + d.srcLen) && b != a + d.aadLen.toNat

/-- R440: the lowest offset of a range that no range of the LD maps. -/
def unmappedOff (s : State) (m : LdMap) (a n : Nat) : Option Nat :=
  if n = 0 then none
  else
    let p0 := a / gib
    ((List.range ((a + n - 1) / gib - p0 + 1)).find? (fun i =>
      (rangeDpa m.ranges (p0 + i)).isNone || (legAt s.sad.img.runs m.part (p0 + i)).isNone)).map (fun i => max a ((p0 + i) * gib))

/-- The lower of two offsets that may be absent. -/
def lowest (a b : Option Nat) : Option Nat :=
  match a, b with | some x, some y => some (min x y) | some x, none => some x | none, y => y

/-- R440: the lowest offending partition offset. -/
def rightsBad (s : State) (m : LdMap) (d : CofDesc) (pad : Bool) : Option Nat :=
  let dst := if d.dstLen pad = 0 then none
    else if m.opcodes.getLsbD 2 then unmappedOff s m d.dst.toNat (d.dstLen pad) else some d.dst.toNat
  lowest (unmappedOff s m d.src.toNat d.srcLen) dst

/-- R444: what the health state refuses: everything in BIVOUAC (and before a state exists), a destination in READ_ONLY. -/
def healthBad (s : State) (d : CofDesc) : Bool := interim s || (s.health.st == 5 && d.mode != 4)

/-- R439: the code of the first failed check, 0 when all pass. -/
def checkCode (s : State) (p : CofPage) : Nat :=
  let d := p.desc
  let k := tgetD p.keys d.slot {}
  if healthBad s d then 0x32 else if s.sealCtl.zeroed then 0x31 else if fieldBad d then 0x13
  else if !k.valid ∨ k.keyPair ≠ (d.mode == 0) then 0x11
  else if lengthBad d p.lenMode then 0x10 else if overlapBad d p.lenMode then 0x12 else 0

/-- Change an LD's Coffer page. -/
def modCof (k : Nat) (f : CofPage → CofPage) (s : State) : State := modLd k (fun l => { l with cof := f l.cof }) s
/-- R428: set an event of a page: 0 KEYS_LOST, 1 SUBMIT_IGNORED, 2 KEY_WRITE_IGNORED, 3 KEY_REJECTED. -/
def cofEvent (i k : Nat) (s : State) : State := modCof k (cofRaise (bit1 i) (tbNow s)) s

/-- R445, R451: a descriptor ends with a code: DONE is set and the largest progress is billed. -/
def endCoffer (k code : Nat) (s : State) : State :=
  let s1 := match (ldAt s k).cof.run with
    | none => s
    | some r => meter r.part (fun m => { m with cofferBytes := m.cofferBytes + r.maxProgress }) s
  modCof k (fun p => { cofRaise 16 (tbNow s) p with code := code, run := none })
    { s1 with ports := { s1.ports with cofOrder := s1.ports.cofOrder.filter (· != k) } }

/-- R426: only a tenant LD's page takes writes. -/
def cofLive (s : State) (k : Nat) : Bool := tenantLd s k

/-- R433, R439: the run of a captured descriptor. -/
def cofRunOf (p : CofPage) (part : Nat) : CofRun :=
  { desc := p.desc, pad := p.lenMode, part := part, key := tgetD p.keys p.desc.slot {} }

/-- R439: GO is written. -/
def cofSubmit (q l : Nat) (s : State) : State :=
  let k := ldKey q l
  let pg := (ldAt s k).cof
  let m := (ldAt s k).map
  if !cofLive s k then s
  else if pg.run.isSome ∨ cofFrozen s q l then cofEvent 1 k s
  else
    let s1 := modCof k (fun p => { p with done := false, code := 1, progress := 0, outLen := 0, passBit := false, writeLost := false }) s
    match rightsBad s m pg.desc pg.lenMode with
    | some a => endCoffer k 0x30 (freeze (cofMaster q l) 0x0204 (BitVec.ofNat 64 a) pg.desc.ctrl.toNat s1)
    | none =>
      if checkCode s pg ≠ 0 then endCoffer k (checkCode s pg) s1
      else modCof k (fun p => { p with run := some (cofRunOf p m.part) })
        { s1 with ports := { s1.ports with cofOrder := s1.ports.cofOrder ++ [k] } }

/-- COF_SUBMIT (R433, R439, R440, R444, R448). -/
def execCofSubmit (q l : Nat) (v : BitVec 32) (s : State) : Out :=
  .next (whenMain (fun s => if v.getLsbD 0 then cofSubmit q l s else s) s)

/-! ### Key slots -/

/-- R432: a key-slot write is ignored: the running descriptor names the slot, or the page is frozen. -/
def keyHeld (s : State) (q l slot : Nat) : Bool :=
  cofFrozen s q l || (match (ldAt s (ldKey q l)).cof.run with | some r => r.desc.slot == slot | none => false)

/-- Change a key slot. -/
def modKey (k slot : Nat) (f : CofKey → CofKey) (s : State) : State :=
  modCof k (fun p => { p with keys := tmod p.keys slot {} f }) s

/-- R430, R431: the slot after a LOAD. -/
def loadedKey (size pair : Bool) (x : CofKey) : CofKey :=
  let n := if size then 32 else 16
  let m := padTo 64 x.mat
  let a := bytesAt m 0 n; let b := bytesAt m 32 n
  if pair && a == b then { size := size, pair := pair }
  else { valid := true, size := size, pair := pair, keySize := size, keyPair := pair
         key := BitVec.ofNat 256 (beVal a), tweak := if pair then BitVec.ofNat 256 (beVal b) else 0 }

/-- R431, R452: LOAD of a slot. -/
def keyLoad (q l slot : Nat) (v : BitVec 32) (s : State) : State :=
  let k := ldKey q l
  if !cofLive s k ∨ 4 ≤ slot then s
  else if keyHeld s q l slot ∨ s.sealCtl.zeroed then cofEvent 2 k s
  else
    let s1 := modKey k slot (loadedKey (v.getLsbD 1) (v.getLsbD 2)) s
    if (tgetD (ldAt s1 k).cof.keys slot {}).valid then s1
    else bumpSet 0x0E05 2 (fun _ => cofMaster q l) (bump 0x0E05 1 1 (cofEvent 3 k s1))

/-- KEY_LOAD (R429 to R432, R449). -/
def execKeyLoad (q l slot : Nat) (v : BitVec 32) (s : State) : Out := .next (whenMain (keyLoad q l slot v) s)

/-- R429, R432: CLEAR of a slot and its staging area. -/
def keyClear (q l slot : Nat) (s : State) : State :=
  let k := ldKey q l
  if !cofLive s k ∨ 4 ≤ slot then s
  else if keyHeld s q l slot then cofEvent 2 k s
  else modKey k slot (fun x => { size := x.size, pair := x.pair }) s

/-- KEY_CLEAR (R429, R432). -/
def execKeyClear (q l slot : Nat) (s : State) : Out := .next (whenMain (keyClear q l slot) s)

/-! ### Running -/

/-- The parcel bytes that a byte range [a, b) of a partition covers in the parcel of a: how many from a on. -/
def inParcel (a b : Nat) : Nat := min b ((a / 256 + 1) * 256) - a
/-- The sectors of a parcel that n bytes from offset o of it touch. -/
def sectorsOf (o n : Nat) : BitVec 4 :=
  (List.range 4).foldl (fun (m : BitVec 4) i => if 64 * i < o + n ∧ o < 64 * i + 64 then m ||| bit1 i else m) 0
/-- The LPN of a partition offset (R33). -/
def lpnOfOff (s : State) (part off : Nat) : Option Nat := (legAt s.sad.img.runs part (off / gib)).map (fun g => lpnOf g off)
/-- The bytes of a parcel. -/
def parcelBytes (d : Parcel) : List Byte := toLe 256 (parcelBits d).toNat

/-- R442: a Coffer access: it holds no tag and is not counted as the LD's (R451). -/
def cofReq (s : State) (k : Nat) (part lpn sector : Nat) (op : MemOp) (w : WrData) : Req :=
  { port := k / 17, ld := k % 17, tag := 0, op := op, dpa := 0, lpn := lpn, sector := sector, part := part, wr := w
    stamp := tbNow s, tagKind := .none, health := s.health.st, counted := false }

/-- R442: a fill for a Coffer access, unless one is under way or waits. -/
def cofFill (k part lpn sector : Nat) (e : ReadEnv) (s : State) : State :=
  if thas s.cache.fills lpn ∨ s.cache.waiting.any (fun r => r.lpn == lpn) then s
  else missFill (cofReq s k part lpn sector .rd noData) e.nodes s

/-- R442: a read of sectors of a parcel: none while it waits, else its data, or none for poison. -/
def cofRead (k part lpn : Nat) (need : BitVec 4) (e : ReadEnv) (s : State) : Option (Option Parcel) × State :=
  if !keyed s part then (some none, s)
  else if isRetiring s (hashSlice lpn) then (none, s)
  else
    let s1 := match findWay s lpn with | some w => tagCheck w e.tagErr s | none => s
    match findWay s1 lpn with
    | none => (none, cofFill k part lpn 0 e s1)
    | some w =>
      let l := lineAt s1 w
      if l.st = .evicting ∨ s1.belay.step ≠ 0 then (none, s1)
      else if l.poison then (some none, touch w s1)
      else if need &&& ~~~l.valid ≠ 0 then (none, cofFill k part lpn 0 e s1)
      else
        let s2 := parityCheck w (e.parity &&& need) (touch w s1)
        let m := lineAt s2 w
        if m.poison then (some none, s2)
        else if need &&& ~~~m.valid ≠ 0 then (none, cofFill k part lpn 0 e s2) else (some (some m.data), s2)

/-- The write of one sector of a parcel: n bytes of the parcel from offset o on carry d. -/
def sectorWrite (o : Nat) (d : List Byte) (whole : Bool) (i : Nat) : WrData :=
  let b := (List.range 64).map (fun j => let x := 64 * i + j; if o ≤ x ∧ x < o + d.length then d.getD (x - o) 0 else 0)
  let be := (List.range 64).foldl (fun (m : BitVec 64) j =>
    let x := 64 * i + j; if o ≤ x ∧ x < o + d.length then m ||| bit1 j else m) 0
  { data := BitVec.ofNat 512 (leVal b), be := if whole then BitVec.allOnes 64 else be }

/-- R452, R445: a destination parcel's write is lost (R188, R328). -/
def cofLost (k part : Nat) (s : State) : State :=
  let s1 := if (ldAt s k).cof.writeLost then s else bump 0x0E06 1 1 s
  modCof k (fun p => { p with writeLost := true }) (bumpBit 0x0E06 3 part (bump 0x0E06 2 1 s1))

/-- R442, R444: whether a parcel's write must wait: its line fills or is evicted, its slice retires, or the dirty budget
is spent. -/
def cofWriteWaits (s : State) (lpn : Nat) : Bool :=
  isRetiring s (hashSlice lpn) ||
  (match findWay s lpn with
   | some w => (lineAt s w).st == .evicting || (lineAt s w).st == .filling
   | none => thas s.cache.fills lpn)

/-- R184: the write waits on the dirty budget. -/
def cofBudgetFull (s : State) (lpn : Nat) : Bool := newlyDirty s lpn && budgetFull s s.health.st

/-- R442: the sectors of a partial write whose line lacks their data. -/
def cofMissing (s : State) (lpn : Nat) (sec : BitVec 4) : Bool :=
  match findWay s lpn with
  | some w => !(lineAt s w).poison && (sec &&& ~~~(lineAt s w).valid) != 0
  | none => true

/-- R442, R444, R199: the write of d at offset o of a parcel; false while it must wait. READ_ONLY discards it (R44). -/
def cofWrite (k part lpn o : Nat) (d : List Byte) (e : ReadEnv) (s0 : State) : Bool × State :=
  let s := match findWay s0 lpn with | some w => tagCheck w e.tagErr s0 | none => s0
  let whole := d.length == 256
  let sec := sectorsOf o d.length
  if s.belay.step ≠ s0.belay.step then (false, s)
  else if s.health.st = 5 then (true, modLd k (fun l => { l with discarded := l.discarded + 1 }) s)
  else if cofWriteWaits s lpn then (false, s)
  else if writeLost s s.health.st then (true, cofLost k part (loseWrite lpn part s.health.st (countLost s.health.st part s)).2)
  else if cofBudgetFull s lpn then (false, zeroWait lpn part s)
  else if !whole ∧ cofMissing s lpn sec then (false, cofFill k part lpn 0 e s)
  else if (findWay s lpn).isNone ∧ (allotWay lpn true s).1.isNone then (false, (allotWay lpn true s).2)
  else (true, forAll ((List.range 4).filter (fun i => sec.getLsbD i)) (fun i t =>
    writeAccess (cofReq t k part lpn i (if whole then .wr else .wrPtl) (sectorWrite o d whole i)) e.nodes t) s)

/-- R442, R444: the zeros of a parcel under R446: ZERO_LINE for a whole one, a partial write at the ends. -/
def cofZero (k part lpn o n : Nat) (e : ReadEnv) (s : State) : Bool × State :=
  if n ≠ 256 then cofWrite k part lpn o (zeros n) e s
  else if s.health.st = 5 then (true, modLd k (fun l => { l with discarded := l.discarded + 1 }) s)
  else if cofWriteWaits s lpn then (false, s)
  else
    let z := zeroLine lpn part s.health.st s
    (z.1, if z.1 && writeLost s s.health.st then cofLost k part z.2 else z.2)

/-- R436: output bytes that the source bytes so far determine, `fin` once all are read; a wrongly padded block has
none. -/
def cofOutput (r : CofRun) (fin : Bool) : List Byte :=
  let d := r.desc
  let data := r.input.drop d.aadLen.toNat
  let n := data.length; let full := n / 16; let total := d.len.toNat
  let iv := regBytes d.iv
  match d.mode with
  | 0 =>
    let m := total / 16; let rest := total % 16
    if rest = 0 then (List.range full).flatMap (fun j => xtsBlock d.dec r.key iv j (nthBlock data j))
    else
      let head := (List.range (min full (m - 1))).flatMap (fun j => xtsBlock d.dec r.key iv j (nthBlock data j))
      if fin then head ++ xtsSteal d.dec r.key iv m rest (nthBlock data (m - 1)) (nthBlock data m) else head
  | 1 => if d.dec && !r.pass then [] else ctrStream r.key (gcmJ0 iv) (fun c j => incLow c (j + 1)) data
  | 2 => ctrStream r.key (aesBlock iv) incAll data
  | 3 =>
    if !d.dec then
      (if fin && r.pad then cbcEnc r.key iv (data ++ pkcs n) (full + 1) else cbcEnc r.key iv data full)
    else if !r.pad then cbcDec r.key iv data full
    else
      let out := cbcDec r.key iv data full
      if fin then (match padLen (nthBlock out (full - 1)) with
        | some v => out.take (out.length - v)
        | none => out.take (out.length - 16))
      else cbcDec r.key iv data (full - 1)
  | _ => []

/-- R438: all source bytes of the pass are read. -/
def passRead (r : CofRun) : Bool := decide (r.desc.srcLen ≤ r.input.length)

/-- R442, R447: write the next destination parcel whose bytes are all determined; none when there is none to write. -/
def cofEmit (k : Nat) (e : ReadEnv) (s : State) : State :=
  match (ldAt s k).cof.run with
  | none => s
  | some r =>
    let out := cofOutput r (passRead r)
    let a := r.desc.dst.toNat + r.written
    let b := r.desc.dst.toNat + out.length
    let n := inParcel a (r.desc.dst.toNat + r.desc.dstLen r.pad)
    let m := inParcel a b
    if out.length ≤ r.written ∨ (m < n ∧ !passRead r) then s
    else match lpnOfOff s r.part a with
      | none => s
      | some lpn =>
        let (ok, t) := cofWrite k r.part lpn (a % 256) (bytesAt out r.written m) e s
        if ok then modCof k (fun p => { p with outLen := r.written + m, run := p.run.map (fun x => { x with written := r.written + m }) }) t
        else t

/-- R446: the descriptor has failed: its destination is zeroed, or it ends at once when it has none. -/
def startZero (k code : Nat) (s : State) : State :=
  match (ldAt s k).cof.run with
  | none => s
  | some r =>
    if r.desc.dstLen r.pad = 0 then endCoffer k code s
    else modCof k (fun p => { p with outLen := 0, run := p.run.map (fun x => { x with zeroing := true, endCode := code, written := 0 }) }) s

/-- R446: zero the next destination parcel. -/
def cofZeroNext (k : Nat) (r : CofRun) (e : ReadEnv) (s : State) : State :=
  let a := r.desc.dst.toNat + r.written
  let n := inParcel a (r.desc.dst.toNat + r.desc.dstLen r.pad)
  if r.desc.dstLen r.pad ≤ r.written then s
  else match lpnOfOff s r.part a with
    | none => s
    | some lpn =>
      let (ok, t) := cofZero k r.part lpn (a % 256) n e s
      if ok then modCof k (fun p => { p with outLen := r.written + n, run := p.run.map (fun x => { x with written := r.written + n }) }) t
      else t

/-- R451: the run after n more source bytes. -/
def cofTake (d : List Byte) (x : CofRun) : CofRun :=
  { x with input := x.input ++ d, maxProgress := max x.maxProgress (x.input.length + d.length) }

/-- R442, R452: read the next source parcel. -/
def cofReadNext (k : Nat) (r : CofRun) (e : ReadEnv) (s : State) : State :=
  let a := r.desc.src.toNat + r.input.length
  let n := inParcel a (r.desc.src.toNat + r.desc.srcLen)
  match lpnOfOff s r.part a with
  | none => s
  | some lpn =>
    match cofRead k r.part lpn (sectorsOf (a % 256) n) e s with
    | (none, t) => t
    | (some none, t) =>
      startZero k 0x22 (emit 0x0E02 0xFF r.part (a / 256 * 256 % 4294967296) (a / 256 * 256 / 4294967296) (cofMaster (k / 17) (k % 17)) t)
    | (some (some d), t) =>
      let b := bytesAt (parcelBytes d) (a % 256) n
      modCof k (fun p => { p with progress := r.input.length + n, run := p.run.map (cofTake b) }) t

/-- R441: a range of the running descriptor is no longer mapped. -/
def cofRangeLost (s : State) (k : Nat) (r : CofRun) : Bool :=
  let m := (ldAt s k).map
  m.typ != .tenant || m.part != r.part || (unmappedOff s m r.desc.src.toNat r.desc.srcLen).isSome ||
  (unmappedOff s m r.desc.dst.toNat (r.desc.dstLen r.pad)).isSome

/-- R441, R447, R448, R449: a stop at the next parcel, 0 for none. -/
def cofStop (s : State) (k : Nat) (r : CofRun) : Nat :=
  if cofFrozen s (k / 17) (k % 17) then 0x30 else if r.lost then 0x31 else if cofRangeLost s k r then 0x23 else 0

/-- R447, R452: the descriptor stops. -/
def cofHalt (k code : Nat) (r : CofRun) (s : State) : State :=
  let s1 := if code = 0x31 then s
    else emit 0x0E04 0xFF (cofMaster (k / 17) (k % 17)) (if code = 0x30 then 1 else 2) r.maxProgress 0 s
  endCoffer k code s1

/-- R442: one parcel of a descriptor. -/
def cofParcel (k : Nat) (e : ReadEnv) (s : State) : State :=
  match (ldAt s k).cof.run with
  | none => s
  | some r =>
    if cofStop s k r ≠ 0 then cofHalt k (cofStop s k r) r s
    else if r.zeroing then cofZeroNext k r e s
    else if passRead r then cofEmit k e s
    else cofEmit k e (cofEmit k e (cofReadNext k r e s))

/-- R442: the next descriptor in the round robin over the first 64 in submit order. -/
def cofferParcel (e : ReadEnv) (s : State) : State :=
  let q := s.ports.cofOrder.take 64
  if q.isEmpty ∨ s.belay.step ≠ 0 then s
  else
    let i := s.ports.cofTurn % q.length
    let k := q.getD i 0
    let t := cofParcel k e s
    { t with ports := { t.ports with cofTurn := if t.ports.cofOrder.contains k then i + 1 else i } }

/-- COFFER_PARCEL (R441 to R444, R447, R448). -/
def execCofferParcel (e : ReadEnv) (s : State) : Out := .next (whenMain (cofferParcel e) s)

/-! ### The end of a pass -/

/-- R446, R187: whether writes of a descriptor still wait for their place in the persistence domain. -/
def cofUnsettled (s : State) (k : Nat) : Bool :=
  let mine := fun (r : Req) => r.tagKind == .none && r.op.isWrite && r.port == k / 17 && r.ld == k % 17
  s.cache.throughWait.any mine || s.cache.waiting.any mine || s.cache.budgetWait.any mine || s.cache.heldReqs.any mine

/-- R187, R446: in WRITE_THROUGH a zeroed line is in the persistence domain once its eviction has ended. -/
def cofDirtyLeft (s : State) (r : CofRun) : Bool :=
  dirtyLimit s == 0 && s.cache.lines.any (fun p => lineCounts p.2 &&
    (match posOfLeg s.sad.img.runs (lpnLeg p.2.lpn) with
     | none => false
     | some (part, _) =>
       let a := offsetOfLpn s p.2.lpn
       part == r.part && decide (a < r.desc.dst.toNat + r.desc.dstLen r.pad) && decide (r.desc.dst.toNat < a + 256)))

/-- R435: the computed tag of a descriptor whose source is read. -/
def cofTag (r : CofRun) : List Byte :=
  let d := r.desc
  let aad := r.input.take d.aadLen.toNat
  let data := r.input.drop d.aadLen.toNat
  if d.mode = 4 then cmacTag r.key data
  else if d.mode = 1 then
    gcmTag r.key (regBytes d.iv) aad (if d.dec then data else ctrStream r.key (gcmJ0 (regBytes d.iv)) (fun c j => incLow c (j + 1)) data)
  else []

/-- R438: whether the computed tag agrees with the expected one. -/
def tagMatches (r : CofRun) : Bool := (cofTag r).take r.desc.tagLen == (regBytes r.desc.tag).take r.desc.tagLen

/-- R435: the tag that the engine writes, with bytes beyond TAG_LEN zero. -/
def writtenTag (r : CofRun) : List (BitVec 32) := regsOf (padTo 16 ((cofTag r).take r.desc.tagLen))

/-- R452: AUTH_FAIL and PAD_FAIL are counted with their partition and the bytes zeroed. -/
def countFail (code : Nat) (r : CofRun) (s : State) : State :=
  bump 0x0E01 4 (r.desc.dstLen r.pad) (bumpBit 0x0E01 3 r.part (bump 0x0E01 (if code = 0x20 then 1 else 2) 1 s))

/-- R436: a CBC PAD decrypt whose last block is not validly padded. -/
def padFails (r : CofRun) : Bool :=
  let data := r.input
  let out := cbcDec r.key (regBytes r.desc.iv) data (data.length / 16)
  r.desc.mode == 3 && r.desc.dec && r.pad && (padLen (nthBlock out (data.length / 16 - 1))).isNone

/-- R438, R445, R446: what the end of a pass does. -/
def passEnds (k : Nat) (r : CofRun) (s : State) : State :=
  let d := r.desc
  let checks := (d.mode == 1 || d.mode == 4) && d.dec
  if checks && !tagMatches r then startZero k 0x20 (countFail 0x20 r s)
  else if padFails r then startZero k 0x21 (countFail 0x21 r s)
  else if d.mode == 1 && d.dec && !r.pass then
    modCof k (fun p => { p with passBit := true, progress := 0, run := p.run.map (fun x => { x with pass := true, input := [] }) }) s
  else if (d.mode == 1 || d.mode == 4) && !d.dec then
    endCoffer k 0x02 (modCof k (fun p => { p with desc := { p.desc with tag := writtenTag r } }) s)
  else endCoffer k 0x02 s

/-- COFFER_PASS_END (R435, R436, R438, R445, R446, R451, R452). -/
def cofferPassEnd (q l : Nat) (s : State) : State :=
  let k := ldKey q l
  match (ldAt s k).cof.run with
  | none => s
  | some r =>
    if r.zeroing ∨ !passRead r ∨ r.written < (cofOutput r true).length ∨ cofUnsettled s k ∨ cofStop s k r ≠ 0 then s
    else passEnds k r s

/-- COFFER_PASS_END. -/
def execCofferPassEnd (q l : Nat) (s : State) : Out := .next (whenMain (cofferPassEnd q l) s)

/-- R446: DONE once every zero is in the persistence domain. -/
def cofferZeroingDone (q l : Nat) (s : State) : State :=
  let k := ldKey q l
  match (ldAt s k).cof.run with
  | none => s
  | some r =>
    if !r.zeroing ∨ r.written < r.desc.dstLen r.pad ∨ cofUnsettled s k ∨ cofDirtyLeft s r ∨ cofStop s k r ≠ 0 then s
    else endCoffer k r.endCode s

/-- COFFER_ZEROING_DONE (R446, R451). -/
def execCofferZeroingDone (q l : Nat) (s : State) : Out := .next (whenMain (cofferZeroingDone q l) s)

end Sys2Proof.Machine
end

