-- ==== Sys2Proof/Machine/CfgSpace.lean ====
section
/-! DEFINITION. The CXL.io configuration space of an LD (R61, R65, R70, R89, R113): PCI header, PCI Express and AER
capabilities, the CXL DVSECs, DOE with CDAT, and the two HDM decoders. R65 gives the values; the places of registers and
bits are PRESUMED from the PCI Express and CXL Specifications, and the places of capabilities are the model's choice. -/

namespace Sys2Proof.Machine

/-- A dword of two 16-bit halves. -/
def halves (lo hi : Nat) : Nat := lo % 65536 + hi % 65536 * 65536

/-! ### What the device presents (R65) -/

/-- R51, R65: a port's trained raw bandwidth in one direction, in GB/s: lanes × rate ÷ 8. -/
def rawGBs (x : Port) : Nat := x.width * (if x.gen = 6 then 64 else if x.gen = 5 then 32 else if x.gen = 4 then 16 else 0) / 8

/-- R65, R89: Range 1 Size of the DVSEC for CXL Devices, in bytes. -/
def range1Size (s : State) (k : Nat) : Nat := ldLegs s k * gib

/-- R65: the CXL Capability register: IO, Mem, one HDM range, CXL Reset from CXL 2.0 on, MLD. -/
def cxlCap (s : State) (k : Nat) : Nat :=
  let x := port s (k / 17)
  2 + 4 + 16 + (if x.cxl = 0x11 then 0 else 128) + (if isMld x then 8192 else 0)

/-- R65, R66: the low half of Range 1 Size, with Memory_Info_Valid, Memory_Active and the 16 s timeout. -/
def range1Low (s : State) (k : Nat) : Nat :=
  1 + (if (ldAt s k).memActive then 2 else 0) + 2 * 8192 + range1Size s k / 268435456 % 16 * 268435456

/-! ### CDAT and DOE (R65) -/

/-- R65: the CDAT entries after its header: the memory region and its latencies and bandwidths. -/
def cdatEntries (s : State) (k : Nat) : List (List Byte) :=
  let bw := rawGBs (port s (k / 17))
  let dslbis := fun (t unit v : Nat) => [1, 0] ++ toLe 2 24 ++ [0, 0] ++ toLe 1 t ++ [0] ++ toLe 8 unit ++ toLe 2 v ++ zeros 6
  [[0, 0] ++ toLe 2 24 ++ [0, 4] ++ zeros 2 ++ toLe 8 0 ++ toLe 8 (range1Size s k),
   dslbis 1 1000 1100, dslbis 2 1000 180, dslbis 4 1000 bw, dslbis 5 1000 bw]

/-- The CDAT header: length, revision, checksum, sequence. -/
def cdatHeader (es : List Byte) : List Byte :=
  let h := fun (c : Nat) => toLe 4 (16 + es.length) ++ [1] ++ toLe 1 c ++ zeros 10
  h ((256 - sumN ((h 0 ++ es).map BitVec.toNat) % 256) % 256)

/-- CDAT as DOE reads it, one entry at a time. -/
def cdat (s : State) (k : Nat) : List (List Byte) :=
  cdatHeader (cdatEntries s k).flatten :: cdatEntries s k

/-- Bytes as dwords. -/
def dwords : Nat → List Byte → List (BitVec 32)
  | 0, _ => []
  | n + 1, l => BitVec.ofNat 32 (leVal (l.take 4)) :: dwords n (l.drop 4)

/-- A DOE response: vendor and type, length, data. -/
def doeReply (vendor typ : Nat) (ws : List (BitVec 32)) : List (BitVec 32) :=
  BitVec.ofNat 32 (vendor + typ * 65536) :: BitVec.ofNat 32 (2 + ws.length) :: ws

/-- R65: the response to a DOE request: Discovery, or an entry of CDAT; none for another. -/
def doeAnswer (s : State) (k : Nat) (req : List (BitVec 32)) : Option (List (BitVec 32)) :=
  let w := (req.getD 2 0).toNat
  match (req.getD 0 0).toNat % 16777216 with
  | 0x000001 =>
    if w % 256 = 0 then some (doeReply 1 0 [BitVec.ofNat 32 (0x01000001)])
    else if w % 256 = 1 then some (doeReply 1 0 [BitVec.ofNat 32 0x00021E98]) else none
  | 0x021E98 =>
    let n := w / 65536
    match (cdat s k)[n]? with
    | some e => some (doeReply 0x1E98 2
        (BitVec.ofNat 32 ((if n + 1 < (cdat s k).length then n + 1 else 65535) * 65536) :: dwords (e.length / 4) e))
    | none => none
  | _ => none

/-! ### Reading -/

/-- The PCI header (R65) and the PCI Express capability. -/
def cfgHeader (io : IoSpace) (off : Nat) : Nat :=
  match off with
  | 0x00 => 0x12801D7E
  | 0x04 => halves io.command.toNat 0x0010
  | 0x08 => 0x05021000
  | 0x10 => io.bar0.toNat / 65536 * 65536 + 4
  | 0x14 => io.bar1.toNat
  | 0x2C => 0x12801D7E
  | 0x34 => 0x40
  | 0x3C => io.intLine.toNat
  | 0x40 => halves 0x0010 0x0092
  | 0x44 => 0x10008000
  | 0x48 => halves io.devCtl.toNat io.devSta.toNat
  | _ => 0

/-- AER (R70) and the Device Serial Number (R65). -/
def cfgAer (io : IoSpace) (off : Nat) : Nat :=
  match off with
  | 0x100 => 0x15020001
  | 0x104 => io.uncStatus.toNat
  | 0x108 => io.uncMask.toNat
  | 0x10C => io.uncSev.toNat
  | 0x110 => io.corStatus.toNat
  | 0x114 => io.corMask.toNat
  | 0x150 => 0x16010003
  | 0x154 => Config.unitId.toNat % 4294967296
  | 0x158 => Config.unitId.toNat / 4294967296 % 4294967296
  | _ => 0

/-- The CXL DVSECs: CXL Devices, Flex Bus Port, GPF for CXL Devices, Register Locator (R65), and DOE. -/
def cfgCxl (s : State) (k off : Nat) : Nat :=
  let io := (ldAt s k).io
  match off with
  | 0x160 => 0x1A010023
  | 0x164 => 0x03C21E98
  | 0x168 => halves 0 (cxlCap s k)
  | 0x16C => halves io.cxlCtl.toNat 0
  | 0x178 => range1Size s k / 4294967296
  | 0x17C => range1Low s k
  | 0x180 => io.range1Base.toNat / 4294967296
  | 0x184 => io.range1Base.toNat % 4294967296
  | 0x1A0 => 0x1C010023
  | 0x1A4 => 0x02021E98
  | 0x1A8 => halves 7 (2 + 4 + 32 + 4096)
  | 0x1C0 => 0x1D010023
  | 0x1C4 => 0x01001E98
  | 0x1C8 => halves 5 (1 + 256)
  | 0x1CC => 230000
  | 0x1D0 => 0x1F010023
  | 0x1D4 => 0x01401E98
  | 0x1D8 => 8
  | 0x1DC => 0x0300
  | 0x1F0 => 0x0001002E
  | 0x1FC => (if io.doeErr then 4 else 0) + (if io.doeOut.isEmpty then 0 else 2147483648)
  | 0x204 => (io.doeOut.head?.getD 0).toNat
  | _ => 0

/-- A dword of an LD's configuration space. -/
def cfgReg (s : State) (k off : Nat) : Nat :=
  if off < 0x100 then cfgHeader (ldAt s k).io off else if off < 0x160 then cfgAer (ldAt s k).io off else cfgCxl s k off

/-- R65: the HDM Decoder Capability: 2 decoders, 1 to 16 ways, 256 B to 16 KiB; and the decoders. -/
def hdmReg (l : Ld) (off : Nat) : Nat :=
  if off = 0 then 1 + 16 + 256 + 512 + 4096
  else
    let d := l.decoders.getD ((off - 0x10) / 0x20) {}
    if off < 0x10 ∨ 0x50 ≤ off then 0
    else match (off - 0x10) % 0x20 with
      | 0x00 => d.base.toNat % 4294967296
      | 0x04 => d.base.toNat / 4294967296
      | 0x08 => d.size.toNat % 4294967296
      | 0x0C => d.size.toNat / 4294967296
      | 0x10 => d.ctrl.toNat
      | _ => 0

/-! ### Writing -/

/-- The writes of the PCI header and of Device Control. -/
def cfgWriteHeader (off : Nat) (v : BitVec 32) (io : IoSpace) : IoSpace :=
  match off with
  | 0x04 => { io with command := v.truncate 16 &&& 0x0546 }
  | 0x10 => { io with bar0 := v &&& 0xFFFF0000 }
  | 0x14 => { io with bar1 := v }
  | 0x3C => { io with intLine := v.truncate 8 }
  | 0x48 => { io with devCtl := v.truncate 16, devSta := io.devSta &&& ~~~((v.extractLsb' 16 16) &&& 0xF) }
  | _ => io

/-- R70: the writes of AER: status bits are write-one-to-clear. -/
def cfgWriteAer (off : Nat) (v : BitVec 32) (io : IoSpace) : IoSpace :=
  match off with
  | 0x104 => { io with uncStatus := io.uncStatus &&& ~~~v }
  | 0x108 => { io with uncMask := v }
  | 0x10C => { io with uncSev := v }
  | 0x110 => { io with corStatus := io.corStatus &&& ~~~v }
  | 0x114 => { io with corMask := v }
  | 0x16C => { io with cxlCtl := v.truncate 16 &&& 0x0005 ||| 2 }
  | 0x180 => { io with range1Base := v ++ io.range1Base.truncate 32 }
  | 0x184 => { io with range1Base := (io.range1Base.extractLsb' 32 32) ++ (v &&& 0xF0000000) }
  | _ => io

/-- R65: the DOE mailbox: a request dword, Go or Abort, and the acknowledgement of a response dword. -/
def cfgWriteDoe (s : State) (k off : Nat) (v : BitVec 32) (io : IoSpace) : IoSpace :=
  match off with
  | 0x1F8 =>
    if v.getLsbD 0 then { io with doeIn := [], doeOut := [], doeErr := false }
    else if v.getLsbD 31 then
      match doeAnswer s k io.doeIn with
      | some r => { io with doeIn := [], doeOut := r }
      | none => { io with doeIn := [], doeErr := true }
    else io
  | 0x200 => { io with doeIn := io.doeIn ++ [v] }
  | 0x204 => { io with doeOut := io.doeOut.drop 1 }
  | _ => io

/-- A dword written to an LD's configuration space; RO and RSVD places ignore it. -/
def cfgWrite (k off : Nat) (v : BitVec 32) (s : State) : State :=
  modLd k (fun l => { l with io :=
    if off < 0x100 then cfgWriteHeader off v l.io else if off < 0x1F0 then cfgWriteAer off v l.io else cfgWriteDoe s k off v l.io }) s

/-- R65: a decoder commits where it has a size and a supported interleave; else its commit is in error. -/
def commitDec (v : BitVec 32) (d : HdmDec) : HdmDec :=
  let ok := d.size != 0 && decide (v.toNat % 16 ≤ 6) && decide (v.toNat / 16 % 16 ≤ 4)
  let c := v &&& 0x13FF
  { d with ctrl := if v.getLsbD 9 then (if ok then c ||| 0x400 else c ||| 0x800) else c }

/-- The write of a decoder's register; one that is locked and committed ignores it. -/
def writeDec (off : Nat) (v : BitVec 32) (d : HdmDec) : HdmDec :=
  if d.ctrl.getLsbD 8 && d.ctrl.getLsbD 10 then d
  else match off with
    | 0x00 => { d with base := (d.base.extractLsb' 32 32) ++ (v &&& 0xF0000000) }
    | 0x04 => { d with base := v ++ d.base.truncate 32 }
    | 0x08 => { d with size := (d.size.extractLsb' 32 32) ++ (v &&& 0xF0000000) }
    | 0x0C => { d with size := v ++ d.size.truncate 32 }
    | 0x10 => commitDec v d
    | _ => d

/-- R65, R78: a write to the HDM decoder registers. -/
def hdmWrite (k off : Nat) (v : BitVec 32) (s : State) : State :=
  if off < 0x10 ∨ 0x50 ≤ off then s
  else modLd k (fun l => { l with decoders := l.decoders.mapIdx (fun i d =>
    if i = (off - 0x10) / 0x20 then writeDec ((off - 0x10) % 0x20) v d else d) }) s

/-- R61: what a CXL 3.1 port reports of the heads of the device: how many there are, and which it is; none on other ports. -/
def headInfo (s : State) (p : Nat) : Option (Nat × Nat) :=
  if (port s p).up && (port s p).cxl == 0x31 then some (portCount s.ports.inForce.groupMode, p) else none

end Sys2Proof.Machine
end

