-- ==== Sys2Proof/Machine/Layout.lean ====
section
/-! DEFINITION. The bytes that map memory and the system parcels hold (R293 to R297, R305, R306, R312, R222, R382, R69), which the
Survey port shows in plaintext (R239, R552). -/

namespace Sys2Proof.Machine

/-- The byte of a number at a place. -/
def byteOf (x i : Nat) : Byte := BitVec.ofNat 8 (x / 256 ^ i)

/-- R294: the codes of the bale states. -/
def baleCode : BaleSt → Nat
  | .unwritten => 0 | .overlay => 1 | .baled => 2 | .sparse => 3 | .lost => 4 | .lostSparse => 5

/-- R293: a bale map entry. -/
def baleBits (b : Bale) : Nat :=
  baleCode b.st * 2 ^ 37 + b.ovcnt * 2 ^ 31 + b.seg * 2 ^ 25 + b.tile * 2 ^ 12 + b.bank * 2 ^ 8 + b.die * 2 ^ 5 + b.ch

/-- R295: an overlay entry. -/
def ovBits (lpn : Nat) (e : OvEntry) : Nat :=
  lpn + (match e.kind with | .located => 1 | .poison => 2) * 2 ^ 39 + (if e.cold then 2 ^ 42 else 0) + e.ppa * 2 ^ 43 +
  e.wseq.toNat * 2 ^ 83 + e.lastWrite % 4096 * 2 ^ 115

/-- R312: the codes of the tile states. -/
def tileCode : TileSt → Nat
  | .free => 0 | .openHost => 1 | .openMaint => 2 | .full => 3 | .sweeping => 4 | .resetting => 5 | .retired => 6 | .bad => 7
/-- R312: the codes of the tile classes. -/
def classCode : TileClass → Nat
  | .none => 0 | .dense => 1 | .fast => 2

/-- R312: a tile table entry. -/
def tileBits (t : Tile) : Nat :=
  tileCode t.st + classCode t.cls * 2 ^ 4 + t.wear % 4194304 * 2 ^ 6 + t.valid % 16384 * 2 ^ 28 + min t.reads 16777215 * 2 ^ 42 + min t.pfail 3 * 2 ^ 66

/-- R305: a journal record. -/
def recBits : JRec → Nat
  | .pad => 0
  | .ovlSet l p w => 1 + l * 2 ^ 8 + p * 2 ^ 47 + w.toNat * 2 ^ 87
  | .ovlPoison l => 2 + l * 2 ^ 8
  | .baleSet i b st n => 3 + i * 2 ^ 8 + baleBits b * 2 ^ 39 + st % 65536 * 2 ^ 79 + n * 2 ^ 95
  | .ovlKeep l => 4 + l * 2 ^ 8
  | .sparseMap _ q x => 5 + q * 2 ^ 8 + x.toNat * 2 ^ 64
  | .tileState k t => 6 + k * 16384 * 2 ^ 8 + tileCode t.st * 2 ^ 48 + classCode t.cls * 2 ^ 52 + t.wear % 4194304 * 2 ^ 54
  | .dropLeg g => 7 + g * 2 ^ 8
  | .roundBegin n => 8 + n * 2 ^ 8
  | .roundEnd n => 9 + n * 2 ^ 8

/-- R306: a journal parcel. -/
def journalBytes (j : JParcel) (next : Nat) : List Byte :=
  padTo 256 (toLe 8 j.jseq ++ toLe 5 next ++ toLe 1 j.recs.length ++ zeros 2 ++ j.recs.flatMap (fun r => toLe 16 (recBits r)))

/-- R307: a byte of a map region: the bale map, the overlay's buckets, the stamp table and the tile table. The order of a bucket's
entries and the sparse table's hash are the model's. -/
def regionByte (m : MapImage) (region a : Nat) : Byte :=
  match region with
  | 0 => byteOf (baleBits (tgetD m.bales (a / 5) {})) (a % 5)
  | 1 => (match (inBucket m.overlay (a / 64))[a % 64 / 16]? with
    | some l => byteOf (ovBits l (tgetD m.overlay l { kind := .poison })) (a % 16)
    | none => 0)
  | 2 => byteOf (tgetD m.stamps (a / 2) 0) (a % 2)
  | 3 => byteOf (tileBits (tgetD m.tiles (a / 16) {})) (a % 16)
  | _ => byteOf (match m.sparse[a / 64]? with | some p => p.1 + p.2.toNat * 2 ^ 64 | none => 0) (a % 64)

/-- R239: the 256 bytes of a system parcel at a location. A directory's and an overflow parcel's layout no rule states: none. -/
def sysBytes (s : State) (ppa : Nat) (p : SysParcel) : Option (List Byte) :=
  match p.body with
  | .journal j next => some (journalBytes j next)
  | .tree lines _ _ => some (lines.flatMap (fun x => toLe 64 x.toNat))
  | .ledger b => some ((List.range 2).flatMap (fun i =>
      meterBytes b.minute (2 * (p.lpn % 512) + i) b.closeTs b.flags (tgetD b.recs (2 * (p.lpn % 512) + i) {})))
  | .log rs => some (padTo 256 (rs.flatMap (eventBytes 2)))
  | .page .. | .pageRest =>
    let all := newestSys s (fun q => q.space == p.space && q.wseq == p.wseq && q.lpn / 16 == p.lpn / 16)
    (all.findSome? (fun q => match q.2.body with
      | .page r n img => some ((List.range 256).map (fun i => regionByte img r (4096 * n + 256 * (p.lpn % 16) + i)))
      | _ => none)).filter (fun _ => thas all ppa)
  | .dir .. | .logMeta _ => none

end Sys2Proof.Machine
end

