-- ==== Sys2Proof/Machine/Survey.lean ====
section
/-! DEFINITION. The Survey port (R549 to R552, R102, R105, R114): its TAP instructions, the unlock, memory accesses
within the life-cycle rights, and life-cycle transitions. -/

namespace Sys2Proof.Machine

/-- R550: a TAP instruction is selected. Selecting EXTEST takes every port down. -/
def tap (code : Nat) (s : State) : State := { s with survey := { s.survey with instr := code } }
/-- The data register that is shifted out. -/
def tdo (l : List Byte) (s : State) : State := { s with survey := { s.survey with tdo := l } }

/-- R551, R552: a session: BLANK needs none, every other state an unlock. -/
def svSession (s : State) : Bool := s.keeper.life == .blank || s.survey.level.isSome

/-- R552: the states in which registers and metadata are written, scan chains are read and EXTEST runs. -/
def svFull (s : State) : Bool :=
  svSession s && (s.keeper.life == .blank || s.keeper.life == .provision || s.keeper.life == .ret)

/-- R552: the states with memory and register access. -/
def svAccess (s : State) : Bool := svSession s && s.keeper.life != .scrapped

/-- R550: every port is taken down; R76, R77, R547. -/
def portsDown (s : State) : State :=
  forAll ((tkeys s.ports.ports).filter (fun p => (port s p).up)) (fun p t => setReset 9 (loseLink p 1 t)) s

/-- EXTEST (R550, R552): ports stay down while it is selected. Without the right the instruction selects BYPASS. -/
def execExtest (s : State) : Out :=
  .next (whenMain (fun s => if svFull s then portsDown (tap 0 s) else tap 0xFF s) s)

/-- R550: the IDCODE of stepping A0. -/
def idcodeWord : BitVec 32 := (0 : BitVec 4) ++ (0x1280 : BitVec 16) ++ (0x0F3 : BitVec 11) ++ (1 : BitVec 1)

/-- IDCODE (R550). -/
def execIdcode (s : State) : Out := .next (whenMain (fun s => tdo (toLe 4 idcodeWord.toNat) (tap 1 s)) s)

/-- SAMPLE_PRELOAD (R550): the pins' levels are free values. -/
def execSamplePreload (s : State) : Out := .next (whenMain (fun s => drawn (tdo (toLe 8 (freeVal s 0x1700)) (tap 2 s))) s)

/-- BYPASS (R550). -/
def execBypass (s : State) : Out := .next (whenMain (fun s => tdo [0] (tap 0xFF s)) s)

/-! ### The unlock (R551) -/

/-- R551: the challenge. -/
def challengeOf (s : State) : List Byte :=
  padTo 32 (Config.rbgChallenge s.keeper.rbg) ++ toLe 16 Config.unitId.toNat ++ toLe 4 s.sad.img.boot.boots ++
  toLe 1 (lifeCode s.keeper.life) ++ zeros 11

/-- SV_CHALLENGE (R551). -/
def svChallenge (s : State) : State :=
  tdo (challengeOf s) (tap 0x10 { s with
    survey := { s.survey with challenge := some (challengeOf s), challengeTb := tbNow s }
    keeper := { s.keeper with rbg := s.keeper.rbg + 1 } })

/-- SV_CHALLENGE (R551). -/
def execSvChallenge (s : State) : Out := .next (whenMain svChallenge s)

/-- R551: a token unlocks: its layout, its signature under the debug key, and a level equal to the current state. -/
def tokenGood (s : State) (token : List Byte) : Bool :=
  let lvl := fld token 0 1
  match s.survey.challenge with
  | none => false
  | some c =>
    token.length == 256 && decide (1 ≤ lvl) && decide (lvl ≤ 3) && lvl == lifeCode s.keeper.life && allZero token 1 15 &&
    bytesAt token 16 48 == sha384 c && allZero token 160 96 &&
    ecdsaOk (sha384 (bytesAt token 0 64)) (bytesAt token 64 96) Config.debugKey &&
    decide (tbNow s ≤ s.survey.challengeTb + 60000000000)

/-- R551, R556: an unlock; the third failure writes record 0x1703. A challenge serves once, and a frozen Survey master
gains no unlock before THAW (R114). -/
def svUnlock (token : List Byte) (s0 : State) : State :=
  let s := tap 0x11 s0
  let used : State := { s with survey := { s.survey with challenge := none } }
  if 3 ≤ s.survey.failures then s
  else if isFrozen s surveyMaster then used
  else if tokenGood s token then
    emit 0x1702 0xFF (fld token 0 1) (lifeCode s.keeper.life) s.sad.img.boot.boots 0
      { used with survey := { used.survey with level := some (fld token 0 1) } }
  else
    let n := s.survey.failures + 1
    let s1 : State := { used with survey := { used.survey with failures := n } }
    if n = 3 then emit 0x1703 0xFF n (lifeCode s.keeper.life) 0 0 s1 else s1

/-- SV_UNLOCK (R551). -/
def execSvUnlock (token : List Byte) (s : State) : Out := .next (whenMain (svUnlock token) s)

/-- SV_LOCK (R551). -/
def execSvLock (s : State) : Out := .next (whenMain (fun s => endUnlock 1 (tap 0x12 s)) s)

/-- R550: state, unlock level, failures and freeze flag, a byte each. -/
def svStatusBytes (s : State) : List Byte :=
  [BitVec.ofNat 8 (lifeCode s.keeper.life), BitVec.ofNat 8 (s.survey.level.getD 0), BitVec.ofNat 8 s.survey.failures,
   if isFrozen s surveyMaster then 1 else 0]

/-- SV_STATUS (R550). -/
def execSvStatus (s : State) : Out := .next (whenMain (fun s => tdo (svStatusBytes s) (tap 0x13 s)) s)

/-! ### Memory access (R550, R552, R105) -/

/-- R260: a doubleword of a stored codeword; its LDPC parity is a free value. -/
def codewordBeat (w : Codeword) (i : Nat) : Nat :=
  if i < 32 then w.cipher.toNat / 2 ^ (64 * i) % 2 ^ 64 else if i = 32 then w.mac.toNat else if i = 33 then w.mdat.toNat
  else Config.free w.cipher.toNat i % 2 ^ 64

/-- R239: what the State holds at an address: a tenant parcel's raw codeword, a system parcel or map memory in plaintext. -/
def svPlain (s : State) (space addr : Nat) : Option Nat :=
  let ppa := addr % 549755813888
  if space = 1 then
    let p := Config.mapPlace addr
    some (beVal ((List.range 8).map (fun i => regionByte s.way.map (p.1 % 5) (p.2 + 7 - i))))
  else if space = 2 then
    (match tget s.medium.cells ppa with
     | some w => some (codewordBeat w (Config.surveyBeat addr % 40))
     | none => (tget s.medium.sys ppa).bind (fun p => (sysBytes s ppa p).map (fun l => fld l (8 * (Config.surveyBeat addr % 32)) 8)))
  else none

/-- R105: a medium location that holds a tenant parcel. -/
def svTenant (s : State) (space addr : Nat) : Bool :=
  space == 2 && (match tget s.medium.cells (addr % 549755813888) with | some w => !w.mdat.getLsbD 61 | none => false)

/-- R552: what a read returns: a tenant parcel's raw codeword; what Survey wrote; else what the State holds there; else a free value, as
no rule gives the address maps of the spaces. -/
def svRead (s : State) (space addr : Nat) : Nat :=
  match (if svTenant s space addr then none else tget s.survey.raw (space * 2 ^ 62 + addr)) with
  | some v => v.toNat
  | none => (svPlain s space addr).getD (freeVal s (space * 2 ^ 62 + addr) % 2 ^ 64)

/-- SV_MEM (R552, R105, R106, R114): a write to tenant data freezes the Survey master and ends its unlock. -/
def svMem (write : Bool) (access : BitVec 128) (s0 : State) : State :=
  let s := tap 0x20 s0
  let space := (access.extractLsb' 126 2).toNat
  let addr := (access.extractLsb' 64 62).toNat
  if !svAccess s ∨ isFrozen s surveyMaster then tdo (zeros 8) s
  else if !write then drawn (tdo (toLe 8 (svRead s space addr)) s)
  else if svTenant s space addr then
    endUnlock 4 (freeze surveyMaster 0x0205 (BitVec.ofNat 64 addr) (lifeCode s.keeper.life) s)
  else if svFull s then
    { s with survey := { s.survey with raw := tset s.survey.raw (space * 2 ^ 62 + addr) (access.extractLsb' 0 64) } }
  else s

/-- SV_MEM (R552). -/
def execSvMem (write : Bool) (access : BitVec 128) (s : State) : Out := .next (whenMain (svMem write access) s)

/-- SV_SCAN (R550, R552): what the chains hold is a free value. -/
def svScan (s0 : State) : State :=
  let s := tap 0x21 s0
  if svFull s ∧ !isFrozen s surveyMaster then drawn (tdo (toLe 8 (freeVal s 0x1721)) s) else tdo (zeros 8) s

/-- SV_SCAN (R550). -/
def execSvScan (s : State) : Out := .next (whenMain svScan s)

/-- SV_CAIRN (R550, R552): as CAIRN_READ. -/
def svCairn (first count : Nat) (s0 : State) : State :=
  let s := tap 0x22 s0
  if svSession s ∧ !isFrozen s surveyMaster ∧ 1 ≤ count ∧ count ≤ 2047 then tdo (cairnReadOut s first count) s else tdo (zeros 8) s

/-- SV_CAIRN (R550). -/
def execSvCairn (first count : Nat) (s : State) : Out := .next (whenMain (svCairn first count) s)

/-! ### Life-cycle transitions (R549) -/

/-- R549: the state of a code. -/
def lifeOf (n : Nat) : Option Life :=
  match n with | 1 => some .provision | 2 => some .production | 3 => some .ret | 4 => some .scrapped | _ => none

/-- R549: a transition that is authorized, with its token level: that of the token or of the session. -/
def promotion (s : State) (target : Life) (token : List Byte) : Option Nat :=
  let byToken := if Config.transitionOk token (lifeCode target) then some (fld token 0 1) else none
  match s.keeper.life, target with
  | .blank, .provision => byToken
  | .provision, .production => if s.survey.level = some 1 then some 1 else none
  | .production, .ret => byToken
  | .production, .scrapped => if s.survey.level = some 2 then some 2 else none
  | .provision, .scrapped => some (s.survey.level.getD 0)
  | .ret, .scrapped => some (s.survey.level.getD 0)
  | _, _ => none

/-- R248, R549: a partition is crypto-erased: its key set is gone, and the next boot finds it DEPARTING. -/
def eraseForReturn (part : Nat) (s : State) : State :=
  let s1 := endTraverse part 0 s
  let n := (wrapsOf s1 part).length
  let legs := (positions s1 part).map (·.2)
  let s2 := modImg (rk 3 part :: (wrapsOf s1 part).map (rk 7)) (fun m => { m with
    parts := tmod m.parts part {} (fun r => { r with st := .departing }), wraps := m.wraps.filter (fun p => p.2.part != part) }) s1
  emit 0x060A 0xFF part n legs.length 0 (dropLegs legs (zeroSlot part (dropCredits s2)))

/-- R549: RETURN erases every partition, and the new root key opens nothing that the medium's system spaces hold. -/
def returnUnit (s : State) : State :=
  let s1 := forAll (tkeys s.sad.img.parts) eraseForReturn s
  let s2 := setMaps (fun m => { m with ldMaps := m.ldMaps.filter (fun p => p.2.typ != .tenant) }) s1
  { s2 with
    sad := { s2.sad with slots := s2.sad.slots.filter (fun p => p.1 / 65536 != 7), dirty := s2.sad.dirty.filter (fun k => k / 65536 != 7) }
    sealCtl := { s2.sealCtl with slots := [], keyless := [] }
    keeper := { s2.keeper with root := s2.keeper.root + 1 }, medium := { s2.medium with poison := [] } }

/-- R549: what a transition does beside the state. -/
def promoteEffect (target : Life) (s : State) : State :=
  match target with
  | .ret => returnUnit s
  | .provision => { s with keeper := { s.keeper with rbg := s.keeper.rbg + 1, root := s.keeper.root + 1 } }
  | .scrapped => { s with keeper := { s.keeper with root := s.keeper.root + 1 } }
  | _ => s

/-- SV_PROMOTE (R549): the transition, record 0x1701, the end of the unlock, and a warm reset. -/
def svPromote (target : Nat) (token : List Byte) (s0 : State) : State :=
  let s := tap 0x30 s0
  match lifeOf target with
  | none => s
  | some l => match promotion s l token with
    | none => s
    | some lvl =>
      let s1 := emit 0x1701 0xFF (lifeCode s.keeper.life) (lifeCode l) lvl 0 (promoteEffect l s)
      let s2 := endUnlock 3 { s1 with keeper := { s1.keeper with life := l } }
      if s2.belay.step = 0 then warmReset false s2 else s2

/-- SV_PROMOTE (R549). -/
def execSvPromote (target : Nat) (token : List Byte) (s : State) : Out := .next (whenMain (svPromote target token) s)

end Sys2Proof.Machine
end

