-- ==== Sys2Proof/Machine/Registers.lean ====
section
/-! DEFINITION. The registers of an LD's BAR (R10 to R14, R557 to R570): what each reads as, what a write does, the
shadows of 64-bit registers, and the doorbell by which a command register's content becomes a command. -/

namespace Sys2Proof.Machine

/-! ### Commands by opcode (R396, R393) -/

/-- The commands of the current generation; `prev` is the VND_MB_XSTATUS of the previous MCTP completion. -/
def allCmds (prev : BitVec 32) : List Cmd :=
  [ cmdSetBelayConfig, cmdGetBelayConfig, cmdPreparePowerOff, cmdGetFwInfo, cmdTransferFw, cmdActivateFw,
    cmdGetBootInfo, cmdConfirmFw, cmdGetResetInfo, cmdClearResetInfo, cmdWarmReset, cmdGetLifecycle, cmdGetCairnInfo,
    cmdCairnRead, cmdGetCairnHistogram, cmdIdentify, cmdBgStatus, cmdGetEventRecords, cmdClearEventRecords,
    cmdGetEventInterruptPolicy, cmdSetEventInterruptPolicy, cmdGetTimestamp, cmdSetTimestamp, cmdGetSupportedLogs,
    cmdGetLog, cmdIdentifyMemoryDevice, cmdGetPartitionInfo, cmdGetHealthInfo, cmdGetAlertConfiguration,
    cmdSetAlertConfiguration, cmdGetShutdownState, cmdSetShutdownState, cmdGetPoisonList, cmdInjectPoison,
    cmdClearPoison, cmdGetLdInfo, cmdGetLdAllocations, cmdGetDeviceInfo, cmdSetPortConfig, cmdGetPortConfig,
    cmdSetStageConfig, cmdGetStageConfig, cmdGetHealth, cmdGetLastXstatus prev, cmdCreatePartition, cmdDeletePartition,
    cmdAddLegs, cmdRemoveLegs, cmdGetPartition, cmdGetPartitionList, cmdSetLdMap, cmdGetLdMap, cmdSetContract,
    cmdGetContract, cmdSetQos, cmdThaw, cmdGetFreeze, cmdGetDcConfig, cmdGetDcExtents, cmdAddDcResponse, cmdReleaseDc,
    cmdInitiateDcAdd, cmdInitiateDcRelease, cmdGetMediaHealth, cmdAdoptModule, cmdSetDroverConfig, cmdGetDroverConfig,
    cmdFlushRange, cmdInvalidateRange, cmdZeroRange, cmdGetTimebase, cmdSetTimeConfig, cmdGetTimeConfig,
    cmdSetTimeOfDay, cmdGetMeters, cmdGetHistogram, cmdGetRopeStatus, cmdSetPitchTable, cmdGetPitchTable, cmdTraverse,
    cmdGetTraverse, cmdGetThermal]

/-- The command of an opcode (R407: one that no table lists is unsupported). -/
def cmdOf (s : State) (op : Nat) : Cmd := ((allCmds (xstatus s.mctp)).find? (fun c => c.op == op)).getD (unlisted op)

/-- R396: the doorbell is written: the command in the Command register and payload is taken. -/
def mailboxDoorbell (q l : Nat) (s : State) : State :=
  let m := (ldAt s (ldKey q l)).mbox
  if m.doorbell then s else takeCmd (cmdOf s m.opcode) (.ld q l) (padTo m.len m.payload) s

/-- MAILBOX_DOORBELL (R396, R397). -/
def execMailboxDoorbell (q l : Nat) (s : State) : Out := .next (whenMain (mailboxDoorbell q l) s)

/-- R393: the answer to an MCTP control message, as DSP0236 lays it out: completion code and data, with the endpoint ID that it
leaves. The messages are those that DSP0236 requires of a simple endpoint: Set and Get Endpoint ID, Get MCTP Version Support, Get
Message Type Support. The versions answered are free values. -/
def controlReply (code : Nat) (data : List Byte) (eid : Nat) : List Byte × Nat :=
  let e := fld data 1 1
  match code with
  | 1 =>
    if data.length ≠ 2 then ([3], eid)
    else if 2 ≤ fld data 0 1 % 4 ∨ e = 0 ∨ e = 255 then ([2], eid)
    else ([0, 0] ++ toLe 1 e ++ [0], e)
  | 2 => ([0] ++ toLe 1 eid ++ [0, 0], eid)
  | 4 =>
    let t := fld data 0 1
    if data.length ≠ 1 then ([3], eid)
    else if t = 0 ∨ t = 8 ∨ t = 255 then ([0, 1] ++ toLe 4 (Config.free 0x0393 t), eid)
    else ([0x80], eid)
  | 5 => ([0, 1, 8], eid)
  | _ => ([5], eid)

/-- R393: an MCTP control message is answered whatever command is outstanding. -/
def mctpControl (code : Nat) (data : List Byte) (s : State) : State :=
  let r := controlReply code data s.ep.eid
  { s with ep := { eid := r.2, reply := r.1 } }

/-- MCTP_REQUEST (R393, R394, R397). -/
def execMctpRequest (m : MctpMsg) (data : List Byte) (s : State) : Out :=
  .next (whenMain (fun s => match m with
    | .command opcode => takeCmd (cmdOf s opcode) .mctp data s
    | .control code => mctpControl code data s) s)

/-! ### What the registers read as -/

/-- A flag as a bit of a register. -/
def rbit (b : Bool) (i : Nat) : Nat := if b then 2 ^ i else 0

/-- R563: VND_STATUS. -/
def vndStatus (s : State) (k : Nat) : Nat :=
  let l := ldAt s k
  let q := k / 17; let d := k % 17
  let tenant := tenantLd s k
  rbit (tenant && isFrozen s (ldMaster q d)) 0 + rbit (isFrozen s (portMaster q)) 1 +
  rbit (isFrozen s (cofMaster q d) || isFrozen s (ldMaster q d)) 2 + rbit l.memActive 3 + rbit (recalling s) 4 +
  rbit (s.health.st == 6) 5 + rbit (throttled s) 6 + rbit s.sealCtl.zeroed 7 + l.chg.toNat * 65536

/-- R565: VND_IDENT. -/
def vndIdent (s : State) (k : Nat) : Nat :=
  let m := (ldAt s k).map
  let typ := typeCode (typeNow s k m)
  (if k % 17 = 16 then 16 else k % 17) + k / 17 * 256 + (if typ = 1 then m.part else 0) * 65536 + typ * 67108864 + rbit m.dynamic 28

/-- R566: STAGE_FACTORS. -/
def stageFactors (s : State) : Nat :=
  s.planner.fHReg + s.planner.maintShare * 65536 + s.planner.maintPending * 1048576

/-- R567: HEALTH. -/
def healthReg (s : State) : Nat := s.health.conds.toNat + s.health.st * 65536

/-- R66: the Memory Device Status register: Media Status in [3:2], Mailbox Interface Ready in [4] (PRESUMED: the CXL
Specification's places). DESIGN CHOICE: a TENANT LD that maps a
partition but has no ranges, which neither row of R66 names, reports disabled (log 84). -/
def memStatus (s : State) (k : Nat) : Nat :=
  let mgmt := mgmtKey s == some k
  if recalling s then 0
  else if s.health.st = 6 then rbit mgmt 4
  else if tenantLd s k ∧ !(ldAt s k).map.ranges.isEmpty then 4 + 16 else 12 + 16

/-- R560: the Event Status register: a bit for each log that holds records. -/
def eventStatus (s : State) (k : Nat) : Nat :=
  sumN ((List.range 5).map (fun i => rbit (!((ldAt s k).logs.getD i {}).recs.isEmpty && (i != 4 || (port s (k / 17)).cxl == 0x31)) i))

/-- R560: the words of the capability array and its headers. -/
def capWord (off : Nat) : Nat :=
  match off / 4 with
  | 0 => 0x00010000 | 1 => 3
  | 4 => 0x00010001 | 5 => 0x100 | 6 => 0x100
  | 8 => 0x00010002 | 9 => 0x1000 | 10 => 0x7000
  | 12 => 0x00014000 | 13 => 0x200 | 14 => 8
  | _ => 0

/-- R65, R396, R399, R400: the mailbox registers as a 64-bit value each. -/
def mboxReg (m : Mailbox) (off : Nat) : Nat :=
  match off / 8 with
  | 0x200 => 16 + rbit m.doorbell 32
  | 0x201 => m.opcode + m.len * 65536
  | 0x202 => rbit m.bgShown 0 + m.retCode * 2 ^ 32 + m.detail * 2 ^ 48
  | 0x203 => m.bgOpcode + m.bgPct * 65536 + m.bgRet * 2 ^ 32 + m.bgDetail * 2 ^ 48
  | _ => 0

/-- R11, R396: a half of a mailbox register; a high half of a 64-bit register shows its shadow. -/
def mboxHalf (l : Ld) (off : Nat) : Nat :=
  let live := mboxReg l.mbox off / 2 ^ (off % 8 * 8) % 2 ^ 32
  let sh := match off with
    | 0x100C => l.shCmd
    | 0x1014 => l.shMbs
    | 0x101C => l.shBgs
    | _ => none
  match sh with
  | some v => v.toNat
  | none => live

/-- R561: a byte of the payload window. -/
def windowByte (m : Mailbox) (off : Nat) : Byte :=
  let i := m.base * 4096 + (off - 0x1020)
  if i < 65536 then m.payload.getD i 0 else 0

/-- R478: the Cairn window of the management LD. -/
def cairnWinReg (s : State) (w : CairnWin) (off : Nat) : Nat :=
  match off with
  | 0x9000 => w.position
  | 0x9004 => rbit w.space 0 + rbit w.auto 1
  | 0x9008 => rbit w.ready 0 + rbit w.advanced 1 + rbit w.notHeld 2 + rbit w.half 3
  | 0x900C => cairnNewest s
  | 0x9010 => cairnOldest s
  | _ => if 0x9040 ≤ off ∧ off < 0x9080 then fld w.data (off - 0x9040) 4 else 0

/-- R433: the bits of DESC_CTRL that are not RSVD. A read shows no other (R12); the engine still sees what was
written in them, and ends the descriptor with FIELD (R439, R445). DEDUCED, log entry 92. -/
def ctrlMask : BitVec 32 := 0x0000F31F

/-- R426 to R433: the Coffer page. -/
def cofReg (l : Ld) (off : Nat) : Nat :=
  let p := l.cof; let d := p.desc
  match off with
  | 0xC000 => 0x40003F01
  | 0xC004 => rbit p.lenMode 0
  | 0xC008 => p.code + rbit p.writeLost 8 + rbit p.passBit 9
  | 0xC00C => p.progress
  | 0xC010 => rbit p.done 0
  | 0xC014 => p.events.toNat
  | 0xC01C => p.outLen
  | 0xC040 => (d.ctrl &&& ctrlMask).toNat
  | 0xC048 => d.src.toNat % 2 ^ 32
  | 0xC04C => (l.shSrc.getD (d.src.extractLsb' 32 32)).toNat
  | 0xC050 => d.dst.toNat % 2 ^ 32
  | 0xC054 => (l.shDst.getD (d.dst.extractLsb' 32 32)).toNat
  | 0xC058 => d.len.toNat
  | 0xC05C => d.aadLen.toNat
  | _ =>
    if 0xC060 ≤ off ∧ off < 0xC070 then (d.iv.getD ((off - 0xC060) / 4) 0).toNat
    else if 0xC070 ≤ off ∧ off < 0xC080 then (d.tag.getD ((off - 0xC070) / 4) 0).toNat
    else if 0xC100 ≤ off ∧ off < 0xC110 then
      let k := tgetD p.keys ((off - 0xC100) / 4) {}
      rbit k.valid 0 + rbit k.size 1 + rbit k.pair 2
    else 0

/-- R557: the vendor status block. -/
def vendorReg (s : State) (k off : Nat) : Nat :=
  let l := ldAt s k
  match off with
  | 0x8000 => vndStatus s k
  | 0x8004 => (xstatus l.mbox).toNat
  | 0x8008 => l.mbox.base
  | 0x800C => vndIdent s k
  | 0x8010 => s.planner.stage % 2 ^ 32
  | 0x8014 => (l.shStage.getD (BitVec.ofNat 32 (s.planner.stage / 2 ^ 32))).toNat
  | 0x8018 => s.planner.templateReg.toNat
  | 0x801C => stageFactors s
  | 0x8020 => s.planner.forbidReg.toNat
  | 0x8024 => healthReg s
  | 0x8028 => s.health.seq % 2 ^ 32
  | 0x8030 => tbNow s % 2 ^ 32
  | 0x8034 => (l.shTb.getD (BitVec.ofNat 32 (tbNow s / 2 ^ 32))).toNat
  | _ => 0

/-- R557: the 32-bit value of an aligned register offset of an LD's BAR. Beyond the BAR's 64 KiB the model gives its
configuration space (at 0x10000) and its HDM decoders (at 0x11000) places of its own. -/
def readReg (s : State) (k off : Nat) : Nat :=
  if off < 0x40 then capWord off
  else if off = 0x100 then eventStatus s k
  else if off = 0x200 then memStatus s k
  else if 0x1000 ≤ off ∧ off < 0x1020 then mboxHalf (ldAt s k) off
  else if 0x1020 ≤ off ∧ off < 0x8000 then leVal ((List.range 4).map (fun i => windowByte (ldAt s k).mbox (off + i)))
  else if 0x8000 ≤ off ∧ off < 0x8038 then vendorReg s k off
  else if 0x9000 ≤ off ∧ off < 0x9080 then (if mgmtKey s = some k then cairnWinReg s (ldAt s k).win off else 0)
  else if 0xC000 ≤ off ∧ off < 0xD000 then (if cofLive s k then cofReg (ldAt s k) off else 0)
  else if 0x10000 ≤ off ∧ off < 0x11000 then cfgReg s k (off - 0x10000)
  else if 0x11000 ≤ off ∧ off < 0x12000 then hdmReg (ldAt s k) (off - 0x11000)
  else 0

/-- What a read has returned. -/
def answer (n : Nat) (s : State) : State := { s with ports := { s.ports with readData := n } }

/-! ### Reads with an effect -/

/-- R11, R559: the low-half read of a 64-bit register captures the high half. -/
def reg64LowRead (k off : Nat) (s : State) : State :=
  let l := ldAt s k
  let s1 := answer (readReg s k off) s
  let high := BitVec.ofNat 32 (mboxReg l.mbox off / 2 ^ 32)
  match off with
  | 0x1008 => modLd k (fun l => { l with shCmd := some high }) s1
  | 0x1010 => modLd k (fun l => { l with shMbs := some high }) s1
  | 0x1018 => modLd k (fun l => { l with shBgs := some high }) s1
  | 0x8010 => modLd k (fun l => { l with shStage := some (BitVec.ofNat 32 (s.planner.stage / 2 ^ 32)) }) s1
  | 0x8030 => modLd k (fun l => { l with shTb := some (BitVec.ofNat 32 (tbNow s / 2 ^ 32)) }) s1
  | 0xC048 => if cofLive s k then modLd k (fun x => { x with shSrc := some (l.cof.desc.src.extractLsb' 32 32) }) s1 else s1
  | 0xC050 => if cofLive s k then modLd k (fun x => { x with shDst := some (l.cof.desc.dst.extractLsb' 32 32) }) s1 else s1
  | _ => s

/-- REG64_LOW_READ (R11, R559, R568). -/
def execReg64LowRead (q l off : Nat) (s : State) : Out :=
  .next (whenMain (fun s => if pathLive s (.ld q l) then reg64LowRead (ldKey q l) off s else s) s)

/-- R396, R561: bytes written through the payload window. -/
def windowWrite (off : Nat) (b : List Byte) (m : Mailbox) : Mailbox :=
  if m.doorbell then m
  else
    let i := m.base * 4096 + (off - 0x1020)
    { m with payload := (patch m.payload i b).take 65536 }

/-- R558, R561: an aligned 8-bit or 16-bit access inside the payload window. -/
def inWindow (off width : Nat) : Bool :=
  (width == 1 || width == 2) && off % width == 0 && decide (0x1020 ≤ off) && decide (off + width ≤ 0x8000)

/-- R10, R558: an access narrower than 32 bits, or not aligned to its size. -/
def narrow (off width : Nat) : Bool := (width != 4 && width != 8) || off % width != 0

/-- R10, R558: the payload window takes aligned 8-bit and 16-bit accesses; elsewhere such an access reads zero and
changes no register. -/
def narrowAccess (k off width : Nat) (w : Option (BitVec 64)) (s : State) : State :=
  if !narrow off width then s
  else if inWindow off width then
    (match w with
     | some v => modLd k (fun l => { l with mbox := windowWrite off (toLe width v.toNat) l.mbox }) s
     | none => answer (leVal ((List.range width).map (fun i => windowByte (ldAt s k).mbox (off + i)))) s)
  else match w with
    | some _ => s
    | none => answer 0 s

/-- NARROW_OR_MISALIGNED_ACCESS (R10, R558). -/
def execNarrowOrMisalignedAccess (q l off width : Nat) (write : Option (BitVec 64)) (s : State) : Out :=
  .next (whenMain (fun s => if pathLive s (.ld q l) then narrowAccess (ldKey q l) off width write s else s) s)

/-! ### Writes -/

/-- R14: the bits that a write of v clears: not those set at this moment. -/
def cleared {w : Nat} (v : BitVec w) (setTb now : Nat) (setNow : BitVec w) : BitVec w := if setTb = now then v &&& ~~~setNow else v

/-- R563, R14: RW1C of VND_STATUS. -/
def clearChg (v : BitVec 32) (now : Nat) (l : Ld) : Ld :=
  { l with chg := l.chg &&& ~~~(cleared (v.extractLsb' 16 5) l.chgTb now l.chgNow) }

/-- R428, R14: RW1C of COF_DONE (m = DONE) and COF_EVENTS. -/
def clearCof (v : BitVec 5) (now : Nat) (p : CofPage) : CofPage :=
  let c := cleared v p.flagTb now p.flagNow
  { p with events := p.events &&& ~~~(c.truncate 4), done := p.done && !c.getLsbD 4 }

/-- R11, R396: a write to the Command register takes effect when its high half is written; it and the payload ignore writes
while the doorbell is 1. -/
def writeCommand (high : Bool) (v : BitVec 32) (m : Mailbox) : Mailbox :=
  if m.doorbell then m
  else if high then { m with opcode := m.cmdLow.toNat % 65536, len := m.cmdLow.toNat / 65536 + v.toNat % 32 * 65536 }
  else { m with cmdLow := v }

/-- R478, R479: the Cairn window's writable registers; each write starts a load. -/
def writeWin (off : Nat) (v : BitVec 32) (w : CairnWin) : CairnWin :=
  match off with
  | 0x9000 => startLoad { w with position := v.toNat }
  | 0x9004 => startLoad { w with space := v.getLsbD 0, auto := v.getLsbD 1 }
  | _ => w

/-- R429 to R432: KEY_CTRL: LOAD, CLEAR, or SIZE and PAIR alone. -/
def writeKeyCtrl (q l slot : Nat) (v : BitVec 32) (s : State) : State :=
  if v.getLsbD 8 ∧ v.getLsbD 9 then keyClear q l slot (keyLoad q l slot v s)
  else if v.getLsbD 8 then keyLoad q l slot v s
  else
    let s1 := if v.getLsbD 9 then keyClear q l slot s else s
    if keyHeld s q l slot then (if v.getLsbD 9 then s1 else cofEvent 2 (ldKey q l) s)
    else modKey (ldKey q l) slot (fun x => { x with size := v.getLsbD 1, pair := v.getLsbD 2 }) s1

/-- R430, R432: KEY_MAT. -/
def writeKeyMat (q l off : Nat) (v : BitVec 32) (s : State) : State :=
  let slot := (off - 0xC200) / 64
  if keyHeld s q l slot then cofEvent 2 (ldKey q l) s
  else modKey (ldKey q l) slot (fun x => { x with mat := patch (padTo 64 x.mat) (off % 64) (toLe 4 v.toNat) }) s

/-- R433, R11, R12: the descriptor registers. -/
def writeDesc (off : Nat) (v : BitVec 32) (p : CofPage) : CofPage :=
  let d := p.desc
  match off with
  | 0xC004 => { p with lenMode := v.getLsbD 0 }
  | 0xC040 => { p with desc := { d with ctrl := v } }
  | 0xC048 => { p with srcLow := v }
  | 0xC04C => { p with desc := { d with src := v ++ p.srcLow } }
  | 0xC050 => { p with dstLow := v }
  | 0xC054 => { p with desc := { d with dst := v ++ p.dstLow } }
  | 0xC058 => { p with desc := { d with len := v } }
  | 0xC05C => { p with desc := { d with aadLen := v } }
  | _ =>
    if 0xC060 ≤ off ∧ off < 0xC070 then { p with desc := { d with iv := d.iv.set ((off - 0xC060) / 4) v } }
    else if 0xC070 ≤ off ∧ off < 0xC080 then { p with desc := { d with tag := d.tag.set ((off - 0xC070) / 4) v } }
    else p

/-- R426: a write to the Coffer page of a tenant LD. -/
def writeCof (q l off : Nat) (v : BitVec 32) (s : State) : State :=
  let k := ldKey q l
  if !cofLive s k then s
  else if off = 0xC010 then modCof k (clearCof (if v.getLsbD 0 then 16 else 0) (tbNow s)) s
  else if off = 0xC014 then modCof k (clearCof ((v.truncate 4).zeroExtend 5) (tbNow s)) s
  else if off = 0xC018 then (if v.getLsbD 0 then cofSubmit q l s else s)
  else if 0xC100 ≤ off ∧ off < 0xC110 then writeKeyCtrl q l ((off - 0xC100) / 4) v s
  else if 0xC200 ≤ off ∧ off < 0xC300 then writeKeyMat q l off v s
  else modCof k (writeDesc off v) s

/-- R12, R557: an aligned 32-bit write to an offset of an LD's BAR, or of its configuration space or HDM decoders at the
model's places; RO and RSVD offsets ignore it. -/
def registerWrite (q l off : Nat) (v : BitVec 32) (s : State) : State :=
  let k := ldKey q l
  if off % 4 ≠ 0 then s
  else if 0x10000 ≤ off ∧ off < 0x11000 then cfgWrite k (off - 0x10000) v s
  else if 0x11000 ≤ off ∧ off < 0x12000 then hdmWrite k (off - 0x11000) v s
  else if off = 0x1004 then (if v.getLsbD 0 then mailboxDoorbell q l s else s)
  else if off = 0x1008 then modLd k (fun x => { x with mbox := writeCommand false v x.mbox }) s
  else if off = 0x100C then modLd k (fun x => { x with mbox := writeCommand true v x.mbox }) s
  else if 0x1020 ≤ off ∧ off < 0x8000 then modLd k (fun x => { x with mbox := windowWrite off (toLe 4 v.toNat) x.mbox }) s
  else if off = 0x8000 then modLd k (clearChg v (tbNow s)) s
  else if off = 0x8008 then modLd k (fun x => { x with mbox := { x.mbox with base := v.toNat % 16 } }) s
  else if off = 0x9000 ∨ off = 0x9004 then (if mgmtKey s = some k then modLd k (fun x => { x with win := writeWin off v x.win }) s else s)
  else if 0xC000 ≤ off ∧ off < 0xD000 then writeCof q l off v s
  else s

/-- REGISTER_WRITE (R12, R13, R557, R561 to R564). -/
def execRegisterWrite (q l off : Nat) (value : BitVec 32) (s : State) : Out :=
  .next (whenMain (fun s => if pathLive s (.ld q l) then registerWrite q l off value s else s) s)

end Sys2Proof.Machine
end

