-- ==== Sys2Proof/Machine/Dispatch.lean ====
section
/-! DEFINITION. The dispatch: one arm per row of the opcode table, each one direct call of the row's meaning. -/

namespace Sys2Proof.Machine

/-- The effect of a command on everything but the queue. -/
def exec (i : Instr) (s : State) : Host.Outcome State Fault Refusal :=
  match i with
  | .stageTick => Sys2Proof.Machine.execStageTick s
  | .planSnapshot => Sys2Proof.Machine.execPlanSnapshot s
  | .planPublish p => Sys2Proof.Machine.execPlanPublish p s
  | .planDeadline => Sys2Proof.Machine.execPlanDeadline s
  | .windowBoundary ch bank w => Sys2Proof.Machine.execWindowBoundary ch bank w s
  | .statusReply ch r => Sys2Proof.Machine.execStatusReply ch r s
  | .tempReply ch r => Sys2Proof.Machine.execTempReply ch r s
  | .moduleTempMissing ch => Sys2Proof.Machine.execModuleTempMissing ch s
  | .codewordDecode ch bank ok bits => Sys2Proof.Machine.execCodewordDecode ch bank ok bits s
  | .deepRecoveryDeadline ch bank => Sys2Proof.Machine.execDeepRecoveryDeadline ch bank s
  | .modPresLost ch => Sys2Proof.Machine.execModPresLost ch s
  | .alertNAsserted ch caParity => Sys2Proof.Machine.execAlertNAsserted ch caParity s
  | .alertNHeld ch => Sys2Proof.Machine.execAlertNHeld ch s
  | .channelBringUp ch b => Sys2Proof.Machine.execChannelBringUp ch b s
  | .calZqPeriodic ch => Sys2Proof.Machine.execCalZqPeriodic ch s
  | .calThresholdPeriodic ch bank => Sys2Proof.Machine.execCalThresholdPeriodic ch bank s
  | .memRd q e => Sys2Proof.Machine.execMemRd q e s
  | .memRdData q e => Sys2Proof.Machine.execMemRdData q e s
  | .memSpecRd q e => Sys2Proof.Machine.execMemSpecRd q e s
  | .memWr q w e => Sys2Proof.Machine.execMemWr q w e s
  | .memWrPtl q w e => Sys2Proof.Machine.execMemWrPtl q w e s
  | .memInv q => Sys2Proof.Machine.execMemInv q s
  | .memInvNt q => Sys2Proof.Machine.execMemInvNt q s
  | .memClnEvct q => Sys2Proof.Machine.execMemClnEvct q s
  | .sliceRetirementEnd slice => Sys2Proof.Machine.execSliceRetirementEnd slice s
  | .cachePatrol lpn e => Sys2Proof.Machine.execCachePatrol lpn e s
  | .fillComplete f => Sys2Proof.Machine.execFillComplete f s
  | .completionFill lpn => Sys2Proof.Machine.execCompletionFill lpn s
  | .evictionStart lpn e => Sys2Proof.Machine.execEvictionStart lpn e s
  | .evictionOrderingPoint lpn => Sys2Proof.Machine.execEvictionOrderingPoint lpn s
  | .dirtyBudgetRelease => Sys2Proof.Machine.execDirtyBudgetRelease s
  | .backgroundWriteback slice => Sys2Proof.Machine.execBackgroundWriteback slice s
  | .s2mCreditReturn c => Sys2Proof.Machine.execS2mCreditReturn c s
  | .s2mCreditWithheld port => Sys2Proof.Machine.execS2mCreditWithheld port s
  | .requestAge25ms port ld tag => Sys2Proof.Machine.execRequestAge25ms port ld tag s
  | .linkUp port p => Sys2Proof.Machine.execLinkUp port p s
  | .trainingFailure port rate => Sys2Proof.Machine.execTrainingFailure port rate s
  | .trainingRetry port => Sys2Proof.Machine.execTrainingRetry port s
  | .linkDown port => Sys2Proof.Machine.execLinkDown port s
  | .hotReset port => Sys2Proof.Machine.execHotReset port s
  | .linkDisable port => Sys2Proof.Machine.execLinkDisable port s
  | .perstAssert group => Sys2Proof.Machine.execPerstAssert group s
  | .perstDeassert group => Sys2Proof.Machine.execPerstDeassert group s
  | .flr port ld => Sys2Proof.Machine.execFlr port ld s
  | .cxlReset port ld memClear => Sys2Proof.Machine.execCxlReset port ld memClear s
  | .cxlioBadTlp port ld tlp => Sys2Proof.Machine.execCxlioBadTlp port ld tlp s
  | .gpfPhase1 port => Sys2Proof.Machine.execGpfPhase1 port s
  | .gpfPhase2 port latencyNs => Sys2Proof.Machine.execGpfPhase2 port latencyNs s
  | .freezeCommit => Sys2Proof.Machine.execFreezeCommit s
  | .contractLowerApply port ld => Sys2Proof.Machine.execContractLowerApply port ld s
  | .poisonWindowEnd => Sys2Proof.Machine.execPoisonWindowEnd s
  | .forcedReleaseGraceEnd port ld dpaLeg => Sys2Proof.Machine.execForcedReleaseGraceEnd port ld dpaLeg s
  | .rangeOpStep p => Sys2Proof.Machine.execRangeOpStep p s
  | .rangeOpNoProgress p => Sys2Proof.Machine.execRangeOpNoProgress p s
  | .rangeOpComplete p => Sys2Proof.Machine.execRangeOpComplete p s
  | .rollReseal lpn => Sys2Proof.Machine.execRollReseal lpn s
  | .counterWriteback level idx => Sys2Proof.Machine.execCounterWriteback level idx s
  | .counterCheckpoint => Sys2Proof.Machine.execCounterCheckpoint s
  | .lostNodeReplace level idx => Sys2Proof.Machine.execLostNodeReplace level idx s
  | .traverseBale part => Sys2Proof.Machine.execTraverseBale part s
  | .traverseMarkCommit => Sys2Proof.Machine.execTraverseMarkCommit s
  | .traverseFinish part => Sys2Proof.Machine.execTraverseFinish part s
  | .rebale lbi => Sys2Proof.Machine.execRebale lbi s
  | .rebaleCommit lbi => Sys2Proof.Machine.execRebaleCommit lbi s
  | .coldVisit lpn => Sys2Proof.Machine.execColdVisit lpn s
  | .journalCommit => Sys2Proof.Machine.execJournalCommit s
  | .checkpointRoundBegin => Sys2Proof.Machine.execCheckpointRoundBegin s
  | .checkpointRoundEnd => Sys2Proof.Machine.execCheckpointRoundEnd s
  | .hbmPatrol e => Sys2Proof.Machine.execHbmPatrol e s
  | .mapPageRebuilt region page holdUs => Sys2Proof.Machine.execMapPageRebuilt region page holdUs s
  | .stripeRebuildEnd region stripe durationMs => Sys2Proof.Machine.execStripeRebuildEnd region stripe durationMs s
  | .sweepTile ch => Sys2Proof.Machine.execSweepTile ch s
  | .sweepReset ch tile => Sys2Proof.Machine.execSweepReset ch tile s
  | .thermalClockAdvance => Sys2Proof.Machine.execThermalClockAdvance s
  | .driftSetTune ch die set delta => Sys2Proof.Machine.execDriftSetTune ch die set delta s
  | .scrubRead ppa ok bits => Sys2Proof.Machine.execScrubRead ppa ok bits s
  | .mediaLossHandling ch die => Sys2Proof.Machine.execMediaLossHandling ch die s
  | .eventLogProgram => Sys2Proof.Machine.execEventLogProgram s
  | .energyComputation senseUv => Sys2Proof.Machine.execEnergyComputation senseUv s
  | .budgetRaise => Sys2Proof.Machine.execBudgetRaise s
  | .writeThroughRelease => Sys2Proof.Machine.execWriteThroughRelease s
  | .capacitanceTestStart senseUv => Sys2Proof.Machine.execCapacitanceTestStart senseUv s
  | .capacitanceTestPostpone => Sys2Proof.Machine.execCapacitanceTestPostpone s
  | .capacitanceTestEnd tUs => Sys2Proof.Machine.execCapacitanceTestEnd tUs s
  | .capacitanceTestTimeout => Sys2Proof.Machine.execCapacitanceTestTimeout s
  | .pfailNLow => Sys2Proof.Machine.execPfailNLow s
  | .vTripCrossing => Sys2Proof.Machine.execVTripCrossing s
  | .flushStart cause => Sys2Proof.Machine.execFlushStart cause s
  | .flushStepAdvance senseUv => Sys2Proof.Machine.execFlushStepAdvance senseUv s
  | .ppsEdge rising => Sys2Proof.Machine.execPpsEdge rising s
  | .ppsEdgeTimeout => Sys2Proof.Machine.execPpsEdgeTimeout s
  | .atPpsArmDrop => Sys2Proof.Machine.execAtPpsArmDrop s
  | .slewEnd => Sys2Proof.Machine.execSlewEnd s
  | .tbToKeeper => Sys2Proof.Machine.execTbToKeeper s
  | .minuteBoundary => Sys2Proof.Machine.execMinuteBoundary s
  | .minuteSeal => Sys2Proof.Machine.execMinuteSeal s
  | .ledgerCommit => Sys2Proof.Machine.execLedgerCommit s
  | .mailboxDoorbell port ld => Sys2Proof.Machine.execMailboxDoorbell port ld s
  | .mctpRequest m data => Sys2Proof.Machine.execMctpRequest m data s
  | .mctpAssemblyTimeout eid packets bytes binding => Sys2Proof.Machine.execMctpAssemblyTimeout eid packets bytes binding s
  | .backgroundProgressUpdate p pct => Sys2Proof.Machine.execBackgroundProgressUpdate p pct s
  | .unsupportedOpcode p opcode input => Sys2Proof.Machine.execUnsupportedOpcode p opcode input s
  | .identify p input => Sys2Proof.Machine.execIdentify p input s
  | .backgroundOperationStatus p input => Sys2Proof.Machine.execBackgroundOperationStatus p input s
  | .getEventRecords p input => Sys2Proof.Machine.execGetEventRecords p input s
  | .clearEventRecords p input => Sys2Proof.Machine.execClearEventRecords p input s
  | .getEventInterruptPolicy p input => Sys2Proof.Machine.execGetEventInterruptPolicy p input s
  | .setEventInterruptPolicy p input => Sys2Proof.Machine.execSetEventInterruptPolicy p input s
  | .getFwInfo p input => Sys2Proof.Machine.execGetFwInfo p input s
  | .transferFw p input => Sys2Proof.Machine.execTransferFw p input s
  | .activateFw p input => Sys2Proof.Machine.execActivateFw p input s
  | .activationFlashStep compareOk => Sys2Proof.Machine.execActivationFlashStep compareOk s
  | .getTimestamp p input => Sys2Proof.Machine.execGetTimestamp p input s
  | .setTimestamp p input => Sys2Proof.Machine.execSetTimestamp p input s
  | .getSupportedLogs p input => Sys2Proof.Machine.execGetSupportedLogs p input s
  | .getLog p input => Sys2Proof.Machine.execGetLog p input s
  | .identifyMemoryDevice p input => Sys2Proof.Machine.execIdentifyMemoryDevice p input s
  | .getPartitionInfo p input => Sys2Proof.Machine.execGetPartitionInfo p input s
  | .getHealthInfo p input => Sys2Proof.Machine.execGetHealthInfo p input s
  | .getAlertConfiguration p input => Sys2Proof.Machine.execGetAlertConfiguration p input s
  | .setAlertConfiguration p input => Sys2Proof.Machine.execSetAlertConfiguration p input s
  | .getShutdownState p input => Sys2Proof.Machine.execGetShutdownState p input s
  | .setShutdownState p input => Sys2Proof.Machine.execSetShutdownState p input s
  | .getPoisonList p input => Sys2Proof.Machine.execGetPoisonList p input s
  | .injectPoison p input => Sys2Proof.Machine.execInjectPoison p input s
  | .clearPoison p input => Sys2Proof.Machine.execClearPoison p input s
  | .getDynamicCapacityConfiguration p input => Sys2Proof.Machine.execGetDynamicCapacityConfiguration p input s
  | .getDynamicCapacityExtentList p input => Sys2Proof.Machine.execGetDynamicCapacityExtentList p input s
  | .addDynamicCapacityResponse p input => Sys2Proof.Machine.execAddDynamicCapacityResponse p input s
  | .releaseDynamicCapacity p input => Sys2Proof.Machine.execReleaseDynamicCapacity p input s
  | .getLdInfo p input => Sys2Proof.Machine.execGetLdInfo p input s
  | .getLdAllocations p input => Sys2Proof.Machine.execGetLdAllocations p input s
  | .initiateDynamicCapacityAdd p input => Sys2Proof.Machine.execInitiateDynamicCapacityAdd p input s
  | .initiateDynamicCapacityRelease p input => Sys2Proof.Machine.execInitiateDynamicCapacityRelease p input s
  | .getDeviceInfo p input => Sys2Proof.Machine.execGetDeviceInfo p input s
  | .setPortConfig p input => Sys2Proof.Machine.execSetPortConfig p input s
  | .getPortConfig p input => Sys2Proof.Machine.execGetPortConfig p input s
  | .setStageConfig p input => Sys2Proof.Machine.execSetStageConfig p input s
  | .getStageConfig p input => Sys2Proof.Machine.execGetStageConfig p input s
  | .getHealth p input => Sys2Proof.Machine.execGetHealth p input s
  | .getLastXstatus p input => Sys2Proof.Machine.execGetLastXstatus p input s
  | .createPartition p input => Sys2Proof.Machine.execCreatePartition p input s
  | .deletePartition p input => Sys2Proof.Machine.execDeletePartition p input s
  | .addLegs p input => Sys2Proof.Machine.execAddLegs p input s
  | .removeLegs p input => Sys2Proof.Machine.execRemoveLegs p input s
  | .getPartition p input => Sys2Proof.Machine.execGetPartition p input s
  | .getPartitionList p input => Sys2Proof.Machine.execGetPartitionList p input s
  | .setLdMap p input => Sys2Proof.Machine.execSetLdMap p input s
  | .getLdMap p input => Sys2Proof.Machine.execGetLdMap p input s
  | .setContract p input => Sys2Proof.Machine.execSetContract p input s
  | .getContract p input => Sys2Proof.Machine.execGetContract p input s
  | .setQos p input => Sys2Proof.Machine.execSetQos p input s
  | .thaw p input => Sys2Proof.Machine.execThaw p input s
  | .getFreeze p input => Sys2Proof.Machine.execGetFreeze p input s
  | .getTimebase p input => Sys2Proof.Machine.execGetTimebase p input s
  | .setTimeConfig p input => Sys2Proof.Machine.execSetTimeConfig p input s
  | .getTimeConfig p input => Sys2Proof.Machine.execGetTimeConfig p input s
  | .setTimeOfDay p input => Sys2Proof.Machine.execSetTimeOfDay p input s
  | .getMeters p input => Sys2Proof.Machine.execGetMeters p input s
  | .getHistogram p input => Sys2Proof.Machine.execGetHistogram p input s
  | .flushRange p input => Sys2Proof.Machine.execFlushRange p input s
  | .invalidateRange p input => Sys2Proof.Machine.execInvalidateRange p input s
  | .zeroRange p input => Sys2Proof.Machine.execZeroRange p input s
  | .traverse p input => Sys2Proof.Machine.execTraverse p input s
  | .getTraverse p input => Sys2Proof.Machine.execGetTraverse p input s
  | .getMediaHealth p input => Sys2Proof.Machine.execGetMediaHealth p input s
  | .adoptModule p input => Sys2Proof.Machine.execAdoptModule p input s
  | .setDroverConfig p input => Sys2Proof.Machine.execSetDroverConfig p input s
  | .getDroverConfig p input => Sys2Proof.Machine.execGetDroverConfig p input s
  | .setBelayConfig p input => Sys2Proof.Machine.execSetBelayConfig p input s
  | .getBelayConfig p input => Sys2Proof.Machine.execGetBelayConfig p input s
  | .preparePowerOff p input => Sys2Proof.Machine.execPreparePowerOff p input s
  | .getRopeStatus p input => Sys2Proof.Machine.execGetRopeStatus p input s
  | .setPitchTable p input => Sys2Proof.Machine.execSetPitchTable p input s
  | .getPitchTable p input => Sys2Proof.Machine.execGetPitchTable p input s
  | .getThermal p input => Sys2Proof.Machine.execGetThermal p input s
  | .getCairnInfo p input => Sys2Proof.Machine.execGetCairnInfo p input s
  | .cairnRead p input => Sys2Proof.Machine.execCairnRead p input s
  | .getCairnHistogram p input => Sys2Proof.Machine.execGetCairnHistogram p input s
  | .getBootInfo p input => Sys2Proof.Machine.execGetBootInfo p input s
  | .confirmFw p input => Sys2Proof.Machine.execConfirmFw p input s
  | .getResetInfo p input => Sys2Proof.Machine.execGetResetInfo p input s
  | .clearResetInfo p input => Sys2Proof.Machine.execClearResetInfo p input s
  | .warmReset p input => Sys2Proof.Machine.execWarmReset p input s
  | .getLifecycle p input => Sys2Proof.Machine.execGetLifecycle p input s
  | .cofSubmit port ld value => Sys2Proof.Machine.execCofSubmit port ld value s
  | .keyLoad port ld slot value => Sys2Proof.Machine.execKeyLoad port ld slot value s
  | .keyClear port ld slot => Sys2Proof.Machine.execKeyClear port ld slot s
  | .cofferParcel e => Sys2Proof.Machine.execCofferParcel e s
  | .cofferPassEnd port ld => Sys2Proof.Machine.execCofferPassEnd port ld s
  | .cofferZeroingDone port ld => Sys2Proof.Machine.execCofferZeroingDone port ld s
  | .commitGroup => Sys2Proof.Machine.execCommitGroup s
  | .commitGroupComplete => Sys2Proof.Machine.execCommitGroupComplete s
  | .storeSupplyRecheck vddKeepMv ekUj => Sys2Proof.Machine.execStoreSupplyRecheck vddKeepMv ekUj s
  | .storeHeldTimeout => Sys2Proof.Machine.execStoreHeldTimeout s
  | .recallComplete => Sys2Proof.Machine.execRecallComplete s
  | .keeperSupplyFall vddKeepMv ekUj => Sys2Proof.Machine.execKeeperSupplyFall vddKeepMv ekUj s
  | .keeperPor => Sys2Proof.Machine.execKeeperPor s
  | .keepHoldMeasure tUs => Sys2Proof.Machine.execKeepHoldMeasure tUs s
  | .keeperLinkLoss => Sys2Proof.Machine.execKeeperLinkLoss s
  | .cairnRecordArrival r => Sys2Proof.Machine.execCairnRecordArrival r s
  | .cairnStore => Sys2Proof.Machine.execCairnStore s
  | .cairnPointerMismatch => Sys2Proof.Machine.execCairnPointerMismatch s
  | .epochClose => Sys2Proof.Machine.execEpochClose s
  | .cairnWindowLoad port ld => Sys2Proof.Machine.execCairnWindowLoad port ld s
  | .cairnWindowAutoAdvance port ld => Sys2Proof.Machine.execCairnWindowAutoAdvance port ld s
  | .relayItemProduced queue r => Sys2Proof.Machine.execRelayItemProduced queue r s
  | .relayItemDrain queue => Sys2Proof.Machine.execRelayItemDrain queue s
  | .relayPointerMismatch queue ptr => Sys2Proof.Machine.execRelayPointerMismatch queue ptr s
  | .noticeReconcile queue => Sys2Proof.Machine.execNoticeReconcile queue s
  | .ropeLineRise => Sys2Proof.Machine.execRopeLineRise s
  | .pitchDriveLow readsHigh => Sys2Proof.Machine.execPitchDriveLow readsHigh s
  | .pitchComplete pfailLow => Sys2Proof.Machine.execPitchComplete pfailLow s
  | .ropeTimeout => Sys2Proof.Machine.execRopeTimeout s
  | .pfailDuringRising => Sys2Proof.Machine.execPfailDuringRising s
  | .startFault enable cause mv => Sys2Proof.Machine.execStartFault enable cause mv s
  | .railFault enable mv durationUs => Sys2Proof.Machine.execRailFault enable mv durationUs s
  | .moduleRailPgFall enable => Sys2Proof.Machine.execModuleRailPgFall enable s
  | .railFallen => Sys2Proof.Machine.execRailFallen s
  | .railFallTimeout enable mv => Sys2Proof.Machine.execRailFallTimeout enable mv s
  | .holdoffEnd => Sys2Proof.Machine.execHoldoffEnd s
  | .junctionReading t hbm => Sys2Proof.Machine.execJunctionReading t hbm s
  | .hardwareTrip sensor t16 => Sys2Proof.Machine.execHardwareTrip sensor t16 s
  | .keeperSensorReading t => Sys2Proof.Machine.execKeeperSensorReading t s
  | .timeRefLoss => Sys2Proof.Machine.execTimeRefLoss s
  | .timeRefReturn => Sys2Proof.Machine.execTimeRefReturn s
  | .mainDieResetRelease b => Sys2Proof.Machine.execMainDieResetRelease b s
  | .watchdogExpiry core progress => Sys2Proof.Machine.execWatchdogExpiry core progress s
  | .loaderWatchdogExpiry => Sys2Proof.Machine.execLoaderWatchdogExpiry s
  | .fatalFault cause v1 v2 core => Sys2Proof.Machine.execFatalFault cause v1 v2 core s
  | .alarm source detector reading => Sys2Proof.Machine.execAlarm source detector reading s
  | .extest => Sys2Proof.Machine.execExtest s
  | .idcode => Sys2Proof.Machine.execIdcode s
  | .samplePreload => Sys2Proof.Machine.execSamplePreload s
  | .svChallenge => Sys2Proof.Machine.execSvChallenge s
  | .svUnlock token => Sys2Proof.Machine.execSvUnlock token s
  | .svLock => Sys2Proof.Machine.execSvLock s
  | .svStatus => Sys2Proof.Machine.execSvStatus s
  | .svMem write access => Sys2Proof.Machine.execSvMem write access s
  | .svScan => Sys2Proof.Machine.execSvScan s
  | .svCairn first count => Sys2Proof.Machine.execSvCairn first count s
  | .svPromote target token => Sys2Proof.Machine.execSvPromote target token s
  | .bypass => Sys2Proof.Machine.execBypass s
  | .reg64LowRead port ld off => Sys2Proof.Machine.execReg64LowRead port ld off s
  | .narrowOrMisalignedAccess port ld off width write => Sys2Proof.Machine.execNarrowOrMisalignedAccess port ld off width write s
  | .registerWrite port ld off value => Sys2Proof.Machine.execRegisterWrite port ld off value s
  | .linkLayerReplay port count => Sys2Proof.Machine.execLinkLayerReplay port count s
  | .unclassifiedM2sOpcode q opcode defined poison => Sys2Proof.Machine.execUnclassifiedM2sOpcode q opcode defined poison s
  | .mapStripeHoldExpiry lpn => Sys2Proof.Machine.execMapStripeHoldExpiry lpn s

end Sys2Proof.Machine
end

