-- ==== Sys2Proof/WellFormed.lean ====
section
/-! DEFINITION. Well-formed commands: every operand within the range that the manual gives it. -/

namespace Sys2Proof

/-- R50: ports 0 to 31. -/
def wfPort (p : Nat) : Bool := decide (p < 32)
/-- R55: LD-IDs 0 to 15, and 16 for the FM-owned LD. -/
def wfLd (l : Nat) : Bool := decide (l ≤ 16)
/-- R257: channels 0 to 31. -/
def wfCh (c : Nat) : Bool := decide (c < 32)
/-- R33: 39-bit LPNs. -/
def wfLpn (l : Nat) : Bool := decide (l < 549755813888)
/-- An offset of an LD's registers: the register block, then its configuration space and its component registers at the
model's places 0x10000 and 0x11000 (log 13). -/
def wfOff (off : Nat) : Bool := decide (off < 73728)
/-- R393: at most 64 KiB of payload. -/
def wfInput (l : List Byte) : Bool := decide (l.length ≤ 65536)

/-- A path. -/
def Path.wf : Path → Bool
  | .ld p l => wfPort p && wfLd l
  | .mctp => true
/-- A CXL.mem request. -/
def MemReq.wf (q : MemReq) : Bool :=
  wfPort q.port && decide (q.ld < 16) && decide (q.tag < 65536) && decide (q.malformed ≤ 4) && decide (q.link = 0 ∨ q.link = 5 ∨ q.link = 6)
/-- The counter levels that a node has (R218). -/
def NodeErr.wf (e : NodeErr) : Bool := decide (1 ≤ e.level) && decide (e.level ≤ 11)
/-- The errors of a cache access. -/
def ReadEnv.wf (e : ReadEnv) : Bool := e.nodes.all NodeErr.wf
/-- A bank's outcome. -/
def BankOutcome.wf (o : BankOutcome) : Bool := decide (o.bank < 128) && decide (o.cause < 16)
/-- A STATUS reply. -/
def StatusReply.wf (r : StatusReply) : Bool := r.outcomes.all BankOutcome.wf
/-- A TEMP reply names eight dies. -/
def TempReply.wf (r : TempReply) : Bool := r.dies.length == 8
/-- A bring-up: at most eight dies and 8,192 tiles a bank. -/
def BringUp.wf (b : BringUp) : Bool := decide (b.dies ≤ 8) && decide (b.tilesPerBank ≤ 8192)
/-- A link partner: widths 1 to 16 and the CXL revisions of R56. -/
def Partner.wf (p : Partner) : Bool :=
  decide (1 ≤ p.width) && decide (p.width ≤ 16) && (p.cxl == 0x11 || p.cxl == 0x20 || p.cxl == 0x31)
/-- A patrol's finding. -/
def HbmError.wf (e : HbmError) : Bool := decide (e.region < 12)
/-- A record's fields fit their widths (R471). -/
def CairnRec.wf (r : CairnRec) : Bool :=
  decide (r.code < 65536) && decide (r.inst < 256) && decide (r.flags < 256) && decide (r.p1 < 4294967296) &&
  decide (r.p2 < 4294967296) && decide (r.p3 < 4294967296) && decide (r.p4 < 4294967296)

/-- A well-formed command. -/
def Instr.wf : Instr → Bool
  | .stageTick => true
  | .planSnapshot => true
  | .planPublish p => wfCh p.ch && decide (p.cycle < 4096)
  | .planDeadline => true
  | .windowBoundary ch bank w => wfCh ch && decide (bank < 128) && decide (w < 16)
  | .statusReply ch r => wfCh ch && r.wf
  | .tempReply ch r => wfCh ch && r.wf
  | .moduleTempMissing ch => wfCh ch
  | .codewordDecode ch bank _ _ => wfCh ch && decide (bank < 128)
  | .deepRecoveryDeadline ch bank => wfCh ch && decide (bank < 128)
  | .modPresLost ch => wfCh ch
  | .alertNAsserted ch _ => wfCh ch
  | .alertNHeld ch => wfCh ch
  | .channelBringUp ch b => wfCh ch && b.wf
  | .calZqPeriodic ch => wfCh ch
  | .calThresholdPeriodic ch bank => wfCh ch && decide (bank < 128)
  | .memRd q e => q.wf && e.wf
  | .memRdData q e => q.wf && e.wf
  | .memSpecRd q e => q.wf && e.wf
  | .memWr q _ e => q.wf && e.wf
  | .memWrPtl q _ e => q.wf && e.wf
  | .memInv q => q.wf
  | .memInvNt q => q.wf
  | .memClnEvct q => q.wf
  | .sliceRetirementEnd slice => decide (slice < 16)
  | .cachePatrol lpn e => wfLpn lpn && e.wf
  | .fillComplete f => wfLpn f.lpn
  | .completionFill lpn => wfLpn lpn
  | .evictionStart lpn e => wfLpn lpn && e.wf
  | .evictionOrderingPoint lpn => wfLpn lpn
  | .dirtyBudgetRelease => true
  | .backgroundWriteback slice => decide (slice < 16)
  | .s2mCreditReturn c => wfPort c.port
  | .s2mCreditWithheld port => wfPort port
  | .requestAge25ms port ld tag => wfPort port && wfLd ld && decide (tag < 65536)
  | .linkUp port p => wfPort port && p.wf
  | .trainingFailure port _ => wfPort port
  | .trainingRetry port => wfPort port
  | .linkDown port => wfPort port
  | .hotReset port => wfPort port
  | .linkDisable port => wfPort port
  | .perstAssert group => decide (group < 8)
  | .perstDeassert group => decide (group < 8)
  | .flr port ld => wfPort port && wfLd ld
  | .cxlReset port ld _ => wfPort port && wfLd ld
  | .cxlioBadTlp port ld _ => wfPort port && wfLd ld
  | .gpfPhase1 port => wfPort port
  | .gpfPhase2 port _ => wfPort port
  | .freezeCommit => true
  | .contractLowerApply port ld => wfPort port && wfLd ld
  | .poisonWindowEnd => true
  | .forcedReleaseGraceEnd port ld dpaLeg => wfPort port && wfLd ld && decide (dpaLeg < 17179869184)
  | .rangeOpStep p => p.wf
  | .rangeOpNoProgress p => p.wf
  | .rangeOpComplete p => p.wf
  | .rollReseal lpn => wfLpn lpn
  | .counterWriteback level _ => decide (1 ≤ level) && decide (level ≤ 11)
  | .counterCheckpoint => true
  | .lostNodeReplace level _ => decide (1 ≤ level) && decide (level ≤ 11)
  | .traverseBale part => decide (part < 1024)
  | .traverseMarkCommit => true
  | .traverseFinish part => decide (part < 1024)
  | .rebale lbi => decide (lbi < 2147483648)
  | .rebaleCommit lbi => decide (lbi < 2147483648)
  | .coldVisit lpn => wfLpn lpn
  | .journalCommit => true
  | .checkpointRoundBegin => true
  | .checkpointRoundEnd => true
  | .hbmPatrol e => e.wf
  | .mapPageRebuilt _ _ _ => true
  | .stripeRebuildEnd _ _ _ => true
  | .sweepTile ch => wfCh ch
  | .sweepReset ch tile => wfCh ch && decide (tile < 33554432)
  | .thermalClockAdvance => true
  | .driftSetTune ch die set _ => wfCh ch && decide (die < 8) && decide (set < 8)
  | .scrubRead ppa _ _ => decide (ppa < 549755813888)
  | .mediaLossHandling ch die => wfCh ch && (match die with | some d => decide (d < 8) | none => true)
  | .eventLogProgram => true
  | .energyComputation _ => true
  | .budgetRaise => true
  | .writeThroughRelease => true
  | .capacitanceTestStart _ => true
  | .capacitanceTestPostpone => true
  | .capacitanceTestEnd _ => true
  | .capacitanceTestTimeout => true
  | .pfailNLow => true
  | .vTripCrossing => true
  | .flushStart cause => decide (1 ≤ cause) && decide (cause ≤ 6)
  | .flushStepAdvance _ => true
  | .ppsEdge _ => true
  | .ppsEdgeTimeout => true
  | .atPpsArmDrop => true
  | .slewEnd => true
  | .tbToKeeper => true
  | .minuteBoundary => true
  | .minuteSeal => true
  | .ledgerCommit => true
  | .mailboxDoorbell port ld => wfPort port && wfLd ld
  | .mctpRequest m data => (match m with
      | .command opcode => decide (opcode < 65536) | .control code => decide (code < 256)) && wfInput data
  | .mctpAssemblyTimeout _ _ _ _ => true
  | .backgroundProgressUpdate p pct => p.wf && decide (pct ≤ 100)
  | .unsupportedOpcode p opcode input => p.wf && decide (opcode < 65536) && wfInput input
  | .identify p input => p.wf && wfInput input
  | .backgroundOperationStatus p input => p.wf && wfInput input
  | .getEventRecords p input => p.wf && wfInput input
  | .clearEventRecords p input => p.wf && wfInput input
  | .getEventInterruptPolicy p input => p.wf && wfInput input
  | .setEventInterruptPolicy p input => p.wf && wfInput input
  | .getFwInfo p input => p.wf && wfInput input
  | .transferFw p input => p.wf && wfInput input
  | .activateFw p input => p.wf && wfInput input
  | .activationFlashStep _ => true
  | .getTimestamp p input => p.wf && wfInput input
  | .setTimestamp p input => p.wf && wfInput input
  | .getSupportedLogs p input => p.wf && wfInput input
  | .getLog p input => p.wf && wfInput input
  | .identifyMemoryDevice p input => p.wf && wfInput input
  | .getPartitionInfo p input => p.wf && wfInput input
  | .getHealthInfo p input => p.wf && wfInput input
  | .getAlertConfiguration p input => p.wf && wfInput input
  | .setAlertConfiguration p input => p.wf && wfInput input
  | .getShutdownState p input => p.wf && wfInput input
  | .setShutdownState p input => p.wf && wfInput input
  | .getPoisonList p input => p.wf && wfInput input
  | .injectPoison p input => p.wf && wfInput input
  | .clearPoison p input => p.wf && wfInput input
  | .getDynamicCapacityConfiguration p input => p.wf && wfInput input
  | .getDynamicCapacityExtentList p input => p.wf && wfInput input
  | .addDynamicCapacityResponse p input => p.wf && wfInput input
  | .releaseDynamicCapacity p input => p.wf && wfInput input
  | .getLdInfo p input => p.wf && wfInput input
  | .getLdAllocations p input => p.wf && wfInput input
  | .initiateDynamicCapacityAdd p input => p.wf && wfInput input
  | .initiateDynamicCapacityRelease p input => p.wf && wfInput input
  | .getDeviceInfo p input => p.wf && wfInput input
  | .setPortConfig p input => p.wf && wfInput input
  | .getPortConfig p input => p.wf && wfInput input
  | .setStageConfig p input => p.wf && wfInput input
  | .getStageConfig p input => p.wf && wfInput input
  | .getHealth p input => p.wf && wfInput input
  | .getLastXstatus p input => p.wf && wfInput input
  | .createPartition p input => p.wf && wfInput input
  | .deletePartition p input => p.wf && wfInput input
  | .addLegs p input => p.wf && wfInput input
  | .removeLegs p input => p.wf && wfInput input
  | .getPartition p input => p.wf && wfInput input
  | .getPartitionList p input => p.wf && wfInput input
  | .setLdMap p input => p.wf && wfInput input
  | .getLdMap p input => p.wf && wfInput input
  | .setContract p input => p.wf && wfInput input
  | .getContract p input => p.wf && wfInput input
  | .setQos p input => p.wf && wfInput input
  | .thaw p input => p.wf && wfInput input
  | .getFreeze p input => p.wf && wfInput input
  | .getTimebase p input => p.wf && wfInput input
  | .setTimeConfig p input => p.wf && wfInput input
  | .getTimeConfig p input => p.wf && wfInput input
  | .setTimeOfDay p input => p.wf && wfInput input
  | .getMeters p input => p.wf && wfInput input
  | .getHistogram p input => p.wf && wfInput input
  | .flushRange p input => p.wf && wfInput input
  | .invalidateRange p input => p.wf && wfInput input
  | .zeroRange p input => p.wf && wfInput input
  | .traverse p input => p.wf && wfInput input
  | .getTraverse p input => p.wf && wfInput input
  | .getMediaHealth p input => p.wf && wfInput input
  | .adoptModule p input => p.wf && wfInput input
  | .setDroverConfig p input => p.wf && wfInput input
  | .getDroverConfig p input => p.wf && wfInput input
  | .setBelayConfig p input => p.wf && wfInput input
  | .getBelayConfig p input => p.wf && wfInput input
  | .preparePowerOff p input => p.wf && wfInput input
  | .getRopeStatus p input => p.wf && wfInput input
  | .setPitchTable p input => p.wf && wfInput input
  | .getPitchTable p input => p.wf && wfInput input
  | .getThermal p input => p.wf && wfInput input
  | .getCairnInfo p input => p.wf && wfInput input
  | .cairnRead p input => p.wf && wfInput input
  | .getCairnHistogram p input => p.wf && wfInput input
  | .getBootInfo p input => p.wf && wfInput input
  | .confirmFw p input => p.wf && wfInput input
  | .getResetInfo p input => p.wf && wfInput input
  | .clearResetInfo p input => p.wf && wfInput input
  | .warmReset p input => p.wf && wfInput input
  | .getLifecycle p input => p.wf && wfInput input
  | .cofSubmit port ld _ => wfPort port && wfLd ld
  | .keyLoad port ld slot _ => wfPort port && wfLd ld && decide (slot < 4)
  | .keyClear port ld slot => wfPort port && wfLd ld && decide (slot < 4)
  | .cofferParcel e => e.wf
  | .cofferPassEnd port ld => wfPort port && wfLd ld
  | .cofferZeroingDone port ld => wfPort port && wfLd ld
  | .commitGroup => true
  | .commitGroupComplete => true
  | .storeSupplyRecheck _ _ => true
  | .storeHeldTimeout => true
  | .recallComplete => true
  | .keeperSupplyFall _ _ => true
  | .keeperPor => true
  | .keepHoldMeasure _ => true
  | .keeperLinkLoss => true
  | .cairnRecordArrival r => r.wf
  | .cairnStore => true
  | .cairnPointerMismatch => true
  | .epochClose => true
  | .cairnWindowLoad port ld => wfPort port && wfLd ld
  | .cairnWindowAutoAdvance port ld => wfPort port && wfLd ld
  | .relayItemProduced queue r => decide (queue < 12) && r.wf
  | .relayItemDrain queue => decide (queue < 12)
  | .relayPointerMismatch queue _ => decide (queue < 12)
  | .noticeReconcile queue => decide (queue < 12)
  | .ropeLineRise => true
  | .pitchDriveLow _ => true
  | .pitchComplete _ => true
  | .ropeTimeout => true
  | .pfailDuringRising => true
  | .startFault _ _ _ => true
  | .railFault _ _ _ => true
  | .moduleRailPgFall _ => true
  | .railFallen => true
  | .railFallTimeout _ _ => true
  | .holdoffEnd => true
  | .junctionReading _ _ => true
  | .hardwareTrip _ _ => true
  | .keeperSensorReading _ => true
  | .timeRefLoss => true
  | .timeRefReturn => true
  | .mainDieResetRelease _ => true
  | .watchdogExpiry core _ => decide (core < 4)
  | .loaderWatchdogExpiry => true
  | .fatalFault cause _ _ core => decide (1 ≤ cause) && decide (cause ≤ 5) && decide (core < 4)
  | .alarm source _ _ => decide (1 ≤ source) && decide (source ≤ 4)
  | .extest => true
  | .idcode => true
  | .samplePreload => true
  | .svChallenge => true
  | .svUnlock token => wfInput token
  | .svLock => true
  | .svStatus => true
  | .svMem _ _ => true
  | .svScan => true
  | .svCairn _ _ => true
  | .svPromote target token => decide (target ≤ 4) && wfInput token
  | .bypass => true
  | .reg64LowRead port ld off => wfPort port && wfLd ld && wfOff off
  | .narrowOrMisalignedAccess port ld off width _ => wfPort port && wfLd ld && wfOff off && decide (1 ≤ width) && decide (width ≤ 8)
  | .registerWrite port ld off _ => wfPort port && wfLd ld && wfOff off
  | .linkLayerReplay port _ => wfPort port
  | .unclassifiedM2sOpcode q opcode _ _ => q.wf && decide (opcode < 16)
  | .mapStripeHoldExpiry lpn => wfLpn lpn

end Sys2Proof
end

