-- ==== Sys2Proof/Safety.lean ====
section
/-! DEFINITION. The terms in which claims are stated: a command that completes, a command that completes at its
mailbox, what a completion leaves alone, and what must hold of a machine. -/

namespace Sys2Proof.Machine

/-- The command completes with a next state of which `P` holds. -/
def Gives (c : Instr) (s : State) (P : State → Prop) : Prop := ∃ t, exec c s = .next t ∧ P t

/-- The key of the LD whose mailbox a path uses; none for the MCTP endpoint. -/
def pathKey : Path → Option Nat
  | .ld p l => some (ldKey p l)
  | .mctp => none

/-- Only the command context of a path differs between two states: every other part of the machine, every other
field of the path's LD and every other context is the same. -/
def OnlyCtx (p : Path) (s t : State) : Prop :=
  t = { s with mctp := t.mctp, ports := { s.ports with lds := t.ports.lds } } ∧
  (∀ k, { ldAt t k with mbox := (ldAt s k).mbox } = ldAt s k) ∧
  (∀ k, pathKey p ≠ some k → ldAt t k = ldAt s k) ∧ (p ≠ .mctp → t.mctp = s.mctp)

/-- R392, R394, R397: a path on which Synet can take a command now: it reaches Synet, and its context is free. -/
def Ready (p : Path) (s : State) : Prop := s.mainUp = true ∧ pathLive s p = true ∧ (ctx s p).wait = none

/-- R404 to R406, R421 to R424: a command that its path may issue now, in the present state, with a valid form. -/
def Admitted (c : Cmd) (p : Path) (inp : List Byte) (s : State) : Prop :=
  Ready p s ∧ checkCmd c p inp (takeIn c.op p inp s) = none

/-- R396, R400, R405: the context of a command that has completed with Success, an output payload and no detail. -/
def Succeeded (p : Path) (out : List Byte) (t : State) : Prop :=
  (ctx t p).doorbell = false ∧ (ctx t p).retCode = 0 ∧ (ctx t p).detail = 0 ∧ (ctx t p).len = out.length ∧
  (ctx t p).payload.take out.length = out ∧ (ctx t p).xDetail = 0 ∧ (ctx t p).xOffset = 0xFFF ∧
  (ctx t p).xValid = true ∧ (ctx t p).wait = none

/-- A command that answers Success with a payload and changes nothing but its context. -/
def Reads (c : Instr) (p : Path) (s : State) (out : List Byte) : Prop :=
  Gives c s (fun t => Succeeded p out t ∧ OnlyCtx p s t)

/-- R401: a command has been carried out in the working SRAM, and its completion waits for the commit of records. -/
def Awaits (p : Path) (op : Nat) (recs : List Nat) (done : OnDone) (t : State) : Prop :=
  (∃ w, (ctx t p).wait = some w ∧ w.opcode = op ∧ w.recs = recs ∧ w.done = done) ∧
  ∀ k ∈ recs, k ∈ t.sad.dirty

/-- R399: a background command has answered Background Command Started and runs as a job. -/
def Started (p : Path) (op : Nat) (job : Job) (t : State) : Prop :=
  (ctx t p).doorbell = false ∧ (ctx t p).retCode = 1 ∧ (ctx t p).bgOpcode = op ∧ (ctx t p).bgPct = 0 ∧
  ∃ b, (ctx t p).bg = some b ∧ b.opcode = op ∧ b.job = job ∧ b.pct = 0

/-- R396, R400, R405: the context of a command that has completed without Success: its return code, its detail, the
offset of the field that caused it, and no output. -/
def Turned (p : Path) (rc detail off : Nat) (t : State) : Prop :=
  (ctx t p).doorbell = false ∧ (ctx t p).retCode = rc ∧ (ctx t p).detail = detail ∧ (ctx t p).len = 0 ∧
  (ctx t p).xDetail = detail ∧ (ctx t p).xOffset = off ∧ (ctx t p).xValid = true ∧ (ctx t p).wait = none

/-- Only the command context of a path, and the records sent to Cairn, differ between two states. -/
def OnlyCtxLog (p : Path) (s t : State) : Prop := ∃ r c, OnlyCtx p { s with relay := r, cairn := c } t

/-- R421: the opcodes that a frozen LD, or a tenant LD on a frozen port, accepts. -/
def frozenSet : List Nat :=
  [0x0001, 0x0100, 0x0101, 0x0102, 0x0200, 0x0300, 0x0400, 0x0401, 0x4000, 0x4100, 0x4200, 0x4201, 0x4203, 0x4300,
   0x4800, 0x4801, 0xC000, 0xC005, 0xC104, 0xC106, 0xC108, 0xC10B, 0xC200, 0xC204, 0xC205, 0xC401, 0xC606]

/-- R422: the opcodes that the management LD and MCTP accept in BIVOUAC. -/
def bivouacSet : List Nat :=
  [0x0001, 0x0002, 0x0100, 0x0101, 0x0200, 0x0201, 0x0202, 0x0400, 0x0401, 0xC000, 0xC005, 0xC006, 0xC700, 0xC701,
   0xC702, 0xC800, 0xC801, 0xC802, 0xC803, 0xC804, 0xC805]

/-- R423: the opcodes that are answered during the Saddlebag recall and the map recovery. -/
def recallSet : List Nat := [0x0001, 0xC000, 0xC800, 0xC005]

/-- R424: the opcodes that need a medium program or reset. -/
def programSet : List Nat := [0xC302, 0xC501, 0x4301, 0x4302]

/-- R399: the background commands. -/
def backgroundSet : List Nat := [0x0202, 0xC101, 0xC103, 0xC300, 0xC301, 0xC302, 0xC501]

/-- R75, R95, R96, R119: a message that a port with its link up takes and that meets no check: its LD is a tenant's, not
frozen, in a device that evaluates its health, with a credit, an own tag and an allowed opcode, below its OUTSTANDING,
within its address ranges, not poisoned, and of a partition with a loaded key set. `leg` is the logical leg that its
address maps to. -/
def Passes (op : MemOp) (q : MemReq) (w : WrData) (leg : Nat) (s : State) : Prop :=
  s.mainUp = true ∧ (port s q.port).up = true ∧ s.belay.step = 0 ∧ interim s = false ∧ q.link = 0 ∧ q.malformed = 0 ∧
  w.poison = false ∧ (op = .wrPtl → w.be ≠ 0) ∧
  (if op.isWrite then (port s q.port).rwdCredits else (port s q.port).reqCredits) ≠ 0 ∧
  ldConfigured s q.port q.ld = true ∧ tenantLd s (ldKey q.port q.ld) = true ∧ ldFrozen s q.port q.ld = false ∧
  (∀ r ∈ (port s q.port).reqs ++ (port s q.port).oldReqs, r.ld ≠ q.ld ∨ r.tag ≠ q.tag) ∧
  (∀ r ∈ (port s q.port).ingress, r.ld ≠ q.ld) ∧
  (ldAt s (ldKey q.port q.ld)).map.opcodes.getLsbD op.classBit = true ∧
  (ldAt s (ldKey q.port q.ld)).outstanding < (ldAt s (ldKey q.port q.ld)).map.outstanding ∧
  (rangePos (ldAt s (ldKey q.port q.ld)).map.ranges (q.dpa.toNat / gib)).bind
    (fun pos => legAt s.sad.img.runs (ldAt s (ldKey q.port q.ld)).map.part pos) = some leg ∧
  keyed s (ldAt s (ldKey q.port q.ld)).map.part = true

/-- R36, R37, R73: a request that passes and meets its parcel's line in an online slice, while its port can send responses. -/
def Hits (op : MemOp) (q : MemReq) (w : WrData) (leg k : Nat) (s : State) : Prop :=
  Passes op q w leg s ∧ 0 < (if op.isRead then (port s q.port).drsCredits else (port s q.port).ndrCredits) ∧
  isRetiring s (hashSlice (lpnOf leg q.dpa.toNat)) = false ∧
  findWay s (lpnOf leg q.dpa.toNat) = some k ∧
  ((lineAt s k).st = .clean ∨ (lineAt s k).st = .dirty) ∧ (lineAt s k).poison = false

/-- R71: the port's newest response answers a message at this moment. -/
def Answered (op : MemOp) (q : MemReq) (kind : RespKind) (s t : State) : Prop :=
  t.ports.sent = { port := q.port, ld := q.ld, tag := q.tag, op := op, kind := kind, sent := tbNow s } :: s.ports.sent

/-- R44, R171, R183, R187: a write in a state that neither loses, holds nor writes it through. -/
def WritesFreely (k : Nat) (s : State) : Prop :=
  s.health.st ≠ 2 ∧ s.health.st ≠ 3 ∧ s.health.st ≠ 4 ∧ s.health.st ≠ 5 ∧ dirtyLimit s ≠ 0 ∧
  (lineCounts (lineAt s k) = true ∨ dirtyCount s < dirtyLimit s)

/-- The firmware flash is in canonical form. -/
def FlashOk (s : State) : Prop := Memory.wf s.boot.flash

/-- R549: the order of the life-cycle states. -/
def lifeRank : Life → Nat
  | .blank => 0
  | .provision => 1
  | .production => 2
  | .ret => 3
  | .scrapped => 4

/-- A master's freeze is in force, with its trigger's code and details. -/
def FrozenWith (m code : Nat) (s : State) : Prop := ∃ f ∈ s.gate.freezes, f.master = m ∧ f.code = code

end Sys2Proof.Machine
end

