-- ==== Sys2Proof/Certificates/Slice0/Obligations.lean ====
section
/-! DEFINITION. The statements for the provers, in the order of the manual's chapters. A statement about what exec does holds for
every state and every operand that meet its hypotheses. Assumption log entries are named where a clause rests on one. -/

open Sys2Proof Sys2Proof.Machine

/-- R122, R128, R130, R133, R134, R137, R138, R140, R143, R306, R592: what a stage tick, a snapshot, a publication and
a missed deadline do. At the tick the stage number grows by 1, the settings of the last snapshot come into force,
health is evaluated from the conditions of the last cycle, the waiting journal records go into parcels, and every
channel in service starts window 0 with its full capacity and no pulse sequence but one whose pulse still runs; a
channel without a published plan runs the template. The snapshot leaves out what completed in its own cycle; a
publication after cycle 4,063 counts as a miss. -/
def Obligations.StageRows : Prop :=
  (∀ s : State, s.mainUp = true → s.boot.recovering = false → Gives .stageTick s (fun t =>
    t.planner.stage = s.planner.stage + 1 ∧ t.planner.cycle = 0 ∧ t.planner.maintShare = s.planner.snapShare ∧
    t.planner.shares = s.planner.snapShares ∧ t.way.drover = s.sad.img.drover ∧
    (∀ c, inService (chan s c) = true → (chan t c).window = 0 ∧ (chan t c).hostLeft = (chan t c).plan.hEff ∧
      (chan t c).maintLeft = (chan t c).plan.m ∧ (chan t c).plan.m = transfers (chan s c) * s.planner.snapShare / 16 ∧
      (chan t c).plan.hEff = (transfers (chan s c) - (chan t c).plan.m) * s.therm.fH / 1024 ∧
      (chan t c).plan.fW = (chan s c).fW ∧ (chan t c).plan.forbid = forbidden (chan s c) ∧
      ((chan t c).template = true ↔ (chan s c).published = none) ∧ (chan t c).published = none ∧
      (c < 32 → ∀ b, (bankOf (chan t c) b).seq ≠ none → (bankOf (chan t c) b).late = true)) ∧
    (s.boot.running = true → s.boot.step1 = true → s.sad.recalling = false →
      t.health.st = stateOf s.health.seen ∧ t.health.conds = s.health.seen) ∧
    (s.sealCtl.zeroed = false → t.health.st ≠ 5 → t.health.st ≠ 6 → serving s ≠ [] →
      ∀ r ∈ s.way.tail, ∃ p ∈ t.way.parcels, r ∈ p.recs) ∧
    t.sad = s.sad ∧ t.medium = s.medium ∧ t.sealCtl = s.sealCtl ∧ t.boot = s.boot ∧ t.keeper = s.keeper)) ∧
  (∀ s : State, s.mainUp = true → Gives .planSnapshot s (fun t =>
    t.planner.cycle = 3072 ∧
    t.planner.snapShare = (let p := if s.planner.maintTb = some (tbNow s) then s.planner.maintOld else s.planner.maintPending
      if p = 0 then s.planner.maintShare else p) ∧
    (∀ p, p ∈ t.planner.snapShares ↔ isActive s p.1 = true ∧
      p ∈ (if s.planner.sharesTb = some (tbNow s) then s.planner.sharesOld else s.planner.sharesSet)) ∧
    (∀ c, inService (chan s c) = true → ∃ p, chan t c = { chan s c with building := some p, published := none } ∧
      p.m = transfers (chan s c) * t.planner.snapShare / 16 ∧ p.hEff = (transfers (chan s c) - p.m) * s.therm.fH / 1024 ∧
      p.forbid = forbidden (chan s c) ∧ (forbidden (chan s c) = true → p.seqs = [])) ∧
    (∀ c, inService (chan s c) = false → chan t c = chan s c) ∧
    t = { s with planner := t.planner, chans := t.chans })) ∧
  (∀ (s : State) (ch cycle : Nat) (p : Plan), s.mainUp = true → (chan s ch).building = some p →
    Gives (.planPublish ⟨ch, cycle⟩) s (fun t =>
      chan t ch = (if cycle ≤ 4063 then { chan s ch with published := some p, building := none, missRun := 0 }
        else { chan s ch with building := none, published := none, missRun := (chan s ch).missRun + 1 }) ∧
      (∀ c, c ≠ ch → chan t c = chan s c) ∧ t = { s with chans := t.chans, reck := { s.reck with counts := t.reck.counts } } ∧
      (cycle ≤ 4063 → t.reck = s.reck))) ∧
  (∀ s : State, s.mainUp = true → Gives .planDeadline s (fun t =>
    (∀ c, c < 32 → (chan s c).building ≠ none →
      chan t c = { chan s c with building := none, published := none, missRun := (chan s c).missRun + 1 }) ∧
    (∀ c, (chan s c).building = none ∨ 32 ≤ c → chan t c = chan s c) ∧
    t = { s with chans := t.chans, reck := { s.reck with counts := t.reck.counts } }))

/-- R127, R135, R267, R276: what a bank starts at a window boundary, outside a flush: on an idle bank of a channel in
service with no pulse sequence and no best-effort read waiting, a waiting re-read goes first, if a transfer of its
kind is left; with no re-read, the oldest read under a guaranteed share goes, while the channel has a host transfer to
give. The channel sends the STATUS strobe, the bank its READ frame, and nothing else of the machine but the bank's
queue, the transfer counts, the reads' meters and the tile's read count moves. -/
def Obligations.WindowBoundaryOrder : Prop :=
  ∀ (s : State) (c b w : Nat), s.mainUp = true → inService (chan s c) = true → b < 128 → w < 16 →
    (chan s c).diesOut.getLsbD (b / 16) = false → (bankOf (chan s c) b).run = .idle → s.planner.emergency = false →
    (bankOf (chan s c) b).seq = none → (bankOf (chan s c) b).otherQ = [] →
    (∀ r rest, (bankOf (chan s c) b).retryQ = r :: rest →
      (if r.cls = .maint then 0 < (chan s c).maintLeft else 0 < hostAvail (chan s c) w) →
      Gives (.windowBoundary c b w) s (fun t =>
      (bankOf (chan t c) b).retryQ = rest ∧ (bankOf (chan t c) b).guarQ = (bankOf (chan s c) b).guarQ ∧
      (∃ r', (bankOf (chan t c) b).run = .read r' ∧ r'.lpn = r.lpn ∧ r'.ppa = r.ppa ∧ r'.reads = r.reads + 1) ∧
      (bankOf (chan t c) b).frame = readFrame r.ppa (isFast s r.ppa) true (driftSet s r.ppa) ∧
      (r.cls = .maint → (chan t c).maintLeft = (chan s c).maintLeft - 1) ∧
      (r.cls ≠ .maint → (chan t c).hostLeft = (chan s c).hostLeft - 1) ∧
      (chan t c).window = w ∧ (chan t c).bframe = statusFrame ∧
      t = { s with chans := t.chans, reck := t.reck, way := t.way })) ∧
    (∀ r, (bankOf (chan s c) b).retryQ = [] → 0 < hostAvail (chan s c) w →
      oldest (bankOf (chan s c) b).guarQ = some r → Gives (.windowBoundary c b w) s (fun t =>
      (bankOf (chan t c) b).guarQ = (bankOf (chan s c) b).guarQ.erase r ∧
      (∃ r', (bankOf (chan t c) b).run = .read r' ∧ r'.lpn = r.lpn ∧ r'.ppa = r.ppa ∧ r'.reads = r.reads + 1) ∧
      (bankOf (chan t c) b).frame = readFrame r.ppa (isFast s r.ppa) false (driftSet s r.ppa) ∧
      (r.cls ≠ .maint → (chan t c).hostLeft = (chan s c).hostLeft - 1) ∧
      (chan t c).window = w ∧ (chan t c).bframe = statusFrame ∧
      t = { s with chans := t.chans, reck := t.reck, way := t.way }))

/-- R271, R275, R276, R291: a STATUS reply with a good CRC that reports a bank's read as done hands its codeword to
the decoder; a reply whose CRC fails twice leaves reads as received and pulses unverified, and the third in succession
fails the channel. A decode that fails before the third retry queues the re-read with the table's offset, and loads
the bank's retry register at once unless another re-read waits there; a first decode that succeeds, of a host read's
codeword that verifies, gives the fill its data; a scrub's clean read changes nothing more. R279, R327: at a host
read's deadline its deep recovery ends: the read leaves the bank, its recovery entry is free, its fill is ready with
poison, and its parcel reads as poison from then on. -/
def Obligations.MediaReads : Prop :=
  ((∀ (s : State) (c : Nat) (r : StatusReply) (o : BankOutcome) (it : RdItem), s.mainUp = true → inService (chan s c) = true →
    r.crcOk = true → r.outcomes = [o] → o.cause = 0 → o.done = true → (bankOf (chan s c) o.bank).run = .read it →
    Gives (.statusReply c r) s (fun t => (chan t c).crcRun = 0 ∧
      bankOf (chan t c) o.bank = { bankOf (chan s c) o.bank with
        run := .idle, received := (bankOf (chan s c) o.bank).received ++ [it] } ∧
      (∀ b, b ≠ o.bank → bankOf (chan t c) b = bankOf (chan s c) b) ∧ t = { s with chans := t.chans })) ∧
  (∀ (s : State) (c : Nat) (r : StatusReply), s.mainUp = true → inService (chan s c) = true →
    r.crcOk = false → r.resendOk = false → (chan s c).crcRun < 2 →
    Gives (.statusReply c r) s (fun t => (chan t c).crcRun = (chan s c).crcRun + 1 ∧ (chan t c).st = (chan s c).st ∧
      (∀ b it, (bankOf (chan s c) b).run = .read it → (bankOf (chan t c) b).run = .idle ∧
        (bankOf (chan t c) b).received = (bankOf (chan s c) b).received ++ [it]) ∧
      (∀ b, (bankOf (chan s c) b).run = .pulse → (bankOf (chan t c) b).run = .idle ∧
        (bankOf (chan t c) b).outcomeKnown = false) ∧ t = { s with chans := t.chans, reck := t.reck })) ∧
  (∀ (s : State) (c : Nat) (r : StatusReply), s.mainUp = true → inService (chan s c) = true →
    r.crcOk = false → r.resendOk = false → 2 ≤ (chan s c).crcRun →
    Gives (.statusReply c r) s (fun t => (chan t c).st = .failed)) ∧
  (∀ (s : State) (c b bits : Nat) (it : RdItem) (rest : List RdItem), s.mainUp = true → inService (chan s c) = true →
    (bankOf (chan s c) b).received = it :: rest → it.deep = false → it.retry < 3 → it.base ≠ [] → s.belay.step = 0 →
    Gives (.codewordDecode c b false bits) s (fun t => (bankOf (chan t c) b).received = rest ∧
      (bankOf (chan t c) b).retryQ = (bankOf (chan s c) b).retryQ ++
        [{ it with retry := it.retry + 1, offs := addOffset it.base (retryTable (isFast s it.ppa) (it.retry + 1)) }] ∧
      ((bankOf (chan s c) b).retryQ = [] →
        (bankOf (chan t c) b).retryReg = addOffset it.base (retryTable (isFast s it.ppa) (it.retry + 1)) ∧
        (bankOf (chan t c) b).frame = threshFrame b (addOffset it.base (retryTable (isFast s it.ppa) (it.retry + 1))) none) ∧
      t = { s with chans := t.chans, reck := t.reck, cairn := t.cairn })) ∧
  (∀ (s : State) (c b bits : Nat) (it : RdItem) (rest : List RdItem) (w : Codeword) (k : KeySet),
    s.mainUp = true → inService (chan s c) = true → (bankOf (chan s c) b).received = it :: rest →
    it.deep = false → it.retry = 0 → it.work = .host → s.sealCtl.zeroed = false → lostParcel s it.lpn = false → thas s.cache.fills it.lpn = true →
    tget s.medium.cells it.ppa = some w → verdict s it.part it.lpn w = 0 → openKey s it.part (metaKg w.mdat) = some k →
    metaPoison w.mdat = false →
    Gives (.codewordDecode c b true bits) s (fun t => (bankOf (chan t c) b).received = rest ∧
      (tgetD t.cache.fills it.lpn {}).st =
        .ready (unsealData k it.lpn (openCtr s it.lpn).1 (openCtr s it.lpn).2 w) ∧
      t = { s with chans := t.chans, cache := { s.cache with fills := t.cache.fills }, cairn := t.cairn })) ∧
  (∀ (s : State) (c b bits : Nat) (it : RdItem) (rest : List RdItem), s.mainUp = true → inService (chan s c) = true →
    (bankOf (chan s c) b).received = it :: rest → it.deep = false → it.retry = 0 → it.work = .scrub → bits ≤ 24 →
    Gives (.codewordDecode c b true bits) s (fun t => (bankOf (chan t c) b).received = rest ∧
      t = { s with chans := t.chans, cairn := t.cairn }))) ∧
  (∀ (s : State) (c b : Nat) (r : RdItem), s.mainUp = true → (bankOf (chan s c) b).retryQ = [r] →
    (bankOf (chan s c) b).guarQ = [] → (bankOf (chan s c) b).otherQ = [] → (bankOf (chan s c) b).received = [] →
    (bankOf (chan s c) b).run = .idle → (chan s c).deepWait = [] → r.deep = true → r.age + 40000 ≤ tbNow s →
    r.work = .host → lpnLeg r.lpn < 81920 → lookupHeld s r.lpn = false →
    Gives (.deepRecoveryDeadline c b) s (fun t => (bankOf (chan t c) b).retryQ = [] ∧
      (chan t c).deepUsed = (chan s c).deepUsed - 1 ∧
      (thas s.cache.fills r.lpn = true → (tgetD t.cache.fills r.lpn {}).st = .readyPoison) ∧
      (∃ e, tget t.way.map.overlay r.lpn = some e ∧ e.kind = .poison) ∧ JRec.ovlPoison r.lpn ∈ t.way.tail))

/-- R285, R288, R289, R284: a channel whose module is trained fails at once when the module's presence goes high or
ALERT_N is held; CA parity makes every frame of the window count as not executed; and bring-up, once in a power-up,
ends in the state that the module's presence, identity, training and MODULE record give; without a record the module
is adopted at the first start only. R515, R519, R520, R274: a TEMP reply gives the channel its temperatures, its write
factor and its write window; 64 stages without one make the channel write-forbidden; the periodic calibrations send
their CAL frames, type 1 as a maintenance read on an idle bank, once the maintenance capacity admits one (R130, R131). -/
def Obligations.Channels : Prop :=
  ((∀ (s : State) (c : Nat), s.mainUp = true → inService (chan s c) = true ∨ (chan s c).st = .new →
    Gives (.modPresLost c) s (fun t => (chan t c).st = .failed ∧ (∀ d, d ≠ c → (chan t d).st = (chan s d).st) ∧
      t.sad = s.sad ∧ t.medium = s.medium) ∧
    Gives (.alertNHeld c) s (fun t => (chan t c).st = .failed ∧ (∀ d, d ≠ c → (chan t d).st = (chan s d).st) ∧
      t.sad = s.sad ∧ t.medium = s.medium)) ∧
  (∀ (s : State) (c : Nat), s.mainUp = true → inService (chan s c) = true →
    Gives (.alertNAsserted c true) s (fun t =>
      (∀ b it, (bankOf (chan s c) b).run = .read it → (bankOf (chan t c) b).run = .idle ∧
        (bankOf (chan t c) b).retryQ = (bankOf (chan s c) b).retryQ ++ [it]) ∧
      (∀ b, (bankOf (chan s c) b).run = .pulse → (bankOf (chan t c) b).run = .idle ∧
        (bankOf (chan t c) b).seq = (bankOf (chan s c) b).seq) ∧
      t = { s with chans := t.chans, reck := t.reck }) ∧
    Gives (.alertNAsserted c false) s (fun t => t = { s with reck := { s.reck with counts := t.reck.counts } })) ∧
  (∀ (s : State) (c : Nat) (b : BringUp), s.mainUp = true → c < 32 → (chan s c).railsGood = true → (chan s c).brought = false →
    Gives (.channelBringUp c b) s (fun t => (chan t c).brought = true ∧ (∀ e, e ≠ c → chan t e = chan s e)) ∧
    (b.present = false → Gives (.channelBringUp c b) s (fun t => (chan t c).st = .absent)) ∧
    (b.present = true → b.identityOk = false → Gives (.channelBringUp c b) s (fun t => (chan t c).st = .unsupported)) ∧
    (b.present = true → b.identityOk = true → b.generation = 2 ∨ b.generation = 3 → b.failSlow ≠ none →
      (b.generation = 3 → b.failFast ≠ none) → Gives (.channelBringUp c b) s (fun t => (chan t c).st = .failed)) ∧
    (∀ m, b.present = true → b.identityOk = true → b.badPagesOk = true → tget s.sad.img.modules c = some m →
      m.serial = b.serial → b.generation = 3 → b.failFast = none →
      Gives (.channelBringUp c b) s (fun t => (chan t c).st = .active ∧ (chan t c).gen = 3 ∧ (chan t c).rate = 4800)) ∧
    (∀ m, b.present = true → b.identityOk = true → b.badPagesOk = true → tget s.sad.img.modules c = some m →
      m.serial = b.serial → b.generation = 3 → b.failFast ≠ none → b.failSlow = none →
      Gives (.channelBringUp c b) s (fun t => (chan t c).st = .reduced ∧ (chan t c).gen = 3 ∧ (chan t c).rate = 3200)) ∧
    (∀ m, b.present = true → b.identityOk = true → b.badPagesOk = true → tget s.sad.img.modules c = some m →
      m.serial = b.serial → b.generation = 2 → b.failSlow = none →
      Gives (.channelBringUp c b) s (fun t => (chan t c).st = .active ∧ (chan t c).gen = 2 ∧ (chan t c).rate = 3200)) ∧
    (∀ m, b.present = true → b.identityOk = true → b.badPagesOk = true → tget s.sad.img.modules c = some m →
      m.serial ≠ b.serial → b.generation = 2 → b.failSlow = none →
      Gives (.channelBringUp c b) s (fun t => (chan t c).st = .new ∧ (chan t c).serial = b.serial ∧ t.sad = s.sad)) ∧
    (b.present = true → b.identityOk = true → b.badPagesOk = false → b.generation = 2 → b.failSlow = none →
      Gives (.channelBringUp c b) s (fun t => (chan t c).st = .unsupported)) ∧
    (b.present = true → b.identityOk = true → b.badPagesOk = true → tget s.sad.img.modules c = none → b.generation = 2 →
      b.failSlow = none → s.boot.firstStart = true →
      Gives (.channelBringUp c b) s (fun t => (chan t c).st = .active ∧
        tget t.sad.img.modules c = some { serial := b.serial, gen := 2 } ∧ rk 0x000C c ∈ t.sad.dirty)) ∧
    (b.present = true → b.identityOk = true → b.badPagesOk = true → tget s.sad.img.modules c = none → b.generation = 2 →
      b.failSlow = none → s.boot.firstStart = false → rk 0x000C c ∉ s.boot.lostRecs →
      Gives (.channelBringUp c b) s (fun t => (chan t c).st = .new ∧ t.sad = s.sad))) ∧
  (∀ (s : State) (c : Nat) (b : BringUp), s.mainUp = true → (chan s c).brought = true →
    Gives (.channelBringUp c b) s (fun t => t = s))) ∧
  ((∀ (s : State) (c : Nat) (r : TempReply) (d : Int) (ds : List Int), s.mainUp = true → inService (chan s c) = true →
    r.crcOk = true → r.dies = d :: ds →
    Gives (.tempReply c r) s (fun t => (chan t c).tMax = some (ds.foldl max d) ∧ (chan t c).tMin = some (ds.foldl min d) ∧
      (chan t c).tempMissStages = 0 ∧ (chan t c).tempMissing = false ∧
      (chan t c).throttle = hysteresis (chan s c).throttle 1280 1200 (ds.foldl max d) ∧
      (chan t c).fW = (if (chan t c).throttle then throttleFw (ds.foldl max d) else 1024) ∧
      ((chan s c).outside = false → ((chan t c).outside = true ↔ 1408 < ds.foldl max d ∨ ds.foldl min d < 0)) ∧
      ((chan s c).outside = true → ((chan t c).outside = false ↔ ds.foldl max d ≤ 1360 ∧ 48 ≤ ds.foldl min d)) ∧
      (∀ e, e ≠ c → chan t e = chan s e) ∧ t.sad = s.sad ∧ t.way = s.way ∧ t.cache = s.cache)) ∧
  (∀ (s : State) (c : Nat), s.mainUp = true → inService (chan s c) = true → (chan s c).tempMissing = false →
    64 ≤ (chan s c).tempMissStages →
    Gives (.moduleTempMissing c) s (fun t => chan t c = { chan s c with tempMissing := true } ∧
      (∀ e, e ≠ c → chan t e = chan s e) ∧ forbidden (chan t c) = true ∧
      t = { s with chans := t.chans, relay := t.relay, cairn := t.cairn })) ∧
  (∀ (s : State) (c : Nat), s.mainUp = true → inService (chan s c) = true →
    Gives (.calZqPeriodic c) s (fun t => chan t c = { chan s c with bframe := calFrame 0 0 } ∧ t = { s with chans := t.chans })) ∧
  (∀ (s : State) (c b : Nat), s.mainUp = true → inService (chan s c) = true → b < 128 → s.planner.emergency = false →
    (bankOf (chan s c) b).run = .idle → claimed (chan s c) + (travFloor s c (chan s c).plan.m - ((chan s c).plan.m - (chan s c).maintLeft)) < (chan s c).maintLeft →
    2 ≤ (chan s c).slotsLeft →
    Gives (.calThresholdPeriodic c b) s (fun t => (bankOf (chan t c) b).frame = calFrame 1 b ∧
      (chan t c).maintLeft = (chan s c).maintLeft - 1 ∧ (chan t c).hostLeft = (chan s c).hostLeft ∧
      (chan t c).slotsLeft = (chan s c).slotsLeft - 2 ∧
      (∀ d, d ≠ b → bankOf (chan t c) d = bankOf (chan s c) d) ∧ t = { s with chans := t.chans })))

/-- R36, R165, R71, R73, R99: a MemRd or MemRdData that passes the Tollgate and meets a VALID sector in the cache
completes at once with the sector's data; no line changes, and its tag is free again. A line that is poisoned answers
poison, whatever its VALID bits are. -/
def Obligations.ReadHit : Prop :=
  (∀ (s : State) (q : MemReq) (e : ReadEnv) (leg k : Nat), Hits .rd q noData leg k s → e.parity = 0 → e.tagErr = .none →
    (lineAt s k).valid.getLsbD (sectorOf q.dpa.toNat) = true →
    Gives (.memRd q e) s (fun t =>
      Answered .rd q (.data ((lineAt s k).data[sectorOf q.dpa.toNat % 4]'(Nat.mod_lt _ (by decide)))) s t ∧
      t.cache.lines = s.cache.lines ∧ t.cache.fills = s.cache.fills ∧ (port t q.port).reqs = (port s q.port).reqs ∧
      t = { s with ports := t.ports, cache := { s.cache with plru := t.cache.plru }, reck := t.reck, cairn := t.cairn })) ∧
  (∀ (s : State) (q : MemReq) (e : ReadEnv) (leg k : Nat), Hits .rdData q noData leg k s → e.parity = 0 → e.tagErr = .none →
    (lineAt s k).valid.getLsbD (sectorOf q.dpa.toNat) = true →
    Gives (.memRdData q e) s (fun t =>
      Answered .rdData q (.data ((lineAt s k).data[sectorOf q.dpa.toNat % 4]'(Nat.mod_lt _ (by decide)))) s t ∧
      t.cache.lines = s.cache.lines ∧ t.cache.fills = s.cache.fills ∧ (port t q.port).reqs = (port s q.port).reqs ∧
      t = { s with ports := t.ports, cache := { s.cache with plru := t.cache.plru }, reck := t.reck, cairn := t.cairn })) ∧
  (∀ (s : State) (q : MemReq) (e : ReadEnv) (leg k : Nat) (op : MemOp) (c : Instr),
    (op = .rd ∧ c = .memRd q e ∨ op = .rdData ∧ c = .memRdData q e) → Passes op q noData leg s → 0 < (port s q.port).drsCredits →
    isRetiring s (hashSlice (lpnOf leg q.dpa.toNat)) = false → findWay s (lpnOf leg q.dpa.toNat) = some k → ((lineAt s k).st = .clean ∨ (lineAt s k).st = .dirty) →
    (lineAt s k).poison = true → e.parity = 0 → e.tagErr = .none →
    Gives c s (fun t => Answered op q .poison s t ∧ t.cache.lines = s.cache.lines ∧ t.cache.fills = s.cache.fills ∧
      (port t q.port).reqs = (port s q.port).reqs ∧ t.medium = s.medium ∧ t.way = s.way))

/-- R36, R166, R170: a read or a speculative read of a parcel that the cache does not hold starts a fill while the
slice has an entry: a read waits in it, a speculative read does not and takes no tag; a further read joins it. -/
def Obligations.ReadMiss : Prop :=
  (∀ (s : State) (q : MemReq) (e : ReadEnv) (leg : Nat), Passes .rd q noData leg s → isRetiring s (hashSlice (lpnOf leg q.dpa.toNat)) = false →
    findWay s (lpnOf leg q.dpa.toNat) = none →
    (thas s.cache.fills (lpnOf leg q.dpa.toNat) = true ∨ fillsIn s (lpnOf leg q.dpa.toNat) < 512) →
    Gives (.memRd q e) s (fun t => ∃ f r, tget t.cache.fills (lpnOf leg q.dpa.toNat) = some f ∧ r ∈ f.waiters ∧
      r.port = q.port ∧ r.ld = q.ld ∧ r.tag = q.tag ∧ r.op = .rd ∧ r ∈ (port t q.port).reqs ∧ f.spec = false ∧
      t.ports.sent = s.ports.sent ∧ t.medium = s.medium)) ∧
  (∀ (s : State) (q : MemReq) (e : ReadEnv) (leg k : Nat), Passes .specRd q noData leg s → isRetiring s (hashSlice (lpnOf leg q.dpa.toNat)) = false →
    findWay s (lpnOf leg q.dpa.toNat) = none → thas s.cache.fills (lpnOf leg q.dpa.toNat) = false →
    fillsIn s (lpnOf leg q.dpa.toNat) < 256 →
    (setWays s (lpnOf leg q.dpa.toNat)).find? (fun w => (lineAt s w).st = .invalid) = some k →
    Gives (.memSpecRd q e) s (fun t => ∃ f, tget t.cache.fills (lpnOf leg q.dpa.toNat) = some f ∧ f.waiters = [] ∧
      f.spec = true ∧ (lineAt t k).st = .filling ∧ (lineAt t k).lpn = lpnOf leg q.dpa.toNat ∧
      (port t q.port).reqs = (port s q.port).reqs ∧ t.ports.sent = s.ports.sent)) ∧
  (∀ (s : State) (q : MemReq) (e : ReadEnv) (leg : Nat), Passes .specRd q noData leg s → isRetiring s (hashSlice (lpnOf leg q.dpa.toNat)) = false →
    findWay s (lpnOf leg q.dpa.toNat) = none →
    (thas s.cache.fills (lpnOf leg q.dpa.toNat) = true ∨ 256 ≤ fillsIn s (lpnOf leg q.dpa.toNat)) →
    Gives (.memSpecRd q e) s (fun t => t = s))

/-- R37, R171, R172, R183: a MemWr that meets its line, and a MemWrPtl that meets a VALID sector, complete at once:
the sector takes the data, or its enabled bytes, the line becomes DIRTY with the sector VALID and dirty, and no other
way's line changes. A MemWrPtl of a sector that is not VALID waits in a fill. R73, R170: MemInv, MemInvNT and
MemClnEvct leave the cache unchanged and complete, while the port has an NDR credit. -/
def Obligations.WritesAndInvalidates : Prop :=
  ((∀ (s : State) (q : MemReq) (w : WrData) (e : ReadEnv) (leg k : Nat), Hits .wr q w leg k s → e.tagErr = .none →
    WritesFreely k s →
    Gives (.memWr q w e) s (fun t => Answered .wr q .cmp s t ∧ (lineAt t k).st = .dirty ∧
      (lineAt t k).data = (lineAt s k).data.set (sectorOf q.dpa.toNat % 4) w.data (Nat.mod_lt _ (by decide)) ∧
      (lineAt t k).valid = ((lineAt s k).valid ||| bit1 (sectorOf q.dpa.toNat)) ∧
      (lineAt t k).dirty = ((lineAt s k).dirty ||| bit1 (sectorOf q.dpa.toNat)) ∧ (lineAt t k).poison = false ∧
      (∀ j, j ≠ k → lineAt t j = lineAt s j) ∧ (port t q.port).reqs = (port s q.port).reqs ∧
      t.medium = s.medium ∧ t.way = s.way ∧ t.sealCtl = s.sealCtl)) ∧
  (∀ (s : State) (q : MemReq) (w : WrData) (e : ReadEnv) (leg k : Nat), Hits .wrPtl q w leg k s → e.tagErr = .none →
    WritesFreely k s → (lineAt s k).valid.getLsbD (sectorOf q.dpa.toNat) = true →
    Gives (.memWrPtl q w e) s (fun t => Answered .wrPtl q .cmp s t ∧ (lineAt t k).st = .dirty ∧
      (lineAt t k).data = (lineAt s k).data.set (sectorOf q.dpa.toNat % 4)
        (mergeBytes ((lineAt s k).data[sectorOf q.dpa.toNat % 4]'(Nat.mod_lt _ (by decide))) w.data w.be) (Nat.mod_lt _ (by decide)) ∧
      (lineAt t k).valid = (lineAt s k).valid ∧
      (lineAt t k).dirty = ((lineAt s k).dirty ||| bit1 (sectorOf q.dpa.toNat)) ∧
      (∀ j, j ≠ k → lineAt t j = lineAt s j) ∧ t.medium = s.medium ∧ t.way = s.way ∧ t.sealCtl = s.sealCtl)) ∧
  (∀ (s : State) (q : MemReq) (w : WrData) (e : ReadEnv) (leg k : Nat), Hits .wrPtl q w leg k s → e.tagErr = .none →
    WritesFreely k s → (lineAt s k).valid.getLsbD (sectorOf q.dpa.toNat) = false →
    (thas s.cache.fills (lpnOf leg q.dpa.toNat) = true ∨ fillsIn s (lpnOf leg q.dpa.toNat) < 512) →
    Gives (.memWrPtl q w e) s (fun t => ∃ f r, tget t.cache.fills (lpnOf leg q.dpa.toNat) = some f ∧ r ∈ f.waiters ∧
      r.ld = q.ld ∧ r.tag = q.tag ∧ r.op = .wrPtl ∧ (lineAt t k).data = (lineAt s k).data ∧ t.ports.sent = s.ports.sent))) ∧
  ((∀ (s : State) (q : MemReq) (leg : Nat), Passes .inv q noData leg s → 0 < (port s q.port).ndrCredits →
    Gives (.memInv q) s (fun t => Answered .inv q .cmp s t ∧ t.cache = s.cache ∧ (port t q.port).reqs = (port s q.port).reqs ∧
      t = { s with ports := t.ports })) ∧
  (∀ (s : State) (q : MemReq) (leg : Nat), Passes .invNt q noData leg s → 0 < (port s q.port).ndrCredits →
    Gives (.memInvNt q) s (fun t => Answered .invNt q .cmp s t ∧ t.cache = s.cache ∧ (port t q.port).reqs = (port s q.port).reqs ∧
      t = { s with ports := t.ports })) ∧
  (∀ (s : State) (q : MemReq) (leg : Nat), Passes .clnEvct q noData leg s → 0 < (port s q.port).ndrCredits →
    Gives (.memClnEvct q) s (fun t => Answered .clnEvct q .cmp s t ∧ t.cache = s.cache ∧ (port t q.port).reqs = (port s q.port).reqs ∧
      t = { s with ports := t.ports })))

/-- R95, R106, R112, R113: the checks on a tenant's request in their order: a frozen LD's request freezes nothing
more, whatever else is wrong with it; a malformed request, a forbidden opcode, one above OUTSTANDING and an address
outside the ranges freeze the LD's master with codes 0x0206, 0x0203, 0x0202 and 0x0201. None of these reads completes
with data: the cache and the medium stay as they are. R75, R98: an M2S opcode that no revision defines is a link
protocol violation of its port (0x0208); a defined one of no class freezes its tenant's master with 0x0203. -/
def Obligations.TollgateChecks : Prop :=
  (∀ (s : State) (q : MemReq) (e : ReadEnv), s.mainUp = true → (port s q.port).up = true → s.belay.step = 0 →
    interim s = false → q.link = 0 → (port s q.port).reqCredits ≠ 0 → ldConfigured s q.port q.ld = true →
    (∀ r ∈ (port s q.port).reqs ++ (port s q.port).oldReqs, r.ld ≠ q.ld ∨ r.tag ≠ q.tag) →
    (∀ r ∈ (port s q.port).ingress, r.ld ≠ q.ld) → tenantLd s (ldKey q.port q.ld) = true →
    (ldFrozen s q.port q.ld = true → Gives (.memRd q e) s (fun t =>
      t.gate = s.gate ∧ t.cache = s.cache ∧ t.medium = s.medium)) ∧
    (ldFrozen s q.port q.ld = false → q.malformed ≠ 0 → Gives (.memRd q e) s (fun t =>
      FrozenWith (ldMaster q.port q.ld) 0x0206 t ∧ t.cache = s.cache ∧ t.medium = s.medium)) ∧
    (ldFrozen s q.port q.ld = false → q.malformed = 0 → (ldAt s (ldKey q.port q.ld)).map.opcodes.getLsbD 0 = false →
      Gives (.memRd q e) s (fun t => FrozenWith (ldMaster q.port q.ld) 0x0203 t ∧ t.cache = s.cache ∧ t.medium = s.medium)) ∧
    (ldFrozen s q.port q.ld = false → q.malformed = 0 → (ldAt s (ldKey q.port q.ld)).map.opcodes.getLsbD 0 = true →
      (ldAt s (ldKey q.port q.ld)).map.outstanding ≤ (ldAt s (ldKey q.port q.ld)).outstanding →
      Gives (.memRd q e) s (fun t => FrozenWith (ldMaster q.port q.ld) 0x0202 t ∧ t.cache = s.cache ∧ t.medium = s.medium)) ∧
    (ldFrozen s q.port q.ld = false → q.malformed = 0 → (ldAt s (ldKey q.port q.ld)).map.opcodes.getLsbD 0 = true →
      (ldAt s (ldKey q.port q.ld)).outstanding < (ldAt s (ldKey q.port q.ld)).map.outstanding →
      rangePos (ldAt s (ldKey q.port q.ld)).map.ranges (q.dpa.toNat / gib) = none →
      inGrace (tbNow s) (ldAt s (ldKey q.port q.ld)) (q.dpa.toNat / gib) = false →
      Gives (.memRd q e) s (fun t => FrozenWith (ldMaster q.port q.ld) 0x0201 t ∧ t.cache = s.cache ∧ t.medium = s.medium))) ∧
  ((∀ (s : State) (q : MemReq) (op : Nat) (d : Bool), s.mainUp = true → (port s q.port).up = true → s.belay.step = 0 →
    interim s = false → isFrozen s (portMaster q.port) = false →
    Gives (.unclassifiedM2sOpcode q op false d) s (fun t => FrozenWith (portMaster q.port) 0x0208 t ∧ t.cache = s.cache)) ∧
  (∀ (s : State) (q : MemReq) (op : Nat) (d : Bool), s.mainUp = true → (port s q.port).up = true → s.belay.step = 0 →
    interim s = false → q.link = 0 → q.malformed = 0 → (port s q.port).reqCredits ≠ 0 → ldConfigured s q.port q.ld = true →
    (∀ r ∈ (port s q.port).reqs ++ (port s q.port).oldReqs ++ (port s q.port).ingress, r.ld ≠ q.ld ∨ r.tag ≠ q.tag) →
    tenantLd s (ldKey q.port q.ld) = true → ldFrozen s q.port q.ld = false →
    Gives (.unclassifiedM2sOpcode q op true d) s (fun t => FrozenWith (ldMaster q.port q.ld) 0x0203 t ∧ t.cache = s.cache)))

/-- R168, R169, R173, R174, R311: a fill that is ready installs its line: every sector that was not VALID takes the
fetched bytes, a poisoned fill poisons the line, and the waiting read is answered. A DIRTY line that has stayed
partial for a whole stage starts a completion fill. A lookup held for 2 ms ends in poison without a poison entry in
the map. -/
def Obligations.FillsComplete : Prop :=
  (∀ (s : State) (lpn k : Nat) (parity : BitVec 4) (f : Fill) (d : Parcel) (r : Req), s.mainUp = true → tget s.cache.fills lpn = some f →
    f.st = .ready d → f.waiters = [r] → r.op.isRead = true → r.tagKind = .reserved → s.cache.waiting = [] →
    0 < (port s r.port).drsCredits → (port s r.port).oldReqs = [] → findWay s lpn = some k →
    f.drop = false → s.cache.online.getLsbD (k / 32768) = true → parity &&& (lineAt s k).valid = 0 →
    (lineAt s k).dropOnFill = false → (lineAt s k).poison = false →
    Gives (.fillComplete ⟨lpn, parity⟩) s (fun t => tget t.cache.fills lpn = none ∧ (lineAt t k).valid = 15 ∧
      (lineAt t k).st = (if (lineAt s k).dirty = 0 then .clean else .dirty) ∧ (lineAt t k).dirty = (lineAt s k).dirty ∧
      (∀ i : Fin 4, (lineAt t k).data[i] = if (lineAt s k).valid.getLsbD i.val then (lineAt s k).data[i] else d[i]) ∧
      (∀ j, j ≠ k → lineAt t j = lineAt s j) ∧
      t.ports.sent = { port := r.port, ld := r.ld, tag := r.tag, op := r.op, kind := .data (d[r.sector % 4]'(Nat.mod_lt _ (by decide))), sent := tbNow s } :: s.ports.sent)) ∧
  (∀ (s : State) (lpn k : Nat) (parity : BitVec 4) (f : Fill) (r : Req), s.mainUp = true → tget s.cache.fills lpn = some f →
    f.st = .readyPoison → f.waiters = [r] → r.op.isRead = true → r.tagKind = .reserved → s.cache.waiting = [] →
    0 < (port s r.port).drsCredits → (port s r.port).oldReqs = [] → findWay s lpn = some k →
    f.drop = false → s.cache.online.getLsbD (k / 32768) = true → parity &&& (lineAt s k).valid = 0 →
    (lineAt s k).dropOnFill = false →
    Gives (.fillComplete ⟨lpn, parity⟩) s (fun t => tget t.cache.fills lpn = none ∧ (lineAt t k).poison = true ∧
      (lineAt t k).valid = (lineAt s k).dirty ∧ (lineAt t k).data = (lineAt s k).data ∧
      t.ports.sent = { port := r.port, ld := r.ld, tag := r.tag, op := r.op, kind := .poison, sent := tbNow s } :: s.ports.sent)) ∧
  (∀ (s : State) (lpn k : Nat), s.mainUp = true → s.belay.step = 0 → findWay s lpn = some k → (lineAt s k).st = .dirty →
    (lineAt s k).poison = false → (lineAt s k).valid ≠ 15 → (lineAt s k).partialSince + 2 ≤ s.planner.stage →
    (thas s.cache.fills lpn = true ∨ fillsIn s lpn < 512) →
    Gives (.completionFill lpn) s (fun t => (∃ f, tget t.cache.fills lpn = some f ∧ f.completion = true) ∧
      (lineAt t k).data = (lineAt s k).data ∧ (lineAt t k).dirty = (lineAt s k).dirty ∧ t.ports.ports = s.ports.ports)) ∧
  (∀ (s : State) (lpn t0 : Nat), s.mainUp = true → tget s.way.heldLookups lpn = some t0 → t0 + 2000000 ≤ tbNow s → stripeHeld s lpn = true →
    Gives (.mapStripeHoldExpiry lpn) s (fun t => tget t.way.heldLookups lpn = none ∧
      (thas s.cache.fills lpn = true → (tgetD t.cache.fills lpn {}).st = .readyPoison) ∧ t.way.map = s.way.map ∧
      t = { s with cache := { s.cache with fills := t.cache.fills }, way := t.way }))

/-- R178, R187, R225, R213: an eviction of a full DIRTY line that nothing holds back increments the parcel's counter,
seals the line under it, and leaves the line EVICTING with a pending-eviction entry; at its ordering point the way is
freed, or stays CLEAN where it is kept, and the parcel's program joins its bank. -/
def Obligations.Evictions : Prop :=
  (∀ (s s' t' : State) (lpn k ch ppa : Nat) (e : ReadEnv) (d : EvDue) (key : KeySet), s.mainUp = true →
    s.cache.evDue.find? (fun d => d.lpn = lpn) = some d → findWay s lpn = some k → (lineAt s k).st = .dirty →
    (lineAt s k).valid = 15 → (lineAt s k).poison = false → (lineAt s k).maint = false → (lineAt s k).dropOnFill = false →
    e.parity = 0 → e.tagErr = .none → s.sealCtl.zeroed = false → s.belay.step = 0 → s' = fetchPath e.nodes lpn s →
    underRetired s' lpn = false → underLost s' lpn = false → rollWaits s' lpn (lineAt s k).part = false →
    counterWaits s' lpn = false → placeHost s' = some (ch, ppa, t') → sealKey s' (lineAt s k).part lpn = some key →
    mayEvict s' d ch = true → (leafAt s' (lpn / 64)).minors[minorIdx lpn] ≠ 127 →
    Gives (.evictionStart lpn e) s (fun t => (lineAt t k).st = .evicting ∧ (lineAt t k).data = (lineAt s k).data ∧
      (∃ p, tget t.cache.pend lpn = some p ∧ p.ch = ch ∧ p.ppa = ppa ∧ p.keep = d.keep ∧ p.atOrder = false) ∧
      (∀ x ∈ t.cache.evDue, x.lpn ≠ lpn) ∧
      (leafAt t (lpn / 64)).minors[minorIdx lpn] = (leafAt s' (lpn / 64)).minors[minorIdx lpn] + 1 ∧
      (leafAt t (lpn / 64)).dirty = true ∧
      (∃ w ∈ (chan t ch).wbuf, w.lpn = lpn ∧ w.ppa = ppa ∧ w.plain = (lineAt s k).data ∧
        w.word = sealWord key (lineAt s k).part lpn (leafAt t (lpn / 64)).major
          ((leafAt s' (lpn / 64)).minors[minorIdx lpn] + 1) false (lineAt s k).data))) ∧
  (∀ (s : State) (lpn k : Nat) (p : PendEv) (w : WbEntry), s.mainUp = true → tget s.cache.pend lpn = some p →
    p.atOrder = false → p.poison = false → s.cache.waiting = [] → s.cache.fills = [] → findWay s lpn = some k →
    (lineAt s k).st = .evicting → (lineAt s k).dropOnFill = false → s.cache.online.getLsbD (k / 32768) = true →
    wbEntry s p.ch lpn p.ppa = some w → w.dropped = false →
    Gives (.evictionOrderingPoint lpn) s (fun t => (∃ p', tget t.cache.pend lpn = some p' ∧ p'.atOrder = true ∧ p'.ch = p.ch) ∧
      (p.keep = true → lineAt t k = { lineAt s k with st := .clean, dirty := 0, dir := none }) ∧
      (p.keep = false → tget t.cache.lines k = none) ∧
      (∃ w', wbEntry t p.ch lpn p.ppa = some w' ∧ w'.accepted = true ∧ w'.word = w.word ∧ w'.ppa = w.ppa) ∧
      (∃ q ∈ (bankOf (chan t p.ch) (ppaBank w.ppa)).planned, ∃ n a, q = .program lpn w.ppa true 0 w.word n a)))

/-- R184, R185, R196, R197, R198, R201, R203: a waiting write proceeds once the dirty count is below DIRTY_LIMIT, and
waits on otherwise, with the eviction that it is matched to; a slice above 7/8 of its share chooses lines to write
back; a patrol that meets a clean sector in error clears its VALID bit and fetches it again, one that meets a dirty
sector in error poisons the line; and a retirement ends when its slice holds nothing. -/
def Obligations.CacheUpkeep : Prop :=
  (∀ (s : State) (r : Req), s.mainUp = true → s.cache.budgetWait = [r] → r.op = .wr → s.belay.step = 0 →
    isRetiring s (hashSlice r.lpn) = false → r.health ≠ 2 → r.health ≠ 3 → r.health ≠ 4 → dirtyLimit s ≠ 0 →
    dirtyLimit s ≤ dirtyCount s → (∀ k, findWay s r.lpn = some k → (lineAt s k).st = .clean) →
    Gives .dirtyBudgetRelease s (fun t => (∃ v, t.cache.budgetWait = [{ r with victim := v }]) ∧
      t = { s with cache := { s.cache with budgetWait := t.cache.budgetWait, evDue := t.cache.evDue } })) ∧
  (∀ (s : State) (r : Req) (k : Nat), s.mainUp = true → s.cache.budgetWait = [r] → r.op = .wr → r.wr.poison = false →
    r.tagKind = .reserved → (port s r.port).oldReqs = [] → 0 < (port s r.port).ndrCredits →
    isRetiring s (hashSlice r.lpn) = false → r.health ≠ 2 →
    s.belay.step = 0 → r.health ≠ 3 → r.health ≠ 4 → findWay s r.lpn = some k → (lineAt s k).st = .clean →
    (lineAt s k).poison = false → dirtyLimit s ≠ 0 → dirtyCount s < dirtyLimit s →
    Gives .dirtyBudgetRelease s (fun t => t.cache.budgetWait = [] ∧ (lineAt t k).st = .dirty ∧
      (lineAt t k).data = (lineAt s k).data.set (r.sector % 4) r.wr.data (Nat.mod_lt _ (by decide)) ∧
      t.ports.sent = { port := r.port, ld := r.ld, tag := r.tag, op := .wr, kind := .cmp, sent := tbNow s } :: s.ports.sent)) ∧
  (∀ (s : State) (z : Nat), s.mainUp = true → s.cache.online.getLsbD z = true → s.belay.step = 0 →
    7 * dirtyLimit s < sliceDirty s z * 8 * (onlineSlices s.cache.online).length →
    0 < sliceDirty s z - leaving s z - 3 * dirtyLimit s / (4 * (onlineSlices s.cache.online).length) →
    (dirtiestSet s z).isSome = true →
    Gives (.backgroundWriteback z) s (fun t => (∃ l, l ≠ [] ∧ t.cache.evDue = s.cache.evDue ++ l ∧
      ∀ d ∈ l, d.why = .background) ∧ t = { s with cache := { s.cache with evDue := t.cache.evDue } })) ∧
  (∀ (s : State) (lpn k : Nat) (e : ReadEnv), s.mainUp = true → s.belay.step = 0 → findWay s lpn = some k →
    e.tagErr = .none → ((lineAt s k).st = .clean ∨ (lineAt s k).st = .dirty) → (lineAt s k).poison = false →
    e.parity &&& (lineAt s k).valid ≠ 0 → e.parity &&& (lineAt s k).valid &&& (lineAt s k).dirty = 0 →
    (thas s.cache.fills lpn = true ∨ fillsIn s lpn < 512) →
    Gives (.cachePatrol lpn e) s (fun t =>
      (lineAt t k).valid = ((lineAt s k).valid &&& ~~~(e.parity &&& (lineAt s k).valid)) ∧
      (∃ f, tget t.cache.fills lpn = some f ∧ f.completion = true) ∧
      t.cache.cleanErrs = s.cache.cleanErrs + popcount (e.parity &&& (lineAt s k).valid) ∧ t.medium = s.medium)) ∧
  (∀ (s : State) (lpn k : Nat) (e : ReadEnv), s.mainUp = true → findWay s lpn = some k → e.tagErr = .none →
    (lineAt s k).st = .dirty → e.parity &&& (lineAt s k).valid &&& (lineAt s k).dirty ≠ 0 →
    Gives (.cachePatrol lpn e) s (fun t => (lineAt t k).poison = true ∧ (lineAt t k).valid = 0 ∧
      (lineAt t k).dirty = 15 ∧ t.medium = s.medium ∧ t.way = s.way)) ∧
  (∀ (s : State) (z : Nat), s.mainUp = true → isRetiring s z = true → sliceHolds s z = false → s.cache.heldReqs = [] →
    Gives (.sliceRetirementEnd z) s (fun t => isRetiring t z = false ∧ (∀ y, y ≠ z → isRetiring t y = isRetiring s y) ∧
      t = { s with cache := { s.cache with retiring := t.cache.retiring }, relay := t.relay, cairn := t.cairn }))

/-- R73, R74, R120, R156, R77: S2M credits that have been withheld for 10 ms make one record; their return adds them,
ends the episode, and sends the held responses that it covers; a request of 25 ms is recorded once; a link-layer
replay is counted. R98, R100, R93, R111: the Tollgate's timed events: a lowered OUTSTANDING takes effect once the LD's
requests are at or below it, the poisoned-write counts of a window of 256 stages that has ended restart at 0, a grace
ends 10 ms after the removal, and the freezes in force reach the FREEZE records. -/
def Obligations.PortAndTollgateTimers : Prop :=
  ((∀ (s : State) (p t0 : Nat), s.mainUp = true → (port s p).up = true → (port s p).withheldSince = some t0 →
    (port s p).withheldRec = false → t0 + 10000000 ≤ tbNow s →
    Gives (.s2mCreditWithheld p) s (fun t => port t p = { port s p with withheldRec := true } ∧
      (∀ q, q ≠ p → port t q = port s q) ∧
      t = { s with ports := { s.ports with ports := t.ports.ports }, relay := t.relay, cairn := t.cairn })) ∧
  (∀ (s : State) (p ndr drs r0 : Nat) (r : Req) (k : RespKind), s.mainUp = true → (port s p).up = true → (port s p).ingress = [] →
    (port s p).held = [(r0, r, k)] → r.port = p → r.ld < 17 →
    0 < (if k = .cmp then (port s p).ndrCredits + ndr else (port s p).drsCredits + drs) →
    Gives (.s2mCreditReturn ⟨p, ndr, drs⟩) s (fun t => (port t p).withheldSince = none ∧ (port t p).held = [] ∧
      (port t p).ndrCredits = (port s p).ndrCredits + ndr - (if k = .cmp then 1 else 0) ∧
      (port t p).drsCredits = (port s p).drsCredits + drs - (if k = .cmp then 0 else 1) ∧
      t.ports.sent = { port := p, ld := r.ld, tag := r.tag, op := r.op, kind := k, sent := tbNow s } :: s.ports.sent ∧
      t.cache = s.cache ∧ t.gate = s.gate)) ∧
  (∀ (s : State) (p ndr drs : Nat), s.mainUp = true → (port s p).up = true → (port s p).ingress = [] → (port s p).held = [] →
    Gives (.s2mCreditReturn ⟨p, ndr, drs⟩) s (fun t => (port t p).ndrCredits = (port s p).ndrCredits + ndr ∧
      (port t p).drsCredits = (port s p).drsCredits + drs ∧ t.ports.sent = s.ports.sent)) ∧
  (∀ (s : State) (p l tag : Nat) (r : Req), s.mainUp = true →
    (port s p).reqs.find? (fun r => r.ld == l && r.tag == tag && !r.aged && decide (r.stamp + 25000000 ≤ tbNow s)) = some r →
    (port s p).held = [] →
    Gives (.requestAge25ms p l tag) s (fun t =>
      t = modPort p (fun x => { x with reqs := (port t p).reqs })
        (emit 0x0404 0xFF (ldMaster p l) r.op.number tag ((tbNow s - r.stamp) / 1000) s) ∧
      (∀ y ∈ (port t p).reqs, y.ld = l → y.tag = tag → y.stamp + 25000000 ≤ tbNow s → y.aged = true) ∧
      (port t p).reqs.length = (port s p).reqs.length)) ∧
  (∀ (s : State) (p n : Nat), s.mainUp = true → (port s p).up = true →
    Gives (.linkLayerReplay p n) s (fun t => t = bumpChN 0x0103 p n s))) ∧
  ((∀ (s : State) (p l n : Nat), s.mainUp = true → (ldAt s (ldKey p l)).pendingOut = some n →
    (ldAt s (ldKey p l)).outstanding ≤ n → Gives (.contractLowerApply p l) s (fun t =>
      ldAt t (ldKey p l) = { ldAt s (ldKey p l) with
        map := { (ldAt s (ldKey p l)).map with outstanding := n }, pendingOut := none } ∧
      (∀ k, k ≠ ldKey p l → ldAt t k = ldAt s k) ∧ t = { s with ports := { s.ports with lds := t.ports.lds } })) ∧
  (∀ s : State, s.mainUp = true → Gives .poisonWindowEnd s (fun t =>
    (∀ k, thas s.ports.lds k = true → ldAt t k = { ldAt s k with
      poisonCnt := (if (ldAt s k).poisonWin = s.planner.stage / 256 then (ldAt s k).poisonCnt else 0), poisonWin := s.planner.stage / 256 }) ∧
    (∀ k, thas s.ports.lds k = false → ldAt t k = ldAt s k) ∧ t = { s with ports := { s.ports with lds := t.ports.lds } })) ∧
  (∀ (s : State) (p l leg : Nat), s.mainUp = true → Gives (.forcedReleaseGraceEnd p l leg) s (fun t =>
    (∀ g, g ∈ (ldAt t (ldKey p l)).graces ↔ g ∈ (ldAt s (ldKey p l)).graces ∧ (g.dpaLeg ≠ leg ∨ tbNow s < g.since + 10000000)) ∧
    (∀ k, k ≠ ldKey p l → ldAt t k = ldAt s k) ∧ t = { s with ports := { s.ports with lds := t.ports.lds } })) ∧
  (∀ (s : State) (f : Freeze), s.mainUp = true → s.gate.freezes = [f] → tget s.sad.img.freezes (freezeSlot f.master) ≠ some f →
    Gives .freezeCommit s (fun t => tget t.sad.img.freezes (freezeSlot f.master) = some f ∧
      rk 9 (freezeSlot f.master / 64) ∈ t.sad.dirty ∧ (∀ i, i ≠ freezeSlot f.master → tget t.sad.img.freezes i = tget s.sad.img.freezes i) ∧
      t = { s with sad := t.sad })))

/-- R56 to R60, R66, R73, R78, R79: a port outside PERST# whose link partner offers 16 GT/s or more trains to the
lower of the two generations, widths and revisions, hands out its credits, and its LDs' memory becomes active; a
failed training takes it down, a link that was up as a link loss, and it stays down after the third in succession; 100
ms after another failure a retry lets it train. -/
def Obligations.Training : Prop :=
  (∀ (s : State) (p g m i : Nat) (x : Partner), s.mainUp = true → groupOf s p = some (g, m, i) → (port s p).up = false →
    (port s p).stayDown = false → (port s p).retryDue = false → s.ports.perst.getLsbD g = false → s.survey.instr ≠ 0 →
    4 ≤ min (tgetD (governing s).ports p {}).maxGen x.gen → (port s p).oldReqs = [] →
    Gives (.linkUp p x) s (fun t => (port t p).up = true ∧
      (port t p).gen = min (tgetD (governing s).ports p {}).maxGen x.gen ∧ (port t p).width = min (modeWidth m i) x.width ∧
      (port t p).cxl = min (tgetD (governing s).ports p {}).maxCxl x.cxl ∧
      ((port t p).flit256 = true ↔ (port t p).gen = 6) ∧ (port t p).fails = 0 ∧
      (port t p).reqCredits = 256 ∧ (port t p).rwdCredits = 256 ∧ (port t p).ndrCredits = x.ndr ∧ (port t p).drsCredits = x.drs ∧
      (recalling s = false → s.health.st ≠ 6 → ∀ l, l ≤ 16 → ldConfigured t p l = true → (ldAt t (ldKey p l)).memActive = true) ∧
      t = { s with ports := t.ports, relay := t.relay, cairn := t.cairn, freeCtr := t.freeCtr })) ∧
  (∀ (s : State) (p rate : Nat), s.mainUp = true → (groupOf s p).isSome = true → (port s p).stayDown = false →
    Gives (.trainingFailure p rate) s (fun t => (port t p).up = false ∧ (port t p).fails = (port s p).fails + 1 ∧
      ((port t p).stayDown = true ↔ 2 ≤ (port s p).fails) ∧ ((port t p).retryDue = true ↔ (port s p).fails < 2) ∧
      (port t p).retryTb = tbNow s ∧ ((port s p).up = true → t.keeper.resetInfo.getLsbD 9 = true ∧ t.keeper.lastCause = 9))) ∧
  (∀ (s : State) (p : Nat), s.mainUp = true → Gives (.trainingRetry p) s (fun t =>
    port t p = { port s p with retryDue := (port s p).retryDue && decide (tbNow s < (port s p).retryTb + 100000000) } ∧ (∀ q, q ≠ p → port t q = port s q) ∧
    t = { s with ports := { s.ports with ports := t.ports.ports } }))

/-- R76, R78, R547: a link loss, a hot reset and a link disable take the port down: its requests finish without
responses, its credits are gone, the decoders and Memory_Active of its LDs are cleared, and RESET_INFO shows a port
reset. PERST# does so for every port of its group. Freezes, partitions and the medium stay. -/
def Obligations.PortResets : Prop :=
  (∀ (s : State) (p : Nat), s.mainUp = true → (port s p).up = true →
    (∀ c, c = Instr.linkDown p ∨ c = Instr.linkDisable p → Gives c s (fun t => (port t p).up = false ∧ (port t p).reqs = [] ∧
      (port t p).ingress = [] ∧ (port t p).reqCredits = 0 ∧ (port t p).rwdCredits = 0 ∧ t.ports.sent = s.ports.sent ∧
      (∀ k ∈ portLds s p, (ldAt t k).decoders = [{}, {}] ∧ (ldAt t k).memActive = false ∧ (ldAt t k).map = (ldAt s k).map) ∧
      t.keeper.resetInfo.getLsbD 9 = true ∧ t.keeper.lastCause = 9 ∧
      t = { s with ports := t.ports, cache := t.cache, reck := t.reck, relay := t.relay, cairn := t.cairn, keeper := t.keeper }))) ∧
  (∀ (s : State) (p : Nat), s.mainUp = true → (groupOf s p).isSome = true →
    Gives (.hotReset p) s (fun t => (port t p).up = false ∧ (port t p).fails = 0 ∧ (port t p).stayDown = false ∧
      (port t p).retryDue = false ∧ (∀ k ∈ portLds s p, (ldAt t k).decoders = [{}, {}] ∧ (ldAt t k).memActive = false ∧
        (ldAt t k).map = (ldAt s k).map) ∧
      t.keeper.resetInfo.getLsbD 9 = true ∧ t.keeper.lastCause = 9 ∧
      t = { s with ports := t.ports, cache := t.cache, reck := t.reck, relay := t.relay, cairn := t.cairn, keeper := t.keeper })) ∧
  (∀ (s : State) (g : Nat), s.mainUp = true → g < 8 → s.ports.perst.getLsbD g = false →
    Gives (.perstAssert g) s (fun t => t.ports.perst.getLsbD g = true ∧ (∀ p ∈ groupPorts s g, (port t p).up = false ∧
        (∀ k ∈ portLds s p, (ldAt t k).decoders = [{}, {}] ∧ (ldAt t k).memActive = false)) ∧ t.ports.sent = s.ports.sent ∧
      t.keeper.resetInfo.getLsbD 8 = true ∧ t.keeper.lastCause = 8 ∧ t.gate = s.gate ∧ t.sad = s.sad ∧ t.medium = s.medium)) ∧
  (∀ (s : State) (g : Nat), s.mainUp = true → g < 8 → s.ports.perst.getLsbD g = true →
    Gives (.perstDeassert g) s (fun t => t.ports.perst.getLsbD g = false ∧
      (t.ports.clk.getLsbD g = s.sad.img.portCfg.clk.getLsbD g) ∧
      (∀ p ∈ groupPorts s g, (port t p).fails = 0 ∧ (port t p).stayDown = false ∧ (port t p).retryDue = false) ∧
      t = { s with ports := t.ports, relay := t.relay, cairn := t.cairn }))

/-- R70, R77, R78, R80, R357: an FLR and a CXL Reset clear an LD's CXL.io state, a CXL Reset also its decoders and
requests, and RESET_INFO shows them; a bad TLP is reported through AER, and sends no message where it is masked (the
bit places are PRESUMED, log 3); GPF requests are answered and start no flush. -/
def Obligations.LdResets : Prop :=
  (∀ (s : State) (p l : Nat), s.mainUp = true → ldConfigured s p l = true → Gives (.flr p l) s (fun t =>
    (ldAt t (ldKey p l)).io = {} ∧ (ldAt t (ldKey p l)).mbox.doorbell = false ∧ (ldAt t (ldKey p l)).cof = {} ∧
    (ldAt t (ldKey p l)).win = {} ∧ (ldAt t (ldKey p l)).decoders = (ldAt s (ldKey p l)).decoders ∧
    (ldAt t (ldKey p l)).map = (ldAt s (ldKey p l)).map ∧ (ldAt t (ldKey p l)).logs = (ldAt s (ldKey p l)).logs ∧
    (∀ k, k ≠ ldKey p l → ldAt t k = ldAt s k) ∧ t.ports.ports = s.ports.ports ∧
    t.keeper.resetInfo.getLsbD 10 = true ∧ t.keeper.lastCause = 10 ∧ t.cache = s.cache ∧ t.gate = s.gate)) ∧
  (∀ (s : State) (p l : Nat) (b : Bool), s.mainUp = true → ldConfigured s p l = true → (port s p).up = true →
    (port s p).cxl ≠ 0x11 → Gives (.cxlReset p l b) s (fun t =>
    (ldAt t (ldKey p l)).io = {} ∧ (ldAt t (ldKey p l)).decoders = [{}, {}] ∧ (ldAt t (ldKey p l)).cof = {} ∧
    (∀ r ∈ (port t p).reqs, r.ld ≠ l) ∧ (∀ r ∈ (port t p).ingress, r.ld ≠ l) ∧ (port t p).up = true ∧
    t.keeper.resetInfo.getLsbD 10 = true ∧ t.keeper.lastCause = 10 ∧ ((∀ r ∈ (port s p).ingress, r.ld = l) → t.gate = s.gate ∧ t.ports.sent = s.ports.sent) ∧
    t.sad = s.sad ∧ t.medium = s.medium)) ∧
  (∀ (s : State) (p l ty : Nat) (ep : Bool), s.mainUp = true → (port s p).up = true → Gives (.cxlioBadTlp p l ⟨ty, ep⟩) s (fun t =>
    (ldAt t (ldKey p l)).aerReports = (ldAt s (ldKey p l)).aerReports + 1 ∧
    (ldAt t (ldKey p l)).io.uncStatus.getLsbD (if ep then 12 else 18) = true ∧
    ((ldAt s (ldKey p l)).io.uncMask.getLsbD (if ep then 12 else 18) = true →
      (ldAt t (ldKey p l)).errMsgs = (ldAt s (ldKey p l)).errMsgs) ∧
    (∀ k, k ≠ ldKey p l → ldAt t k = ldAt s k) ∧ t.ports.ports = s.ports.ports ∧
    t = { s with ports := t.ports, relay := t.relay, cairn := t.cairn })) ∧
  (∀ (s : State) (p n : Nat), s.mainUp = true → (port s p).up = true → (port s p).cxl ≠ 0x11 → s.belay.step = 0 →
    Gives (.gpfPhase1 p) s (fun t => t.ports.readData = 1 ∧ t.belay = s.belay ∧
      t = { s with ports := { s.ports with readData := 1 }, reck := t.reck }) ∧
    (writesWaiting s p = false → Gives (.gpfPhase2 p n) s (fun t => t.ports.readData = 2 ∧ t.belay = s.belay ∧
      t = { s with ports := { s.ports with readData := 2 }, reck := t.reck })))

/-- R190, R191, R192, R193, R402: a range operation's step moves past a parcel that the cache does not hold;
FLUSH_RANGE chooses a DIRTY line for eviction and keeps it, INVALIDATE_RANGE drops a CLEAN line, and both wait at an
EVICTING one. The operation of a frozen LD ends with Not Supported detail 0x0582 at its next step, one whose range is
done and verified ends with Success, and one without progress for 1 s because no channel takes programs ends with
detail 0x0581. -/
def Obligations.RangeOperations : Prop :=
  (∀ (s : State) (p : Path) (b : Bg) (kind part start len next t0 lpn : Nat) (ld : Option Nat) (ev : List Nat),
    s.mainUp = true → (ctx s p).bg = some b → b.job = .range kind part start len next ld t0 ev false → next < len →
    rangeFrozen s p = false → rangeLpn s part ld (start + next) = some lpn →
    (kind = 0 → findWay s lpn = none → thas s.cache.fills lpn = false → Gives (.rangeOpStep p) s (fun t =>
      (ctx t p).bg = some { b with pct := (next + 256) * 100 / len, job := .range kind part start len (next + 256) ld (tbNow s) ev false } ∧
      OnlyCtx p s t)) ∧
    (∀ k, kind = 0 → findWay s lpn = some k → (lineAt s k).st = .dirty → s.cache.evDue = [] → Gives (.rangeOpStep p) s (fun t =>
      t.cache = { s.cache with evDue := [{ lpn := lpn, why := .range, creditPart := (lineAt s k).part, keep := true, range := true }] } ∧
      (ctx t p).bg = some { b with pct := (next + 256) * 100 / len, job := .range kind part start len (next + 256) ld (tbNow s) (ev ++ [lpn]) false })) ∧
    (∀ k, kind = 1 → findWay s lpn = some k → (lineAt s k).st = .clean → Gives (.rangeOpStep p) s (fun t =>
      tget t.cache.lines k = none ∧ (∀ j, j ≠ k → lineAt t j = lineAt s j) ∧
      (ctx t p).bg = some { b with pct := (next + 256) * 100 / len, job := .range kind part start len (next + 256) ld (tbNow s) ev false })) ∧
    (∀ k, kind < 2 → findWay s lpn = some k → (lineAt s k).st = .evicting → Gives (.rangeOpStep p) s (fun t =>
      (ctx t p).bg = some { b with job := .range kind part start len next ld t0 ev true } ∧ OnlyCtx p s t)) ∧
    (∀ k, kind = 2 → findWay s lpn = some k → (lineAt s k).st = .dirty → (lineAt s k).dropOnFill = false →
      writeLost s s.health.st = false → Gives (.rangeOpStep p) s (fun t =>
      (lineAt t k).data = zeroParcel ∧ (lineAt t k).valid = 15 ∧ (lineAt t k).dirty = 15 ∧ (lineAt t k).poison = false ∧
      (lineAt t k).st = .dirty ∧ t.medium = s.medium))) ∧
  (∀ (s : State) (p : Path) (b : Bg) (kind part start len next t0 : Nat) (ld : Option Nat) (ev : List Nat) (met : Bool),
    s.mainUp = true → (ctx s p).bg = some b → b.job = .range kind part start len next ld t0 ev met → next < len →
    rangeFrozen s p = true → Gives (.rangeOpStep p) s (fun t =>
      (ctx t p).bg = none ∧ (ctx t p).bgRet = 0x12 ∧ (ctx t p).bgDetail = 0x0582 ∧ t.cache = s.cache)) ∧
  (∀ (s : State) (p : Path) (b : Bg) (kind part start len next t0 : Nat) (ld : Option Nat) (ev : List Nat) (met : Bool),
    s.mainUp = true → (ctx s p).bg = some b → b.job = .range kind part start len next ld t0 ev met → len ≤ next →
    (kind = 2 ∨ rangeVerified s ev = true) → Gives (.rangeOpComplete p) s (fun t =>
      (ctx t p).bg = none ∧ (ctx t p).bgOpcode = b.opcode ∧ (ctx t p).bgRet = 0 ∧ (ctx t p).bgPct = 100 ∧ t.cache = s.cache)) ∧
  (∀ (s : State) (p : Path) (b : Bg) (kind part start len next t0 : Nat) (ld : Option Nat) (ev : List Nat) (met : Bool),
    s.mainUp = true → (ctx s p).bg = some b → b.job = .range kind part start len next ld t0 ev met → t0 + 1000000000 ≤ tbNow s →
    nextChannel s = none → Gives (.rangeOpNoProgress p) s (fun t =>
      (ctx t p).bg = none ∧ (ctx t p).bgRet = 0x12 ∧ (ctx t p).bgDetail = 0x0581 ∧ t.cache = s.cache))

/-- R227 to R230, R235, R237: a rolling leaf's unwritten parcel gets its DONE bit, and a clean full line is re-sealed
under the new counters, its program planned; a writeback raises the parent counters of a node parcel's nodes and asks
for both copies of it, and its dirty leaf is clean; a checkpoint that is due begins at level 1 with the dirty leaves,
and with nothing dirty stores the Summit, or lets the store wait for the supply; a lost node asks for a new epoch, and
at epoch 255 its legs are retired. -/
def Obligations.CounterTree : Prop :=
  (∀ (s s' : State) (lpn : Nat) (c : Companion), s.mainUp = true → thas s.sealCtl.companions (lpn / 64) = true →
    (tgetD s.sealCtl.companions (lpn / 64) c).done.getLsbD (lpn % 64) = false → s.sealCtl.zeroed = false → s.health.st ≠ 5 →
    lookupHeld s lpn = false → resealRuns s lpn = false → sealsItself s lpn = false →
    s' = fetchPath [] lpn s → underLost s' lpn = false → tget s'.sealCtl.companions (lpn / 64) = some c →
    (unwritten s' lpn = true → Gives (.rollReseal lpn) s (fun t =>
      (tget t.sealCtl.companions (lpn / 64) = if c.done ||| bit1 (lpn % 64) = BitVec.allOnes 64 then none
        else some { c with done := c.done ||| bit1 (lpn % 64) }) ∧
      (∀ i, i ≠ lpn / 64 → tget t.sealCtl.companions i = tget s'.sealCtl.companions i) ∧
      (leafAt t (lpn / 64)).dirty = true ∧ (leafAt t (lpn / 64)).major = (leafAt s' (lpn / 64)).major ∧
      (leafAt t (lpn / 64)).minors = (leafAt s' (lpn / 64)).minors ∧
      t = { s' with sealCtl := t.sealCtl, reck := t.reck })) ∧
    (∀ k p ch ppa t' key, lookup s' lpn = .at_ p → findWay s lpn = some k → (lineAt s k).st = .clean → (lineAt s k).valid = 15 →
      (lineAt s k).poison = false → (tgetD s.sealCtl.companions (lpn / 64) c).part = c.part → sealKey s' c.part lpn = some key →
      placeHost s' = some (ch, ppa, t') → 1024 ≤ wrCredit s' c.part ch → Gives (.rollReseal lpn) s (fun t =>
      (∃ w ∈ (chan t ch).wbuf, w.lpn = lpn ∧ w.ppa = ppa ∧ w.reseal = some (some p) ∧ w.accepted = true ∧
        w.word = sealWord key c.part lpn (leafAt s' (lpn / 64)).major (leafAt s' (lpn / 64)).minors[minorIdx lpn] false (lineAt s k).data) ∧
      (∃ q ∈ (bankOf (chan t ch) (ppaBank ppa)).planned, ∃ w n a, q = .program lpn ppa true 0 w n a) ∧
      t.cache = s.cache ∧ t.medium = s.medium))) ∧
  (∀ (s : State) (i : Nat), s.mainUp = true → treeMay s = true → i < nodesOf (legSpace s) 1 →
    (∀ j ∈ fourNodes s 1 (i / 4), resident s 1 j = true) → (leafAt s i).dirty = true → parcelWaits s 1 (i / 4) = false →
    s.sealCtl.ckptLevel = some 1 →
    Gives (.counterWriteback 1 i) s (fun t => (leafAt t i).dirty = false ∧ (leafAt t i).minors = (leafAt s i).minors ∧
      (leafAt t i).major = (leafAt s i).major ∧
      parentCtr t 1 i = ((parentCtr s 1 i).extractLsb' 48 8 ++ ((parentCtr s 1 i).extractLsb' 0 48 + 1) : BitVec 56) ∧
      (∀ c < 2, ∃ p x ls cs m, progOf t (.tree 1 (i / 4) c) = some p ∧ p.load = .sys x ∧ x.space = 1 + c ∧
        x.lpn = treeLpn 1 (i / 4) c ∧ x.body = .tree ls cs m ∧ ls[i % 4]? = some (leafLine (leafAt s i).major (leafAt s i).minors)) ∧
      t = { s with sealCtl := t.sealCtl, way := t.way, chans := t.chans })) ∧
  (∀ s : State, s.mainUp = true → treeMay s = true → s.sealCtl.ckptLevel = none → s.sealCtl.ckptTb + 10000000000 ≤ tbNow s →
    (s.sealCtl.dirtyOrder = [] → (∀ l, treeFlying s l = false) → Gives .counterCheckpoint s (fun t =>
      t.sealCtl.ckptTb = tbNow s ∧ t.sealCtl.ckptLevel = none ∧
      (storeAllowed s = true → t.keeper.summitSeq = s.keeper.summitSeq + 1 ∧ t.keeper.summitChanged = false ∧
        (t.keeper.nvA = some (t.keeper.summitSeq, t.keeper.summit) ∨ t.keeper.nvB = some (t.keeper.summitSeq, t.keeper.summit))) ∧
      (storeAllowed s = false → t.keeper.summitWaits = true ∧ t.keeper.nvA = s.keeper.nvA ∧ t.keeper.nvB = s.keeper.nvB) ∧
      t = { s with sealCtl := t.sealCtl, keeper := t.keeper })) ∧
    (∀ i, s.sealCtl.dirtyOrder = [nodeKey 1 i] → i < nodesOf (legSpace s) 1 → i < 1099511627776 → (leafAt s i).dirty = true →
      (∀ j ∈ fourNodes s 1 (i / 4), resident s 1 j = true) → parcelWaits s 1 (i / 4) = false → Gives .counterCheckpoint s (fun t =>
        t.sealCtl.ckptTb = tbNow s ∧ t.sealCtl.ckptLevel = some 1 ∧ (leafAt t i).dirty = false ∧
        (∀ c < 2, (progOf t (.tree 1 (i / 4) c)).isSome = true) ∧ t.keeper = s.keeper ∧ t.medium = s.medium))) ∧
  (∀ (s : State) (level idx : Nat) (n : LostNode), s.mainUp = true → n ∈ s.sealCtl.lost → n.level = level → n.idx = idx →
    n.replaced = false → n.retired = false → n.epoch = none →
    (s.sad.img.epoch < 255 → Gives (.lostNodeReplace level idx) s (fun t => t.sad.img.epoch = s.sad.img.epoch + 1 ∧
      rk 0x12 0 ∈ t.sad.dirty ∧ (∃ m ∈ t.sealCtl.lost, m.level = level ∧ m.idx = idx ∧ m.epoch = some (s.sad.img.epoch + 1)) ∧
      t.gate = s.gate ∧ t.tree = s.tree)) ∧
    (255 ≤ s.sad.img.epoch → Gives (.lostNodeReplace level idx) s (fun t => t.sad = s.sad ∧
      (∃ m ∈ t.sealCtl.lost, m.level = level ∧ m.idx = idx ∧ m.retired = true) ∧
      (∀ g ∈ nodeLegs level idx, g < legSpace s → g ∈ t.gate.retiredLegs) ∧
      t.tree = { s.tree with retired := s.tree.retired ++ [(level, idx)] })))

/-- R243 to R246: a traverse that is not paused moves MARK past its next bale once the bale holds nothing written, or
once its re-bale is programmed whole and commits; another bale starts a re-bale of its written parcels and MARK waits;
the marks go to the TRAVERSE records; and a traverse with no bale left sets the new key generation, moves the wrap and
removes its record in one group. -/
def Obligations.TraverseSteps : Prop :=
  (∀ (s : State) (part off lbi : Nat) (x : Trav), s.mainUp = true → tget s.travs part = some x → x.pause = 0 →
    pauseCause s = 0 → x.phase = 0 → maintMay s = true → rateHolds s x = false → nextBale s part x.mark = some off →
    baleOfOffset s part off = some lbi → partOfLpn s (lbi * 256) = some part → offsetOfLpn s (lbi * 256) = off →
    oldEvictions s lbi = false → (∀ i < 256, lookupHeld s (lbi * 256 + i) = false) →
    (thas s.way.rebales lbi = false → (∀ i < 256, srcOf s (lbi * 256 + i) = .unwritten) →
      Gives (.traverseBale part) s (fun t =>
        tget t.travs part = some { x with w := max x.w (off + 65536), lastTb := (if x.w < off + 65536 then tbNow s else x.lastTb),
                                          mark := off + 65536, bales := x.bales + 1 } ∧
        (∀ q, q ≠ part → tget t.travs q = tget s.travs q) ∧ t = { s with travs := t.travs })) ∧
    (thas s.way.rebales lbi = false → (∃ i < 256, srcOf s (lbi * 256 + i) ≠ .unwritten) → sparseFull s lbi = false →
      Gives (.traverseBale part) s (fun t => (∃ y, tget t.travs part = some y ∧ y.mark = x.mark ∧ y.w = max x.w (off + 65536)) ∧
        (∃ j, tget t.way.rebales lbi = some j ∧ j.traverse = true ∧
          j.srcs = (List.range 256).map (fun i => srcOf s (lbi * 256 + i))) ∧ t.sad = s.sad ∧ t.medium = s.medium)) ∧
    (∀ j, tget s.way.rebales lbi = some j → j.traverse = true → segmentWhole s lbi j = true → served s (j.dest.getD 0) = true →
      Gives (.traverseBale part) s (fun t => (∃ y, tget t.travs part = some y ∧ y.mark = off + 65536 ∧
          y.w = max x.w (off + 65536) ∧ y.bales = x.bales + 1 ∧ y.newGen = x.newGen) ∧
        tget t.way.rebales lbi = none ∧ ((baleAt t lbi).st = .baled ∨ (baleAt t lbi).st = .sparse) ∧ t.sad = s.sad))) ∧
  (∀ (s : State) (part : Nat) (x : Trav) (r : TravRec), s.mainUp = true → s.travs = [(part, x)] →
    tget s.sad.img.travs x.inst = some r → r.mark ≠ x.mark → Gives .traverseMarkCommit s (fun t =>
      tget t.sad.img.travs x.inst = some { r with mark := x.mark } ∧ rk 8 x.inst ∈ t.sad.dirty ∧ t = { s with sad := t.sad })) ∧
  (∀ (s : State) (part : Nat) (x : Trav) (w : KeyWrap), s.mainUp = true → tget s.travs part = some x → x.phase = 0 →
    nextBale s part x.mark = none → isActive s part = true →
    s.chans.any (fun c => c.2.wbuf.any (fun w => w.oldGen && w.part == part)) = false →
    s.sealCtl.zeroed = false → part < 1024 → tget s.sad.img.wraps (1024 + x.inst) = some w →
    Gives (.traverseFinish part) s (fun t => tget t.sad.img.wraps part = some w ∧
      tget t.sad.img.wraps (1024 + x.inst) = none ∧ tget t.sad.img.travs x.inst = none ∧
      (∃ r, partRec t part = some r ∧ r.keyGen = x.newGen) ∧
      (∀ k ∈ [rk 3 part, rk 7 part, rk 7 (1024 + x.inst), rk 8 x.inst], k ∈ t.sad.dirty) ∧
      tget t.travs part = some { x with phase := 1, w := 70368744177664 } ∧ t = { s with sad := t.sad, travs := t.travs }))

/-- R302, R303, R180: a due re-bale snapshots the bale's sources and asks for a read of each that lies on serving
media, and leaves the overlay and the bale map as they are; once its segment is programmed whole, the commit gives the
bale its new segment, and each parcel whose source has not changed reads from there, where a segment whose channel has
left service is given up and the bale queued again; a cold visit marks an aged entry COLD. -/
def Obligations.Rebaling : Prop :=
  (∀ (s : State) (lbi part : Nat) (fast : Bool), s.mainUp = true → baleOwner s lbi = some (part, fast) → maintMay s = true →
    anyProgram s = true → thas s.way.rebales lbi = false → rebaleDue s lbi = true → spentMay s lbi = true →
    (∃ i < 256, srcOf s (lbi * 256 + i) ≠ .unwritten) → sparseFull s lbi = false →
    Gives (.rebale lbi) s (fun t => (∃ j, tget t.way.rebales lbi = some j ∧ j.fast = fast ∧ j.traverse = false ∧
        j.srcs = (List.range 256).map (fun i => srcOf s (lbi * 256 + i))) ∧
      (∀ i < 256, ∀ a, srcLoc s (lbi * 256 + i) (srcOf s (lbi * 256 + i)) = some a → served s a = true →
        readHeld t (.bale lbi i) a = true) ∧
      lbi ∉ t.way.rebaleQ ∧ t.way.map.overlay = s.way.map.overlay ∧ t.way.map.bales = s.way.map.bales ∧
      t.sad = s.sad ∧ t.medium = s.medium)) ∧
  (∀ (s : State) (lbi d : Nat) (j : RebaleJob), s.mainUp = true → tget s.way.rebales lbi = some j → s.belay.step = 0 →
    j.dest = some d → segmentWhole s lbi j = true → j.traverse = false → (∀ i < 256, lookupHeld s (lbi * 256 + i) = false) →
    (served s d = true → j.srcs.length = 256 → Gives (.rebaleCommit lbi) s (fun t => tget t.way.rebales lbi = none ∧
      ((baleAt t lbi).st = if Src.unwritten ∈ j.srcs then .sparse else .baled) ∧
      (∀ i src, i < 256 → j.srcs[i]? = some src → src ≠ .unwritten → srcSame s (lbi * 256 + i) src = true →
        lookup t (lbi * 256 + i) = .at_ (basePpa (baleLoc {} d) i)) ∧
      (∀ l, lpnLbi l ≠ lbi → lookup t l = lookup s l) ∧ t.medium = s.medium ∧ t.cache = s.cache)) ∧
    (served s d = false → Gives (.rebaleCommit lbi) s (fun t => tget t.way.rebales lbi = none ∧ lbi ∈ t.way.rebaleQ ∧
      (∀ p ∈ t.way.progs, ∀ b i, p.work = .bale b i → b ≠ lbi) ∧ t.way.map = s.way.map ∧
      t = { s with way := t.way, chans := t.chans }))) ∧
  (∀ (s : State) (lpn : Nat) (e : OvEntry), s.mainUp = true → tget s.way.map.overlay lpn = some e → recalling s = false →
    s.way.drover.coldAge ≤ (nowStamp s + 4096 - e.lastWrite % 4096) % 4096 →
    Gives (.coldVisit lpn) s (fun t => tget t.way.map.overlay lpn = some { e with cold := true } ∧
      (∀ l, l ≠ lpn → tget t.way.map.overlay l = tget s.way.map.overlay l) ∧ (∀ l, lookup t l = lookup s l) ∧
      t = { s with way := t.way }))

/-- R309 to R311: a corrected HBM bit is only counted; an unreadable map page is held until it is rebuilt, a stripe
until its end, and no poison mark waits that no hold keeps; a counter line that was dirty is lost with its node. R306,
R307, R69: the oldest journal parcel is committed once both copies have passed verify; a due checkpoint round starts
with ROUND_BEGIN and a copy of the map, and once its directory has passed ends with ROUND_END and the CHECKPOINT
record set to commit; a changed event-log parcel is asked for in both spaces. -/
def Obligations.JournalAndMapMemory : Prop :=
  ((∀ (s : State) (e : HbmError), s.mainUp = true → e.single = true → e.uncorrectable = false →
    Gives (.hbmPatrol e) s (fun t => t = { s with reck := { s.reck with counts := t.reck.counts } })) ∧
  (∀ (s : State) (e : HbmError), s.mainUp = true → e.uncorrectable = true → e.region ≤ 4 → e.second = none →
    s.way.heldPages = [] → Gives (.hbmPatrol e) s (fun t => t.way.heldPages = [e.region * 4294967296 + e.page] ∧
      t.way.map = s.way.map ∧ t.way.heldStripes = s.way.heldStripes)) ∧
  (∀ (s : State) (e : HbmError), s.mainUp = true → e.uncorrectable = true → e.region = 7 → Gives (.hbmPatrol e) s (fun t =>
      ∃ n ∈ t.sealCtl.lost, n.level = e.level ∧ n.idx = e.idx ∧ n.replaced = false)) ∧
  (∀ (s : State) (region page us : Nat), s.mainUp = true → region * 4294967296 + page ∈ s.way.heldPages →
    Gives (.mapPageRebuilt region page us) s (fun t =>
      (∀ k, k ∈ t.way.heldPages ↔ k ∈ s.way.heldPages ∧ k ≠ region * 4294967296 + page) ∧ t.way.heldStripes = s.way.heldStripes ∧
      (∀ l ∈ t.way.heldMarks, lookupHeld t l = true) ∧ t.medium.cells = s.medium.cells)) ∧
  (∀ (s : State) (region stripe ms : Nat), s.mainUp = true → region * 4294967296 + stripe ∈ s.way.heldStripes →
    Gives (.stripeRebuildEnd region stripe ms) s (fun t =>
      (∀ k, k ∈ t.way.heldStripes ↔ k ∈ s.way.heldStripes ∧ k ≠ region * 4294967296 + stripe) ∧ t.way.heldPages = s.way.heldPages ∧
      t.way.holdPoisoned = 0 ∧ (∀ l ∈ t.way.heldMarks, lookupHeld t l = true) ∧ t.medium.cells = s.medium.cells))) ∧
  ((∀ (s : State) (p : JParcel) (rest : List JParcel), s.mainUp = true → s.way.parcels = p :: rest →
    (bothPassed s (.journal p.jseq)).isSome = true → (∀ q, rest.head? = some q → bothPassed s (.journal q.jseq) = none) →
    Gives .journalCommit s (fun t => t.way.parcels = rest ∧ (∀ c, progOf t (.journal p.jseq c) = none) ∧
      t.medium.cells = s.medium.cells ∧ t.medium.sys = s.medium.sys)) ∧
  (∀ s : State, s.mainUp = true → roundDue s = true → maintMay s = true → anyProgram s = true → s.sealCtl.zeroed = false →
    Gives .checkpointRoundBegin s (fun t => (∃ r, t.way.round = some r ∧ r.num = s.sad.img.ckpt.round + 1 ∧ r.image = s.way.map) ∧
      t.way.roundTb = tbNow s ∧ (∃ l, t.way.tail = s.way.tail ++ [.roundBegin (s.sad.img.ckpt.round + 1)] ++ l) ∧
      t.way.map.overlay = s.way.map.overlay ∧ t.way.map.bales = s.way.map.bales ∧
      t = { s with way := t.way, chans := t.chans })) ∧
  (∀ (s : State) (r : Round) (a b : Nat), s.mainUp = true → s.way.round = some r → bothPassed s .dir = some (a, b) →
    roundOpen s r.num = true → maintMay s = true → Gives .checkpointRoundEnd s (fun t => t.way.round = none ∧
      t.way.roundDone = some r ∧ t.way.tail = s.way.tail ++ [.roundEnd r.num] ∧
      t.sad.img.ckpt = { round := r.num, jseq := r.jseq, dirA := a, dirB := b, lanes := r.lanes } ∧ rk 10 0 ∈ t.sad.dirty ∧
      t.way.map = s.way.map ∧ t = { s with way := t.way, chans := t.chans, sad := t.sad, reck := t.reck })) ∧
  (∀ s : State, s.mainUp = true → s.boot.running = true → maintMay s = true → anyProgram s = true → s.boot.recovering = false →
    s.sealCtl.zeroed = false →
    Gives .eventLogProgram s (fun t => (∀ k, ldAt t k = { ldAt s k with logsChanged := false }) ∧
      (∀ k p, tkeys (s.ports.lds.filter (fun x => x.2.logsChanged)) = [k] → p < 169 →
        logStored s (logArea k * 169 + p) p ≠ logBody (ldAt s k).logs p →
        ∀ c < 2, ∃ q x, progOf t (.log (logArea k * 169 + p) c) = some q ∧ q.load = .sys x ∧ x.space = 9 + c ∧
          x.lpn = logLpn (logArea k * 169 + p) c ∧ x.body = logBody (ldAt s k).logs p) ∧
      t = { s with way := t.way, chans := t.chans, ports := { s.ports with lds := t.ports.lds } })))

/-- R315, R316: a sweep of a refresh victim leaves the victim SWEEPING and asks for a read of its one overlay parcel;
what the read gives is asked to be programmed on the channel; once the copies are programmed and committed and no read
is on the victim, all its segments are to be reset. -/
def Obligations.Sweeping : Prop :=
  (∀ (s : State) (c k : Nat), s.mainUp = true → inService (chan s c) = true → forbidden (chan s c) = false → maintMay s = true →
    (∀ x ∈ s.way.sweeps, tileCh x.1 ≠ c) → forbiddenTile s c = none → refreshVictim s c = some k →
    (∀ x ∈ s.way.map.bales, (x.2.st ≠ .baled ∧ x.2.st ≠ .sparse) ∨ tileKey (basePpa x.2 0) ≠ k) →
    ((∀ x ∈ s.way.map.overlay, x.2.kind ≠ .located ∨ tileKey x.2.ppa ≠ k) →
      Gives (.sweepTile c) s (fun t => (tileAt t k).st = .sweeping ∧ tget t.way.sweeps k = some { todo := [] } ∧
        k ∉ t.way.refreshTiles ∧ t.medium = s.medium ∧ t.way.map.overlay = s.way.map.overlay)) ∧
    (∀ lpn e, s.way.map.overlay.filter (fun p => p.2.kind == .located && tileKey p.2.ppa == k) = [(lpn, e)] →
      Gives (.sweepTile c) s (fun t => (tileAt t k).st = .sweeping ∧ tget t.way.sweeps k = some { todo := [e.ppa] } ∧
        readHeld t (.sweep k) e.ppa = true ∧
        k ∉ t.way.refreshTiles ∧ t.medium = s.medium ∧ t.way.map.overlay = s.way.map.overlay))) ∧
  (∀ (s : State) (c b k bits lpn : Nat) (it : RdItem) (rest : List RdItem) (j : SweepJob) (l : Load) (e : OvEntry), s.mainUp = true →
    inService (chan s c) = true → (bankOf (chan s c) b).received = it :: rest → it.deep = false → it.retry = 0 → it.reseal = false →
    it.work = .sweep k → tget s.way.sweeps k = some j → loadAt s it.ppa = some l → (lpn, e) ∈ s.way.map.overlay →
    e.kind = .located → e.ppa = it.ppa → progOf s (.sweep k it.ppa) = none →
    Gives (.codewordDecode c b true bits) s (fun t =>
      (∃ p, progOf t (.sweep k it.ppa) = some p ∧ p.load = l ∧ (p.placed = true → ppaCh p.ppa = ppaCh it.ppa)) ∧
      (∃ j', tget t.way.sweeps k = some j' ∧ j'.todo = j.todo.filter (· ≠ it.ppa) ∧ j'.copies = j.copies) ∧
      t.medium = s.medium ∧ t.way.map.overlay = s.way.map.overlay)) ∧
  (∀ (s : State) (c n : Nat) (j : SweepJob), s.mainUp = true → tget s.way.sweeps (c * 1048576 + n) = some j →
    maintMay s = true → inService (chan s c) = true → sweepWhole s (c * 1048576 + n) j = true → sweepCommitted s j = true →
    tileRead (chan s c) (c * 1048576 + n) = false → (tileAt s (c * 1048576 + n)).pfail ≠ 3 →
    Gives (.sweepReset c n) s (fun t => (tileAt t (c * 1048576 + n)).st = .resetting ∧
      tget t.way.sweeps (c * 1048576 + n) = none ∧
      (bankOf (chan t c) (tileBank (c * 1048576 + n))).planned.length =
        (bankOf (chan s c) (tileBank (c * 1048576 + n))).planned.length + (if (tileAt s (c * 1048576 + n)).cls = .dense then 48 else 16) ∧
      t.medium = s.medium ∧ t = { s with chans := t.chans, way := t.way }))

/-- R320, R321, R323, R326: once a second the thermal clocks advance at the rate of each module's highest temperature
in it; a tuning moves one drift set and sends it to the die's banks; a scrub's clean read takes a maintenance transfer
and marks its parcel read; and lost media turns the map's entries on it into POISON and LOST. -/
def Obligations.DriftScrubLoss : Prop :=
  (∀ s : State, s.mainUp = true → s.therm.clocked ≠ secondNow s → Gives .thermalClockAdvance s (fun t =>
    (∀ c x, inService (chan s c) = true → (chan s c).tSec = some x →
      chan t c = { chan s c with clock := (chan s c).clock + 1024 * clockRate x / 3600, tSec := none }) ∧
    (∀ c x, inService (chan s c) = true → (chan s c).tSec = none → (chan s c).tMax = some x →
      chan t c = { chan s c with clock := (chan s c).clock + 1024 * clockRate x / 3600 }) ∧
    (∀ c, inService (chan s c) = false ∨ (chan s c).tSec = none ∧ (chan s c).tMax = none → chan t c = chan s c) ∧
    t = { s with chans := t.chans, therm := { s.therm with clocked := secondNow s } })) ∧
  (∀ s : State, s.mainUp = true → s.therm.clocked = secondNow s → Gives .thermalClockAdvance s (fun t => t = s)) ∧
  (∀ (s : State) (c die set : Nat) (delta o : List Int), s.mainUp = true → inService (chan s c) = true → die < 8 → set < 8 →
    (chan s c).diesOut.getLsbD die = false → tget (chan s c).tuned die = none → s.health.st ≠ 6 → delta.length = 7 →
    (∀ d ∈ delta, -1 ≤ d ∧ d ≤ 1) → (∃ d ∈ delta, d ≠ 0) → tget (chan s c).driftSets (die * 8 + set) = some o → o.length = 7 →
    Gives (.driftSetTune c die set delta) s (fun t =>
      (∃ o', tget (chan t c).driftSets (die * 8 + set) = some o' ∧ o'.length = 7 ∧
        (∀ i < 7, o'[i]! = clampI (-8) 7 (o[i]! + delta[i]!)) ∧
        (∀ b < 16, (bankOf (chan t c) (die * 16 + b)).frame = threshFrame (die * 16 + b) o' (some set))) ∧
      tget (chan t c).tuned die = some (tbNow s) ∧ (∀ e, e ≠ c → chan t e = chan s e) ∧
      t = { s with chans := t.chans, relay := t.relay, cairn := t.cairn })) ∧
  (∀ (s : State) (ppa q bits : Nat), s.mainUp = true → scrubbable s ppa = true → scrubDue s ppa = true → s.belay.step = 0 →
    s.health.st ≠ 6 → recalling s = false → bits ≤ 24 → q ≠ ppa → scrubbable s q = true → q ∉ s.way.scrubbed →
    claimed (chan s (ppaCh ppa)) + (travFloor s (ppaCh ppa) (chan s (ppaCh ppa)).plan.m -
      ((chan s (ppaCh ppa)).plan.m - (chan s (ppaCh ppa)).maintLeft)) < (chan s (ppaCh ppa)).maintLeft →
    2 ≤ (chan s (ppaCh ppa)).slotsLeft →
    Gives (.scrubRead ppa true bits) s (fun t => t.way.scrubbed = s.way.scrubbed ++ [ppa] ∧
      t.way.scrubCorrected = s.way.scrubCorrected + (if bits = 0 then 0 else 1) ∧
      (chan t (ppaCh ppa)).maintLeft = (chan s (ppaCh ppa)).maintLeft - 1 ∧ t.medium = s.medium ∧
      t.way.map.overlay = s.way.map.overlay ∧ t.way.map.bales = s.way.map.bales)) ∧
  (∀ (s : State) (c : Nat), s.mainUp = true → inService (chan s c) = false → (chan s c).heldData = true → maintMay s = true →
    (∃ x ∈ s.way.map.overlay, x.2.kind = .located ∧ ppaCh x.2.ppa = c) →
    Gives (.mediaLossHandling c none) s (fun t =>
      (∀ l e, s.way.map.overlay.filter (fun p => p.1 = l) = [(l, e)] → e.kind = .located → ppaCh e.ppa = c →
        ∃ e', tget t.way.map.overlay l = some e' ∧ e'.kind = .poison ∧ e'.bucket = e.bucket) ∧
      (∀ l b, s.way.map.bales.filter (fun p => p.1 = l) = [(l, b)] → ppaCh (basePpa b 0) = c → b.st = .baled →
        (baleAt t l).st = .lost) ∧
      (∀ l b, s.way.map.bales.filter (fun p => p.1 = l) = [(l, b)] → ppaCh (basePpa b 0) = c → b.st = .sparse →
        (baleAt t l).st = .lostSparse) ∧
      t.medium = s.medium))

/-- R337, R343, R345, R346: an energy computation turns the mean HOLDUP_SENSE into V with SENSE_RATIO, records V and E
= ½ C (V² − V_MIN²), lowers the budgets at once to s = min(1, (E − 0.30 J) ÷ 0.50 J) and holds WRITE_THROUGH at or
below 0.30 J; a raise waits until E has been held for 1 s, and WRITE_THROUGH is released after 1 s at or above 0.34 J.
R340, R341, R342: the capacitance test, when one is due: with headroom it starts at V0 with the budgets of E_low,
HOLDUP_TEST going high once the dirty data has drained, and without headroom it is refused; nothing starts when none
is due; it is postponed after 100 ms, at most nine times in succession; its end stores C, and it fails 500 ms after
HOLDUP_TEST rose. -/
def Obligations.HoldUpEnergy : Prop :=
  ((∀ (s : State) (u : Nat), s.mainUp = true → Gives (.energyComputation u) s (fun t =>
    t.belay.v = u * s.sad.img.belay.senseRatio / 256000 ∧
    (∀ c, s.sad.img.belay.c = some c → t.belay.e = c * (if s.belay.tested then 10 else 9) *
      (100 * t.belay.v * t.belay.v - 100 * s.sad.img.belay.vMin * s.sad.img.belay.vMin) / 100) ∧
    (s.sad.img.belay.c = none → t.belay.e = 0) ∧
    (t.belay.through = true ↔ s.belay.through = true ∨ t.belay.e ≤ 6000000000000) ∧
    (s.belay.test = none → s.belay.step = 0 →
      t.belay.s = min s.belay.s (min 1024 (1024 * (t.belay.e - 6000000000000) / 10000000000000))) ∧
    (s.belay.test ≠ none ∨ s.belay.step ≠ 0 → t.belay.s = s.belay.s ∧ t.belay.raise = s.belay.raise) ∧
    (t.belay.e < 6800000000000 → t.belay.above34 = none) ∧
    t = { s with belay := t.belay, cairn := t.cairn, reck := t.reck, relay := t.relay })) ∧
  (∀ s : State, s.mainUp = true → s.belay.test = none → s.belay.step = 0 → s.belay.s < raiseDue s →
    Gives .budgetRaise s (fun t => t.belay.s = raiseDue s ∧ (∀ p ∈ t.belay.raise, raiseDue s < p.1) ∧
      t.belay.through = s.belay.through ∧ t = { s with belay := t.belay, reck := t.reck })) ∧
  (∀ (s : State) (t0 : Nat), s.mainUp = true → s.belay.above34 = some t0 → t0 + 1000000000 ≤ tbNow s →
    Gives .writeThroughRelease s (fun t => t = { s with belay := { s.belay with through := false } }))) ∧
  ((∀ (s : State) (u : Nat), s.mainUp = true → s.sad.img.belay.rTest ≠ 0 → s.belay.step = 0 → s.belay.notBefore ≤ tbNow s →
    s.belay.test = none → testWanted s = true → 102 * s.sad.img.belay.vTrip * 100 < 90 * bankMv s u * 100 →
    Gives (.capacitanceTestStart u) s (fun t => (∃ x, t.belay.test = some x ∧ x.v0 = bankMv s u ∧ x.startTb = tbNow s ∧
        (x.high = true → t.belay.holdupTest = true)) ∧ t.belay.testDue = false ∧ t.belay.lastTest = tbNow s ∧
      t.belay.s = min s.belay.s (scaleOf (energyAt s (81 * bankMv s u * bankMv s u))) ∧ t.belay.raise = [] ∧
      t = { s with belay := t.belay, cairn := t.cairn, reck := t.reck, relay := t.relay })) ∧
  (∀ (s : State) (u : Nat), s.mainUp = true → s.sad.img.belay.rTest ≠ 0 → s.belay.step = 0 → s.belay.notBefore ≤ tbNow s →
    s.belay.test = none → testWanted s = true → 90 * bankMv s u * 100 ≤ 102 * s.sad.img.belay.vTrip * 100 →
    Gives (.capacitanceTestStart u) s (fun t => t = emit 0x0F05 0xFF 2 (bankMv s u) 0 0
      { s with belay := { s.belay with testDue := false, lastTest := tbNow s } })) ∧
  (∀ (s : State) (u : Nat), s.mainUp = true → s.belay.test = none → testWanted s = false →
    Gives (.capacitanceTestStart u) s (fun t => t = s)) ∧
  (∀ (s : State) (x : CapTest), s.mainUp = true → s.belay.test = some x → x.high = false → x.startTb + 100000000 ≤ tbNow s →
    (s.belay.postponed < 9 → Gives .capacitanceTestPostpone s (fun t => t.belay.test = none ∧
      t.belay.postponed = s.belay.postponed + 1 ∧ t.belay.notBefore = tbNow s + 60000000000 ∧ t.belay.testDue = true ∧
      t.belay.holdupTest = false ∧ t = { s with belay := t.belay })) ∧
    (9 ≤ s.belay.postponed → Gives .capacitanceTestPostpone s (fun t => t.belay.test = none ∧ t.belay.postponed = 0 ∧
      t.belay.holdupTest = false ∧ t = { s with belay := t.belay, cairn := t.cairn, relay := t.relay }))) ∧
  (∀ (s : State) (x : CapTest) (us : Nat), s.mainUp = true → s.belay.test = some x → x.high = true → s.sad.img.belay.rTest ≠ 0 →
    Gives (.capacitanceTestEnd us) s (fun t => t.belay.test = none ∧ t.belay.tested = true ∧ t.belay.postponed = 0 ∧
      t.belay.holdupTest = false ∧ t.sad.img.belay = { s.sad.img.belay with
        c := some (us * 1000 * 10000000000000000 / (s.sad.img.belay.rTest * 851578083403068)), testTb := tbNow s } ∧
      rk 14 0 ∈ t.sad.dirty ∧ t.cache = s.cache)) ∧
  (∀ (s : State) (x : CapTest), s.mainUp = true → s.belay.test = some x → x.high = true → x.startTb + 500000000 ≤ tbNow s →
    Gives .capacitanceTestTimeout s (fun t => t.belay.test = none ∧ t.belay.holdupTest = false ∧ t.sad = s.sad ∧
      t.belay.tested = s.belay.tested)))

/-- R348, R350, R353, R354, R142: with Synet running, PFAIL_N low, a crossing of V_TRIP and a commanded flush start
step 1 with their cause; the latch holds the record, the planner is in emergency mode, no request waits or holds a
credit, and every DIRTY line, and every FILLING line with dirty sectors, is chosen for eviction. R349, R353, R210,
R232: the steps of a flush follow each other: each ended step starts the next; step 1 with the slots in place, or with
the system keys derived again; step 2 once every bank is calm; step 3 only with every line and eviction out; the tree
is written back, and the Summit stored, before step 5; the commit of step 5 holds STATE 7 and is stored whole; and
step 6 hands over to Rope's power-down, or restarts the main die where a reset asked for the flush. -/
def Obligations.Flush : Prop :=
  (∀ (s : State) (c : Instr) (cause : Nat), s.mainUp = true → s.boot.running = true → s.belay.step = 0 →
    (c = .pfailNLow ∧ cause = 1 ∨ c = .vTripCrossing ∧ cause = 2 ∨ c = .flushStart cause ∧ 1 ≤ cause ∧ cause ≤ 6) →
    Gives c s (fun t => t.belay.step = 1 ∧ t.belay.cause = cause ∧ t.belay.startTb = tbNow s ∧
      (c = .pfailNLow → t.belay.pfail = true) ∧
      (∃ f, t.belay.latch = some f ∧ f.state = 1 ∧ f.cause = cause ∧ f.start = tbNow s ∧ f.parts = dirtyParts s) ∧
      t.planner.emergency = true ∧ t.cache.waiting = [] ∧ t.cache.budgetWait = [] ∧ t.cache.fills = [] ∧ t.cache.throughWait = [] ∧
      (∀ p, (port t p).reqCredits = 0 ∨ tget s.ports.ports p = none) ∧
      (∀ k l, (k, l) ∈ s.cache.lines → l.st = .dirty ∨ (l.st = .filling ∧ l.dirty ≠ 0) →
        ∃ d ∈ t.cache.evDue, d.lpn = l.lpn ∧ d.why = .flush) ∧
      (∀ k x, (k, x) ∈ t.chans → ∀ r ∈ x.deepWait, r.flush = true) ∧
      t.medium = s.medium ∧ t.sad = s.sad ∧ t.sealCtl = s.sealCtl)) ∧
  ((∀ (s : State) (v : Nat), s.mainUp = true → (s.belay.step = 1 ∧ s.sealCtl.zeroed = false ∨ s.belay.step = 2 ∧ banksCalm s = true) →
    Gives (.flushStepAdvance v) s (fun t => t.belay.step = s.belay.step + 1 ∧
      (∀ f, s.belay.latch = some f → t.belay.latch = some { f with state := s.belay.step + 1 }) ∧ t = { s with belay := t.belay })) ∧
  (∀ (s : State) (v : Nat), s.mainUp = true → s.belay.step = 1 → s.sealCtl.zeroed = true → s.boot.recovering = false →
    Gives (.flushStepAdvance v) s (fun t => t.belay.step = 2 ∧ t.sealCtl.zeroed = false ∧ t.sealCtl.kwk = some (kwkOf s) ∧
      t.sealCtl.sysKeys = (List.range 3).map (fun i => (i, sysKeyOf s i)) ∧ t.medium = s.medium ∧ t.cache = s.cache)) ∧
  (∀ (s : State) (v : Nat), s.mainUp = true → (s.belay.step = 2 ∧ banksCalm s = false ∨ s.belay.step = 3 ∧ linesOut s = false) →
    Gives (.flushStepAdvance v) s (fun t => t = s)) ∧
  (∀ (s : State) (v : Nat), s.mainUp = true → s.belay.step = 3 → linesOut s = true → treeMay s = true → storeAllowed s = true →
    s.sealCtl.ckptLevel = none → s.sealCtl.dirtyOrder = [] → (∀ l, treeFlying s l = false) →
    Gives (.flushStepAdvance v) s (fun t => t.belay.step = 4 ∧ t.keeper.summitSeq = s.keeper.summitSeq + 1 ∧
      (t.keeper.nvA = some (t.keeper.summitSeq, t.keeper.summit) ∨ t.keeper.nvB = some (t.keeper.summitSeq, t.keeper.summit)) ∧
      t.sealCtl = s.sealCtl ∧ t.cache = s.cache ∧ t.medium = s.medium)) ∧
  (∀ (s : State) (v : Nat), s.mainUp = true → s.belay.step = 4 → s.sealCtl.ckptLevel = none → s.keeper.summitWaits = false →
    Gives (.flushStepAdvance v) s (fun t => t.belay.step = 5 ∧ t.reck.closing = none ∧
      (s.boot.recovering = false → s.sealCtl.zeroed = false → ∀ k, (ldAt t k).logsChanged = false) ∧
      t.relay.evq10 = [] ∧ t.relay.evq11 = [])) ∧
  (∀ (s : State) (v : Nat), s.mainUp = true → s.belay.step = 4 → s.sealCtl.ckptLevel = none → s.keeper.summitWaits = true →
    storeAllowed s = false → Gives (.flushStepAdvance v) s (fun t => t = s)) ∧
  (∀ (s : State) (v : Nat), s.mainUp = true → s.belay.step = 5 → booksOut (booksGoOn s) = true → storeAllowed (booksGoOn s) = true →
    Gives (.flushStepAdvance v) s (fun t => t.belay.step = 6 ∧ t.belay.latch = none ∧ t.sad.img.flush.state = 7 ∧
      t.sad.running = none ∧ t.sad.dirty = [] ∧ t.keeper.flushArea = none)) ∧
  (∀ (s : State) (v : Nat), s.mainUp = true → s.belay.step = 6 → Gives (.flushStepAdvance v) s (fun t => t.mainUp = false ∧
    (s.belay.cause ≠ 6 → t.rope.st = .falling ∧ t.rope.driveLow = true ∧ t.rope.downCause = 1 ∧ t.rope.flushCause = s.belay.cause) ∧
    (s.belay.cause = 6 → s.belay.pfail = false → t.rope = s.rope) ∧
    t.medium.cells = s.medium.cells ∧ t.medium.sys = s.medium.sys ∧ t.boot.flash = s.boot.flash)))

/-- R363, R364, R366, R368, R361: what PPS edges do to the timebase: in LOCKED an edge within 1 ms disciplines ADJ and
slews the phase error away, one beyond it is rejected, and the third in succession leaves LOCKED; 1.5 s without an
edge enter HOLDOVER with the mean ADJ of the last 60 s; an armed time is dropped after 2 s; a slew ends. TB itself
moves in none of these. R25, R363: losing TIME_REF enters REF_LOST, and its return leaves it for ACQUIRING, or FREE
without a PPS source. -/
def Obligations.Timebase : Prop :=
  ((∀ (s : State) (b : Bool) (e : Int), s.mainUp = true → s.reck.cfgNext = none → s.reck.cfg.present = true →
    b = !s.reck.cfg.falling → s.reck.st = .locked → s.reck.arm = none → 999000000 ≤ s.reck.sinceEdge →
    e = ((tbNow s : Int) - s.reck.cfg.delay) - ((tbNow s : Int) - s.reck.cfg.delay + 500000000) / 1000000000 * 1000000000 →
    e.natAbs ≤ 1000000 → Gives (.ppsEdge b) s (fun t => t.reck.tb = s.reck.tb ∧ t.reck.st = .locked ∧ t.reck.lastE = e ∧
      t.reck.lastEdge = tbNow s ∧ t.reck.sinceEdge = 0 ∧ t.reck.rejRun = 0 ∧
      t.reck.adj = clampI (-429497) 429497 (Config.ppsLoop s.reck.adj e) ∧ t.reck.slewLeft = e.natAbs * 4294967296 ∧
      t.reck.slew = (if 0 < e then -429497 else if e < 0 then 429497 else 0) ∧ t = { s with reck := t.reck })) ∧
  (∀ (s : State) (b : Bool) (e : Int), s.mainUp = true → s.reck.cfgNext = none → s.reck.cfg.present = true →
    b = !s.reck.cfg.falling → s.reck.st = .locked →
    e = ((tbNow s : Int) - s.reck.cfg.delay) - ((tbNow s : Int) - s.reck.cfg.delay + 500000000) / 1000000000 * 1000000000 →
    1000000 < e.natAbs → Gives (.ppsEdge b) s (fun t => t.reck.tb = s.reck.tb ∧ t.reck.adj = s.reck.adj ∧
      t.reck.slew = s.reck.slew ∧ t.reck.lastE = e ∧ t.reck.lastEdge = s.reck.lastEdge ∧
      (s.reck.rejRun < 2 → t.reck.st = .locked ∧ t.reck.rejRun = s.reck.rejRun + 1) ∧
      (2 ≤ s.reck.rejRun → t.reck.st = .acquiring ∧ t.reck.rejRun = 0))) ∧
  (∀ s : State, s.mainUp = true → (s.reck.st = .acquiring ∨ s.reck.st = .locked) → 1500000000 ≤ s.reck.sinceEdge →
    Gives .ppsEdgeTimeout s (fun t => t.reck.st = .holdover ∧ t.reck.tb = s.reck.tb ∧
      t.reck.adj = (if 60 ≤ s.reck.adjHist.length then (s.reck.adjHist.foldl (· + ·) 0) / 60 else s.reck.adj) ∧
      t = { s with reck := t.reck, relay := t.relay, cairn := t.cairn })) ∧
  (∀ (s : State) (n : Nat), s.mainUp = true → s.reck.arm = some n → 2000000000 ≤ s.reck.armAge →
    Gives .atPpsArmDrop s (fun t => t = { s with reck := { s.reck with arm := none, armAge := 0, armDropped := true } })) ∧
  (∀ s : State, s.mainUp = true → s.reck.slewLeft = 0 → Gives .slewEnd s (fun t => t = { s with reck := { s.reck with slew := 0 } })) ∧
  (∀ s : State, s.mainUp = true → Gives .tbToKeeper s (fun t =>
    t = { s with keeper := { s.keeper with lastTb := tbNow s, since := 0, tbKnown := true } }))) ∧
  ((∀ s : State, s.mainUp = true → Gives .timeRefLoss s (fun t => t.timeRef = false ∧ t.reck.st = .refLost ∧
    t.reck.tb = s.reck.tb ∧ t = { s with timeRef := false, reck := t.reck, relay := t.relay, cairn := t.cairn })) ∧
  (∀ s : State, s.mainUp = true → s.reck.st = .refLost → Gives .timeRefReturn s (fun t => t.timeRef = true ∧
    t.reck.st = (if s.reck.cfg.present then .acquiring else .free) ∧ t.reck.tb = s.reck.tb ∧
    t = { s with timeRef := true, reck := t.reck, relay := t.relay, cairn := t.cairn })))

/-- R376 to R383: entering a later minute closes the open bank at the minute's end and opens an empty one; sealing
puts the closing bank into its ring slot and sets TIMEKEEP to commit; the ledger takes the oldest sealed minute, one
block at a time, and a block all of whose parcels have passed verify commits its minute. -/
def Obligations.Minutes : Prop :=
  (∀ s : State, s.mainUp = true → s.boot.running = true → s.reck.openBank.minute < tbNow s / 60000000000 →
    Gives .minuteBoundary s (fun t => t.reck.openBank.minute = tbNow s / 60000000000 ∧ t.reck.openBank.recs = [] ∧
      t.reck.openBank.hists = [] ∧ t.reck.openAge = 0 ∧ t.reck.tb = s.reck.tb ∧
      (∃ b, t.reck.closing = some b ∧ b.minute = s.reck.openBank.minute ∧ b.closeTs = (s.reck.openBank.minute + 1) * 60000000000 ∧
        b.hists = s.reck.openBank.hists) ∧ t.medium = s.medium ∧ t.cache = s.cache)) ∧
  (∀ (s : State) (b : MinuteBank), s.mainUp = true → 10000 ≤ s.reck.openAge → s.reck.closing = some b →
    Gives .minuteSeal s (fun t => t.reck.closing = none ∧ t.reck.lastClosed = some b.minute ∧
      tget t.reck.ring (b.minute % 1440) = some { bank := { b with counts := [] }, sealTb := tbNow s } ∧
      t.sad.img.keep.lastMinute = b.minute ∧ t.sad.img.keep.adj = s.reck.adj ∧ t.sad.img.keep.tod = s.reck.tod ∧
      rk 17 0 ∈ t.sad.dirty ∧ t.reck.openBank = s.reck.openBank ∧ t.cache = s.cache ∧ t.medium = s.medium)) ∧
  (∀ (s t' : State) (k : Nat) (r : RingSlot), s.mainUp = true → s.reck.block = none → oldestOpen s = some (k, r) → ledgerMay s = true →
    chainSlot (r.bank.minute % 64800) s = some t' → Gives .ledgerCommit s (fun t =>
      t.reck.block = some r.bank.minute ∨ t.reck.block = none ∧ (tget s.reck.ring (r.bank.minute % 1440)).filter (fun x => x.bank.minute = r.bank.minute) = none)) ∧
  (∀ (s : State) (m : Nat) (r : RingSlot), s.mainUp = true → s.reck.block = some m → 512 ≤ s.reck.blockNext → blockFlying s m = false →
    tget s.reck.ring (m % 1440) = some r → Gives .ledgerCommit s (fun t =>
      tget t.reck.ring (m % 1440) = some { r with committed := true } ∧ t.reck.closing = s.reck.closing ∧ t.cache = s.cache ∧ t.medium = s.medium)) ∧
  (∀ (s : State) (m : Nat), s.mainUp = true → s.reck.block = some m → blockFlying s m = true →
    (∃ r, tget s.reck.ring (m % 1440) = some r ∧ r.bank.minute = m) → Gives .ledgerCommit s (fun t => t = s))

/-- R393, R396, R407, R412 to R420: an MCTP request with an opcode is that opcode's command, on the MCTP path; and the
doorbell of an LD's mailbox takes the command whose opcode its Command register holds. An MCTP control message is
answered beside any command, and Set Endpoint ID sets the endpoint's ID (its layout is DSP0236's, assumption log entry
3). -/
def Obligations.OpcodesOfCommands : Prop :=
  (∀ (s : State) (i : List Byte),
    exec (.mctpRequest (.command 0x0001) i) s = exec (.identify .mctp i) s ∧ exec (.mctpRequest (.command 0x0002) i) s = exec (.backgroundOperationStatus .mctp i) s ∧
    exec (.mctpRequest (.command 0x0100) i) s = exec (.getEventRecords .mctp i) s ∧ exec (.mctpRequest (.command 0x0101) i) s = exec (.clearEventRecords .mctp i) s ∧
    exec (.mctpRequest (.command 0x0102) i) s = exec (.getEventInterruptPolicy .mctp i) s ∧ exec (.mctpRequest (.command 0x0103) i) s = exec (.setEventInterruptPolicy .mctp i) s ∧
    exec (.mctpRequest (.command 0x0200) i) s = exec (.getFwInfo .mctp i) s ∧ exec (.mctpRequest (.command 0x0201) i) s = exec (.transferFw .mctp i) s ∧
    exec (.mctpRequest (.command 0x0202) i) s = exec (.activateFw .mctp i) s ∧ exec (.mctpRequest (.command 0x0300) i) s = exec (.getTimestamp .mctp i) s ∧
    exec (.mctpRequest (.command 0x0301) i) s = exec (.setTimestamp .mctp i) s ∧ exec (.mctpRequest (.command 0x0400) i) s = exec (.getSupportedLogs .mctp i) s ∧
    exec (.mctpRequest (.command 0x0401) i) s = exec (.getLog .mctp i) s ∧ exec (.mctpRequest (.command 0x4000) i) s = exec (.identifyMemoryDevice .mctp i) s ∧
    exec (.mctpRequest (.command 0x4200) i) s = exec (.getHealthInfo .mctp i) s ∧ exec (.mctpRequest (.command 0x4201) i) s = exec (.getAlertConfiguration .mctp i) s ∧
    exec (.mctpRequest (.command 0x4202) i) s = exec (.setAlertConfiguration .mctp i) s ∧ exec (.mctpRequest (.command 0x5400) i) s = exec (.getLdInfo .mctp i) s ∧
    exec (.mctpRequest (.command 0x5401) i) s = exec (.getLdAllocations .mctp i) s ∧ exec (.mctpRequest (.command 0x5604) i) s = exec (.initiateDynamicCapacityAdd .mctp i) s ∧
    exec (.mctpRequest (.command 0x5605) i) s = exec (.initiateDynamicCapacityRelease .mctp i) s) ∧
  (∀ (s : State) (i : List Byte),
    exec (.mctpRequest (.command 0xC000) i) s = exec (.getDeviceInfo .mctp i) s ∧ exec (.mctpRequest (.command 0xC001) i) s = exec (.setPortConfig .mctp i) s ∧
    exec (.mctpRequest (.command 0xC002) i) s = exec (.getPortConfig .mctp i) s ∧ exec (.mctpRequest (.command 0xC003) i) s = exec (.setStageConfig .mctp i) s ∧
    exec (.mctpRequest (.command 0xC004) i) s = exec (.getStageConfig .mctp i) s ∧ exec (.mctpRequest (.command 0xC005) i) s = exec (.getHealth .mctp i) s ∧
    exec (.mctpRequest (.command 0xC006) i) s = exec (.getLastXstatus .mctp i) s ∧ exec (.mctpRequest (.command 0xC100) i) s = exec (.createPartition .mctp i) s ∧
    exec (.mctpRequest (.command 0xC101) i) s = exec (.deletePartition .mctp i) s ∧ exec (.mctpRequest (.command 0xC102) i) s = exec (.addLegs .mctp i) s ∧
    exec (.mctpRequest (.command 0xC103) i) s = exec (.removeLegs .mctp i) s ∧ exec (.mctpRequest (.command 0xC104) i) s = exec (.getPartition .mctp i) s ∧
    exec (.mctpRequest (.command 0xC105) i) s = exec (.setLdMap .mctp i) s ∧ exec (.mctpRequest (.command 0xC106) i) s = exec (.getLdMap .mctp i) s ∧
    exec (.mctpRequest (.command 0xC107) i) s = exec (.setContract .mctp i) s ∧ exec (.mctpRequest (.command 0xC108) i) s = exec (.getContract .mctp i) s ∧
    exec (.mctpRequest (.command 0xC109) i) s = exec (.setQos .mctp i) s ∧ exec (.mctpRequest (.command 0xC10A) i) s = exec (.thaw .mctp i) s ∧
    exec (.mctpRequest (.command 0xC10B) i) s = exec (.getFreeze .mctp i) s ∧ exec (.mctpRequest (.command 0xC10C) i) s = exec (.getPartitionList .mctp i) s) ∧
  (∀ (s : State) (i : List Byte),
    exec (.mctpRequest (.command 0xC200) i) s = exec (.getTimebase .mctp i) s ∧ exec (.mctpRequest (.command 0xC201) i) s = exec (.setTimeConfig .mctp i) s ∧
    exec (.mctpRequest (.command 0xC202) i) s = exec (.getTimeConfig .mctp i) s ∧ exec (.mctpRequest (.command 0xC203) i) s = exec (.setTimeOfDay .mctp i) s ∧
    exec (.mctpRequest (.command 0xC204) i) s = exec (.getMeters .mctp i) s ∧ exec (.mctpRequest (.command 0xC205) i) s = exec (.getHistogram .mctp i) s ∧
    exec (.mctpRequest (.command 0xC300) i) s = exec (.flushRange .mctp i) s ∧ exec (.mctpRequest (.command 0xC301) i) s = exec (.invalidateRange .mctp i) s ∧
    exec (.mctpRequest (.command 0xC302) i) s = exec (.zeroRange .mctp i) s ∧ exec (.mctpRequest (.command 0xC400) i) s = exec (.traverse .mctp i) s ∧
    exec (.mctpRequest (.command 0xC401) i) s = exec (.getTraverse .mctp i) s ∧ exec (.mctpRequest (.command 0xC500) i) s = exec (.getMediaHealth .mctp i) s ∧
    exec (.mctpRequest (.command 0xC501) i) s = exec (.adoptModule .mctp i) s ∧ exec (.mctpRequest (.command 0xC502) i) s = exec (.setDroverConfig .mctp i) s ∧
    exec (.mctpRequest (.command 0xC503) i) s = exec (.getDroverConfig .mctp i) s ∧ exec (.mctpRequest (.command 0xC600) i) s = exec (.setBelayConfig .mctp i) s ∧
    exec (.mctpRequest (.command 0xC601) i) s = exec (.getBelayConfig .mctp i) s ∧ exec (.mctpRequest (.command 0xC602) i) s = exec (.preparePowerOff .mctp i) s ∧
    exec (.mctpRequest (.command 0xC603) i) s = exec (.getRopeStatus .mctp i) s ∧ exec (.mctpRequest (.command 0xC604) i) s = exec (.setPitchTable .mctp i) s ∧
    exec (.mctpRequest (.command 0xC605) i) s = exec (.getPitchTable .mctp i) s ∧ exec (.mctpRequest (.command 0xC606) i) s = exec (.getThermal .mctp i) s ∧
    exec (.mctpRequest (.command 0xC700) i) s = exec (.getCairnInfo .mctp i) s ∧ exec (.mctpRequest (.command 0xC701) i) s = exec (.cairnRead .mctp i) s ∧
    exec (.mctpRequest (.command 0xC702) i) s = exec (.getCairnHistogram .mctp i) s ∧ exec (.mctpRequest (.command 0xC800) i) s = exec (.getBootInfo .mctp i) s ∧
    exec (.mctpRequest (.command 0xC801) i) s = exec (.confirmFw .mctp i) s ∧ exec (.mctpRequest (.command 0xC802) i) s = exec (.getResetInfo .mctp i) s ∧
    exec (.mctpRequest (.command 0xC803) i) s = exec (.clearResetInfo .mctp i) s ∧ exec (.mctpRequest (.command 0xC804) i) s = exec (.warmReset .mctp i) s ∧
    exec (.mctpRequest (.command 0xC805) i) s = exec (.getLifecycle .mctp i) s) ∧
  (∀ (s : State) (q l op : Nat) (i : List Byte), s.mainUp = true → (ldAt s (ldKey q l)).mbox.doorbell = false →
    (ldAt s (ldKey q l)).mbox.opcode = op → (ldAt s (ldKey q l)).mbox.len = i.length →
    padTo i.length (ldAt s (ldKey q l)).mbox.payload = i →
    (op = 0x4100 → exec (.mailboxDoorbell q l) s = exec (.getPartitionInfo (.ld q l) i) s) ∧
    (op = 0x4203 → exec (.mailboxDoorbell q l) s = exec (.getShutdownState (.ld q l) i) s) ∧
    (op = 0x4204 → exec (.mailboxDoorbell q l) s = exec (.setShutdownState (.ld q l) i) s) ∧
    (op = 0x4300 → exec (.mailboxDoorbell q l) s = exec (.getPoisonList (.ld q l) i) s) ∧
    (op = 0x4301 → exec (.mailboxDoorbell q l) s = exec (.injectPoison (.ld q l) i) s) ∧
    (op = 0x4302 → exec (.mailboxDoorbell q l) s = exec (.clearPoison (.ld q l) i) s) ∧
    (op = 0x4800 → exec (.mailboxDoorbell q l) s = exec (.getDynamicCapacityConfiguration (.ld q l) i) s) ∧
    (op = 0x4801 → exec (.mailboxDoorbell q l) s = exec (.getDynamicCapacityExtentList (.ld q l) i) s) ∧
    (op = 0x4802 → exec (.mailboxDoorbell q l) s = exec (.addDynamicCapacityResponse (.ld q l) i) s) ∧
    (op = 0x4803 → exec (.mailboxDoorbell q l) s = exec (.releaseDynamicCapacity (.ld q l) i) s) ∧
    (op = 0xC300 → exec (.mailboxDoorbell q l) s = exec (.flushRange (.ld q l) i) s) ∧
    (op = 0x0300 → exec (.mailboxDoorbell q l) s = exec (.getTimestamp (.ld q l) i) s)) ∧
  (∀ (s : State) (code : Nat) (d : List Byte), s.mainUp = true → Gives (.mctpRequest (.control code) d) s (fun t =>
    t = { s with ep := t.ep } ∧ (code ≠ 1 → t.ep.eid = s.ep.eid) ∧ (code = 2 → t.ep.reply = [0] ++ toLe 1 s.ep.eid ++ [0, 0]) ∧
    (code = 5 → t.ep.reply = [0, 1, 8]) ∧
    (code = 1 → d.length = 2 → fld d 0 1 % 4 < 2 → fld d 1 1 ≠ 0 → fld d 1 1 ≠ 255 → t.ep.eid = fld d 1 1)))

/-- R392, R394, R396, R397, R399, R406, R421 to R424: when a command is turned away, with what return code and detail,
and that nothing but its context and Cairn's records changes; and that Get Timestamp is answered on both paths. Which
detail an opcode of no table takes is the model's reading (assumption log entry 36). -/
def Obligations.CommandsTurnedAway : Prop :=
  (∀ (s : State) (p : Path) (op : Nat) (i : List Byte), Ready p s → cmdInfo op = none →
    (0xC000 ≤ op → Gives (.unsupportedOpcode p op i) s (fun t => Turned p 3 0x0D88 0xFFF t ∧ OnlyCtx p s t)) ∧
    (op < 0xC000 → Gives (.unsupportedOpcode p op i) s (fun t => Turned p 3 0x0D82 0xFFF t ∧
      OnlyCtx p { s with reck := t.reck } t ∧ t.reck.tb = s.reck.tb))) ∧
  (∀ (s : State) (p : Path) (i : List Byte), Ready p s →
    Gives (.setTimestamp p i) s (fun t => Turned p 3 0x0D82 0xFFF t ∧ OnlyCtx p { s with reck := t.reck } t ∧ t.reck.tb = s.reck.tb)) ∧
  (∀ s : State, s.mainUp = true → s.mctp.wait = none →
    (recalling s = false → s.health.st ≠ 6 → Reads (.mctpRequest (.command 0x0300) []) .mctp s (toLe 8 (tbNow s))) ∧
    (∀ (op : Nat) (i : List Byte) (c : CmdInfo), cmdInfo op = some c → c.frm.getLsbD 2 = false →
      Gives (.mctpRequest (.command op) i) s (fun t => Turned .mctp 3 0x0D82 0xFFF t ∧ OnlyCtxLog .mctp { s with reck := t.reck } t)) ∧
    (∀ (op : Nat) (i : List Byte) (c : CmdInfo), cmdInfo op = some c → c.frm.getLsbD 2 = true →
      (recalling s = true → op ∉ recallSet → Gives (.mctpRequest (.command op) i) s (fun t => Turned .mctp 6 0x1080 0xFFF t ∧
        (ctx t .mctp).xRecall = true ∧ OnlyCtxLog .mctp s t)) ∧
      (recalling s = false → s.health.st = 6 → op ∉ bivouacSet → Gives (.mctpRequest (.command op) i) s (fun t => Turned .mctp 7 0x0D85 0xFFF t ∧
        (ctx t .mctp).xBivouac = true ∧ OnlyCtxLog .mctp s t)) ∧
      (recalling s = false → s.health.st ≠ 6 → op ∈ backgroundSet → s.mctp.bg.isSome = true →
        (∀ b n, s.mctp.bg = some b → b.job ≠ .activate n) →
        Gives (.mctpRequest (.command op) i) s (fun t => Turned .mctp 6 0x0D86 0xFFF t ∧ OnlyCtx .mctp s t ∧ t.mctp.bg = s.mctp.bg)))) ∧
  (∀ (s : State) (op : Nat) (i : List Byte) (w : WaitCmd), s.mainUp = true → s.mctp.wait = some w →
    Gives (.mctpRequest (.command op) i) s (fun t => t.mctp.retCode = 6 ∧ t.mctp.detail = 0x0D87 ∧ t.mctp.wait = some w ∧ OnlyCtx .mctp s t)) ∧
  (∀ (s : State) (q l : Nat), s.mainUp = true → (ldAt s (ldKey q l)).mbox.doorbell = true →
    Gives (.mailboxDoorbell q l) s (fun t => t = s)) ∧
  (∀ (s : State) (q l : Nat) (c : CmdInfo), Ready (.ld q l) s → (ldAt s (ldKey q l)).mbox.doorbell = false →
    cmdInfo (ldAt s (ldKey q l)).mbox.opcode = some c → c.frm.getLsbD (pathRole s (.ld q l)) = true → recalling s = false →
    (s.health.st = 6 → pathRole s (.ld q l) = 0 → Gives (.mailboxDoorbell q l) s (fun t => Turned (.ld q l) 7 0x0D85 0xFFF t ∧
      (ctx t (.ld q l)).xBivouac = true ∧ OnlyCtxLog (.ld q l) s t)) ∧
    (s.health.st ≠ 6 → ldFrozen s q l = true → (ldAt s (ldKey q l)).mbox.opcode ∉ frozenSet →
      Gives (.mailboxDoorbell q l) s (fun t => Turned (.ld q l) 7 0x0D89 0xFFF t ∧ (ctx t (.ld q l)).xFrozen = true ∧
        OnlyCtxLog (.ld q l) s t)) ∧
    (s.health.st = 5 → ldFrozen s q l = false → (ldAt s (ldKey q l)).mbox.opcode ∈ programSet →
      (ldAt s (ldKey q l)).mbox.bg = none → Gives (.mailboxDoorbell q l) s (fun t => Turned (.ld q l) 7 0x0D8A 0xFFF t ∧
        OnlyCtxLog (.ld q l) s t))) ∧
  (∀ (s : State) (q l : Nat), Ready (.ld q l) s → (ldAt s (ldKey q l)).mbox.doorbell = false →
    (ldAt s (ldKey q l)).mbox.opcode = 0x0300 → (ldAt s (ldKey q l)).mbox.len = 0 → recalling s = false → s.health.st ≠ 6 →
    Reads (.mailboxDoorbell q l) (.ld q l) s (toLe 8 (tbNow s)))

/-- R65, R67, R68, R399, R407, R408: what Identify, Background Operation Status, the event log reads, the time, the
logs, Identify Memory Device, the partition, shutdown and alert reads answer. Each changes nothing but its command
context. Payload layouts that the manual leaves to the CXL Specification are the model's (assumption log entry 10). -/
def Obligations.StandardReads : Prop :=
  (∀ (s : State) (p : Path) (i : List Byte), Admitted cmdIdentify p i s → ∃ out, Reads (.identify p i) p s out ∧
    out.length = 18 ∧ fld out 0 2 = 0x1D7E ∧ fld out 2 2 = 0x1280 ∧ fld out 8 8 = Config.unitId.toNat % 2 ^ 64 ∧ fld out 17 1 = 3) ∧
  (∀ (s : State) (p : Path) (i : List Byte), Admitted cmdBgStatus p i s → ∃ out, Reads (.backgroundOperationStatus p i) p s out ∧
    out.length = 8 ∧ fld out 0 1 = (2 * (ctx s p).bgPct + (if (ctx s p).bgShown then 1 else 0)) % 256 ∧
    fld out 2 2 = (ctx s p).bgOpcode % 65536 ∧ fld out 4 2 = (ctx s p).bgRet % 65536 ∧ fld out 6 2 = (ctx s p).bgDetail % 65536) ∧
  (∀ (s : State) (p : Path) (i : List Byte) (k : Nat), Admitted cmdGetEventRecords p i s → pathLd s p = some k → fld i 0 1 < 4 →
    ∃ out, Reads (.getEventRecords p i) p s out ∧
      (let g := (ldAt s k).logs.getD (fld i 0 1) {}
       fld out 0 1 = (if g.overflow then 1 else 0) ∧ fld out 2 2 = min 65535 g.dropped ∧ fld out 20 2 = g.recs.length % 65536 ∧
       out.length = 32 + 128 * g.recs.length ∧
       ∀ j e, g.recs[j]? = some e → bytesAt out (32 + 128 * j) 128 = eventBytes (fld i 0 1) e)) ∧
  (∀ (s : State) (p : Path) (i : List Byte), Admitted cmdGetEventInterruptPolicy p i s →
    Reads (.getEventInterruptPolicy p i) p s (zeros (if logNamed s p 4 then 5 else 4))) ∧
  (∀ (s : State) (p : Path) (i : List Byte), Admitted cmdGetTimestamp p i s →
    ∃ out, Reads (.getTimestamp p i) p s out ∧ out.length = 8 ∧ fld out 0 8 = tbNow s % 2 ^ 64) ∧
  (∀ (s : State) (p : Path) (i : List Byte), Admitted cmdGetSupportedLogs p i s → ∃ out, Reads (.getSupportedLogs p i) p s out ∧
    out.length = 28 ∧ fld out 0 2 = 1 ∧ bytesAt out 8 16 = celUuid ∧
    fld out 24 4 = 4 * (cmdTable.filter (fun c => c.frm.getLsbD (pathRole s p))).length) ∧
  (∀ (s : State) (p : Path) (i : List Byte), Admitted cmdGetLog p i s → bytesAt i 0 16 = celUuid →
    fld i 16 4 + fld i 20 4 ≤ 4 * (cmdTable.filter (fun c => c.frm.getLsbD (pathRole s p))).length →
    ∃ out, Reads (.getLog p i) p s out ∧ out.length = fld i 20 4 ∧
      ∀ j c, fld i 16 4 = 0 → (cmdTable.filter (fun c => c.frm.getLsbD (pathRole s p)))[j]? = some c → 4 * j + 4 ≤ fld i 20 4 →
        fld out (4 * j) 2 = c.op) ∧
  (∀ (s : State) (p : Path) (i : List Byte), Admitted cmdIdentifyMemoryDevice p i s → ∃ out, Reads (.identifyMemoryDevice p i) p s out ∧
    fld out 16 8 = 4 * pathLegs s p % 2 ^ 64 ∧ fld out 24 8 = 0 ∧ fld out 32 8 = 4 * pathLegs s p % 2 ^ 64 ∧ fld out 40 8 = 0 ∧
    fld out 48 2 = 64 ∧ fld out 50 2 = 64 ∧ fld out 52 2 = 64 ∧ fld out 54 2 = 16 ∧ fld out 56 4 = 0 ∧ fld out 60 3 = 256 ∧ fld out 63 2 = 8) ∧
  (∀ (s : State) (p : Path) (i : List Byte), Admitted cmdGetPartitionInfo p i s → ∃ out, Reads (.getPartitionInfo p i) p s out ∧
    out.length = 32 ∧ fld out 0 8 = 0 ∧ fld out 8 8 = 4 * pathLegs s p % 2 ^ 64 ∧ fld out 16 8 = 0 ∧ fld out 24 8 = 0) ∧
  (∀ (s : State) (p : Path) (i : List Byte) (k : Nat), Admitted cmdGetShutdownState p i s → pathLd s p = some k →
    Reads (.getShutdownState p i) p s [BitVec.ofNat 8 (ldAt s k).shutdown]) ∧
  (∀ (s : State) (p : Path) (i : List Byte) (k : Nat), Admitted cmdGetAlertConfiguration p i s → pathLd s p = some k →
    ∃ out, Reads (.getAlertConfiguration p i) p s out ∧ out.length = 16 ∧ fld out 0 1 = (ldAt s k).alertValid.toNat ∧
      fld out 3 1 = (ldAt s k).alertLife % 256 ∧ bytesAt out 8 2 = toLeI 2 (ldAt s k).alertTemp ∧
      bytesAt out 10 2 = toLeI 2 (ldAt s k).alertUnder)

/-- R62, R92, R407, R408, R410, R537: what Get Health Info, Get FW Info, Get Poison List, the LD and the dynamic
capacity reads answer. Each changes nothing but its command context. Payload layouts that the manual leaves to the CXL
Specification are the model's (assumption log entry 10); that injected parcels are listed, and the source codes, are
too (entry 41). -/
def Obligations.HealthAndCapacityReads : Prop :=
  (∀ (s : State) (p : Path) (i : List Byte), Admitted cmdGetHealthInfo p i s → ∃ out, Reads (.getHealthInfo p i) p s out ∧
    out.length = 18 ∧
    (fld out 0 1 % 2 = 1 ↔ s.health.st = 1) ∧
    (fld out 0 1 / 2 % 2 = 1 ↔ s.therm.fH < 1024 ∨ ∃ c ∈ serving s, (chan s c).fW < 1024) ∧
    (fld out 0 1 / 4 % 2 = 1 ↔ s.health.st = 4) ∧
    fld out 1 1 = (if s.health.st = 6 then 1 else if s.health.st = 3 ∨ s.health.st = 4 ∨ s.health.st = 5 then 2 else 0) ∧
    fld out 3 1 = lifeUsed s ∧ (∀ t, s.therm.tj = some t → bytesAt out 4 2 = toLeI 2 (t / 16)) ∧
    fld out 6 4 = s.sad.img.boot.dirtyShutdowns % 2 ^ 32 ∧ fld out 10 4 = s.cache.cleanErrs % 2 ^ 32 ∧
    fld out 14 4 = s.health.recovered % 2 ^ 32) ∧
  (∀ (s : State) (p : Path) (i : List Byte), Admitted cmdGetFwInfo p i s → ∃ out, Reads (.getFwInfo p i) p s out ∧
    out.length = 80 ∧ fld out 0 1 = 1 ∧ bytesAt out 16 16 = versionText s.boot.version ∧
    (∀ v, s.boot.pendingVersion = some v → bytesAt out 32 16 = versionText v)) ∧
  (∀ (s : State) (p : Path) (i : List Byte) (k : Nat), Admitted cmdGetPoisonList p i s → pathLd s p = some k →
    ∃ out, Reads (.getPoisonList p i) p s out ∧
      (let es := poisonIn (ldAt s k) (fld i 0 8) (fld i 0 8 + 64 * fld i 8 8)
       fld out 10 2 = min 256 es.length ∧ out.length = 32 + 16 * min 256 es.length ∧
       (fld out 0 1 = 2 ↔ 256 < (poisonEnts (ldAt s k)).length) ∧
       ∀ j e, j < 256 → es[j]? = some e → fld out (32 + 16 * j) 8 = (e.dpa / 64 * 64 + poisonSource e) % 2 ^ 64 ∧ fld out (40 + 16 * j) 4 = e.len / 64 % 2 ^ 32)) ∧
  (∀ (s : State) (p : Path) (i : List Byte), Admitted cmdGetLdInfo p i s → portMld s (fld i 0 1) = true →
    ∃ out, Reads (.getLdInfo p i) p s out ∧ out.length = 11 ∧ fld out 8 2 = ldsOn s (fld i 0 1) % 65536) ∧
  (∀ (s : State) (p : Path) (i : List Byte), Admitted cmdGetLdAllocations p i s → portMld s (fld i 0 1) = true → ldsOn s (fld i 0 1) < 256 →
    ∃ out, Reads (.getLdAllocations p i) p s out ∧
      (let n := min (ldsOn s (fld i 0 1) - fld i 1 1) (fld i 2 1)
       fld out 0 1 = ldsOn s (fld i 0 1) ∧ fld out 2 1 = fld i 1 1 ∧ fld out 3 1 = n ∧ out.length = 4 + 16 * n ∧
       ∀ j, j < n → fld out (4 + 16 * j) 8 = ldLegs s (ldKey (fld i 0 1) (fld i 1 1 + j)) % 2 ^ 64)) ∧
  (∀ (s : State) (p : Path) (i : List Byte) (k : Nat), Admitted cmdGetDcConfig p i s → pathLd s p = some k → dcLd s k = true →
    fld i 0 1 ≠ 0 → fld i 1 1 = 0 → ∃ out, Reads (.getDynamicCapacityConfiguration p i) p s out ∧
      fld out 0 1 = 1 ∧ fld out 1 1 = 1 ∧ fld out 8 8 = 0 ∧ fld out 24 8 = dpaLegs (ldAt s k).map * gib % 2 ^ 64 ∧ fld out 32 8 = gib ∧
      fld out 48 4 = 64 ∧ fld out 52 4 = 64 - (ldAt s k).map.ranges.length) ∧
  (∀ (s : State) (p : Path) (i : List Byte) (k : Nat), Admitted cmdGetDcExtents p i s → pathLd s p = some k → dcLd s k = true →
    ∃ out, Reads (.getDynamicCapacityExtentList p i) p s out ∧
      (let sel := ((ldAt s k).map.ranges.drop (fld i 4 4)).take (fld i 0 4)
       fld out 0 4 = sel.length % 2 ^ 32 ∧ fld out 4 4 = (ldAt s k).map.ranges.length % 2 ^ 32 ∧ out.length = 16 + 40 * sel.length ∧
       ∀ j r, sel[j]? = some r → fld out (16 + 40 * j) 8 = r.dpaLeg * gib % 2 ^ 64 ∧ fld out (24 + 40 * j) 8 = r.count * gib % 2 ^ 64))

/-- R389, R390, R411 to R416: what the reads of families 0xC0xx, 0xC1xx and 0xC2xx answer: identity, ports, stage
configuration, health, partitions, maps, contracts, freezes, time, meters and histograms. Each changes nothing but its
command context. The TYPE of the management LD is the model's reading (assumption log entry 83). -/
def Obligations.DeviceReads : Prop :=
  (∀ (s : State) (p : Path) (i : List Byte), Admitted cmdGetDeviceInfo p i s → ∃ out, Reads (.getDeviceInfo p i) p s out ∧
    out.length = 64 ∧ fld out 0 2 = 0x1D7E ∧ fld out 2 2 = 0x1280 ∧ fld out 5 1 = 2 ∧ fld out 6 1 = 1 ∧
    fld out 7 1 = lifeCode s.keeper.life ∧ fld out 8 16 = Config.unitId.toNat ∧ fld out 24 4 = s.boot.version % 2 ^ 32 ∧
    fld out 28 4 = s.boot.secVersion % 2 ^ 32 ∧ fld out 32 4 = maxLegs s % 2 ^ 32 ∧ fld out 36 4 = freeLegs s % 2 ^ 32 ∧
    fld out 40 2 = (s.sad.img.parts.filter (fun p => p.2.st = .active)).length % 65536 ∧
    fld out 42 1 = (s.ports.ports.filter (fun p => p.2.up)).length % 256 ∧ fld out 43 1 = s.health.st % 256) ∧
  (∀ (s : State) (p : Path) (i : List Byte), Admitted cmdGetPortConfig p i s → s.sad.img.portCfg.groupMode.length = 8 →
    ∃ out, Reads (.getPortConfig p i) p s out ∧ out.length = 268 ∧ (∀ g, g < 8 → fld out g 1 = s.sad.img.portCfg.groupMode.getD g 0 % 256) ∧
      fld out 8 1 = s.sad.img.portCfg.clk.toNat ∧ fld out 9 1 = s.sad.img.portCfg.mgmt.getD 0xFF % 256 ∧
      ∀ q, q < 32 → fld out (140 + 4 * q) 1 = (if (port s q).up then 1 else 0) ∧ fld out (141 + 4 * q) 1 = (port s q).gen % 256 ∧
        fld out (142 + 4 * q) 1 = (port s q).width % 256 ∧ fld out (143 + 4 * q) 1 = (port s q).cxl % 256) ∧
  (∀ (s : State) (p : Path) (i : List Byte), Admitted cmdGetStageConfig p i s → ∃ out, Reads (.getStageConfig p i) p s out ∧
    out.length = 16 ∧ fld out 0 1 = s.planner.maintShare % 256 ∧ fld out 1 1 = s.planner.maintPending % 256 ∧
    fld out 4 4 = s.planner.lastMisses % 2 ^ 32 ∧ fld out 8 4 = s.planner.templateReg.toNat) ∧
  (∀ (s : State) (p : Path) (i : List Byte), Admitted cmdGetHealth p i s → ∃ out, Reads (.getHealth p i) p s out ∧
    out.length = 32 ∧ fld out 0 1 = s.health.st % 256 ∧ fld out 2 2 = s.health.conds.toNat % 65536 ∧
    fld out 4 1 = (onlineSlices s.cache.online).length % 256 ∧ fld out 5 1 = sparePct s % 256 ∧ bytesAt out 16 2 = reading s.therm.tj ∧
    bytesAt out 18 2 = reading (highest ((serving s).map (fun c => (chan s c).tMax))) ∧
    fld out 20 4 = s.belay.e / 20000000000 % 2 ^ 32 ∧ fld out 24 4 = dirtyLimit s % 2 ^ 32) ∧
  (∀ (s : State) (i : List Byte), Admitted (cmdGetLastXstatus (xstatus s.mctp)) .mctp i s →
    ∃ out, Reads (.getLastXstatus .mctp i) .mctp s out ∧ out.length = 4 ∧ fld out 0 4 = (xstatus s.mctp).toNat) ∧
  (∀ (s : State) (p : Path) (i : List Byte), Admitted cmdGetPartition p i s → fld i 0 2 < 1024 → ownsPart s p (fld i 0 2) = true →
    ∃ out, Reads (.getPartition p i) p s out ∧ out.length = 8216 ∧ fld out 0 2 = fld i 0 2 ∧ fld out 2 1 = partCode s (fld i 0 2) ∧
      (∀ r, partRec s (fld i 0 2) = some r → fld out 3 1 = (if r.fastOnly then 1 else 0) ∧ fld out 4 2 = r.keyGen.toNat ∧
        fld out 6 2 = r.readShare % 65536 ∧ fld out 8 2 = r.writeShare % 65536) ∧
      fld out 10 2 = (positions s (fld i 0 2)).length % 65536 ∧
      fld out 12 4 = (positions s (fld i 0 2)).length * legCost s (fld i 0 2) % 2 ^ 32) ∧
  (∀ (s : State) (p : Path) (i : List Byte), Admitted cmdGetPartitionList p i s → ∃ out, Reads (.getPartitionList p i) p s out ∧
    out.length = 1024 ∧ ∀ n, n < 1024 → fld out n 1 = partCode s n) ∧
  (∀ (s : State) (p : Path) (i : List Byte) (k : Nat), Admitted cmdGetLdMap p i s → ldOperand s i = .ok k → ownsLd s p k = true →
    ∃ out, Reads (.getLdMap p i) p s out ∧ (let m := tgetD s.sad.img.ldMaps (ldInst k) {}
      out.length = 16 + 8 * m.ranges.length ∧ fld out 0 1 = k / 17 % 256 ∧ fld out 1 1 = ldByte k ∧ fld out 2 1 = typeCode (typeNow s k m) ∧
      fld out 3 1 = (if m.dynamic then 1 else 0) ∧ fld out 4 2 = m.part % 65536 ∧ fld out 6 2 = m.dcBase % 65536 ∧
      fld out 8 1 = m.ranges.length % 256 ∧ ∀ j r, m.ranges[j]? = some r → fld out (16 + 8 * j) 4 = r.dpaLeg % 2 ^ 32 ∧
        fld out (20 + 8 * j) 2 = r.count % 65536 ∧ fld out (22 + 8 * j) 2 = r.pos % 65536)) ∧
  (∀ (s : State) (p : Path) (i : List Byte) (k : Nat), Admitted cmdGetContract p i s → ldOperand s i = .ok k → ownsLd s p k = true →
    ∃ out, Reads (.getContract p i) p s out ∧ out.length = 16 ∧ fld out 0 1 = k / 17 % 256 ∧ fld out 1 1 = ldByte k ∧
      fld out 2 2 = (ldAt s k).map.outstanding % 65536 ∧ fld out 4 1 = (ldAt s k).map.opcodes.toNat ∧
      fld out 6 2 = (ldAt s k).map.poisonLimit % 65536 ∧ fld out 8 2 = (ldAt s k).pendingOut.getD 0 % 65536 ∧
      fld out 10 2 = (ldAt s k).outstanding % 65536) ∧
  (∀ (s : State) (p : Path) (i : List Byte), Admitted cmdGetFreeze p i s → masterRsvd (fld i 0 4) = false → ∃ out, Reads (.getFreeze p i) p s out ∧
    (let fs := s.gate.freezes.filter (fun f => freezeSeen s p f && (fld i 0 4 == 0 || f.master == fld i 0 4))
     fld out 0 4 = fs.length % 2 ^ 32 ∧ out.length = 8 + 24 * fs.length ∧
     ∀ j f, fs[j]? = some f → fld out (8 + 24 * j) 4 = f.master % 2 ^ 32 ∧ fld out (12 + 24 * j) 2 = f.code % 65536 ∧
       fld out (16 + 24 * j) 8 = f.tb % 2 ^ 64 ∧ fld out (24 + 24 * j) 8 = f.addr.toNat)) ∧
  (∀ (s : State) (p : Path) (i : List Byte), Admitted cmdGetTimebase p i s → ∃ out, Reads (.getTimebase p i) p s out ∧
    out.length = 40 ∧ fld out 0 8 = s.reck.tb % 2 ^ 64 ∧ (fld out 8 1 = 0 ↔ s.reck.st = .free) ∧ (fld out 8 1 = 1 ↔ s.reck.st = .acquiring) ∧
    (fld out 8 1 = 2 ↔ s.reck.st = .locked) ∧ (fld out 8 1 = 3 ↔ s.reck.st = .holdover) ∧ (fld out 9 1 = 2 ↔ s.reck.tod = .set) ∧
    (fld out 10 1 % 2 = 1 ↔ s.reck.arm.isSome = true) ∧ bytesAt out 12 4 = toLeI 4 s.reck.adj ∧ bytesAt out 16 8 = toLeI 8 s.reck.lastE ∧
    fld out 24 8 = s.reck.lastEdge % 2 ^ 64) ∧
  (∀ (s : State) (p : Path) (i : List Byte), Admitted cmdGetTimeConfig p i s → ∃ out, Reads (.getTimeConfig p i) p s out ∧
    out.length = 4 ∧ (fld out 0 1 = 0 ↔ s.sad.img.time.present = true) ∧ (fld out 1 1 = 1 ↔ s.sad.img.time.falling = true) ∧
    bytesAt out 2 2 = toLeI 2 s.sad.img.time.delay) ∧
  (∀ (s : State) (p : Path) (i : List Byte), Admitted cmdGetMeters p i s → fld i 0 2 < 1024 → ownsPart s p (fld i 0 2) = true →
    1 ≤ fld i 2 2 → fld i 2 2 ≤ 500 → ∃ out, Reads (.getMeters p i) p s out ∧
      (let recs := meterRecords s (fld i 0 2) (fld i 4 4) (fld i 2 2)
       fld out 4 2 = recs.length / 128 % 65536 ∧ out.drop 8 = recs ∧
       ∀ b bs, heldMinutes s = b :: bs → fld out 0 4 = b.minute % 2 ^ 32)) ∧
  (∀ (s : State) (p : Path) (i : List Byte), Admitted cmdGetHistogram p i s → fld i 0 1 = 0 → fld i 2 2 < 1024 →
    ownsPart s p (fld i 2 2) = true → 1 ≤ fld i 8 2 → fld i 8 2 ≤ 120 → ∃ out n, Reads (.getHistogram p i) p s out ∧
      fld out 0 2 = n % 65536 ∧ out.length = 8 + 520 * n ∧ ∀ j, j < n → ∃ e ∈ s.reck.ring, fld i 4 4 ≤ e.2.bank.minute ∧
        e.2.bank.minute < fld i 4 4 + fld i 8 2 ∧ bytesAt out (8 + 520 * j) 520 = histEntry (fld i 2 2) e.2)

/-- R318, R417 to R420, R477, R493, R547: what the reads of families 0xC4xx to 0xC8xx answer: traverses, media health,
the Drover, Belay, Rope and thermal state, Cairn, boot, resets and the life cycle. Each changes nothing but its
command context; the levels that GET_ROPE_STATUS draws are open. -/
def Obligations.UnitReads : Prop :=
  (∀ (s : State) (p : Path) (i : List Byte) (r : PartRec), Admitted cmdGetTraverse p i s → fld i 0 2 < 1024 → ownsPart s p (fld i 0 2) = true →
    partRec s (fld i 0 2) = some r → ∃ out, Reads (.getTraverse p i) p s out ∧ out.length = 36 ∧
      (fld out 0 1 = 1 ↔ (tget s.travs (fld i 0 2)).isSome = true) ∧ fld out 2 2 = r.keyGen.toNat ∧
      fld out 32 4 = (positions s (fld i 0 2)).length * 16384 % 2 ^ 32 ∧
      ∀ t, tget s.travs (fld i 0 2) = some t → fld out 4 2 = t.oldGen.toNat ∧ fld out 6 2 = t.newGen.toNat ∧ fld out 8 8 = t.w % 2 ^ 64 ∧
        fld out 16 8 = t.committed % 2 ^ 64 ∧ fld out 24 4 = t.rate % 2 ^ 32 ∧ fld out 28 4 = t.bales % 2 ^ 32) ∧
  (∀ (s : State) (p : Path) (i : List Byte), Admitted cmdGetMediaHealth p i s → ∃ out, Reads (.getMediaHealth p i) p s out ∧
    out.length = 524 ∧ fld out 0 4 = sparesInit s % 2 ^ 32 ∧ fld out 4 4 = sparesUsed s % 2 ^ 32 ∧ fld out 8 1 = lifeUsed s ∧
    ∀ c, c < 32 → fld out (12 + 16 * c) 1 = chanCode (chan s c).st ∧ fld out (13 + 16 * c) 1 = (chan s c).gen % 256 ∧
      fld out (16 + 16 * c) 4 = freeTiles s c % 2 ^ 32 ∧ fld out (20 + 16 * c) 4 = (chan s c).consumed % 2 ^ 32 ∧
      fld out (24 + 16 * c) 4 = topWear s c % 2 ^ 32) ∧
  (∀ (s : State) (p : Path) (i : List Byte), Admitted cmdGetDroverConfig p i s → ∃ out, Reads (.getDroverConfig p i) p s out ∧
    out.length = 16 ∧ fld out 0 1 = s.sad.img.drover.rebaleCount % 256 ∧ fld out 2 2 = s.sad.img.drover.coldAge % 65536 ∧
    fld out 4 4 = s.sad.img.drover.refreshReads % 2 ^ 32 ∧ fld out 8 2 = s.sad.img.drover.driftRefresh % 65536 ∧
    fld out 10 1 = s.sad.img.drover.scrubPeriod % 256) ∧
  (∀ (s : State) (p : Path) (i : List Byte), Admitted cmdGetBelayConfig p i s → ∃ out, Reads (.getBelayConfig p i) p s out ∧
    out.length = 48 ∧ fld out 0 4 = s.sad.img.belay.senseRatio % 2 ^ 32 ∧ fld out 4 4 = s.sad.img.belay.vMin % 2 ^ 32 ∧
    fld out 8 4 = s.sad.img.belay.vTrip % 2 ^ 32 ∧ fld out 12 4 = s.sad.img.belay.rTest % 2 ^ 32 ∧ fld out 16 4 = s.sad.img.belay.testTod % 2 ^ 32 ∧
    fld out 28 4 = s.belay.e / 20000000000 % 2 ^ 32 ∧ fld out 32 2 = s.belay.s % 65536 ∧ fld out 34 1 = (if s.belay.through then 1 else 0)) ∧
  (∀ (s : State) (p : Path) (i : List Byte), Admitted cmdGetRopeStatus p i s → ∃ out, out.length = 32 - 18 + 2 * s.rope.rails.length ∧
    fld out 0 1 = s.rope.pitch % 256 ∧ fld out 1 1 = ropeCode s.rope.st ∧ fld out 2 2 = (enLevels s).toNat ∧
    (8 < s.rope.rails.length → fld out 24 2 = s.keeper.vddKeep % 65536) ∧
    Gives (.getRopeStatus p i) s (fun t => Succeeded p out t ∧ OnlyCtx p { s with freeCtr := t.freeCtr } t)) ∧
  (∀ (s : State) (p : Path) (i : List Byte), Admitted cmdGetPitchTable p i s → ∃ out, Reads (.getPitchTable p i) p s out ∧
    fld out 0 1 = 1 ∧ ∀ j e, s.sad.img.pitch[j]? = some e → fld out (8 + 12 * j) 1 = e.role % 256 ∧ fld out (9 + 12 * j) 1 = e.pitch % 256 ∧
      fld out (10 + 12 * j) 1 = e.pg % 256 ∧ fld out (11 + 12 * j) 1 = e.mon % 256 ∧ fld out (12 + 12 * j) 2 = e.fallTime % 65536 ∧
      fld out (16 + 12 * j) 4 = e.channels.toNat) ∧
  (∀ (s : State) (p : Path) (i : List Byte), Admitted cmdGetThermal p i s → ∃ out, Reads (.getThermal p i) p s out ∧ out.length = 212 ∧
    (∀ n, n < 36 → bytesAt out (2 * n) 2 = reading (if s.therm.excluded.contains n then none else tget s.therm.sensors n)) ∧
    bytesAt out 72 2 = reading s.therm.hbm[0]? ∧ bytesAt out 74 2 = reading s.therm.hbm[1]? ∧
    (∀ c, c < 32 → bytesAt out (76 + 2 * c) 2 = reading (chan s c).tMax ∧ fld out (148 + 2 * c) 2 = (chan s c).fW % 65536) ∧
    fld out 144 2 = s.therm.fH % 65536) ∧
  (∀ (s : State) (p : Path) (i : List Byte), Admitted cmdGetCairnInfo p i s → ∃ out, Reads (.getCairnInfo p i) p s out ∧ out.length = 32 ∧
    fld out 0 4 = s.cairn.stored.length % 2 ^ 32 ∧ fld out 4 4 = min s.cairn.stored.length 8192 ∧ fld out 8 4 = cairnOldest s % 2 ^ 32 ∧
    (0 < s.cairn.stored.length → fld out 12 4 = (s.cairn.stored.length - 1) % 2 ^ 32) ∧ fld out 16 4 = s.cairn.epochs.length % 2 ^ 32) ∧
  (∀ (s : State) (p : Path) (i : List Byte), Admitted cmdCairnRead p i s → 1 ≤ fld i 4 2 → fld i 4 2 ≤ 2047 →
    ∃ out, Reads (.cairnRead p i) p s out ∧ (let a := cairnStart s (fld i 0 4); let run := cairnRun s a (fld i 4 2)
      fld out 0 4 = a % 2 ^ 32 ∧ fld out 4 2 = run.length ∧ run.length ≤ fld i 4 2 ∧ out.length = 8 + 32 * run.length ∧
      ∀ j, j < run.length → cairnHeld s (a + j) = true ∧ bytesAt out (8 + 32 * j) 32 = recordBytes (cairnRecord s (a + j)))) ∧
  (∀ (s : State) (p : Path) (i : List Byte), Admitted cmdGetCairnHistogram p i s → fld i 0 2 < 0x26 → fld i 2 2 ≤ 720 →
    ∃ out, Reads (.getCairnHistogram p i) p s out ∧ out.length = 80 ∧ fld out 0 2 = fld i 0 2 ∧ fld out 2 2 = fld i 2 2 ∧
      (fld out 8 1 % 2 = 1 ↔ (blockOf s (fld i 2 2)).isSome = false) ∧
      ∀ x, blockOf s (fld i 2 2) = some x → fld out 4 4 = x.2.number % 2 ^ 32 ∧ ∀ j, j < 8 → fld out (16 + 8 * j) 8 = tgetD x.2.hist (fld i 0 2 * 8 + j) 0 % 2 ^ 64) ∧
  (∀ (s : State) (p : Path) (i : List Byte), Admitted cmdGetBootInfo p i s → ∃ out, Reads (.getBootInfo p i) p s out ∧ out.length = 32 ∧
    (fld out 0 1 = 0 ↔ s.boot.running = true) ∧ fld out 1 1 = s.boot.cause % 256 ∧ fld out 4 4 = s.boot.version % 2 ^ 32 ∧
    fld out 8 4 = s.boot.secVersion % 2 ^ 32 ∧ fld out 12 4 = s.boot.secCounter % 2 ^ 32 ∧
    (fld out 16 1 = 1 ↔ s.boot.running = true ∧ s.boot.secVersion = s.boot.secCounter) ∧ fld out 20 4 = s.sad.img.boot.boots % 2 ^ 32) ∧
  (∀ (s : State) (p : Path) (i : List Byte), Admitted cmdGetResetInfo p i s → ∃ out, Reads (.getResetInfo p i) p s out ∧ out.length = 16 ∧
    fld out 0 4 = s.keeper.resetInfo.toNat ∧ fld out 4 8 = s.keeper.resetTb % 2 ^ 64 ∧ fld out 12 4 = s.keeper.lastCause % 2 ^ 32) ∧
  (∀ (s : State) (p : Path) (i : List Byte), Admitted cmdGetLifecycle p i s → ∃ out, Reads (.getLifecycle p i) p s out ∧ out.length = 4 ∧
    fld out 0 1 = lifeCode s.keeper.life ∧ (fld out 1 1 = 1 ↔ s.survey.level.isSome = true))

/-- R67, R68, R356, R407: Clear Event Records clears all records of a log or those it names, and a log left empty
loses its overflow and drop count, while one that keeps a record keeps them; interrupt requests are Invalid Input;
alert thresholds and the shutdown state are kept per LD. Payload layouts that the manual leaves to the CXL
Specification are the model's (assumption log entry 10). R46, R63, R174, R408, R409: Inject Poison poisons the whole
parcel that contains the DPA and lists it as injected; at 8 injected parcels a further one is refused; Clear Poison on
a poisoned parcel in the cache writes the supplied sector and zeros to the others, which clears the poison. A DPA
outside the ranges is an invalid physical address, and a missing contract right Invalid Input. Payload layouts that
the manual leaves to the CXL Specification are the model's (assumption log entry 10). -/
def Obligations.StandardChanges : Prop :=
  ((∀ (s : State) (p : Path) (i : List Byte) (k : Nat), Admitted cmdClearEventRecords p i s → pathLd s p = some k → fld i 0 1 < 4 →
    fld i 1 1 = 1 → Gives (.clearEventRecords p i) s (fun t => Succeeded p [] t ∧ logOf (ldAt t k) (fld i 0 1) = { nextHandle := (logOf (ldAt s k) (fld i 0 1)).nextHandle } ∧
      (∀ j, j < 5 → j ≠ fld i 0 1 → logOf (ldAt t k) j = logOf (ldAt s k) j) ∧ (ldAt t k).logsChanged = true ∧
      (∀ j, j ≠ k → pathKey p ≠ some j → ldAt t j = ldAt s j) ∧
      t = { s with mctp := t.mctp, ports := { s.ports with lds := t.ports.lds } })) ∧
  (∀ (s : State) (p : Path) (i : List Byte) (k : Nat), Admitted cmdClearEventRecords p i s → pathLd s p = some k → fld i 0 1 < 4 →
    fld i 1 1 = 0 → (∀ n, n < fld i 2 1 → ∃ e ∈ (logOf (ldAt s k) (fld i 0 1)).recs, e.handle = fld i (6 + 2 * n) 2) →
    Gives (.clearEventRecords p i) s (fun t => Succeeded p [] t ∧
      (let keep := (logOf (ldAt s k) (fld i 0 1)).recs.filter (fun e => (List.range (fld i 2 1)).all (fun n => fld i (6 + 2 * n) 2 != e.handle))
       (logOf (ldAt t k) (fld i 0 1)).recs = keep ∧
       (keep ≠ [] → logOf (ldAt t k) (fld i 0 1) = { logOf (ldAt s k) (fld i 0 1) with recs := keep }) ∧
       (keep = [] → (logOf (ldAt t k) (fld i 0 1)).overflow = false ∧ (logOf (ldAt t k) (fld i 0 1)).dropped = 0)) ∧
      (∀ j, j ≠ k → pathKey p ≠ some j → ldAt t j = ldAt s j))) ∧
  (∀ (s : State) (p : Path) (i : List Byte), Admitted cmdSetEventInterruptPolicy p i s →
    ((∀ b ∈ i, b &&& 3 = 0) → Gives (.setEventInterruptPolicy p i) s (fun t => Succeeded p [] t ∧ OnlyCtx p s t)) ∧
    (∀ n b, i[n]? = some b → b &&& 3 ≠ 0 → (∀ j c, j < n → i[j]? = some c → c &&& 3 = 0) →
      Gives (.setEventInterruptPolicy p i) s (fun t => Turned p 2 0x0D83 n t ∧ OnlyCtx p s t))) ∧
  (∀ (s : State) (p : Path) (i : List Byte) (k : Nat), Admitted cmdSetAlertConfiguration p i s → pathLd s p = some k →
    fld i 0 1 < 8 → fld i 1 1 < 8 → Gives (.setAlertConfiguration p i) s (fun t => Succeeded p [] t ∧
      (ldAt t k).alertLife = (if (BitVec.ofNat 8 (fld i 0 1)).getLsbD 0 then fld i 2 1 else (ldAt s k).alertLife) ∧
      (ldAt t k).alertTemp = (if (BitVec.ofNat 8 (fld i 0 1)).getLsbD 1 then fldI16 i 4 else (ldAt s k).alertTemp) ∧
      (ldAt t k).alertUnder = (if (BitVec.ofNat 8 (fld i 0 1)).getLsbD 2 then fldI16 i 6 else (ldAt s k).alertUnder) ∧
      (∀ b, b < 8 → (ldAt t k).alertValid.getLsbD b =
        (if (BitVec.ofNat 8 (fld i 0 1)).getLsbD b then (BitVec.ofNat 8 (fld i 1 1)).getLsbD b else (ldAt s k).alertValid.getLsbD b)) ∧
      (ldAt t k).map = (ldAt s k).map ∧ (ldAt t k).logs = (ldAt s k).logs ∧ (∀ j, j ≠ k → pathKey p ≠ some j → ldAt t j = ldAt s j))) ∧
  (∀ (s : State) (p : Path) (i : List Byte) (k : Nat), Admitted cmdSetShutdownState p i s → pathLd s p = some k →
    Gives (.setShutdownState p i) s (fun t => Succeeded p [] t ∧ (ldAt t k).shutdown = fld i 0 1 ∧
      t.sad.img.boot.dirtyShutdowns = s.sad.img.boot.dirtyShutdowns ∧ (∀ j, j ≠ k → pathKey p ≠ some j → ldAt t j = ldAt s j) ∧
      t = { s with mctp := t.mctp, ports := { s.ports with lds := t.ports.lds } }))) ∧
  ((∀ (s : State) (p : Path) (i : List Byte) (k lpn w : Nat), Admitted cmdInjectPoison p i s → pathLd s p = some k →
    rangeLpn s 0 (some k) (fld i 0 8 / 256 * 256) = some lpn →
    (ldAt s k).map.opcodes.getLsbD 2 = true → (ldAt s k).map.opcodes.getLsbD 6 = true → (injectedOf (ldAt s k)).length < 8 →
    fld i 0 8 / 256 * 256 ∉ injectedOf (ldAt s k) → findWay s lpn = some w → ((lineAt s w).st = .clean ∨ (lineAt s w).st = .dirty) →
    WritesFreely w s → Gives (.injectPoison p i) s (fun t => Succeeded p [] t ∧ (lineAt t w).poison = true ∧ (lineAt t w).valid = 0 ∧
      (lineAt t w).dirty = 15 ∧ (lineAt t w).st = .dirty ∧ (∀ j, j ≠ w → lineAt t j = lineAt s j) ∧
      ({ dpa := fld i 0 8 / 256 * 256, len := 256, injected := true } : PoisonEnt) ∈ (ldAt t k).poisonList ∧
      t.medium = s.medium ∧ t.way = s.way)) ∧
  (∀ (s : State) (p : Path) (i : List Byte) (k lpn : Nat), Admitted cmdInjectPoison p i s → pathLd s p = some k →
    rangeLpn s 0 (some k) (fld i 0 8 / 256 * 256) = some lpn →
    ((ldAt s k).map.opcodes.getLsbD 2 = false ∨ (ldAt s k).map.opcodes.getLsbD 6 = false →
      Gives (.injectPoison p i) s (fun t => Turned p 2 0x0289 0xFFF t ∧ OnlyCtx p s t)) ∧
    ((ldAt s k).map.opcodes.getLsbD 2 = true → (ldAt s k).map.opcodes.getLsbD 6 = true → 8 ≤ (injectedOf (ldAt s k)).length →
      fld i 0 8 / 256 * 256 ∉ injectedOf (ldAt s k) → Gives (.injectPoison p i) s (fun t => Turned p 0x10 0 0xFFF t ∧ OnlyCtx p s t))) ∧
  (∀ (s : State) (p : Path) (i : List Byte) (k lpn w : Nat), Admitted cmdClearPoison p i s → pathLd s p = some k →
    rangeLpn s 0 (some k) (fld i 0 8) = some lpn → (ldAt s k).map.opcodes.getLsbD 2 = true → findWay s lpn = some w →
    (lineAt s w).st = .dirty → (lineAt s w).poison = true → (lineAt s w).valid = 0 → (lineAt s w).dirty = 15 → (lineAt s w).lpn = lpn → (lineAt s w).dropOnFill = false →
    s.health.st ≠ 3 → s.health.st ≠ 4 → dirtyLimit s ≠ 0 → Gives (.clearPoison p i) s (fun t => Succeeded p [] t ∧
      (lineAt t w).poison = false ∧ (lineAt t w).valid = 15 ∧ (lineAt t w).dirty = 15 ∧
      (∀ j : Fin 4, (lineAt t w).data[j] = if j.val = sectorOf (fld i 0 8) then BitVec.ofNat 512 (fld i 8 64) else 0) ∧
      (∀ j, j ≠ w → lineAt t j = lineAt s j) ∧ t.medium = s.medium)) ∧
  (∀ (s : State) (p : Path) (i : List Byte) (k : Nat), pathLd s p = some k →
    (Admitted cmdInjectPoison p i s → rangeLpn s 0 (some k) (fld i 0 8 / 256 * 256) = none →
      Gives (.injectPoison p i) s (fun t => Turned p 0xF 0 0 t ∧ OnlyCtx p s t)) ∧
    (Admitted cmdClearPoison p i s → rangeLpn s 0 (some k) (fld i 0 8) = none →
      Gives (.clearPoison p i) s (fun t => Turned p 0xF 0 0 t ∧ OnlyCtx p s t))))

/-- R53, R54, R130, R318, R338, R339, R362, R401, R403, R493, R494: the configuration commands change their Saddlebag
record and complete once it has committed; what is in force changes later, at the moment the manual names, but for
PPS_MODE and R_TEST. A request outside the limits leaves the record unchanged. -/
def Obligations.ConfigurationChanges : Prop :=
  (∀ (s : State) (p : Path) (i : List Byte), Admitted cmdSetPortConfig p i s →
    (portCfgBad i = none → Gives (.setPortConfig p i) s (fun t => Awaits p 0xC001 [rk 1 0] .none t ∧
      t.sad.img.portCfg.groupMode = (List.range 8).map (fun g => fld i g 1) ∧ t.sad.img.portCfg.clk = BitVec.ofNat 8 (fld i 8 1) ∧
      t.sad.img.portCfg.mgmt = (if fld i 9 1 = 0xFF then none else some (fld i 9 1)) ∧
      t.sad.img = { s.sad.img with portCfg := t.sad.img.portCfg } ∧ t.ports.inForce = s.ports.inForce ∧ t.ports.ports = s.ports.ports)) ∧
    (∀ o d, portCfgBad i = some (o, d) → Gives (.setPortConfig p i) s (fun t => Turned p 2 d o t ∧ t.sad = s.sad ∧ OnlyCtxLog p s t))) ∧
  (∀ (s : State) (p : Path) (i : List Byte), Admitted cmdSetStageConfig p i s →
    (1 ≤ fld i 0 1 → fld i 0 1 ≤ 8 → Gives (.setStageConfig p i) s (fun t => Awaits p 0xC003 [rk 2 0] (.stageCfg (fld i 0 1)) t ∧
      t.sad.img = { s.sad.img with maintShare := fld i 0 1 } ∧ t.planner = s.planner)) ∧
    (fld i 0 1 = 0 ∨ 8 < fld i 0 1 → Gives (.setStageConfig p i) s (fun t => Turned p 2 0x0D83 0 t ∧ t.sad = s.sad))) ∧
  (∀ (s : State) (p : Path) (i : List Byte), Admitted cmdSetTimeConfig p i s → fld i 0 1 < 2 → fld i 1 1 < 2 →
    -1000 ≤ fldI16 i 2 → fldI16 i 2 ≤ 1000 → Gives (.setTimeConfig p i) s (fun t => Awaits p 0xC201 [rk 16 0] .none t ∧
      (let c : TimeCfg := { present := fld i 0 1 == 0, falling := fld i 1 1 == 1, delay := fldI16 i 2 }
       t.sad.img = { s.sad.img with time := c } ∧
       (c.present = s.reck.cfg.present → t.reck = { s.reck with cfgNext := some c }) ∧
       (c.present ≠ s.reck.cfg.present → t.reck.cfg = c ∧ t.reck.cfgNext = none ∧
         (s.reck.st ≠ .refLost → t.reck.st = if c.present then .acquiring else .free))))) ∧
  (∀ (s : State) (p : Path) (i : List Byte), Admitted cmdSetDroverConfig p i s →
    (8 ≤ fld i 0 1 ∧ fld i 0 1 ≤ 63 ∧ 60 ≤ fld i 2 2 ∧ fld i 2 2 ≤ 3000 ∧ 65536 ≤ fld i 4 4 ∧ fld i 4 4 ≤ 2097152 ∧
      240 ≤ fld i 8 2 ∧ fld i 8 2 ≤ 2016 ∧ 1 ≤ fld i 10 1 ∧ fld i 10 1 ≤ 28) →
    Gives (.setDroverConfig p i) s (fun t => Awaits p 0xC502 [rk 13 0] .none t ∧ t.sad.img = { s.sad.img with drover :=
      { rebaleCount := fld i 0 1, coldAge := fld i 2 2, refreshReads := fld i 4 4, driftRefresh := fld i 8 2, scrubPeriod := fld i 10 1 } })) ∧
  (∀ (s : State) (p : Path) (i : List Byte), Admitted cmdSetBelayConfig p i s →
    (1024 ≤ fld i 0 4 ∧ fld i 0 4 ≤ 16384 ∧ 1000 ≤ fld i 4 4 ∧ fld i 4 4 < fld i 8 4 ∧ fld i 8 4 ≤ 60000 ∧
      (fld i 12 4 = 0 ∨ 500 ≤ fld i 12 4 ∧ fld i 12 4 ≤ 100000) ∧ fld i 16 4 ≤ 86399) →
    Gives (.setBelayConfig p i) s (fun t => Awaits p 0xC600 [rk 14 0] .none t ∧ t.sad.img.belay.senseRatio = fld i 0 4 ∧
      t.sad.img.belay.vMin = fld i 4 4 ∧ t.sad.img.belay.vTrip = fld i 8 4 ∧ t.sad.img.belay.rTest = fld i 12 4 ∧
      t.sad.img.belay.testTod = fld i 16 4 ∧
      t.sad.img.belay.c = (if fld i 12 4 = s.sad.img.belay.rTest then s.sad.img.belay.c else none) ∧
      t.sad.img = { s.sad.img with belay := t.sad.img.belay })) ∧
  (∀ (s : State) (p : Path) (i : List Byte), Admitted cmdSetPitchTable p i s →
    (pitchBad i = none → Gives (.setPitchTable p i) s (fun t => Awaits p 0xC604 [rk 20 0] .none t ∧
      (∀ n, n < 16 → t.sad.img.pitch[n]? = some (pitchOf i n)) ∧ t.sad.img = { s.sad.img with pitch := t.sad.img.pitch } ∧
      t.rope = s.rope)) ∧
    (∀ d o, pitchBad i = some (d, o) → Gives (.setPitchTable p i) s (fun t => Turned p 2 d o t ∧ t.sad = s.sad ∧ t.rope = s.rope)))

/-- R367, R368: SET_TIME_OF_DAY in its NOW mode steps TB to the target where it is more than 500 µs away, and slews
otherwise; in its AT_PPS mode it arms, or is Busy in FREE and REF_LOST. -/
def Obligations.TimeOfDay : Prop :=
  (∀ (s : State) (p : Path) (i : List Byte), Admitted cmdSetTimeOfDay p i s → fld i 0 1 = 0 →
    500000 < ((fld i 8 8 : Int) - tbNow s).natAbs →
    Gives (.setTimeOfDay p i) s (fun t => Awaits p 0xC203 [rk 17 0] .none t ∧ t.reck.tb = fld i 8 8 ∧ t.reck.slew = 0 ∧
      t.reck.tod = .set ∧ t.sad.img.keep.tod = .set)) ∧
  (∀ (s : State) (p : Path) (i : List Byte), Admitted cmdSetTimeOfDay p i s → fld i 0 1 = 0 →
    ((fld i 8 8 : Int) - tbNow s).natAbs ≤ 500000 → Gives (.setTimeOfDay p i) s (fun t => Awaits p 0xC203 [rk 17 0] .none t ∧
      t.reck.tb = s.reck.tb ∧ t.reck.slewLeft = ((fld i 8 8 : Int) - tbNow s).natAbs * 4294967296 ∧
      (0 < t.reck.slew ↔ tbNow s < fld i 8 8) ∧ (t.reck.slew < 0 ↔ fld i 8 8 < tbNow s) ∧ t.reck.tod = .set ∧ t.sad.img.keep.tod = .set)) ∧
  (∀ (s : State) (p : Path) (i : List Byte), Admitted cmdSetTimeOfDay p i s → fld i 0 1 = 1 →
    (s.reck.st = .free ∨ s.reck.st = .refLost → Gives (.setTimeOfDay p i) s (fun t => Turned p 6 0x0380 0xFFF t ∧ OnlyCtxLog p s t)) ∧
    (s.reck.st ≠ .free → s.reck.st ≠ .refLost → ∃ out, out.length = 12 ∧ fld out 0 8 = 0 ∧ fld out 8 1 = 2 ∧
      Gives (.setTimeOfDay p i) s (fun t => Succeeded p out t ∧ t.reck = { s.reck with arm := some (fld i 8 8), armAge := 0, armDropped := false } ∧
        t.sad = s.sad)))

/-- R358, R539, R542, R544, R547: CONFIRM_FW raises the keeper's security counter to the running image's version and
never lowers it; an image already confirmed, and one in bivouac mode, are refused. CLEAR_RESET_INFO clears the bits
that are 1, but for those set in the same cycle. PREPARE_POWER_OFF and WARM_RESET start a flush, and complete; while
an activation runs they are Busy. -/
def Obligations.FirmwareAndResetCommands : Prop :=
  (∀ (s : State) (p : Path) (i : List Byte), Admitted cmdConfirmFw p i s → s.boot.running = true →
    (s.boot.secVersion ≠ s.boot.secCounter → storeAllowed s = true → ∃ out, out.length = 4 ∧
      fld out 0 4 = max s.boot.secCounter s.boot.secVersion % 2 ^ 32 ∧ Gives (.confirmFw p i) s (fun t => Succeeded p out t ∧
        t.boot = { s.boot with secCounter := max s.boot.secCounter s.boot.secVersion } ∧ t.keeper = s.keeper ∧ t.sad = s.sad)) ∧
    (s.boot.secVersion = s.boot.secCounter → Gives (.confirmFw p i) s (fun t => Turned p 2 0x1580 0xFFF t ∧ t.boot = s.boot))) ∧
  (∀ (s : State) (p : Path) (i : List Byte), Admitted cmdConfirmFw p i s → s.boot.running = false →
    Gives (.confirmFw p i) s (fun t => Turned p 2 0x1583 0xFFF t ∧ t.boot = s.boot)) ∧
  (∀ (s : State) (p : Path) (i : List Byte), Admitted cmdClearResetInfo p i s → fld i 0 4 < 2048 →
    Gives (.clearResetInfo p i) s (fun t => Succeeded p [] t ∧
      (∀ b, b < 11 → t.keeper.resetInfo.getLsbD b = (s.keeper.resetInfo.getLsbD b &&
        (!(BitVec.ofNat 11 (fld i 0 2)).getLsbD b || (s.keeper.resetTb == nowTb s && s.keeper.resetNow.getLsbD b)))) ∧
      t.keeper = { s.keeper with resetInfo := t.keeper.resetInfo } ∧ OnlyCtx p { s with keeper := t.keeper } t)) ∧
  (∀ (s : State) (p : Path) (i : List Byte), Admitted cmdPreparePowerOff p i s → activating s = false → s.boot.running = true →
    s.belay.step = 0 → Gives (.preparePowerOff p i) s (fun t => Succeeded p [] t ∧ t.belay.step = 1 ∧ t.belay.cause = 4 ∧
      t.medium = s.medium ∧ t.sad = s.sad)) ∧
  (∀ (s : State) (p : Path) (i : List Byte), Admitted cmdWarmReset p i s → activating s = false → s.boot.running = true →
    s.belay.step = 0 → Gives (.warmReset p i) s (fun t => Succeeded p [] t ∧ t.belay.step = 1 ∧ t.belay.cause = 6 ∧
      t.keeper.resetInfo.getLsbD 3 = true ∧ t.keeper.lastCause = 3 ∧ t.medium = s.medium)) ∧
  (∀ (s : State) (p : Path) (i : List Byte), activating s = true →
    (Admitted cmdPreparePowerOff p i s → Gives (.preparePowerOff p i) s (fun t => Turned p 6 0x1581 0xFFF t ∧ OnlyCtx p s t)) ∧
    (Admitted cmdWarmReset p i s → Gives (.warmReset p i) s (fun t => Turned p 6 0x1581 0xFFF t ∧ OnlyCtx p s t)))

/-- R81, R82, R86, R133, R205, R208, R379, R401: CREATE_PARTITION makes a free ID ACTIVE with its policy, its shares
and a key set of generation 0, whose wrap, which opens to it again, is stored with the record before the command
completes; DELETE_PARTITION makes an unmapped partition DEPARTING and runs in the background; SET_QOS changes the
shares of one partition. -/
def Obligations.PartitionCommands : Prop :=
  (∀ (s : State) (p : Path) (i : List Byte), Admitted cmdCreatePartition p i s → fld i 0 2 < 1024 → fld i 2 1 < 2 →
    (partRec s (fld i 0 2) = none → tget s.gate.freedMinute (fld i 0 2) ≠ some s.reck.openBank.minute →
      shareSum s (fld i 0 2) + fld i 4 2 + fld i 6 2 ≤ 896 →
      Gives (.createPartition p i) s (fun t => Awaits p 0xC100 [rk 3 (fld i 0 2), rk 7 (fld i 0 2)] (.slot (fld i 0 2) (newKeys 0 s) (fld i 4 2, fld i 6 2)) t ∧
        partRec t (fld i 0 2) = some { fastOnly := fld i 2 1 == 1, readShare := fld i 4 2, writeShare := fld i 6 2 } ∧
        tget t.sad.img.wraps (fld i 0 2) = some (wrapKeys (kwkOf s) (fld i 0 2) s.sad.wrapSeq (newKeys 0 s)) ∧
        t.keeper.rbg = s.keeper.rbg + 1 ∧ t.sad.wrapSeq = s.sad.wrapSeq + 1 ∧
        (∀ q, q ≠ fld i 0 2 → partRec t q = partRec s q) ∧ t.sealCtl = s.sealCtl ∧ t.medium = s.medium)) ∧
    (∀ (kwk : BitVec 256) (part seq : Nat) (k : KeySet), unwrap kwk (wrapKeys kwk part seq k) = some k) ∧
    ((partRec s (fld i 0 2)).isSome = true → Gives (.createPartition p i) s (fun t => Turned p 2 0x0280 0 t ∧ OnlyCtxLog p s t)) ∧
    (partRec s (fld i 0 2) = none → tget s.gate.freedMinute (fld i 0 2) = some s.reck.openBank.minute →
      Gives (.createPartition p i) s (fun t => Turned p 6 0x0281 0 t ∧ OnlyCtxLog p s t))) ∧
  (∀ (s : State) (p : Path) (i : List Byte) (r : PartRec), Admitted cmdDeletePartition p i s → fld i 0 2 < 1024 →
    partRec s (fld i 0 2) = some r → r.st = .active →
    (rangeMaps s (fld i 0 2) none = false → Gives (.deletePartition p i) s (fun t =>
      (∃ legs n, Started p 0xC101 (.deletePart (fld i 0 2) legs n (tbNow s)) t ∧ ∀ g, g ∈ legs ↔ ∃ q, (q, g) ∈ positions s (fld i 0 2)) ∧
      partRec t (fld i 0 2) = some { r with st := .departing } ∧ rk 3 (fld i 0 2) ∈ t.sad.dirty ∧
      (∀ q, q ≠ fld i 0 2 → partRec t q = partRec s q) ∧ t.sad.img.wraps = s.sad.img.wraps ∧ t.sad.img.runs = s.sad.img.runs)) ∧
    (rangeMaps s (fld i 0 2) none = true → Gives (.deletePartition p i) s (fun t => Turned p 2 0x0282 0 t ∧ OnlyCtxLog p s t))) ∧
  (∀ (s : State) (p : Path) (i : List Byte) (r : PartRec), Admitted cmdSetQos p i s → fld i 0 2 < 1024 →
    partRec s (fld i 0 2) = some r → r.st = .active →
    (shareSum s (fld i 0 2) + fld i 2 2 + fld i 4 2 ≤ 896 → Gives (.setQos p i) s (fun t => Awaits p 0xC109 [rk 3 (fld i 0 2)]
        (.shares (fld i 0 2) (fld i 2 2, fld i 4 2)) t ∧
      (∃ w, (ctx t p).wait = some w ∧ fld w.out 0 4 = shareSum s (fld i 0 2) + fld i 2 2 + fld i 4 2) ∧
      partRec t (fld i 0 2) = some { r with readShare := fld i 2 2, writeShare := fld i 4 2 } ∧
      (∀ q, q ≠ fld i 0 2 → partRec t q = partRec s q))) ∧
    (896 < shareSum s (fld i 0 2) + fld i 2 2 + fld i 4 2 → Gives (.setQos p i) s (fun t => Turned p 2 0x0480 2 t ∧ OnlyCtxLog p s t)))

/-- R84, R85, R401: ADD_LEGS places free legs in empty positions of an ACTIVE partition and waits for the LEG_RUNS
that change; with too few free legs, or an occupied position, nothing changes. REMOVE_LEGS empties positions that no
LD maps and goes on in the background. -/
def Obligations.LegCommands : Prop :=
  (∀ (s : State) (p : Path) (i : List Byte) (legs : List Nat) (runs : Tbl LegRun), Admitted cmdAddLegs p i s → fld i 0 2 < 1024 →
    isActive s (fld i 0 2) = true → 1 ≤ fld i 2 2 → fld i 2 2 ≤ 1024 →
    (∀ q ∈ posList i, legAt s.sad.img.runs (fld i 0 2) q = none) → (posList i).Nodup →
    placeLegs s (fld i 0 2) (posList i) = .ok (legs, runs) → runRecs s.sad.img.runs runs ≠ [] →
    Gives (.addLegs p i) s (fun t => Awaits p 0xC102 (runRecs s.sad.img.runs runs) .none t ∧ t.sad.img = { s.sad.img with runs := runs } ∧
      (∃ w, (ctx t p).wait = some w ∧ fld w.out 0 2 = fld i 2 2 ∧ ∀ j g, legs[j]? = some g → fld w.out (4 + 4 * j) 4 = g % 2 ^ 32) ∧
      t.medium = s.medium ∧ t.way = s.way)) ∧
  (∀ (s : State) (p : Path) (i : List Byte), Admitted cmdAddLegs p i s → fld i 0 2 < 1024 → isActive s (fld i 0 2) = true →
    1 ≤ fld i 2 2 → fld i 2 2 ≤ 1024 →
    ((∀ q ∈ posList i, legAt s.sad.img.runs (fld i 0 2) q = none) → (posList i).Nodup →
      freeLegs s < (posList i).length * legCost s (fld i 0 2) →
      Gives (.addLegs p i) s (fun t => Turned p 0x1D 0x0284 0xFFF t ∧ OnlyCtxLog p s t)) ∧
    (∀ q rest, posList i = q :: rest → (legAt s.sad.img.runs (fld i 0 2) q).isSome = true →
      Gives (.addLegs p i) s (fun t => Turned p 2 0x0283 4 t ∧ OnlyCtxLog p s t))) ∧
  (∀ (s : State) (p : Path) (i : List Byte), Admitted cmdRemoveLegs p i s → fld i 0 2 < 1024 → isActive s (fld i 0 2) = true →
    1 ≤ fld i 2 2 → fld i 2 2 ≤ 1024 →
    ((∀ q ∈ posList i, rangeMaps s (fld i 0 2) (some q) = false ∧ (legAt s.sad.img.runs (fld i 0 2) q).isSome = true) → (posList i).Nodup →
      Gives (.removeLegs p i) s (fun t =>
        Started p 0xC103 (.removeLegs ((posList i).filterMap (legAt s.sad.img.runs (fld i 0 2)))) t ∧
        t.sad.img = { s.sad.img with runs := dropRuns ((posList i).filterMap (legAt s.sad.img.runs (fld i 0 2))) s.sad.img.runs } ∧
        (∀ k ∈ runRecs s.sad.img.runs t.sad.img.runs, k ∈ t.sad.dirty) ∧ t.way = s.way ∧ t.cache = s.cache)) ∧
    (∀ q rest, posList i = q :: rest → rangeMaps s (fld i 0 2) (some q) = true →
      Gives (.removeLegs p i) s (fun t => Turned p 2 0x0282 4 t ∧ OnlyCtxLog p s t)))

/-- R72, R88, R89, R98, R100, R401: SET_LD_MAP and SET_CONTRACT store the LD_MAP record and leave the map and the
contract in force until it has committed; a map that R88 forbids, and a contract that would take the port above 2,016,
change nothing. R14, R116, R117, R118: THAW clears the flag of the master that it names and no other, resets that LD's
poisoned-write count, and answers how long the freeze lasted; a trigger of the same cycle freezes the master again; a
flag set in the very cycle of the THAW stays; THAW of a master that is not frozen changes nothing. -/
def Obligations.MapAndThawCommands : Prop :=
  ((∀ (s : State) (p : Path) (i : List Byte) (k : Nat), Admitted cmdSetLdMap p i s → ldOperand s i = .ok k → fld i 2 1 < 3 →
    fld i 3 1 < 2 → fld i 4 2 < 1024 → fld i 8 1 ≤ 64 →
    (ldMapBad s k i = none →
      rangeTotal s (ldInst k) + (ldMapOf (tgetD s.sad.img.ldMaps (ldInst k) {}) i).ranges.length ≤ 4096 →
      Gives (.setLdMap p i) s (fun t => ∃ m recs, Awaits p 0xC105 recs (.ldMap k m) t ∧ rk 5 (ldInst k) ∈ recs ∧
        (∃ b, tget t.sad.img.ldMaps (ldInst k) = some b ∧ { b with first := m.first } = m) ∧
        (m.typ = .tenant ↔ fld i 2 1 = 1) ∧ (m.typ = .management ↔ fld i 2 1 = 2) ∧ m.dynamic = (fld i 3 1 == 1) ∧
        (fld i 2 1 = 1 → m.part = fld i 4 2) ∧ (fld i 3 1 = 1 → m.dcBase = fld i 6 2) ∧ (fld i 3 1 = 0 → m.ranges = rangesOf i) ∧
        m.outstanding = (tgetD s.sad.img.ldMaps (ldInst k) {}).outstanding ∧
        (∀ x, x ≠ ldInst k → (tget t.sad.img.ldMaps x).map (fun b => { b with first := 0 }) =
          (tget s.sad.img.ldMaps x).map (fun b => { b with first := 0 })) ∧ (∀ j, (ldAt t j).map = (ldAt s j).map))) ∧
    (∀ o, ldMapBad s k i = some o → Gives (.setLdMap p i) s (fun t => Turned p 2 0x0285 o t ∧ OnlyCtxLog p s t))) ∧
  (∀ (s : State) (p : Path) (i : List Byte) (k : Nat), Admitted cmdSetContract p i s → ldOperand s i = .ok k → fld i 4 1 < 128 →
    (mgmtLdOf s = some k → Gives (.setContract p i) s (fun t => Turned p 2 0x0D83 1 t ∧ OnlyCtxLog p s t)) ∧
    (mgmtLdOf s ≠ some k → 1 ≤ fld i 2 2 → fld i 2 2 ≤ 2016 → contractSum s k + fld i 2 2 ≤ 2016 →
      Gives (.setContract p i) s (fun t => ∃ m, Awaits p 0xC107 [rk 5 (ldInst k)] (.contract k m) t ∧
        tget t.sad.img.ldMaps (ldInst k) = some m ∧ m = { tgetD s.sad.img.ldMaps (ldInst k) {} with
          outstanding := fld i 2 2, opcodes := BitVec.ofNat 7 (fld i 4 1), poisonLimit := fld i 6 2 } ∧
        (∀ j, (ldAt t j).map = (ldAt s j).map))) ∧
    (mgmtLdOf s ≠ some k → 1 ≤ fld i 2 2 → fld i 2 2 ≤ 2016 → 2016 < contractSum s k + fld i 2 2 →
      Gives (.setContract p i) s (fun t => Turned p 2 0x0286 2 t ∧ OnlyCtxLog p s t)))) ∧
  ((∀ (s : State) (p : Path) (i : List Byte) (f : Freeze), Admitted cmdThaw p i s → masterRsvd (fld i 0 4) = false →
    s.gate.freezes.find? (fun f => f.master = fld i 0 4) = some f → f.tb ≠ tbNow s → retrigger s (fld i 0 4) = none →
    (∀ q, (port s q).ingress = []) →
    (thas s.sad.img.freezes (freezeSlot (fld i 0 4)) = false → ∃ out, out.length = 12 ∧ fld out 0 4 = 0 ∧ fld out 4 8 = (tbNow s - f.tb) % 2 ^ 64 ∧
      Gives (.thaw p i) s (fun t => Succeeded p out t ∧ (∀ g, g ∈ t.gate.freezes ↔ g ∈ s.gate.freezes ∧ g.master ≠ fld i 0 4) ∧
        (∀ g, g ∈ t.keeper.latch ↔ g ∈ s.keeper.latch ∧ g.master ≠ fld i 0 4) ∧
        (fld i 0 4 / 268435456 = 1 → ∀ k ∈ masterLds s (fld i 0 4), (ldAt t k).poisonCnt = 0) ∧ t.sad = s.sad ∧ t.cache = s.cache ∧
        t.medium = s.medium)) ∧
    (thas s.sad.img.freezes (freezeSlot (fld i 0 4)) = true → Gives (.thaw p i) s (fun t =>
      Awaits p 0xC10A [rk 9 (freezeSlot (fld i 0 4) / 64)] .none t ∧ tget t.sad.img.freezes (freezeSlot (fld i 0 4)) = none ∧
      (∀ x, x ≠ freezeSlot (fld i 0 4) → tget t.sad.img.freezes x = tget s.sad.img.freezes x) ∧
      (∀ g, g ∈ t.gate.freezes ↔ g ∈ s.gate.freezes ∧ g.master ≠ fld i 0 4)))) ∧
  (∀ (s : State) (p : Path) (i : List Byte) (f h : Freeze), Admitted cmdThaw p i s → masterRsvd (fld i 0 4) = false →
    s.gate.freezes.find? (fun f => f.master = fld i 0 4) = some f → f.tb ≠ tbNow s → retrigger s (fld i 0 4) = some h →
    (∀ q, (port s q).ingress = []) → thas s.sad.img.freezes (freezeSlot (fld i 0 4)) = false →
    ∃ out, out.length = 12 ∧ fld out 0 4 = 1 ∧ fld out 4 8 = (tbNow s - f.tb) % 2 ^ 64 ∧
      Gives (.thaw p i) s (fun t => Succeeded p out t ∧ FrozenWith (fld i 0 4) h.code t ∧
        (∀ g ∈ t.gate.freezes, g.master = fld i 0 4 → g.tb = tbNow s) ∧ t.sad = s.sad ∧ t.cache = s.cache)) ∧
  (∀ (s : State) (p : Path) (i : List Byte) (f : Freeze), Admitted cmdThaw p i s → masterRsvd (fld i 0 4) = false →
    s.gate.freezes.find? (fun f => f.master = fld i 0 4) = some f → f.tb = tbNow s →
    Gives (.thaw p i) s (fun t => Succeeded p (toLe 4 1 ++ zeros 8) t ∧ OnlyCtxLog p s t)) ∧
  (∀ (s : State) (p : Path) (i : List Byte), Admitted cmdThaw p i s →
    (masterRsvd (fld i 0 4) = false → s.gate.freezes.find? (fun f => f.master = fld i 0 4) = none →
      Gives (.thaw p i) s (fun t => Succeeded p (zeros 12) t ∧ OnlyCtxLog p s t)) ∧
    (masterRsvd (fld i 0 4) = true → Gives (.thaw p i) s (fun t => Turned p 2 0x0D84 0 t ∧ OnlyCtxLog p s t))))

/-- R92, R93, R94, R401: the manager's add fills the positions of an extent, listed or chosen by the device, and
offers it to the host; the host's response accepts extents of its offers, or none of the oldest, whose positions are
then emptied; the host's release gives ranges back when its record has committed; the manager's release asks the host,
withdraws an offer that waits, or, forced, removes the range at once and starts the grace. Extents that are not
leg-aligned are refused. Payload layouts that the manual leaves to the CXL Specification are the model's (assumption
log entry 10), and so is which offers a response answers (entry 84). -/
def Obligations.DynamicCapacity : Prop :=
  (∀ (s : State) (p : Path) (i : List Byte) (k a n : Nat) (legs : List Nat) (runs : Tbl LegRun), Admitted cmdInitiateDcAdd p i s →
    dcTarget s i = some k →
    (fld i 2 1 % 16 = 2 ∧ fld i 28 4 = 1 ∧ fld i 32 8 = a * gib ∧ fld i 40 8 = n * gib ∨
      fld i 2 1 % 16 = 1 ∧ fld i 4 8 = n * gib ∧
        ∃ m, (asExtents (emptyLegs s (ldAt s k).map)).find? (fun e => decide (n * gib ≤ e.2)) = some (a * gib, m)) → 0 < n →
    (ldAt s k).map.dcBase + a + n ≤ 65536 → (∀ j, j < n → legAt s.sad.img.runs (ldAt s k).map.part ((ldAt s k).map.dcBase + a + j) = none) →
    (withOffers (ldAt s k).map.dcBase (ldAt s k).map.ranges
      ((ldAt s k).offers ++ [{ dpaLeg := a, count := n, group := nextOffer (ldAt s k) }])).length ≤ 64 →
    placeLegs s (ldAt s k).map.part ((List.range n).map (fun j => (ldAt s k).map.dcBase + (a + j))) = .ok (legs, runs) →
    runRecs s.sad.img.runs runs ≠ [] → Gives (.initiateDynamicCapacityAdd p i) s (fun t =>
      Awaits p 0x5604 (runRecs s.sad.img.runs runs) .none t ∧ t.sad.img = { s.sad.img with runs := runs } ∧
      (ldAt t k).offers = (ldAt s k).offers ++ [{ dpaLeg := a, count := n, group := nextOffer (ldAt s k) }] ∧ (ldAt t k).map = (ldAt s k).map ∧
      (∃ e, (e ∈ t.relay.evq10 ∨ e ∈ t.relay.evq11 ∨ e ∈ t.relay.synetWait) ∧ e.lds = [k] ∧ e.log = 4 ∧ e.ev.code = evDc 0 ∧
        e.ev.dpa = BitVec.ofNat 64 (a * gib) ∧ e.ev.len = n * gib))) ∧
  (∀ (s : State) (p : Path) (i : List Byte) (k a n g : Nat) (rest : List Offer) (rs : List Range), Admitted cmdAddDcResponse p i s →
    pathLd s p = some k → dcLd s k = true → (ldAt s k).offers = { dpaLeg := a, count := n, group := g } :: rest →
    (∀ o ∈ rest, o.group ≠ g ∧ offered o (a * gib, n * gib) = false) →
    rs = (if fld i 0 4 = 0 then (ldAt s k).map.ranges else addRange (ldAt s k).map.dcBase (ldAt s k).map.ranges a n) →
    rs.length ≤ 64 → rangeTotal s (ldInst k) + rs.length ≤ 4096 →
    (fld i 0 4 = 1 → fld i 8 8 = a * gib → fld i 16 8 = n * gib → 0 < n →
      mapRecs s.sad.img (withMap (ldInst k) { tgetD s.sad.img.ldMaps (ldInst k) (ldAt s k).map with ranges := rs } s.sad.img) ≠ [] →
      Gives (.addDynamicCapacityResponse p i) s (fun t => (∃ recs, Awaits p 0x4802 recs (.ranges k rs) t) ∧
        (ldAt t k).offers = rest ∧ (ldAt t k).extGen = (ldAt s k).extGen + 1 ∧ (ldAt t k).map = (ldAt s k).map ∧
        (∃ m, tget t.sad.img.ldMaps (ldInst k) = some m ∧ m.ranges = rs) ∧ t.sad.img.runs = s.sad.img.runs)) ∧
    (fld i 0 4 = 0 → Gives (.addDynamicCapacityResponse p i) s (fun t => (ldAt t k).offers = rest ∧ (ldAt t k).map = (ldAt s k).map ∧
      t.sad.img.ldMaps = s.sad.img.ldMaps ∧ t.sad.img.runs =
        dropRuns (((List.range n).map (a + ·)).filterMap (fun d => legAt s.sad.img.runs (ldAt s k).map.part ((ldAt s k).map.dcBase + d))) s.sad.img.runs))) ∧
  (∀ (s : State) (p : Path) (i : List Byte) (k : Nat) (es : List (Nat × Nat)) (rs : List Range), Admitted cmdAddDcResponse p i s →
    pathLd s p = some k → dcLd s k = true → es = extents i (fld i 0 4) 8 24 → es ≠ [] → unaligned es = none →
    badAnswer (ldAt s k).offers es = none →
    rs = es.foldl (fun r e => addRange (ldAt s k).map.dcBase r (e.1 / gib) (e.2 / gib)) (ldAt s k).map.ranges →
    rs.length ≤ 64 → rangeTotal s (ldInst k) + rs.length ≤ 4096 → Gives (.addDynamicCapacityResponse p i) s (fun t =>
      (∃ m, tget t.sad.img.ldMaps (ldInst k) = some m ∧ m.ranges = rs) ∧
      ∀ o, o ∈ (ldAt t k).offers ↔ o ∈ (ldAt s k).offers ∧ ∀ x ∈ (ldAt s k).offers, x.group = o.group → ∀ e ∈ es, offered x e = false)) ∧
  (∀ (s : State) (p : Path) (i : List Byte) (k : Nat), Admitted cmdAddDcResponse p i s → pathLd s p = some k → dcLd s k = true →
    fld i 0 4 = 1 → fld i 8 8 % gib ≠ 0 → Gives (.addDynamicCapacityResponse p i) s (fun t => Turned p 2 0x0285 8 t ∧ OnlyCtxLog p s t)) ∧
  (∀ (s : State) (p : Path) (i : List Byte) (k a n : Nat), Admitted cmdReleaseDc p i s → pathLd s p = some k → dcLd s k = true →
    fld i 0 4 = 1 → fld i 8 8 = a * gib → fld i 16 8 = n * gib → 0 < n →
    (∀ j, j < n → (rangePos (ldAt s k).map.ranges (a + j)).isSome = true) → (cutRange a n (ldAt s k).map.ranges).length ≤ 64 →
    rangeTotal s (ldInst k) + (cutRange a n (ldAt s k).map.ranges).length ≤ 4096 →
    mapRecs s.sad.img (withMap (ldInst k) { tgetD s.sad.img.ldMaps (ldInst k) (ldAt s k).map with
      ranges := cutRange a n (ldAt s k).map.ranges } s.sad.img) ≠ [] →
    Gives (.releaseDynamicCapacity p i) s (fun t => (∃ recs ps, Awaits p 0x4803 recs
        (.release k (ldAt s k).map.part (cutRange a n (ldAt s k).map.ranges) ps) t ∧
        ∀ j, j < n → ∀ q, rangePos (ldAt s k).map.ranges (a + j) = some q → q ∈ ps) ∧
      (∃ m, tget t.sad.img.ldMaps (ldInst k) = some m ∧ m.ranges = cutRange a n (ldAt s k).map.ranges) ∧
      (ldAt t k).map = (ldAt s k).map ∧ (ldAt t k).extGen = (ldAt s k).extGen + 1 ∧ t.sad.img.runs = s.sad.img.runs)) ∧
  (∀ (s : State) (p : Path) (i : List Byte) (k a n : Nat), Admitted cmdInitiateDcRelease p i s → dcTarget s i = some k →
    fld i 2 1 % 16 = 1 → fld i 28 4 = 1 → fld i 32 8 = a * gib → fld i 40 8 = n * gib → 0 < n →
    (∀ j, j < n → (rangePos (ldAt s k).map.ranges (a + j)).isSome = true) → (∀ o ∈ (ldAt s k).offers, o.dpaLeg = a → o.count ≠ n) →
    (fld i 2 1 / 16 % 2 = 0 → (ldAt s k).map.ranges.length ≤ 64 → rangeTotal s (ldInst k) + (ldAt s k).map.ranges.length ≤ 4096 →
      Gives (.initiateDynamicCapacityRelease p i) s (fun t => Succeeded p [] t ∧
      (∃ e, (e ∈ t.relay.evq10 ∨ e ∈ t.relay.evq11 ∨ e ∈ t.relay.synetWait) ∧ e.lds = [k] ∧ e.log = 4 ∧ e.ev.code = evDc 1 ∧
        e.ev.dpa = BitVec.ofNat 64 (a * gib) ∧ e.ev.len = n * gib) ∧ (ldAt t k).map = (ldAt s k).map ∧ t.sad = s.sad)) ∧
    (fld i 2 1 / 16 % 2 = 1 → (cutRange a n (ldAt s k).map.ranges).length ≤ 64 →
      rangeTotal s (ldInst k) + (cutRange a n (ldAt s k).map.ranges).length ≤ 4096 →
      Gives (.initiateDynamicCapacityRelease p i) s (fun t =>
      (ldAt t k).map.ranges = cutRange a n (ldAt s k).map.ranges ∧ (∃ g ∈ (ldAt t k).graces, g.dpaLeg = a ∧ g.count = n ∧ g.since = tbNow s) ∧
      (ldAt t k).extGen = (ldAt s k).extGen + 1 ∧ (ldAt t k).offers = (ldAt s k).offers ∧
      (∃ e, (e ∈ t.relay.evq10 ∨ e ∈ t.relay.evq11 ∨ e ∈ t.relay.synetWait) ∧ e.lds = [k] ∧ e.log = 4 ∧ e.ev.code = evDc 2)))) ∧
  (∀ (s : State) (p : Path) (i : List Byte) (k a n : Nat) (runs : Tbl LegRun), Admitted cmdInitiateDcRelease p i s → dcTarget s i = some k →
    fld i 2 1 % 16 = 1 → fld i 28 4 = 1 → fld i 32 8 = a * gib → fld i 40 8 = n * gib → 0 < n →
    (∃ o ∈ (ldAt s k).offers, o.dpaLeg = a ∧ o.count = n) →
    runs = dropRuns (((List.range n).map (a + ·)).filterMap (fun d => legAt s.sad.img.runs (ldAt s k).map.part ((ldAt s k).map.dcBase + d))) s.sad.img.runs →
    (ldAt s k).map.ranges.length ≤ 64 → rangeTotal s (ldInst k) + (ldAt s k).map.ranges.length ≤ 4096 →
    Gives (.initiateDynamicCapacityRelease p i) s (fun t => (∀ o ∈ (ldAt t k).offers, o.dpaLeg = a → o.count ≠ n) ∧
      t.sad.img.runs = runs ∧ (ldAt t k).map = (ldAt s k).map))

/-- R189, R240, R241, R289, R393, R399, R401: the range commands start a background operation on an aligned range of
occupied positions; TRAVERSE stores a TRAVERSE record and a NEXT wrap of the next generation, or changes the rate of
the traverse that runs or is being finished; ADOPT_MODULE takes a NEW module with the named serial; the progress of a
background command only rises; a discarded MCTP request leaves a record. -/
def Obligations.BackgroundCommands : Prop :=
  (∀ (s : State) (p : Path) (i : List Byte) (c : Instr) (cmd : Cmd) (kind : Nat),
    (c = .flushRange p i ∧ cmd = cmdFlushRange ∧ kind = 0 ∨ c = .invalidateRange p i ∧ cmd = cmdInvalidateRange ∧ kind = 1 ∨
      c = .zeroRange p i ∧ cmd = cmdZeroRange ∧ kind = 2) → Admitted cmd p i s →
    (pathRole s p ≠ 0 → fld i 0 1 = 0 → fld i 2 2 < 1024 → isActive s (fld i 2 2) = true →
      (fld i 8 8 % 256 = 0 → fld i 16 8 % 256 = 0 → rangeOccupied s (fld i 2 2) none (fld i 8 8) (fld i 16 8) = true →
        Gives c s (fun t => Started p (0xC300 + kind) (.range kind (fld i 2 2) (fld i 8 8) (fld i 16 8) 0 none (tbNow s) [] false) t ∧ OnlyCtx p s t)) ∧
      (fld i 8 8 % 256 ≠ 0 → Gives c s (fun t => Turned p 2 0x0580 8 t ∧ OnlyCtx p s t)) ∧
      (fld i 8 8 % 256 = 0 → fld i 16 8 % 256 ≠ 0 → Gives c s (fun t => Turned p 2 0x0580 16 t ∧ OnlyCtx p s t)) ∧
      (fld i 8 8 % 256 = 0 → fld i 16 8 % 256 = 0 → rangeOccupied s (fld i 2 2) none (fld i 8 8) (fld i 16 8) = false →
        Gives c s (fun t => Turned p 2 0x0580 8 t ∧ OnlyCtx p s t))) ∧
    (∀ k, pathRole s p = 0 → pathLd s p = some k → fld i 0 1 = 1 → fld i 2 2 = 0 →
      (rangeRight kind (ldAt s k).map = true → fld i 8 8 % 256 = 0 → fld i 16 8 % 256 = 0 →
        rangeOccupied s (ldAt s k).map.part (some k) (fld i 8 8) (fld i 16 8) = true →
        Gives c s (fun t => Started p (0xC300 + kind)
          (.range kind (ldAt s k).map.part (fld i 8 8) (fld i 16 8) 0 (some k) (tbNow s) [] false) t ∧ OnlyCtx p s t)) ∧
      (rangeRight kind (ldAt s k).map = false → Gives c s (fun t => Turned p 2 0x0289 0xFFF t ∧ OnlyCtx p s t)))) ∧
  (∀ (s : State) (p : Path) (i : List Byte) (r : PartRec), Admitted cmdTraverse p i s → fld i 0 2 < 1024 →
    partRec s (fld i 0 2) = some r → r.st = .active →
    (s.sealCtl.zeroed = true → Gives (.traverse p i) s (fun t => Turned p 6 0x0781 0xFFF t ∧ OnlyCtxLog p s t)) ∧
    (s.sealCtl.zeroed = false → (∀ t, tget s.travs (fld i 0 2) = some t → t.phase = 0) →
      s.sad.img.travs.find? (fun p => p.2.part = fld i 0 2) = none →
      (16 ≤ s.sad.img.travs.length → Gives (.traverse p i) s (fun t => Turned p 0x1D 0x0780 0xFFF t ∧ OnlyCtxLog p s t)) ∧
      (s.sad.img.travs.length < 16 → Gives (.traverse p i) s (fun t => ∃ n, Awaits p 0xC400 [rk 8 n, rk 7 (1024 + n)] (.traverse n) t ∧
        (∃ w, (ctx t p).wait = some w ∧ fld w.out 0 2 = (r.keyGen + 1).toNat) ∧
        tget t.sad.img.travs n = some { part := fld i 0 2, oldGen := r.keyGen, newGen := r.keyGen + 1, rate := fld i 4 4, mark := firstOffset s (fld i 0 2) } ∧
        tget t.sad.img.wraps (1024 + n) = some (wrapKeys (kwkOf s) (fld i 0 2) s.sad.wrapSeq (newKeys (r.keyGen + 1) s)) ∧
        t.keeper.rbg = s.keeper.rbg + 1 ∧ t.travs = s.travs ∧ t.sealCtl = s.sealCtl))) ∧
    (∀ v, s.sealCtl.zeroed = false → tget s.travs (fld i 0 2) = some v → v.phase ≠ 0 →
      Gives (.traverse p i) s (fun t => Succeeded p (toLe 2 v.newGen.toNat) t ∧ tget t.travs (fld i 0 2) = some { v with rate := fld i 4 4 } ∧
        (∀ q, q ≠ fld i 0 2 → tget t.travs q = tget s.travs q) ∧ t.sad = s.sad)) ∧
    (∀ n v, s.sealCtl.zeroed = false → (∀ t, tget s.travs (fld i 0 2) = some t → t.phase = 0) → s.sad.img.travs.find? (fun p => p.2.part = fld i 0 2) = some (n, v) →
      Gives (.traverse p i) s (fun t => Awaits p 0xC400 [rk 8 n] (.traverse n) t ∧ tget t.sad.img.travs n = some { v with rate := fld i 4 4 } ∧
        t.keeper = s.keeper ∧ t.sad.img.wraps = s.sad.img.wraps))) ∧
  (∀ (s : State) (p : Path) (i : List Byte), Admitted cmdAdoptModule p i s → fld i 0 1 < 32 →
    ((chan s (fld i 0 1)).st ≠ .new → Gives (.adoptModule p i) s (fun t => Turned p 2 0x0A80 0 t ∧ t.medium = s.medium ∧ t.sad = s.sad)) ∧
    ((chan s (fld i 0 1)).st = .new → (chan s (fld i 0 1)).serial.toNat ≠ fld i 8 8 →
      Gives (.adoptModule p i) s (fun t => Turned p 2 0x0A80 8 t ∧ t.medium = s.medium ∧ t.sad = s.sad)) ∧
    ((chan s (fld i 0 1)).st = .new → (chan s (fld i 0 1)).serial.toNat = fld i 8 8 → Gives (.adoptModule p i) s (fun t =>
      Started p 0xC501 (.adopt (fld i 0 1) (chan s (fld i 0 1)).serial) t ∧
      tget t.sad.img.modules (fld i 0 1) = some { serial := (chan s (fld i 0 1)).serial, gen := (chan s (fld i 0 1)).gen } ∧
      rk 12 (fld i 0 1) ∈ t.sad.dirty ∧ (∀ a, ppaCh a = fld i 0 1 → tget t.medium.cells a = none ∧ tget t.medium.sys a = none)))) ∧
  (∀ (s : State) (p : Path) (n : Nat) (b : Bg), s.mainUp = true → (ctx s p).bg = some b → Gives (.backgroundProgressUpdate p n) s (fun t =>
    (ctx t p).bg = some { b with pct := max b.pct (min n 99) } ∧ (ctx t p).bgPct = max b.pct (min n 99) ∧ OnlyCtx p s t)) ∧
  (∀ (s : State) (e k n b : Nat), s.mainUp = true → Gives (.mctpAssemblyTimeout e k n b) s (fun t => t = emit 0x0D01 0xFF e k n b s ∧
    t.mctp = s.mctp))

/-- R534: Transfer FW: an Initiate at offset 0 begins a staging, a Continue that follows without a gap joins it, an
End that completes a whole image for this hardware stages it, an Abort discards it; an offset out of order and an End
of another slot are refused. R535, R399: Activate FW takes a staged image, slot 1 and the online action, and runs in
the background. Payload layouts that the manual leaves to the CXL Specification are the model's (assumption log entry
10). R535: the activation erases the header sector first, then rewrites the body block by block, and programs the
header last; a block that does not compare is written once more; nothing outside the range of a step changes. -/
def Obligations.FirmwareUpdate : Prop :=
  ((∀ (s : State) (p : Path) (i : List Byte), Admitted cmdTransferFw p i s →
    (fld i 0 1 = 0 → Gives (.transferFw p i) s (fun t => Turned p 2 0x1582 0 t ∧ OnlyCtx p s t)) ∧
    (fld i 0 1 = 1 → fld i 4 4 = 0 → activating s = false → (s.boot.transferPath = 0 ∨ s.boot.staged = true ∨ s.boot.transferPath = fwPath p) →
      Gives (.transferFw p i) s (fun t => Succeeded p [] t ∧
        t.boot = { s.boot with staging := i.drop 128, staged := false, transferPath := fwPath p })) ∧
    (fld i 0 1 = 1 → activating s = false → s.boot.transferPath ≠ 0 → s.boot.staged = false → s.boot.transferPath ≠ fwPath p →
      Gives (.transferFw p i) s (fun t => Turned p 8 0 0xFFF t ∧ t.boot = s.boot)) ∧
    (fld i 0 1 = 2 → s.boot.staged = false → s.boot.transferPath = fwPath p →
      (fld i 4 4 * 128 = s.boot.staging.length → s.boot.staging.length + (i.drop 128).length ≤ 8392704 →
        Gives (.transferFw p i) s (fun t => Succeeded p [] t ∧ t.boot = { s.boot with staging := s.boot.staging ++ i.drop 128 })) ∧
      (fld i 4 4 * 128 ≠ s.boot.staging.length → Gives (.transferFw p i) s (fun t => (ctx t p).retCode = 9 ∧ t.boot = s.boot))) ∧
    (fld i 0 1 = 3 → s.boot.staged = false → s.boot.transferPath = fwPath p → fld i 4 4 * 128 = s.boot.staging.length →
      s.boot.staging.length + (i.drop 128).length ≤ 8392704 →
      (fld i 1 1 ≠ 1 → Gives (.transferFw p i) s (fun t => (ctx t p).retCode = 0xB ∧ t.boot = s.boot)) ∧
      (fld i 1 1 = 1 → stagedOk (s.boot.staging ++ i.drop 128) = true → Gives (.transferFw p i) s (fun t => Succeeded p [] t ∧
        t.boot = { s.boot with staging := s.boot.staging ++ i.drop 128, staged := true })) ∧
      (fld i 1 1 = 1 → stagedOk (s.boot.staging ++ i.drop 128) = false → Gives (.transferFw p i) s (fun t => (ctx t p).retCode = 0xA ∧
        t.boot.staging = [] ∧ t.boot.flash = s.boot.flash))) ∧
    (fld i 0 1 = 4 → activating s = false → Gives (.transferFw p i) s (fun t => Succeeded p [] t ∧ t.boot.staging = [] ∧
      t.boot.flash = s.boot.flash))) ∧
  (∀ (s : State) (p : Path) (i : List Byte), Admitted cmdActivateFw p i s → activating s = false →
    (fld i 0 1 = 0 → fld i 1 1 = 1 → s.boot.staged = true → Gives (.activateFw p i) s (fun t => Started p 0x0202 (.activate (tbNow s)) t ∧
      t.boot = { s.boot with actPhase := 0, actBlock := 0, actSecond := false, actRewritten := 0 })) ∧
    (fld i 0 1 ≠ 0 → Gives (.activateFw p i) s (fun t => Turned p 2 0x1582 0 t ∧ OnlyCtx p s t)) ∧
    (fld i 0 1 = 0 → fld i 1 1 ≠ 1 → Gives (.activateFw p i) s (fun t => Turned p 2 0x1582 1 t ∧ OnlyCtx p s t)) ∧
    (fld i 0 1 = 0 → fld i 1 1 = 1 → s.boot.staged = false → Gives (.activateFw p i) s (fun t => Turned p 2 0x1582 0xFFF t ∧ OnlyCtx p s t)))) ∧
  (∀ s : State, s.mainUp = true → activating s = true → s.belay.step = 0 → FlashOk s →
    (s.boot.actPhase = 0 → ∀ ok, Gives (.activationFlashStep ok) s (fun t => FlashOk t ∧
      (∀ a, a < 4096 → flashRead t.boot.flash a = 0xFF) ∧ (∀ a, 4096 ≤ a → flashRead t.boot.flash a = flashRead s.boot.flash a) ∧
      t.boot.actPhase = (if bodyBlocks s.boot = 0 then 2 else 1) ∧ t = { s with boot := t.boot })) ∧
    (s.boot.actPhase = 1 → ∀ ok, Gives (.activationFlashStep ok) s (fun t => FlashOk t ∧
      (ok = true → (∀ j b, j < 65536 → s.boot.staging[4096 + 65536 * s.boot.actBlock + j]? = some b →
          flashRead t.boot.flash (4096 + 65536 * s.boot.actBlock + j) = b) ∧
        t.boot.actBlock = s.boot.actBlock + 1 ∧ (t.boot.actPhase = 2 ↔ bodyBlocks s.boot ≤ s.boot.actBlock + 1)) ∧
      (ok = false → s.boot.actSecond = false → t.boot.actSecond = true ∧ t.boot.actBlock = s.boot.actBlock ∧ t.boot.actPhase = 1) ∧
      (∀ a, a < 4096 + 65536 * s.boot.actBlock ∨ 4096 + 65536 * s.boot.actBlock + 65536 ≤ a → flashRead t.boot.flash a = flashRead s.boot.flash a))) ∧
    (s.boot.actPhase = 2 → s.boot.running = true → ∀ ok, Gives (.activationFlashStep ok) s (fun t => FlashOk t ∧
      (ok = true → (∀ j b, j < 4096 → s.boot.staging[j]? = some b → flashRead t.boot.flash j = b) ∧
        t.boot.staging = [] ∧ t.boot.staged = false ∧ t.boot.pendingVersion = some (fld s.boot.staging 8 4) ∧ activating t = false) ∧
      (ok = false → s.boot.actSecond = true → t.boot.staging = [] ∧ activating t = false) ∧
      (∀ a, 4096 ≤ a → flashRead t.boot.flash a = flashRead s.boot.flash a))))

/-- R427, R428, R433, R439, R440, R444, R448: a submit while a descriptor runs, or on a frozen page, sets
SUBMIT_IGNORED; one whose ranges the LD does not map freezes the page with code 0x0204 and ends FROZEN; one that fails
a check ends with that check's code, in the manual's order; any other captures the descriptor and runs. -/
def Obligations.CofferSubmit : Prop :=
  ∀ (s : State) (q l : Nat) (v : BitVec 32), s.mainUp = true → v.getLsbD 0 = true → tenantLd s (ldKey q l) = true →
    ((ldAt s (ldKey q l)).cof.run.isSome = true ∨ cofFrozen s q l = true → Gives (.cofSubmit q l v) s (fun t =>
      (ldAt t (ldKey q l)).cof.events.getLsbD 1 = true ∧ (ldAt t (ldKey q l)).cof.run = (ldAt s (ldKey q l)).cof.run ∧
      (ldAt t (ldKey q l)).cof.code = (ldAt s (ldKey q l)).cof.code ∧ (∀ k, k ≠ ldKey q l → ldAt t k = ldAt s k) ∧
      t = { s with ports := { s.ports with lds := t.ports.lds } })) ∧
    ((ldAt s (ldKey q l)).cof.run = none → cofFrozen s q l = false →
      (∀ a, rightsBad s (ldAt s (ldKey q l)).map (ldAt s (ldKey q l)).cof.desc (ldAt s (ldKey q l)).cof.lenMode = some a →
        isFrozen s (cofMaster q l) = false → Gives (.cofSubmit q l v) s (fun t => FrozenWith (cofMaster q l) 0x0204 t ∧
          (∃ f ∈ t.gate.freezes, f.master = cofMaster q l ∧ f.addr = BitVec.ofNat 64 a) ∧
          (ldAt t (ldKey q l)).cof.run = none ∧ (ldAt t (ldKey q l)).cof.code = 0x30 ∧ (ldAt t (ldKey q l)).cof.done = true ∧
          t.cache = s.cache ∧ t.medium = s.medium)) ∧
      (rightsBad s (ldAt s (ldKey q l)).map (ldAt s (ldKey q l)).cof.desc (ldAt s (ldKey q l)).cof.lenMode = none →
        (checkCode s (ldAt s (ldKey q l)).cof ≠ 0 → Gives (.cofSubmit q l v) s (fun t => (ldAt t (ldKey q l)).cof.run = none ∧
          (ldAt t (ldKey q l)).cof.code = checkCode s (ldAt s (ldKey q l)).cof ∧ (ldAt t (ldKey q l)).cof.done = true ∧
          t.ports.cofOrder = s.ports.cofOrder.filter (· != ldKey q l) ∧ t.gate = s.gate ∧ t.cache = s.cache)) ∧
        (checkCode s (ldAt s (ldKey q l)).cof = 0 → Gives (.cofSubmit q l v) s (fun t =>
          (ldAt t (ldKey q l)).cof.run = some (cofRunOf (ldAt s (ldKey q l)).cof (ldAt s (ldKey q l)).map.part) ∧
          (ldAt t (ldKey q l)).cof.code = 1 ∧ (ldAt t (ldKey q l)).cof.done = false ∧ (ldAt t (ldKey q l)).cof.progress = 0 ∧
          t.ports.cofOrder = s.ports.cofOrder ++ [ldKey q l] ∧ (∀ k, k ≠ ldKey q l → ldAt t k = ldAt s k) ∧
          t = { s with ports := t.ports })))) ∧
    (interim s = false → s.health.st ≠ 5 →
      (s.sealCtl.zeroed = true → checkCode s (ldAt s (ldKey q l)).cof = 0x31) ∧
      (s.sealCtl.zeroed = false → 4 < (ldAt s (ldKey q l)).cof.desc.mode → checkCode s (ldAt s (ldKey q l)).cof = 0x13) ∧
      (s.sealCtl.zeroed = false → fieldBad (ldAt s (ldKey q l)).cof.desc = false →
        (tgetD (ldAt s (ldKey q l)).cof.keys (ldAt s (ldKey q l)).cof.desc.slot {}).valid = false →
        checkCode s (ldAt s (ldKey q l)).cof = 0x11))

/-- R429 to R432, R449: a LOAD takes the staged key under its SIZE and PAIR and zeroes the staging area; an XTS pair
of equal keys is rejected and the slot stays empty; a CLEAR empties a slot; a slot that the running descriptor names,
and every slot of a frozen page, ignores both. No slot but the named one changes. -/
def Obligations.KeySlots : Prop :=
  ∀ (s : State) (q l n : Nat) (v : BitVec 32), s.mainUp = true → tenantLd s (ldKey q l) = true → n < 4 →
    (keyHeld s q l n = true → ∀ c, c = Instr.keyLoad q l n v ∨ c = Instr.keyClear q l n → Gives c s (fun t =>
      (ldAt t (ldKey q l)).cof.keys = (ldAt s (ldKey q l)).cof.keys ∧ (ldAt t (ldKey q l)).cof.events.getLsbD 2 = true ∧
      t = { s with ports := { s.ports with lds := t.ports.lds } })) ∧
    (keyHeld s q l n = false → Gives (.keyClear q l n) s (fun t =>
      (tgetD (ldAt t (ldKey q l)).cof.keys n {}).valid = false ∧ (tgetD (ldAt t (ldKey q l)).cof.keys n {}).key = 0 ∧
      (tgetD (ldAt t (ldKey q l)).cof.keys n {}).tweak = 0 ∧ (tgetD (ldAt t (ldKey q l)).cof.keys n {}).mat = [] ∧
      (∀ j, j ≠ n → tget (ldAt t (ldKey q l)).cof.keys j = tget (ldAt s (ldKey q l)).cof.keys j) ∧
      (∀ k, k ≠ ldKey q l → ldAt t k = ldAt s k) ∧ t = { s with ports := { s.ports with lds := t.ports.lds } })) ∧
    (keyHeld s q l n = false → s.sealCtl.zeroed = false → Gives (.keyLoad q l n v) s (fun t =>
      (let m := padTo 64 (tgetD (ldAt s (ldKey q l)).cof.keys n {}).mat
       let w := if v.getLsbD 1 then 32 else 16
       let x := tgetD (ldAt t (ldKey q l)).cof.keys n {}
       x.mat = [] ∧
       (v.getLsbD 2 = true → bytesAt m 0 w = bytesAt m 32 w → x.valid = false ∧ x.key = 0 ∧ (ldAt t (ldKey q l)).cof.events.getLsbD 3 = true) ∧
       (v.getLsbD 2 = false ∨ bytesAt m 0 w ≠ bytesAt m 32 w → x.valid = true ∧ x.keySize = v.getLsbD 1 ∧ x.keyPair = v.getLsbD 2 ∧
         x.key = BitVec.ofNat 256 (beVal (bytesAt m 0 w)) ∧
         x.tweak = (if v.getLsbD 2 then BitVec.ofNat 256 (beVal (bytesAt m 32 w)) else 0))) ∧
      (∀ j, j ≠ n → tget (ldAt t (ldKey q l)).cof.keys j = tget (ldAt s (ldKey q l)).cof.keys j) ∧
      (∀ k, k ≠ ldKey q l → ldAt t k = ldAt s k)))

/-- R438, R441, R442, R445 to R448, R451, R452: a parcel of a CMAC descriptor reads its source bytes from the cache; a
whole destination parcel whose bytes are determined is written there; a poisoned source parcel ends it with
SRC_POISON; a freeze stops a descriptor with FROZEN; a pass that is read and written ends with Success, with the
computed tag where it generates one, and with AUTH_FAIL where the tags differ and there is nothing to zero; a GCM
decrypt whose tag agrees begins its second pass; a zeroing that is done ends with the code of the failure; and the
largest progress is billed. -/
def Obligations.CofferRun : Prop :=
  (∀ (s : State) (k lpn w : Nat) (r : CofRun) (e : ReadEnv), s.mainUp = true → s.belay.step = 0 → s.ports.cofOrder = [k] →
    (ldAt s k).cof.run = some r → cofStop s k r = 0 → r.zeroing = false → passRead r = false → r.desc.mode = 4 →
    lpnOfOff s r.part (r.desc.src.toNat + r.input.length) = some lpn → keyed s r.part = true → isRetiring s (hashSlice lpn) = false →
    findWay s lpn = some w → e.tagErr = .none → e.parity = 0 → ((lineAt s w).st = .clean ∨ (lineAt s w).st = .dirty) →
    ((lineAt s w).poison = false → (lineAt s w).valid = 15 → Gives (.cofferParcel e) s (fun t =>
      (let a := r.desc.src.toNat + r.input.length
       let n := inParcel a (r.desc.src.toNat + r.desc.srcLen)
       ∃ x, (ldAt t k).cof.run = some x ∧ x.input = r.input ++ bytesAt (parcelBytes (lineAt s w).data) (a % 256) n ∧
         x.desc = r.desc ∧ x.written = r.written ∧ (ldAt t k).cof.progress = r.input.length + n) ∧
      t.cache.lines = s.cache.lines ∧ t.medium = s.medium ∧ t.ports.sent = s.ports.sent)) ∧
    ((lineAt s w).poison = true → Gives (.cofferParcel e) s (fun t => (ldAt t k).cof.run = none ∧ (ldAt t k).cof.code = 0x22 ∧
      (ldAt t k).cof.done = true ∧ t.ports.cofOrder = [] ∧ t.medium = s.medium))) ∧
  (∀ (s : State) (k lpn w : Nat) (r : CofRun) (e : ReadEnv), s.mainUp = true → s.belay.step = 0 → s.ports.cofOrder = [k] →
    (ldAt s k).cof.run = some r → cofStop s k r = 0 → r.zeroing = false → passRead r = true →
    lpnOfOff s r.part (r.desc.dst.toNat + r.written) = some lpn → (r.desc.dst.toNat + r.written) % 256 = 0 →
    r.written + 256 ≤ (cofOutput r true).length → (cofOutput r true).length ≤ r.desc.dstLen r.pad → isRetiring s (hashSlice lpn) = false → e.tagErr = .none →
    findWay s lpn = some w → ((lineAt s w).st = .clean ∨ (lineAt s w).st = .dirty) → (lineAt s w).poison = false → WritesFreely w s →
    Gives (.cofferParcel e) s (fun t => (ldAt t k).cof.run = some { r with written := r.written + 256 } ∧
      (ldAt t k).cof.outLen = r.written + 256 ∧ (lineAt t w).st = .dirty ∧ (lineAt t w).valid = 15 ∧ (lineAt t w).dirty = 15 ∧
      (∀ i : Fin 4, (lineAt t w).data[i] = BitVec.ofNat 512 (leVal (bytesAt (cofOutput r true) (r.written + 64 * i.val) 64))) ∧
      (∀ j, j ≠ w → lineAt t j = lineAt s j) ∧ t.medium = s.medium ∧ t.ports.sent = s.ports.sent)) ∧
  (∀ (s : State) (k : Nat) (r : CofRun) (e : ReadEnv), s.mainUp = true → s.belay.step = 0 → s.ports.cofOrder = [k] →
    (ldAt s k).cof.run = some r → cofFrozen s (k / 17) (k % 17) = true → Gives (.cofferParcel e) s (fun t =>
      (ldAt t k).cof.run = none ∧ (ldAt t k).cof.code = 0x30 ∧ (ldAt t k).cof.done = true ∧ t.cache = s.cache ∧ t.medium = s.medium)) ∧
  (∀ (s : State) (q l : Nat) (r : CofRun), s.mainUp = true → (ldAt s (ldKey q l)).cof.run = some r → r.zeroing = false →
    passRead r = true → (cofOutput r true).length ≤ r.written → cofUnsettled s (ldKey q l) = false → cofStop s (ldKey q l) r = 0 →
    (r.desc.mode = 0 ∨ r.desc.mode = 2 ∨ r.desc.mode = 3 ∧ r.pad = false → Gives (.cofferPassEnd q l) s (fun t =>
      (ldAt t (ldKey q l)).cof.run = none ∧ (ldAt t (ldKey q l)).cof.code = 2 ∧ (ldAt t (ldKey q l)).cof.done = true ∧
      (ldAt t (ldKey q l)).cof.desc = (ldAt s (ldKey q l)).cof.desc ∧ ldKey q l ∉ t.ports.cofOrder ∧ t.cache = s.cache ∧
      (r.part < 1024 → (tgetD t.reck.openBank.recs r.part {}).cofferBytes = (tgetD s.reck.openBank.recs r.part {}).cofferBytes + r.maxProgress))) ∧
    ((r.desc.mode = 1 ∨ r.desc.mode = 4) → r.desc.dec = false → Gives (.cofferPassEnd q l) s (fun t =>
      (ldAt t (ldKey q l)).cof.run = none ∧ (ldAt t (ldKey q l)).cof.code = 2 ∧ (ldAt t (ldKey q l)).cof.done = true ∧
      (ldAt t (ldKey q l)).cof.desc.tag = regsOf (padTo 16 ((cofTag r).take r.desc.tagLen)) ∧ t.cache = s.cache)) ∧
    (r.desc.mode = 1 → r.desc.dec = true → r.pass = false → tagMatches r = true → Gives (.cofferPassEnd q l) s (fun t =>
      (ldAt t (ldKey q l)).cof.passBit = true ∧ (ldAt t (ldKey q l)).cof.progress = 0 ∧
      (ldAt t (ldKey q l)).cof.run = some { r with pass := true, input := [] } ∧ t.cache = s.cache)) ∧
    (r.desc.mode = 4 → r.desc.dec = true → tagMatches r = false → Gives (.cofferPassEnd q l) s (fun t =>
      (ldAt t (ldKey q l)).cof.run = none ∧ (ldAt t (ldKey q l)).cof.code = 0x20 ∧ (ldAt t (ldKey q l)).cof.done = true)) ∧
    (r.desc.mode = 1 → r.desc.dec = true → tagMatches r = false → 0 < r.desc.len.toNat → Gives (.cofferPassEnd q l) s (fun t =>
      ∃ x, (ldAt t (ldKey q l)).cof.run = some x ∧ x.zeroing = true ∧ x.endCode = 0x20 ∧ x.written = 0 ∧ (ldAt t (ldKey q l)).cof.outLen = 0))) ∧
  (∀ (s : State) (q l : Nat) (r : CofRun), s.mainUp = true → (ldAt s (ldKey q l)).cof.run = some r → r.zeroing = true →
    r.desc.dstLen r.pad ≤ r.written → cofUnsettled s (ldKey q l) = false → cofDirtyLeft s r = false → cofStop s (ldKey q l) r = 0 →
    Gives (.cofferZeroingDone q l) s (fun t => (ldAt t (ldKey q l)).cof.run = none ∧ (ldAt t (ldKey q l)).cof.code = r.endCode ∧
      (ldAt t (ldKey q l)).cof.done = true ∧ ldKey q l ∉ t.ports.cofOrder ∧ t.cache = s.cache ∧ t.medium = s.medium))

/-- R401, R455, R460, R462 to R465: outside a flush and a recall, and within the second's 1,000 groups, a commit group
takes a Summit epoch by itself, else at most 64 dirty records, with their content at that moment, and what belongs in
one group whole or not at all (where that leaves nothing of the first 64, those); a supply that fails the check holds
it, and 10 ms of that fail the commands that wait. A group that completes has replaced, of each of its records, the
older or an empty copy, which carries the next SEQ, the group's number and size, and the bytes of a newer VERSION that
recall found; every other slot is as before, and, where no erase, drop, traverse or background command takes part,
each waiting command whose records are then committed completes with Success. -/
def Obligations.CommitGroups : Prop :=
  (∀ s : State, s.mainUp = true → s.sad.running = none → s.sad.dirty ≠ [] → s.sad.recalling = false → s.belay.step = 0 →
    groupsSpent s = false → (storeAllowed s = true → Gives .commitGroup s (fun t => (∃ g, t.sad.running = some g ∧
        g.num = (s.sad.lastGroup + 1) % 4294967296 ∧
        (rk 0x12 0 ∈ s.sad.dirty → g.recs = [(rk 0x12 0, some (.epoch s.sad.img.epoch))]) ∧
        (rk 0x12 0 ∉ s.sad.dirty → s.sad.dirty.length ≤ 64 → g.recs = s.sad.dirty.map (fun k => (k, recBody s.sad.img k))) ∧
        (rk 0x12 0 ∉ s.sad.dirty → ∃ ks : List Nat, g.recs = ks.map (fun k => (k, recBody s.sad.img k)) ∧ ks ≠ [] ∧
          ks.Sublist (s.sad.dirty.take 64) ∧ (ks = s.sad.dirty.take 64 ∨
            ∀ b ∈ bundlesOf s, (∃ k ∈ b, k ∈ ks) → ∀ k ∈ b, k ∈ s.sad.dirty → k ∈ ks)) ∧
        (∀ k, k ∈ t.sad.dirty ↔ k ∈ s.sad.dirty ∧ ∀ r ∈ g.recs, r.1 ≠ k)) ∧
      t = { s with sad := { s.sad with
        heldSince := none, running := t.sad.running, dirty := t.sad.dirty, groupSec := secondNow s
        groupsNow := (if s.sad.groupSec = secondNow s then s.sad.groupsNow else 0) + 1 } })) ∧
    (storeAllowed s = false → Gives .commitGroup s (fun t => t.sad.heldSince = some (s.sad.heldSince.getD (tbNow s)) ∧
      t = { s with sad := { s.sad with heldSince := t.sad.heldSince }, reck := t.reck }))) ∧
  (∀ s : State, s.mainUp = true → s.sad.running ≠ none ∨ s.sad.recalling = true ∨ s.belay.step ≠ 0 ∨
      (s.sad.groupSec = secondNow s ∧ 1000 ≤ s.sad.groupsNow) → Gives .commitGroup s (fun t => t = s)) ∧
  (∀ (s : State) (g : Group), s.mainUp = true → s.sad.running = some g → (g.recs.map (·.1)).Nodup →
    Gives .commitGroupComplete s (fun t => t.sad.running = none ∧ t.sad.lastGroup = g.num ∧
      (∀ r ∈ g.recs, ∃ x, x.group = g.num ∧ x.gcount = g.recs.length ∧ x.body = r.2 ∧
        (x.version, x.extra) = (if r.2.isNone then (1, []) else (tget s.sad.ahead r.1).getD (1, [])) ∧
        (((tgetD t.sad.slots r.1 {}).a = some x ∧ (tgetD t.sad.slots r.1 {}).b = (tgetD s.sad.slots r.1 {}).b ∧
            (∀ o, (tgetD s.sad.slots r.1 {}).b = some o → x.seq = (o.seq + 1) % 4294967296) ∧
            ((tgetD s.sad.slots r.1 {}).b = none → x.seq = 1)) ∨
         ((tgetD t.sad.slots r.1 {}).b = some x ∧ (tgetD t.sad.slots r.1 {}).a = (tgetD s.sad.slots r.1 {}).a ∧
            (∀ o, (tgetD s.sad.slots r.1 {}).a = some o → x.seq = (o.seq + 1) % 4294967296)))) ∧
      (∀ k, (∀ r ∈ g.recs, r.1 ≠ k) → tgetD t.sad.slots k {} = tgetD s.sad.slots k {}) ∧
      t.boot = s.boot ∧ t.rope = s.rope ∧ t.therm = s.therm ∧ t.gate.freezes = s.gate.freezes)) ∧
  (∀ (s : State) (g : Group) (p : Path) (w : WaitCmd), s.mainUp = true → s.sad.running = some g → s.travs = [] →
    s.sealCtl.lost = [] → (∀ x ∈ s.sad.img.parts, x.2.st ≠ .departing) → (∀ x ∈ s.sad.img.runs, x.2.part ≠ 0xFFFF) →
    (∀ q, jobOf s q = none) →
    (∀ q, q ≠ p → ∀ v, (ctx s q).wait = some v → ∀ k part rs ps, v.done ≠ .release k part rs ps) → p ∈ allPaths s → (ctx s p).wait = some w → (∀ k ∈ w.recs, k ∉ s.sad.dirty) →
    Gives .commitGroupComplete s (fun t => (ctx t p).doorbell = false ∧ (ctx t p).retCode = 0 ∧ (ctx t p).detail = 0 ∧
      (ctx t p).payload.take w.out.length = w.out ∧ (ctx t p).len = w.out.length ∧ (ctx t p).wait = none)) ∧
  (∀ (s : State) (vdd ek : Nat), s.keeper.stopped = false → s.keeper.summitWaits = false → s.sad.heldSince.isSome = true →
    s.sad.running = none → s.sad.dirty ≠ [] → s.sad.recalling = false → s.belay.step = 0 → groupsSpent s = false →
    Gives (.storeSupplyRecheck vdd ek) s (fun t => t.keeper.vddKeep = vdd ∧ t.keeper.ek = ek ∧
      (t.sad.running.isSome = true ↔ 1620 ≤ vdd ∧ 5000 ≤ ek) ∧ (t.sad.heldSince = none ↔ 1620 ≤ vdd ∧ 5000 ≤ ek) ∧
      t.sad.img = s.sad.img ∧ t.sad.slots = s.sad.slots)) ∧
  (∀ (s : State) (t0 : Nat) (p : Path) (w : WaitCmd), s.mainUp = true → s.sad.heldSince = some t0 → t0 + 10000000 ≤ tbNow s →
    p ∈ allPaths s → (ctx s p).wait = some w → w.since + 10000000 ≤ tbNow s →
    Gives .storeHeldTimeout s (fun t => Turned p 6 0x1081 0xFFF t ∧ t.sad = s.sad ∧ t.gate = s.gate ∧ t.cache = s.cache))

/-- R454, R456, R457, R466 to R468, R543, R547: the keeper's final store, after which it stops; its power-on reset,
which keeps what is stored, the medium, the flash, the fuses' life-cycle state and the security counter; the recall
that follows, which the freeze latch and the flush-state latch outlast; the measurement of C_KH; and the loss of the
keeper's link, a fatal fault without a flush. -/
def Obligations.KeeperPower : Prop :=
  (∀ (s : State) (vdd ek : Nat), s.keeper.stopped = false → Gives (.keeperSupplyFall vdd ek) s (fun t =>
    t.keeper.stopped = true ∧ t.keeper.storedTb = s.keeper.lastTb + s.keeper.since ∧ t.keeper.latchArea = s.keeper.latch ∧
    (∀ f, s.belay.latch = some f → t.keeper.flushArea = some f) ∧ t.sad.running = none ∧
    (∀ g, s.sad.running = some g → t.sad.lastGroup = g.num) ∧ t.cairn.staging = [] ∧
    (∃ r ∈ t.cairn.stored, r.code = 0x1007 ∧ r.p1 = vdd % 4294967296 ∧ r.p2 = ek % 4294967296) ∧
    (∃ b, t.cairn.epochs.head? = some b ∧ b.number = s.cairn.epoch.number ∧ b.flags % 2 = 1) ∧
    (s.keeper.summitChanged = true → t.keeper.summitChanged = false ∧
      (t.keeper.nvA = some (t.keeper.summitSeq, s.keeper.summit) ∨ t.keeper.nvB = some (t.keeper.summitSeq, s.keeper.summit))) ∧
    t.rope.en = 0 ∧ t.sad.img = s.sad.img ∧ t.medium = s.medium ∧ t.boot = s.boot)) ∧
  (∀ s : State, s.keeper.stopped = true → ∀ vdd ek, Gives (.keeperSupplyFall vdd ek) s (fun t => t = s)) ∧
  (∀ s : State, Gives .keeperPor s (fun t => t.mainUp = false ∧ t.keeper.stopped = false ∧ t.keeper.resetInfo = 1 ∧
    t.keeper.lastCause = 0 ∧ t.keeper.tbKnown = false ∧ t.keeper.lastTb = s.keeper.storedTb ∧
    t.keeper.latch = s.keeper.latchArea ∧ t.keeper.flushArea = s.keeper.flushArea ∧ t.keeper.life = s.keeper.life ∧
    t.keeper.rbg = s.keeper.rbg ∧ t.keeper.root = s.keeper.root ∧
    t.keeper.nvA = validCopy s 0 s.keeper.nvA ∧ t.keeper.nvB = validCopy s 1 s.keeper.nvB ∧
    (∀ n x, t.keeper.nvA = some (n, x) → t.keeper.nvB = none → t.keeper.summit = x ∧ t.keeper.summitSeq = n) ∧
    (∀ m y, t.keeper.nvA = none → t.keeper.nvB = some (m, y) → t.keeper.summit = y ∧ t.keeper.summitSeq = m) ∧
    (∀ n x m y, t.keeper.nvA = some (n, x) → t.keeper.nvB = some (m, y) → n < m → t.keeper.summit = y ∧ t.keeper.summitSeq = m) ∧
    t.rope.st = .holdoff ∧ t.rope.en = 0 ∧ t.rope.holdMs = 150 ∧ t.sad.recalling = true ∧ t.sad.dirty = [] ∧
    t.sad.running = none ∧ (s.sad.running = none → t.sad.slots = s.sad.slots) ∧
    t.medium.cells = s.medium.cells ∧ t.medium.sys = s.medium.sys ∧ t.boot.flash = s.boot.flash ∧ t.boot.secCounter = s.boot.secCounter)) ∧
  (∀ (s : State) (f : Freeze), s.sad.recalling = true → s.mainUp = false → s.keeper.stopped = false → s.keeper.latch = [f] →
    s.keeper.latchArea = [] → Gives .recallComplete s (fun t => t.sad.recalling = false ∧ t.sad.running = none ∧
      t.sad.slots = s.sad.slots ∧ tget t.sad.img.freezes (freezeSlot f.master) = some f ∧
      t.sad.dirty = [rk 9 (freezeSlot f.master / 64)] ∧
      (∀ r, s.belay.latch = some r → t.sad.img.flush = r) ∧
      (s.belay.latch = none → ∀ r, s.keeper.flushArea = some r → t.sad.img.flush = r) ∧ t.medium = s.medium ∧ t.boot = s.boot)) ∧
  (∀ (s : State) (a b : Shadow) (x y : TimeCfg), s.sad.recalling = true → s.mainUp = false → s.keeper.stopped = false →
    s.keeper.latch = [] → s.keeper.latchArea = [] →
    s.sad.slots = [(rk 16 0, { a := some a, b := some b })] → a.body = some (.time x) → b.body = some (.time y) →
    a.gcount ≤ 1 → b.gcount ≤ 1 → a.seq < 2147483648 → b.seq = a.seq + 1 →
    Gives .recallComplete s (fun t => t.sad.img.time = y ∧ t.sad.dirty = [] ∧ t.sad.recalling = false)) ∧
  (∀ (s : State) (us : Nat), s.keeper.stopped = false → Gives (.keepHoldMeasure us) s (fun t =>
    t.keeper.cKh = us / 20 ∧ (16000 ≤ us → t = { s with keeper := { s.keeper with cKh := us / 20 } }) ∧
    t = { s with keeper := t.keeper, cairn := t.cairn, relay := t.relay, freeCtr := t.freeCtr } ∧
    t.keeper = { s.keeper with cKh := us / 20 })) ∧
  (∀ s : State, s.mainUp = true → Gives .keeperLinkLoss s (fun t => t.mainUp = false ∧ t.belay.step = 0 ∧ t.cache = {} ∧
    t.keeper.resetInfo = s.keeper.resetInfo ||| 0x20 ∧ t.keeper.lastCause = 5 ∧ t.rope = s.rope ∧ t.medium.cells = s.medium.cells ∧
    t.medium.sys = s.medium.sys ∧ t.boot.flash = s.boot.flash ∧ t.gate.freezes = s.gate.freezes ∧ t.keeper.latch = s.keeper.latch))

/-- R455, R470, R472, R474, R476, R44: a record that arrives takes its place behind those in the staging buffer, or is
dropped and counted when 256 wait; a store puts the oldest at the end of the array; a mismatch of the buffer's
pointers discards what waits and nothing stored; an epoch of 3.6 × 10^12 cycles is closed, its block kept among the
newest 720 and its counts added to the lifetime block; nothing here removes or rewrites a stored record. R478, R479,
R102: the Cairn window of the management LD: a load ends with READY and the content of its position, at the oldest
ring record where the one requested has left the ring, and zero where none is held; a read of 0x907C with AUTO
advances by two records or one unit and starts a load. In any other LD nothing changes. -/
def Obligations.Cairn : Prop :=
  ((∀ (s : State) (r : CairnRec), s.keeper.stopped = false →
    (s.cairn.staging.length < 256 → Gives (.cairnRecordArrival r) s (fun t =>
      t = { s with cairn := { s.cairn with staging := s.cairn.staging ++ [r] } })) ∧
    (256 ≤ s.cairn.staging.length → Gives (.cairnRecordArrival r) s (fun t => t.cairn.dropCount = s.cairn.dropCount + 1 ∧
      (s.cairn.dropCount = 0 → t.cairn.dropFirst = r.code) ∧ (s.cairn.dropCount ≠ 0 → t.cairn.dropFirst = s.cairn.dropFirst) ∧
      t = { s with cairn := { s.cairn with dropCount := t.cairn.dropCount, dropFirst := t.cairn.dropFirst } }))) ∧
  (∀ (s : State) (r : CairnRec) (rest : List CairnRec), s.cairn.staging = r :: rest →
    (storeAllowed s = true → Gives .cairnStore s (fun t => t.cairn.stored = r :: s.cairn.stored ∧
      (s.cairn.dropCount = 0 → t.cairn.staging = rest) ∧
      (s.cairn.dropCount ≠ 0 → ∃ d, t.cairn.staging = rest ++ [d] ∧ d.code = 0x1101 ∧ d.p1 = s.cairn.dropCount % 4294967296 ∧
        d.p2 = s.cairn.dropFirst) ∧ t.cairn.dropCount = 0 ∧ t = { s with cairn := t.cairn })) ∧
    (storeAllowed s = false → Gives .cairnStore s (fun t => t.cairn.stored = s.cairn.stored ∧ t.cairn.staging = r :: rest ∧
      t = { s with cairn := { s.cairn with held := true }, reck := t.reck }))) ∧
  (∀ s : State, s.keeper.stopped = false → Gives .cairnPointerMismatch s (fun t => t.cairn.stored = s.cairn.stored ∧
    t.cairn.resetTb = some (nowTb s) ∧ (∃ r, t.cairn.staging = [r] ∧ r.code = 0x1102 ∧ r.p1 = s.cairn.staging.length % 4294967296) ∧
    t = { s with cairn := t.cairn })) ∧
  (∀ s : State, s.mainUp = true →
    (s.cairn.epochCycles < 3600000000000 → Gives .epochClose s (fun t => t = s)) ∧
    (3600000000000 ≤ s.cairn.epochCycles → Gives .epochClose s (fun t => t.cairn.stored = s.cairn.stored ∧
      t.cairn.epochs.length = min 720 (s.cairn.epochs.length + 1) ∧ t.cairn.epochs.drop 1 = s.cairn.epochs.take 719 ∧
      (∃ b, t.cairn.epochs.head? = some b ∧ b.number = s.cairn.epoch.number ∧ b.startTb = s.cairn.epoch.startTb ∧ b.flags = 0 ∧
        (∀ k n, tget s.cairn.epoch.hist k = some n → tget b.hist k = some (min 281474976710655 n))) ∧
      t.cairn.life.number = s.cairn.life.number + 1 ∧ t.cairn.life.startTb = s.cairn.life.startTb ∧
      t.cairn.epoch = { number := s.cairn.epoch.number + 1, startTb := tbNow s } ∧ t.cairn.epochCycles = 0 ∧
      t = { s with cairn := t.cairn, reck := t.reck })))) ∧
  ((∀ (s : State) (p l n : Nat), s.mainUp = true → mgmtKey s = some (ldKey p l) → (ldAt s (ldKey p l)).win.loading = true →
    (ldAt s (ldKey p l)).win.space = false → (ldAt s (ldKey p l)).win.position = n →
    Gives (.cairnWindowLoad p l) s (fun t => (ldAt t (ldKey p l)).win.ready = true ∧ (ldAt t (ldKey p l)).win.loading = false ∧
      (cairnHeld s n = true → cairnHeld s (n + 1) = true → (ldAt t (ldKey p l)).win.data =
        recordBytes (cairnRecord s n) ++ recordBytes (cairnRecord s (n + 1)) ∧ (ldAt t (ldKey p l)).win.half = false ∧
        (ldAt t (ldKey p l)).win.notHeld = false ∧ (ldAt t (ldKey p l)).win.position = n) ∧
      (cairnCount s ≤ n → (ldAt t (ldKey p l)).win.notHeld = true ∧ (ldAt t (ldKey p l)).win.data = List.replicate 64 0) ∧
      (8192 ≤ n → n < cairnOldest s → (ldAt t (ldKey p l)).win.position = cairnOldest s ∧ (ldAt t (ldKey p l)).win.advanced = true) ∧
      (ldAt t (ldKey p l)) = { ldAt s (ldKey p l) with win := (ldAt t (ldKey p l)).win } ∧
      (∀ k, k ≠ ldKey p l → ldAt t k = ldAt s k) ∧ t = { s with ports := { s.ports with lds := t.ports.lds } })) ∧
  (∀ (s : State) (p l : Nat), s.mainUp = true → mgmtKey s = some (ldKey p l) → (ldAt s (ldKey p l)).win.auto = true →
    Gives (.cairnWindowAutoAdvance p l) s (fun t => (ldAt t (ldKey p l)).win.ready = false ∧
      (ldAt t (ldKey p l)).win.loading = true ∧ (ldAt t (ldKey p l)).win.position = ((ldAt s (ldKey p l)).win.position +
        (if (ldAt s (ldKey p l)).win.space then 1 else 2)) % 4294967296 ∧
      ((ldAt s (ldKey p l)).win.ready = false → t.ports.readData = 0) ∧ (∀ k, k ≠ ldKey p l → ldAt t k = ldAt s k) ∧
      t = { s with ports := { s.ports with lds := t.ports.lds, readData := t.ports.readData } })) ∧
  (∀ (s : State) (p l : Nat), s.mainUp = true → mgmtKey s ≠ some (ldKey p l) →
    Gives (.cairnWindowLoad p l) s (fun t => t = s) ∧ Gives (.cairnWindowAutoAdvance p l) s (fun t => t = s)))

/-- R44, R68, R481 to R487: a Relay queue takes an item into its fill bank, swaps a full one into an empty drain bank,
and with both full counts the item in a GAP marker; its consumer reads the items in order, each of which becomes a
Cairn record; an event of queues 10 and 11 enters the log that it names, or waits; a pointer mismatch discards a queue
and says so; what a loss took with NOTICE is made again, each once. The layout of an event item is assumption log
entry 72. -/
def Obligations.RelayQueues : Prop :=
  (∀ (s : State) (q : Nat) (r : CairnRec), s.mainUp = true → q ≤ 9 → (tgetD s.relay.queues q {}).gap = false →
    ((tgetD s.relay.queues q {}).fill.length < 62 → Gives (.relayItemProduced q r) s (fun t =>
      tgetD t.relay.queues q {} = { tgetD s.relay.queues q {} with fill := (tgetD s.relay.queues q {}).fill ++ [{ r with boot := 0 }] } ∧
      (∀ k, k ≠ q → tgetD t.relay.queues k {} = tgetD s.relay.queues k {}) ∧ t = { s with relay := { s.relay with queues := t.relay.queues } })) ∧
    ((tgetD s.relay.queues q {}).fill.length = 62 → (tgetD s.relay.queues q {}).drain = [] → Gives (.relayItemProduced q r) s (fun t =>
      (tgetD t.relay.queues q {}).fill = [] ∧ (tgetD t.relay.queues q {}).drain = (tgetD s.relay.queues q {}).fill ++ [{ r with boot := 0 }] ∧
      (tgetD t.relay.queues q {}).fillBank = !(tgetD s.relay.queues q {}).fillBank)) ∧
    ((tgetD s.relay.queues q {}).fill.length = 63 → (tgetD s.relay.queues q {}).drain ≠ [] → Gives (.relayItemProduced q r) s (fun t =>
      (tgetD t.relay.queues q {}).gap = true ∧ (tgetD t.relay.queues q {}).drain = (tgetD s.relay.queues q {}).drain ∧
      ∃ g, (tgetD t.relay.queues q {}).fill = (tgetD s.relay.queues q {}).fill ++ [g] ∧ g.code = 0x1201 ∧ g.inst = q ∧ g.ts = r.ts ∧
        g.p1 = 1 ∧ g.p3 = r.code))) ∧
  (∀ (s : State) (r : CairnRec), s.mainUp = true → r.p1 ≤ 1 → s.relay.evq10.length < 126 →
    Gives (.relayItemProduced 10 r) s (fun t => ∃ e, t.relay.evq10 = s.relay.evq10 ++ [e] ∧ e.lds = [r.inst] ∧ e.log = r.p1 ∧
      e.ev.code = r.code ∧ t = { s with relay := { s.relay with evq10 := t.relay.evq10 } })) ∧
  (∀ (s : State) (r : CairnRec), s.mainUp = true →
    (r.p1 ≤ 1 → 126 ≤ s.relay.evq10.length → Gives (.relayItemProduced 10 r) s (fun t => ∃ e, e.lds = [r.inst] ∧ e.log = r.p1 ∧
      e.ev.code = r.code ∧ t = { s with relay := { s.relay with synetWait := s.relay.synetWait ++ [e] } })) ∧
    (2 ≤ r.p1 → r.p1 ≤ 4 → 126 ≤ s.relay.evq11.length → Gives (.relayItemProduced 11 r) s (fun t => ∃ e, e.lds = [r.inst] ∧ e.log = r.p1 ∧
      e.ev.code = r.code ∧ t = { s with relay := { s.relay with synetWait := s.relay.synetWait ++ [e] } }))) ∧
  (∀ (s : State) (q : Nat) (r : CairnRec) (rest : List CairnRec), s.mainUp = true → q ≤ 9 →
    ((tgetD s.relay.queues q {}).drain = r :: rest ∨ ((tgetD s.relay.queues q {}).drain = [] ∧ (tgetD s.relay.queues q {}).fill = r :: rest)) →
    s.cairn.staging.length < 256 → Gives (.relayItemDrain q) s (fun t =>
      t.cairn = { s.cairn with staging := s.cairn.staging ++ [{ r with boot := s.sad.img.boot.boots }] } ∧
      ((tgetD s.relay.queues q {}).drain = [] → (tgetD t.relay.queues q {}).drain = rest ∧ (tgetD t.relay.queues q {}).fill = []) ∧
      ((tgetD s.relay.queues q {}).drain = r :: rest → (tgetD t.relay.queues q {}).drain ++ (tgetD t.relay.queues q {}).fill =
        rest ++ (tgetD s.relay.queues q {}).fill) ∧
      t = { s with cairn := t.cairn, relay := { s.relay with queues := t.relay.queues } })) ∧
  (∀ (s : State) (e : EventDesc) (rest : List EventDesc) (k : Nat), s.mainUp = true → s.relay.evq10 = e :: rest →
    s.relay.synetWait = [] → e.lds = [k] → e.log ≤ 1 → (fiveLogs (ldAt s k)).length = 5 → Gives (.relayItemDrain 10) s (fun t =>
      t.relay.evq10 = rest ∧ (ldAt t k).logsChanged = true ∧ (∀ j, j ≠ k → ldAt t j = ldAt s j) ∧
      (∀ o, (fiveLogs (ldAt s k))[e.log]? = some o → ∃ n, (ldAt t k).logs[e.log]? = some n ∧
        (o.recs.length < 64 → n.recs = o.recs ++ [{ e.ev with handle := o.nextHandle }] ∧ n.overflow = o.overflow) ∧
        (64 ≤ o.recs.length → n.recs = o.recs ∧ n.overflow = true ∧ n.dropped = o.dropped + 1)))) ∧
  (∀ (s : State) (q ptr : Nat), s.mainUp = true → q ≤ 9 → s.cairn.staging.length < 256 → Gives (.relayPointerMismatch q ptr) s (fun t =>
    (tgetD t.relay.queues q {}).drain = [] ∧ (tgetD t.relay.queues q {}).fillBank = false ∧
    (∃ g, (tgetD t.relay.queues q {}).fill = [g] ∧ g.code = 0x1201 ∧ g.inst = q ∧
      g.p1 = ((tgetD s.relay.queues q {}).drain ++ (tgetD s.relay.queues q {}).fill).length) ∧
    (∃ r, t.cairn.staging = s.cairn.staging ++ [r] ∧ r.code = 0x1202 ∧ r.p1 = q ∧
      r.p2 = ((tgetD s.relay.queues q {}).drain ++ (tgetD s.relay.queues q {}).fill).length % 4294967296 ∧ r.p3 = ptr % 4294967296 ∧ r.p4 = 0) ∧
    t.cairn.resetTb = some (tbNow s) ∧ (∀ k, k ≠ q → tgetD t.relay.queues k {} = tgetD s.relay.queues k {}) ∧
    t = { s with cairn := t.cairn, relay := { s.relay with queues := t.relay.queues, lostNotices := t.relay.lostNotices } })) ∧
  (∀ (s : State) (q : Nat) (rs : List CairnRec), s.mainUp = true → tget s.relay.lostNotices q = some rs → rs ≠ [] →
    tgetD s.relay.lostEvents q [] = [] → s.cairn.staging.length + rs.length < 256 → Gives (.noticeReconcile q) s (fun t =>
      (∃ r, t.cairn.staging = s.cairn.staging ++ rs.map (fun x => { x with boot := s.sad.img.boot.boots }) ++ [r] ∧
        r.code = 0x1203 ∧ r.p1 = q % 4294967296 ∧ r.p2 = rs.length % 4294967296) ∧
      tget t.relay.lostNotices q = none ∧ t.relay.queues = s.relay.queues ∧ t.gate = s.gate ∧ t.ports = s.ports))

/-- R493, R496 to R504, R509, R547: the end of HOLDOFF puts Rope into RISING at pitch 0 with the stored table; a rise
of ROPE, which the device has released, takes a complete pitch to the next one, raising exactly that pitch's enables,
and from pitch 15 into ON with POR in RESET_INFO; 20 µs into a pitch ROPE is driven low, until the pitch is complete;
a line that reads high against the device's own drive, a start fault, a ROPE timeout and PFAIL_N low turn a power-up
into a power-down. None of these comes before its time. -/
def Obligations.PowerUp : Prop :=
  (∀ s : State, s.keeper.stopped = false → s.rope.st = .holdoff → s.rope.holdTb + s.rope.holdMs * 1000000 ≤ keeperNow s →
    (s.rope.thermalHold = false ∨ ∃ t0, s.therm.keeperCoolTb = some t0 ∧ t0 + 10000000000 ≤ keeperNow s) →
    Gives .holdoffEnd s (fun t => t.rope.st = .rising ∧ t.rope.pitch = 0 ∧ t.rope.en = 0 ∧ t.rope.driveLow = false ∧
      t.rope.relTb = keeperNow s ∧ t.rope.table = (if s.keeper.life = .blank then defaultPitch else s.sad.img.pitch) ∧ t.rope.upTb = keeperNow s ∧
      t = { s with rope := t.rope })) ∧
  (∀ s : State, s.keeper.stopped = false → s.rope.st = .holdoff → keeperNow s < s.rope.holdTb + s.rope.holdMs * 1000000 →
    Gives .holdoffEnd s (fun t => t = s)) ∧
  (∀ s : State, s.keeper.stopped = false → s.rope.st = .rising → s.rope.driveLow = false →
    (s.rope.pitch < 15 → s.rope.pitch = 0 ∨ s.rope.pitchDone = true → s.rope.relTb + 1000 ≤ keeperNow s → Gives .ropeLineRise s (fun t =>
      t.rope.pitch = s.rope.pitch + 1 ∧ t.rope.pitchDone = false ∧ t.rope.st = .rising ∧
      t.rope.pitchTb = keeperNow s ∧ (∀ i, i < 16 → t.rope.en.getLsbD i = (s.rope.en.getLsbD i || (isRail (pitchAt s i) && (pitchAt s i).pitch == s.rope.pitch + 1))) ∧
      t = { s with rope := t.rope })) ∧
    (s.rope.pitch = 15 → s.rope.pitchDone = true → s.rope.relTb + 1000 ≤ keeperNow s → Gives .ropeLineRise s (fun t => t.rope = { s.rope with st := .on } ∧
      t.keeper.resetInfo.getLsbD 1 = true ∧ t.keeper.lastCause = 1 ∧
      (∀ c, c < 32 → (chan t c).railsGood = true ↔ ∀ i, i < 16 → (pitchAt s i).role = 2 → (pitchAt s i).channels.getLsbD c = true →
        s.rope.en.getLsbD i = true ∧ s.rope.lostModules.getLsbD i = false) ∧
      t = { s with rope := t.rope, keeper := t.keeper, chans := t.chans, cairn := t.cairn, relay := t.relay })) ∧
    (s.rope.pitch ≠ 0 → s.rope.pitchDone = false → Gives .ropeLineRise s (fun t => t = s)) ∧
    (keeperNow s < s.rope.relTb + 1000 → Gives .ropeLineRise s (fun t => t = s))) ∧
  (∀ s : State, s.keeper.stopped = false → s.rope.st = .rising → s.rope.driveLow = true →
    Gives .ropeLineRise s (fun t => t.rope.st = .falling ∧ t.rope.downCause = 6 ∧ t.mainUp = false)) ∧
  (∀ s : State, s.keeper.stopped = false → s.rope.st = .rising → 1 ≤ s.rope.pitch → s.rope.pitchDone = false →
    (s.rope.pitchTb + 20000 ≤ keeperNow s →
      Gives (.pitchDriveLow false) s (fun t => t = { s with rope := { s.rope with driveLow := true } }) ∧
      Gives (.pitchDriveLow true) s (fun t => t.rope.st = .falling ∧ t.rope.downCause = 6)) ∧
    (∀ h, keeperNow s < s.rope.pitchTb + 20000 → Gives (.pitchDriveLow h) s (fun t => t = s)) ∧
    (∀ h, keeperNow s < s.rope.pitchTb + (if enablesAt s s.rope.pitch = [] then 21000 else 200000) →
      Gives (.pitchComplete h) s (fun t => t = s)) ∧
    (s.rope.driveLow = true → s.rope.pitchTb + (if enablesAt s s.rope.pitch = [] then 21000 else 200000) ≤ keeperNow s → (s.rope.pitch ≠ 1 → Gives (.pitchComplete true) s (fun t => t.rope.pitchDone = true ∧ t.rope.driveLow = false ∧
        t.rope.relTb = keeperNow s ∧ t.rope.pitch = s.rope.pitch ∧ t.rope.en = s.rope.en ∧ t.rope.st = .rising)) ∧
      Gives (.pitchComplete false) s (fun t => t.rope.pitchDone = true ∧ t.rope.driveLow = false ∧ t.rope.relTb = keeperNow s ∧
        t.rope.en = s.rope.en ∧ t = { s with rope := t.rope, cairn := t.cairn, freeCtr := t.freeCtr }) ∧
      (s.rope.pitch = 1 → Gives (.pitchComplete true) s (fun t => t.rope.st = .falling ∧ t.rope.downCause = 5 ∧ t.mainUp = false))) ∧
    (∀ i c mv, i < 16 → isRail (pitchAt s i) = true → (pitchAt s i).pitch = s.rope.pitch →
      (c = 1 ∧ s.rope.pitchTb + 10000000 ≤ keeperNow s) ∨ (c = 2 ∧ (pitchAt s i).pg ≠ 255) →
      Gives (.startFault i c mv) s (fun t => t.rope.st = .falling ∧ t.rope.downCause = 2 ∧ t.mainUp = false ∧ t.rope.topPitch = s.rope.pitch)) ∧
    (∀ i mv, keeperNow s < s.rope.pitchTb + 10000000 → Gives (.startFault i 1 mv) s (fun t => t = s))) ∧
  (∀ s : State, s.keeper.stopped = false → s.rope.st = .rising → 1 ≤ s.rope.pitch →
    Gives .pfailDuringRising s (fun t => t.rope.st = .falling ∧ t.rope.downCause = 5 ∧ t.rope.topPitch = s.rope.pitch ∧ t.mainUp = false) ∧
    (s.rope.pitchDone = true → s.rope.relTb + 100000000 ≤ keeperNow s →
      Gives .ropeTimeout s (fun t => t.rope.st = .falling ∧ t.rope.downCause = 4 ∧ t.mainUp = false)) ∧
    (keeperNow s < s.rope.relTb + 100000000 → Gives .ropeTimeout s (fun t => t = s)))

/-- R505 to R509, R523, R524, R547: a rail fault and a hardware trip power down from the current pitch without a
flush, with main-die reset asserted and RAIL_FAULT or THERMAL in RESET_INFO; the loss of a module rail fails exactly
the channels that the lost entries name and leaves the device on; each pitch of a power-down follows the fall of the
one above; its end is HOLDOFF, OFF or FAULT by its cause, and FAULT where a rail did not fall. A fault is one of 10 µs
at least, a module rail's fall takes its FALL_TIME, and a rail that does not fall is reported after 100 ms. -/
def Obligations.PowerDown : Prop :=
  (∀ (s : State) (i mv us : Nat), s.keeper.stopped = false → i < 16 → (pitchAt s i).role = 1 → s.rope.en.getLsbD i = true →
    10 ≤ us → (s.rope.st = .on ∨ s.rope.st = .rising ∧ (pitchAt s i).pitch < s.rope.pitch) → Gives (.railFault i mv us) s (fun t =>
      t.rope.st = .falling ∧ t.rope.downCause = 3 ∧ t.mainUp = false ∧ t.belay.step = 0 ∧ t.rope.topPitch = s.rope.pitch ∧
      t.keeper.resetInfo.getLsbD 7 = true ∧ t.keeper.lastCause = 7 ∧
      (t.rope.railRepeat = true ↔ ∃ t0, s.rope.railFaultTb = some t0 ∧ nowTb s < t0 + 3600000000000) ∧
      t.medium.cells = s.medium.cells ∧ t.medium.sys = s.medium.sys)) ∧
  (∀ (s : State) (i mv us : Nat), s.keeper.stopped = false → us < 10 → Gives (.railFault i mv us) s (fun t => t = s)) ∧
  (∀ (s : State) (n : Nat) (t16 : Int), s.mainUp = true → n < 32 → n ∉ s.therm.excluded → 2000 ≤ t16 →
    Gives (.hardwareTrip n t16) s (fun t => t.rope.st = .falling ∧ t.rope.downCause = 7 ∧ t.mainUp = false ∧
      t.keeper.resetInfo.getLsbD 6 = true ∧ t.keeper.lastCause = 6 ∧ t.medium.cells = s.medium.cells ∧
      t.medium.sys = s.medium.sys)) ∧
  (∀ (s : State) (n : Nat) (t16 : Int), s.mainUp = true → t16 < 2000 ∨ n ∈ s.therm.excluded → Gives (.hardwareTrip n t16) s (fun t => t = s)) ∧
  (∀ (s : State) (i c : Nat), s.keeper.stopped = false → s.rope.st = .on → i < 16 → (pitchAt s i).role = 2 →
    s.rope.en.getLsbD i = true → c < 32 → Gives (.moduleRailPgFall i) s (fun t => t.rope.st = .on ∧ t.rope.en.getLsbD i = false ∧
      (∀ j, j < 16 → (t.rope.en.getLsbD j = true ↔ s.rope.en.getLsbD j = true ∧ ¬ ((pitchAt s j).role = 2 ∧
        (j = i ∨ (pitchAt s j).channels &&& (pitchAt s i).channels ≠ 0)))) ∧
      ((pitchAt s i).channels.getLsbD c = true → (chan t c).railsGood = false ∧ (chan t c).st = .failed) ∧
      ((∀ j, j < 16 → (pitchAt s j).channels.getLsbD c = false) → (chan t c).st = (chan s c).st ∧
        (chan t c).railsGood = (chan s c).railsGood) ∧
      t.keeper.resetInfo = s.keeper.resetInfo ∧ t.mainUp = s.mainUp)) ∧
  (∀ s : State, s.keeper.stopped = false → s.rope.st = .falling → keeperNow s < s.rope.fallTb + pitchFall s →
    Gives .railFallen s (fun t => t = s)) ∧
  (∀ s : State, s.keeper.stopped = false → s.rope.st = .falling → s.rope.fallTb + pitchFall s ≤ keeperNow s →
    ((∃ q, 1 ≤ q ∧ q < s.rope.pitch ∧ ∃ i, i < 16 ∧ onAt s.rope q i = true) → Gives .railFallen s (fun t => t.rope.st = .falling ∧
      1 ≤ t.rope.pitch ∧ t.rope.pitch < s.rope.pitch ∧
      (∀ q i, t.rope.pitch < q → q < s.rope.pitch → i < 16 → onAt s.rope q i = false) ∧
      (∀ i, i < 16 → onAt s.rope t.rope.pitch i = true → t.rope.en.getLsbD i = false) ∧
      (∀ i, onAt s.rope t.rope.pitch i = false → t.rope.en.getLsbD i = s.rope.en.getLsbD i) ∧ t.rope.fallTb = keeperNow s ∧ t = { s with rope := t.rope })) ∧
    ((∀ q i, 1 ≤ q → q < s.rope.pitch → i < 16 → onAt s.rope q i = false) → Gives .railFallen s (fun t => t.rope.pitch = 0 ∧
      (s.rope.notFallen ≠ 0 → t.rope.st = .fault) ∧
      (s.rope.notFallen = 0 → s.rope.downCause = 1 → s.rope.flushCause ≤ 3 → t.rope.st = .holdoff ∧ t.rope.holdMs = 50) ∧
      (s.rope.notFallen = 0 → s.rope.downCause = 1 → s.rope.flushCause = 4 → t.rope.st = .off) ∧
      (s.rope.notFallen = 0 → s.rope.downCause = 3 → s.rope.railRepeat = false → t.rope.st = .holdoff ∧ t.rope.holdMs = 150) ∧
      (s.rope.notFallen = 0 → s.rope.downCause = 3 → s.rope.railRepeat = true → t.rope.st = .fault) ∧
      (s.rope.notFallen = 0 → s.rope.downCause = 4 ∨ s.rope.downCause = 5 → t.rope.st = .holdoff ∧ t.rope.holdMs = 150) ∧
      (s.rope.notFallen = 0 → s.rope.downCause = 2 ∨ s.rope.downCause = 6 ∨ s.rope.downCause = 7 → t.rope.st = .fault) ∧
      t.rope.holdTb = keeperNow s ∧ t = { s with rope := t.rope, cairn := t.cairn, relay := t.relay }))) ∧
  (∀ (s : State) (i mv : Nat), s.keeper.stopped = false → s.rope.st = .falling → i < 16 → isRail (pitchAt s i) = true →
    (pitchAt s i).pitch = s.rope.pitch → s.rope.fallTb + 100000000 ≤ keeperNow s → Gives (.railFallTimeout i mv) s (fun t => t.rope.notFallen.getLsbD i = true ∧
      (t.rope.st = .falling ∧ t.rope.pitch < s.rope.pitch ∨ t.rope.st = .fault ∧ t.rope.pitch = 0))) ∧
  (∀ (s : State) (i mv : Nat), s.keeper.stopped = false → keeperNow s < s.rope.fallTb + 100000000 →
    Gives (.railFallTimeout i mv) s (fun t => t = s))

/-- R348, R497, R514 to R518, R523: with all sensors in agreement T_J is the highest reading; junction warning and
throttle are entered and left at their thresholds, f_h follows T_J in throttle, and 118 °C starts a flush of cause 5;
a stopped sensor is excluded, and fewer than 16 valid ones hold f_h at 256; the keeper's sensors time the cooling that
HOLDOFF waits for. -/
def Obligations.JunctionTemperature : Prop :=
  (∀ (s : State) (l : List (Option Int)) (hbm : List Int) (tj : Int), s.mainUp = true → s.boot.running = true →
    s.therm.excluded = [] → l.length = 32 → hbm.length = 2 → (∀ o ∈ l, ∃ x, o = some x ∧ x ≤ tj) → (∀ x ∈ hbm, x ≤ tj) →
    (some tj ∈ l ∨ tj ∈ hbm) → (∀ x y, some x ∈ l → some y ∈ l → x ≤ y + 240) →
    Gives (.junctionReading l hbm) s (fun t => t.therm.tj = some tj ∧ t.therm.excluded = [] ∧ t.therm.hbm = hbm ∧
      (∀ i x, l[i]? = some (some x) → tget t.therm.sensors i = some x) ∧
      (t.therm.warn = true ↔ 1600 ≤ tj ∨ s.therm.warn = true ∧ 1520 ≤ tj) ∧
      (t.therm.throttle = true ↔ 1680 ≤ tj ∨ s.therm.throttle = true ∧ 1600 ≤ tj) ∧
      (t.therm.throttle = false → t.therm.fH = 1024) ∧
      (t.therm.throttle = true → t.therm.fH = max 256 (1024 - 82 * (max 1 (tj / 16 - 104)).toNat)) ∧
      (s.therm.shut = false → 1888 ≤ tj → s.belay.step = 0 → t.belay.step = 1 ∧ t.belay.cause = 5) ∧
      (tj < 1888 → t.belay = s.belay ∧ t.cache = s.cache ∧ t.medium = s.medium ∧ t.keeper = s.keeper))) ∧
  (∀ (s : State) (l : List (Option Int)) (hbm : List Int), s.mainUp = true → Gives (.junctionReading l hbm) s (fun t =>
    (∀ i, i < 32 → l.getD i none = none → i ∈ t.therm.excluded) ∧ (∀ i ∈ s.therm.excluded, i ∈ t.therm.excluded) ∧
    (17 ≤ ((List.range 32).filter (fun i => l.getD i none = none)).length → t.therm.fH = 256) ∧ t.rope = s.rope ∧ t.boot = s.boot)) ∧
  (∀ (s : State) (l : List (Option Int)), s.keeper.stopped = false → Gives (.keeperSensorReading l) s (fun t =>
    (∀ i, i < 4 → tget t.therm.sensors (32 + i) = l.getD i none) ∧
    ((∀ i, i < 4 → ∃ x, l.getD i none = some x ∧ x < 1728) → t.therm.keeperCoolTb = some (s.therm.keeperCoolTb.getD (keeperNow s))) ∧
    ((∃ i, i < 4 ∧ ∀ x, l.getD i none = some x → 1728 ≤ x) → t.therm.keeperCoolTb = none) ∧
    t = { s with therm := { s.therm with sensors := t.therm.sensors, keeperCoolTb := t.therm.keeperCoolTb } }))

/-- R23, R369, R529, R530, R532, R544 to R546, R553, R554: with Rope in ON and TIME_REF present, a release of main-die
reset ends the recall and runs the loader's checks in their order; the first that fails ends in bivouac mode with its
cause and health state BIVOUAC, and a verified image starts Synet, whose recovery follows once the channels are up;
the flash and the security counter stay. A watchdog's expiry and the fatal faults 2, 3 and 5 start a flush of cause 6
with their bit in RESET_INFO; an armed alarm erases every key slot and drives ALARM_OUT_N low, and changes neither the
Saddlebag nor the medium. -/
def Obligations.BootAndAlarms : Prop :=
  (∀ (s : State) (b : BootEnv), s.mainUp = false → s.keeper.stopped = false → s.rope.st = .on → s.timeRef = true → b.timeRef = true →
    Gives (.mainDieResetRelease b) s (fun t => t.mainUp = true ∧ t.sad.recalling = false ∧ t.boot.flash = s.boot.flash ∧
      t.boot.secCounter = s.boot.secCounter ∧ t.keeper.life = s.keeper.life ∧ t.rope = s.rope ∧
      t.reck.tb = s.keeper.lastTb + (if s.keeper.tbKnown then max s.keeper.since b.keeperNs else 0) ∧
      (t.boot.running = true ↔ t.boot.cause = 0) ∧ (t.boot.running = false → t.health.st = 6) ∧
      (s.keeper.life = .scrapped → t.boot.cause = 9) ∧
      (s.keeper.life ≠ .scrapped → 3 ≤ s.boot.readAttempts + b.headerReadFails → t.boot.cause = 8) ∧
      (s.keeper.life ≠ .scrapped → s.boot.readAttempts + b.headerReadFails < 3 →
        (headerWhole (headerOf s) = false → t.boot.cause = 1) ∧
        (headerWhole (headerOf s) = true → headerSigned (headerOf s) = false → t.boot.cause = 4) ∧
        (headerWhole (headerOf s) = true → headerSigned (headerOf s) = true →
          (layoutOk (headerOf s) = false → t.boot.cause = 1) ∧
          (layoutOk (headerOf s) = true → fld (headerOf s) 6 2 ≠ 0x1280 → t.boot.cause = 2) ∧
          (layoutOk (headerOf s) = true → fld (headerOf s) 6 2 = 0x1280 →
            (unitListed (headerOf s) = false → t.boot.cause = 5) ∧
            (unitListed (headerOf s) = true → fld (headerOf s) 12 4 < s.boot.secCounter → t.boot.cause = 6) ∧
            (unitListed (headerOf s) = true → s.boot.secCounter ≤ fld (headerOf s) 12 4 →
              ((0 : Byte) ∉ bytesAt (headerOf s) 80 16 → t.boot.cause = 7) ∧
              ((0 : Byte) ∈ bytesAt (headerOf s) 80 16 →
                (3 ≤ b.bodyReadFails → t.boot.cause = 8) ∧
                (b.bodyReadFails < 3 → sha384 (bodyOf s (headerOf s)) ≠ bytesAt (headerOf s) 32 48 → t.boot.cause = 3) ∧
                (b.bodyReadFails < 3 → sha384 (bodyOf s (headerOf s)) = bytesAt (headerOf s) 32 48 →
                  t.boot.running = true ∧ t.boot.recovering = true ∧ t.boot.version = fld (headerOf s) 8 4 ∧ t.boot.secVersion = fld (headerOf s) 12 4)))))))) ∧
  (∀ (s : State) (b : BootEnv), s.mainUp = true ∨ s.rope.st ≠ .on ∨ s.timeRef = false ∨ b.timeRef = false ∨ s.keeper.stopped = true →
    Gives (.mainDieResetRelease b) s (fun t => t = s)) ∧
  (∀ s : State, (s.mainUp = false → s.rope.st = .on → Gives .loaderWatchdogExpiry s (fun t =>
      t = { s with boot := { s.boot with readAttempts := s.boot.readAttempts + 1 } })) ∧
    (s.mainUp = true → s.boot.running = true → Gives .loaderWatchdogExpiry s (fun t => t = s)) ∧
    (s.mainUp = true → s.boot.running = false → Gives .loaderWatchdogExpiry s (fun t => t.mainUp = true ∧
      t.boot.flash = s.boot.flash ∧ t.boot.secCounter = s.boot.secCounter ∧
      (s.keeper.life ≠ .scrapped → headerWhole (headerOf s) = false → t.boot.running = false ∧ t.boot.cause = 1)))) ∧
  (∀ (s : State) (core pr : Nat), s.mainUp = true → s.boot.running = true → s.belay.step = 0 →
    Gives (.watchdogExpiry core pr) s (fun t => t.belay.step = 1 ∧ t.belay.cause = 6 ∧ t.mainUp = true ∧
      t.keeper.resetInfo = s.keeper.resetInfo ||| 0x10 ∧ t.keeper.lastCause = 4 ∧ t.medium = s.medium ∧ t.sad = s.sad)) ∧
  (∀ (s : State) (cause v1 v2 core : Nat), s.mainUp = true → s.boot.running = true → s.belay.step = 0 →
    (cause = 2 ∨ cause = 3 ∨ cause = 5 → Gives (.fatalFault cause v1 v2 core) s (fun t => t.belay.step = 1 ∧ t.belay.cause = 6 ∧
      t.mainUp = true ∧ t.keeper.resetInfo = s.keeper.resetInfo ||| 0x20 ∧ t.keeper.lastCause = 5 ∧ t.medium = s.medium ∧ t.sad = s.sad)) ∧
    (cause = 4 → Gives (.fatalFault cause v1 v2 core) s (fun t => t.mainUp = false ∧ t.belay.step = 0 ∧
      t.keeper.resetInfo = s.keeper.resetInfo ||| 0x20 ∧ t.medium.cells = s.medium.cells ∧ t.medium.sys = s.medium.sys)) ∧
    (cause = 0 ∨ 5 < cause → Gives (.fatalFault cause v1 v2 core) s (fun t => t = s))) ∧
  (∀ (s : State) (src det rd : Nat), s.keeper.stopped = false → (src = 1 ∨ src = 3 ∨ src = 4 ∨ src = 2 ∧ s.mainUp = true ∧ s.rope.st = .on) →
    Gives (.alarm src det rd) s (fun t => t.keeper = { s.keeper with alarmOut := true, alarmSource := src, alarmDetector := det } ∧
      (s.cairn.staging.length < 256 → ∃ r ∈ t.cairn.staging, r.code = 0x1801 ∧ r.p1 = src ∧ r.p2 = det % 4294967296) ∧
      (s.mainUp = true → t.sealCtl.slots = [] ∧ t.sealCtl.zeroed = true ∧ (∀ k, (ldAt t k).cof.keys = [] ∨ tget s.ports.lds k = none) ∧
        (∀ k r, tget s.ports.lds k ≠ none → (ldAt s k).cof.run = some r → ∃ r', (ldAt t k).cof.run = some r' ∧ r'.lost = true)) ∧
      t.sad = s.sad ∧ t.medium = s.medium ∧ t.boot = s.boot ∧ t.gate = s.gate ∧ t.cache = s.cache))

/-- R102, R105, R114, R549 to R552: what each instruction of the Survey port shifts out and changes: EXTEST takes
every port down; a challenge serves once; an unlock needs a token that verifies, and is refused after three failures;
a write to tenant data freezes the Survey master and ends the unlock, and leaves the medium, and a read of it gives
the codeword as it is stored; without an unlock, except in BLANK, the instructions that need one do nothing; an
authorized transition changes the life-cycle state and starts a warm reset. -/
def Obligations.SurveyPort : Prop :=
  (∀ s : State, s.mainUp = true →
    Gives .idcode s (fun t => t = { s with survey := { s.survey with instr := 1, tdo := [0xE7, 0x01, 0x28, 0x01] } }) ∧
    Gives .bypass s (fun t => t = { s with survey := { s.survey with instr := 0xFF, tdo := [0] } }) ∧
    Gives .samplePreload s (fun t => t.survey.instr = 2 ∧ t.survey.tdo.length = 8 ∧
      t = { s with survey := t.survey, freeCtr := s.freeCtr + 1 }) ∧
    Gives .svStatus s (fun t => t.survey.instr = 0x13 ∧ t.survey.tdo = [BitVec.ofNat 8 (lifeCode s.keeper.life),
        BitVec.ofNat 8 (s.survey.level.getD 0), BitVec.ofNat 8 s.survey.failures, if isFrozen s surveyMaster then 1 else 0] ∧
      t = { s with survey := t.survey }) ∧
    Gives .svLock s (fun t => t.survey.level = none ∧ t.survey.instr = 0x12 ∧
      t = { s with survey := t.survey, cairn := t.cairn, relay := t.relay }) ∧
    Gives .svChallenge s (fun t => t.survey.challenge = some t.survey.tdo ∧ t.survey.challengeTb = tbNow s ∧
      t.survey.tdo.length = 64 ∧ t.survey.tdo.drop 32 = toLe 16 Config.unitId.toNat ++ toLe 4 s.sad.img.boot.boots ++
        [BitVec.ofNat 8 (lifeCode s.keeper.life)] ++ List.replicate 11 0 ∧ t.keeper.rbg = s.keeper.rbg + 1 ∧
      t = { s with survey := t.survey, keeper := { s.keeper with rbg := t.keeper.rbg } }) ∧
    (svFull s = true → Gives .extest s (fun t => t.survey.instr = 0 ∧ (∀ p, (port t p).up = false) ∧ t.medium = s.medium ∧ t.sad = s.sad)) ∧
    (svFull s = false → Gives .extest s (fun t => t = { s with survey := { s.survey with instr := 0xFF } }))) ∧
  (∀ (s : State) (token : List Byte), s.mainUp = true → isFrozen s surveyMaster = false →
    (3 ≤ s.survey.failures → Gives (.svUnlock token) s (fun t => t = { s with survey := { s.survey with instr := 0x11 } })) ∧
    (s.survey.failures < 3 → tokenGood s token = true → Gives (.svUnlock token) s (fun t =>
      t.survey.level = some (fld token 0 1) ∧ fld token 0 1 = lifeCode s.keeper.life ∧ t.survey.challenge = none ∧
      t.survey.failures = s.survey.failures ∧ t = { s with survey := t.survey, cairn := t.cairn, relay := t.relay })) ∧
    (s.survey.failures < 3 → (s.survey.challenge = none ∨ s.survey.challengeTb + 60000000000 < tbNow s ∨
        fld token 0 1 ≠ lifeCode s.keeper.life ∨ token.length ≠ 256) → Gives (.svUnlock token) s (fun t =>
      t.survey.level = s.survey.level ∧ t.survey.failures = s.survey.failures + 1 ∧ t.survey.challenge = none ∧
      t = { s with survey := t.survey, cairn := t.cairn, relay := t.relay }))) ∧
  (∀ (s : State) (w : Bool) (a : BitVec 128), s.mainUp = true →
    (s.keeper.life ≠ .blank → s.survey.level = none →
      Gives (.svMem w a) s (fun t => t = { s with survey := { s.survey with instr := 0x20, tdo := List.replicate 8 0 } }) ∧
      Gives .svScan s (fun t => t = { s with survey := { s.survey with instr := 0x21, tdo := List.replicate 8 0 } }) ∧
      ∀ f n, Gives (.svCairn f n) s (fun t => t = { s with survey := { s.survey with instr := 0x22, tdo := List.replicate 8 0 } })) ∧
    (svAccess s = true → isFrozen s surveyMaster = false →
      Gives (.svMem false a) s (fun t => t.survey.instr = 0x20 ∧ t.survey.tdo.length = 8 ∧ t = { s with survey := t.survey, freeCtr := t.freeCtr }) ∧
      (∀ x, a.extractLsb' 126 2 = 2 → tget s.medium.cells ((a.extractLsb' 64 62).toNat % 549755813888) = some x → x.mdat.getLsbD 61 = false →
        Gives (.svMem false a) s (fun t => t.survey.tdo = toLe 8 (codewordBeat x (Config.surveyBeat (a.extractLsb' 64 62).toNat % 40)))) ∧
      (∀ x, a.extractLsb' 126 2 = 2 → tget s.medium.cells ((a.extractLsb' 64 62).toNat % 549755813888) = some x → x.mdat.getLsbD 61 = false →
        Gives (.svMem true a) s (fun t => FrozenWith surveyMaster 0x0205 t ∧ t.survey.level = none ∧ t.medium = s.medium ∧
          t.survey.raw = s.survey.raw ∧ t.sad = s.sad)) ∧
      (a.extractLsb' 126 2 ≠ 2 → svFull s = false → Gives (.svMem true a) s (fun t => t = { s with survey := { s.survey with instr := 0x20 } })) ∧
      (a.extractLsb' 126 2 ≠ 2 → svFull s = true → Gives (.svMem true a) s (fun t => t.survey.instr = 0x20 ∧
        tget t.survey.raw ((a.extractLsb' 126 2).toNat * 2 ^ 62 + (a.extractLsb' 64 62).toNat) = some (a.extractLsb' 0 64) ∧
        t = { s with survey := { s.survey with instr := 0x20, raw := t.survey.raw } }))) ∧
    (svFull s = true → isFrozen s surveyMaster = false → Gives .svScan s (fun t => t.survey.instr = 0x21 ∧ t.survey.tdo.length = 8 ∧
      t = { s with survey := t.survey, freeCtr := t.freeCtr })) ∧
    (∀ f n, s.survey.level.isSome = true → isFrozen s surveyMaster = false → 1 ≤ n → n ≤ 2047 → Gives (.svCairn f n) s (fun t =>
      t.survey.tdo = toLe 4 (cairnStart s f) ++ toLe 2 (cairnRun s (cairnStart s f) n).length ++ List.replicate 2 0 ++
        (cairnRun s (cairnStart s f) n).flatMap (fun k => recordBytes (cairnRecord s k)) ∧
      t = { s with survey := { s.survey with instr := 0x22, tdo := t.survey.tdo } }))) ∧
  (∀ (s : State) (token : List Byte), s.mainUp = true → s.boot.running = true → s.belay.step = 0 →
    (s.keeper.life = .provision → s.survey.level = some 1 → Gives (.svPromote 2 token) s (fun t => t.keeper.life = .production ∧
      t.survey.level = none ∧ t.belay.step = 1 ∧ t.belay.cause = 6 ∧ t.keeper.resetInfo = s.keeper.resetInfo ||| 8 ∧ t.sad = s.sad ∧ t.medium = s.medium)) ∧
    (s.keeper.life = .production → Config.transitionOk token 3 = true → Gives (.svPromote 3 token) s (fun t => t.keeper.life = .ret ∧
      t.survey.level = none ∧ t.belay.step = 1 ∧ t.belay.cause = 6 ∧ t.keeper.root = s.keeper.root + 1 ∧ t.sealCtl.slots = [] ∧
      (∀ p r, tget t.sad.img.parts p = some r → r.st = .departing) ∧ t.boot.secCounter = s.boot.secCounter ∧ t.cairn.stored = s.cairn.stored)) ∧
    (s.keeper.life = .production → s.survey.level = some 2 → Gives (.svPromote 4 token) s (fun t => t.keeper.life = .scrapped ∧
      t.survey.level = none ∧ t.keeper.root = s.keeper.root + 1 ∧ t.boot.secCounter = s.boot.secCounter)) ∧
    (s.keeper.life = .production → s.survey.level ≠ some 2 → Gives (.svPromote 4 token) s (fun t =>
      t = { s with survey := { s.survey with instr := 0x30 } })) ∧
    (s.keeper.life = .scrapped ∨ s.keeper.life = .production → ∀ n, n = 0 ∨ n = 1 ∨ n = 2 ∨ 4 < n → Gives (.svPromote n token) s (fun t =>
      t = { s with survey := { s.survey with instr := 0x30 } })))

/-- R10 to R14, R396, R478, R557 to R563, R568: a read of the low half of STAGE or TIMEBASE returns it and captures
the high half, as that of a mailbox register does; an access narrower than 32 bits, or not aligned, reads zero and
writes nothing, but for the payload window; a write of 1 clears a change flag that was not set at that moment; the
Command register and the payload ignore writes while the doorbell is 1, and the Command register takes a write with
its high half; a write of the doorbell, or of GO, is the command itself; read-only and reserved offsets ignore writes.
The places of the configuration space and of the HDM decoders (R65, R70, R78) are assumption log entry 13. -/
def Obligations.Registers : Prop :=
  (∀ (s : State) (p l : Nat), s.mainUp = true → (port s p).up = true → ldConfigured s p l = true →
    Gives (.reg64LowRead p l 0x8010) s (fun t => t.ports.readData = s.planner.stage % 4294967296 ∧
      ldAt t (ldKey p l) = { ldAt s (ldKey p l) with shStage := some (BitVec.ofNat 32 (s.planner.stage / 4294967296)) } ∧
      (∀ k, k ≠ ldKey p l → ldAt t k = ldAt s k) ∧ t = { s with ports := { s.ports with lds := t.ports.lds, readData := t.ports.readData } }) ∧
    Gives (.reg64LowRead p l 0x8030) s (fun t => t.ports.readData = tbNow s % 4294967296 ∧
      ldAt t (ldKey p l) = { ldAt s (ldKey p l) with shTb := some (BitVec.ofNat 32 (tbNow s / 4294967296)) } ∧
      (∀ k, k ≠ ldKey p l → ldAt t k = ldAt s k) ∧ t = { s with ports := { s.ports with lds := t.ports.lds, readData := t.ports.readData } }) ∧
    Gives (.reg64LowRead p l 0x1008) s (fun t =>
      t.ports.readData = ((ldAt s (ldKey p l)).mbox.opcode + (ldAt s (ldKey p l)).mbox.len * 65536) % 2 ^ 32 ∧
      ldAt t (ldKey p l) = { ldAt s (ldKey p l) with shCmd := some (BitVec.ofNat 32
        (((ldAt s (ldKey p l)).mbox.opcode + (ldAt s (ldKey p l)).mbox.len * 65536) / 2 ^ 32)) } ∧
      (∀ k, k ≠ ldKey p l → ldAt t k = ldAt s k) ∧ t = { s with ports := { s.ports with lds := t.ports.lds, readData := t.ports.readData } }) ∧
    (∀ off w v, (w ≠ 4 ∧ w ≠ 8) ∨ off % w ≠ 0 → (off < 0x1020 ∨ 0x8000 ≤ off ∨ (w ≠ 1 ∧ w ≠ 2)) →
      Gives (.narrowOrMisalignedAccess p l off w none) s (fun t => t = { s with ports := { s.ports with readData := 0 } }) ∧
      Gives (.narrowOrMisalignedAccess p l off w (some v)) s (fun t => t = s)) ∧
    (∀ (off : Nat) (v : BitVec 64), 0x1020 ≤ off → off < 0x8000 → (ldAt s (ldKey p l)).mbox.doorbell = false →
      Gives (.narrowOrMisalignedAccess p l off 1 (some v)) s (fun t =>
        (ldAt t (ldKey p l)).mbox = { (ldAt s (ldKey p l)).mbox with payload := (ldAt t (ldKey p l)).mbox.payload } ∧
        (∀ j, j < 65536 → (ldAt t (ldKey p l)).mbox.payload.getD j 0 =
          if j = (ldAt s (ldKey p l)).mbox.base * 4096 + (off - 0x1020) then v.truncate 8 else (ldAt s (ldKey p l)).mbox.payload.getD j 0) ∧
        (∀ k, k ≠ ldKey p l → ldAt t k = ldAt s k) ∧ t = { s with ports := { s.ports with lds := t.ports.lds } })) ∧
    (∀ v : BitVec 32, Gives (.registerWrite p l 0x8000 v) s (fun t =>
      ((ldAt s (ldKey p l)).chgTb ≠ tbNow s → (ldAt t (ldKey p l)).chg = (ldAt s (ldKey p l)).chg &&& ~~~(v.extractLsb' 16 5)) ∧
      ((ldAt s (ldKey p l)).chgTb = tbNow s → ∀ i, i < 5 → (ldAt s (ldKey p l)).chgNow.getLsbD i = true →
        (ldAt t (ldKey p l)).chg.getLsbD i = (ldAt s (ldKey p l)).chg.getLsbD i) ∧
      ldAt t (ldKey p l) = { ldAt s (ldKey p l) with chg := (ldAt t (ldKey p l)).chg } ∧
      (∀ k, k ≠ ldKey p l → ldAt t k = ldAt s k) ∧ t = { s with ports := { s.ports with lds := t.ports.lds } })) ∧
    (∀ v : BitVec 32, (ldAt s (ldKey p l)).mbox.doorbell = false →
      Gives (.registerWrite p l 0x1008 v) s (fun t =>
        ldAt t (ldKey p l) = { ldAt s (ldKey p l) with mbox := { (ldAt s (ldKey p l)).mbox with cmdLow := v } } ∧
        (∀ k, k ≠ ldKey p l → ldAt t k = ldAt s k) ∧ t = { s with ports := { s.ports with lds := t.ports.lds } }) ∧
      Gives (.registerWrite p l 0x100C v) s (fun t =>
        ldAt t (ldKey p l) = { ldAt s (ldKey p l) with mbox := { (ldAt s (ldKey p l)).mbox with
          opcode := (ldAt s (ldKey p l)).mbox.cmdLow.toNat % 65536,
          len := (ldAt s (ldKey p l)).mbox.cmdLow.toNat / 65536 + v.toNat % 32 * 65536 } } ∧
        (∀ k, k ≠ ldKey p l → ldAt t k = ldAt s k) ∧ t = { s with ports := { s.ports with lds := t.ports.lds } })) ∧
    (∀ (off : Nat) (v : BitVec 32), (ldAt s (ldKey p l)).mbox.doorbell = true → off % 4 = 0 →
      (off = 0x1008 ∨ off = 0x100C ∨ 0x1020 ≤ off ∧ off < 0x8000) →
      Gives (.registerWrite p l off v) s (fun t => (∀ k, ldAt t k = ldAt s k) ∧ t = { s with ports := { s.ports with lds := t.ports.lds } })) ∧
    (∀ v : BitVec 32, v.getLsbD 0 = true → exec (.registerWrite p l 0x1004 v) s = exec (.mailboxDoorbell p l) s ∧
      (tenantLd s (ldKey p l) = true → exec (.registerWrite p l 0xC018 v) s = exec (.cofSubmit p l v) s)) ∧
    (∀ v : BitVec 32, Gives (.registerWrite p l 0x8008 v) s (fun t =>
      ldAt t (ldKey p l) = { ldAt s (ldKey p l) with mbox := { (ldAt s (ldKey p l)).mbox with base := v.toNat % 16 } } ∧
      (∀ k, k ≠ ldKey p l → ldAt t k = ldAt s k) ∧ t = { s with ports := { s.ports with lds := t.ports.lds } })) ∧
    (∀ v : BitVec 32, mgmtKey s = some (ldKey p l) → Gives (.registerWrite p l 0x9000 v) s (fun t =>
      (ldAt t (ldKey p l)).win.position = v.toNat ∧ (ldAt t (ldKey p l)).win.ready = false ∧ (ldAt t (ldKey p l)).win.loading = true ∧
      (∀ k, k ≠ ldKey p l → ldAt t k = ldAt s k) ∧ t = { s with ports := { s.ports with lds := t.ports.lds } })) ∧
    (∀ v : BitVec 32,
      Gives (.registerWrite p l 0x10010 v) s (fun t => ldAt t (ldKey p l) = { ldAt s (ldKey p l) with
          io := { (ldAt s (ldKey p l)).io with bar0 := v &&& 0xFFFF0000 } } ∧
        (∀ k, k ≠ ldKey p l → ldAt t k = ldAt s k) ∧ t = { s with ports := { s.ports with lds := t.ports.lds } }) ∧
      Gives (.registerWrite p l 0x10104 v) s (fun t => ldAt t (ldKey p l) = { ldAt s (ldKey p l) with
          io := { (ldAt s (ldKey p l)).io with uncStatus := (ldAt s (ldKey p l)).io.uncStatus &&& ~~~v } } ∧
        (∀ k, k ≠ ldKey p l → ldAt t k = ldAt s k) ∧ t = { s with ports := { s.ports with lds := t.ports.lds } }) ∧
      ∀ d e : HdmDec, (ldAt s (ldKey p l)).decoders = [d, e] → Gives (.registerWrite p l 0x11018 v) s (fun t =>
        ldAt t (ldKey p l) = { ldAt s (ldKey p l) with decoders := [if d.ctrl.getLsbD 8 && d.ctrl.getLsbD 10 then d
          else { d with size := d.size.extractLsb' 32 32 ++ (v &&& 0xF0000000) }, e] } ∧
        (∀ k, k ≠ ldKey p l → ldAt t k = ldAt s k) ∧ t = { s with ports := { s.ports with lds := t.ports.lds } })) ∧
    (∀ (off : Nat) (v : BitVec 32), off < 0x1004 ∨ (0x1010 ≤ off ∧ off < 0x1020) ∨ (0x8004 ≤ off ∧ off ≤ 0x8004) ∨
      (0x800C ≤ off ∧ off < 0x9000) ∨ (0x9008 ≤ off ∧ off < 0xC000) ∨ (0xD000 ≤ off ∧ off < 0x10000) ∨ 0x12000 ≤ off → Gives (.registerWrite p l off v) s (fun t => t = s))) ∧
  (∀ (s : State) (p l off : Nat) (v : BitVec 32), s.mainUp = true → ldConfigured s p l = false ∨ (port s p).up = false →
    Gives (.registerWrite p l off v) s (fun t => t = s) ∧ Gives (.reg64LowRead p l off) s (fun t => t = s))

/-- A step takes the command at the front of the queue and is exec of it on the state with the rest of the queue; with
no command waiting it is one cycle of the stage clock (the model's choice, assumption log entry 2): the keeper counts
1 ns, and a main die that runs counts the cycle and advances TB by what ADJ and SLEW give. No command ends in a fault
or a refusal. -/
def Obligations.StepRunsFront : Prop :=
  (∀ (s : State) (c : Instr) (rest : List Instr), s.pending = c :: rest → step s = exec c { s with pending := rest }) ∧
  (∀ s : State, s.pending = [] → step s = .next (idleCycle s)) ∧
  (∀ s : State, s.pending = [] → (idleCycle s).keeper.since = s.keeper.since + 1 ∧ (idleCycle s).pending = [] ∧
    (s.mainUp = false → idleCycle s = { s with keeper := { s.keeper with since := s.keeper.since + 1 } }) ∧
    (s.mainUp = true → (idleCycle s).planner.cycle = s.planner.cycle + 1 ∧
      (s.reck.adj = 0 → s.reck.slewLeft = 0 → s.reck.frac < 4294967296 →
        (idleCycle s).reck.tb = s.reck.tb + 1 ∧ (idleCycle s).reck.frac = s.reck.frac))) ∧
  (∀ s : State, ∃ t, step s = .next t)

/-- R15, R496, R497, R543, R547, R549, R551, R563: the machine at its first keeper POR. The device has the life-cycle
state in which every unit ships, the keeper's domain at its reset values, nothing frozen, unlocked, stored or waiting,
and its firmware flash lists no byte that differs from an erased one. The registers of the main die's domain hold
their reset values, LD_CHG among them; memories that the manual gives no reset content are empty (assumption log entry
1). -/
def Obligations.ResetState : Prop :=
  State.reset.pending = [] ∧ State.reset.mainUp = false ∧ State.reset.rope.st = .holdoff ∧ State.reset.rope.holdMs = 150 ∧
  State.reset.rope.en = 0 ∧ State.reset.rope.pitch = 0 ∧ State.reset.keeper.resetInfo = 1 ∧ State.reset.keeper.lastCause = 0 ∧
  State.reset.keeper.life = .provision ∧ State.reset.keeper.alarmOut = false ∧ State.reset.keeper.cKh = 800 ∧
  State.reset.keeper.latch = [] ∧ State.reset.gate.freezes = [] ∧ State.reset.survey.level = none ∧
  State.reset.cairn.stored = [] ∧ State.reset.relay.queues = [] ∧ State.reset.belay.step = 0 ∧ State.reset.cache.lines = [] ∧
  State.reset.sealCtl.slots = [] ∧ (∀ k, (ldAt State.reset k).chg = 1 ∧ (ldAt State.reset k).win = {} ∧
    (ldAt State.reset k).cof = {} ∧ (ldAt State.reset k).mbox.doorbell = false ∧ (ldAt State.reset k).memActive = false) ∧
  (∀ p, (port State.reset p).up = false) ∧ FlashOk State.reset

/-- R526, R535: the firmware flash keeps its canonical form: every step from a state in which its cells stand at
rising addresses, none equal to an erased byte, leads to such a state. -/
def Obligations.FlashFormKept : Prop :=
  ∀ s t : State, FlashOk s → step s = .next t → FlashOk t

/-- R470, R534 to R536, R539, R549: what no step undoes. Cairn only appends: what it has stored stays as it is, in its
order. A life-cycle state is never left for an earlier one, and only SV_PROMOTE changes it. The security counter never
falls. The firmware flash changes in no step but one of an activation. -/
def Obligations.NeverUndone : Prop :=
  ∀ s t : State, step s = .next t →
  (∃ l, t.cairn.stored = l ++ s.cairn.stored) ∧ lifeRank s.keeper.life ≤ lifeRank t.keeper.life ∧
  (t.keeper.life ≠ s.keeper.life → ∃ n token rest, s.pending = .svPromote n token :: rest) ∧
  s.boot.secCounter ≤ t.boot.secCounter ∧
  (t.boot.flash ≠ s.boot.flash → ∃ ok rest, s.pending = .activationFlashStep ok :: rest)

/-- R116: a freeze stays in force through every step but THAW, however it is sent, and a boot, which takes the freezes
from their records (R111, R466). -/
def Obligations.FreezesStay : Prop :=
  ∀ (s t : State) (f : Freeze), step s = .next t → f ∈ s.gate.freezes →
  (∀ rest, (∀ p i, s.pending ≠ .thaw p i :: rest) ∧ (∀ b, s.pending ≠ .mainDieResetRelease b :: rest) ∧
    (∀ p l, s.pending ≠ .mailboxDoorbell p l :: rest) ∧ (∀ p l o v, s.pending ≠ .registerWrite p l o v :: rest) ∧
    (∀ o i, s.pending ≠ .mctpRequest (.command o) i :: rest)) → f ∈ t.gate.freezes
end

