-- ==== Sys2Proof/Laws/Bytes.lean ====
section
/-! SUPPORT. Payload bytes: lengths, and the field that stands at an offset. -/

namespace Sys2Proof.Machine

@[simp] theorem length_toLe (n v : Nat) : (toLe n v).length = n := by
  induction n generalizing v with
  | zero => rfl
  | succ n ih => simp [toLe, ih]

@[simp] theorem length_zeros (n : Nat) : (zeros n).length = n := by simp [zeros]
@[simp] theorem length_toLeI (n : Nat) (x : Int) : (toLeI n x).length = n := by simp [toLeI]
@[simp] theorem length_openBytes (n a b : Nat) : (openBytes n a b).length = n := by simp [openBytes]
@[simp] theorem length_padTo (n : Nat) (l : List Byte) : (padTo n l).length = n := by
  simp only [padTo, List.length_take, List.length_append, length_zeros]; omega

/-- A number's little-endian bytes read back as the number, within their width. -/
@[simp] theorem leVal_toLe (n v : Nat) : leVal (toLe n v) = v % 256 ^ n := by
  induction n generalizing v with
  | zero => simp [toLe, leVal, Nat.mod_one]
  | succ n ih =>
    simp only [toLe, leVal, BitVec.toNat_ofNat, ih]
    exact (show v % 256 ^ (n + 1) = v % 256 + 256 * (v / 256 % 256 ^ n) by rw [Nat.pow_succ', Nat.mod_mul]).symm

/-- Bytes past the first part are those of the rest. -/
theorem bytesAt_append_ge (a b : List Byte) (off n : Nat) (h : a.length ≤ off) : bytesAt (a ++ b) off n = bytesAt b (off - a.length) n := by
  simp [bytesAt, List.drop_append, List.drop_eq_nil_of_le h]

/-- Bytes that lie in the first part. -/
theorem bytesAt_append_lt (a b : List Byte) (off n : Nat) (h : off + n ≤ a.length) : bytesAt (a ++ b) off n = bytesAt a off n := by
  have h1 : off ≤ a.length := by omega
  have h2 : n ≤ (a.drop off).length := by simp; omega
  simp only [bytesAt, List.drop_append_of_le_length h1, List.take_append_of_le_length h2]

theorem fld_append_ge (a b : List Byte) (off n : Nat) (h : a.length ≤ off) : fld (a ++ b) off n = fld b (off - a.length) n := by
  rw [fld, fld, bytesAt_append_ge a b off n h]

theorem fld_append_lt (a b : List Byte) (off n : Nat) (h : off + n ≤ a.length) : fld (a ++ b) off n = fld a off n := by
  rw [fld, fld, bytesAt_append_lt a b off n h]

@[simp] theorem bytesAt_whole (a : List Byte) : bytesAt a 0 a.length = a := by simp [bytesAt]

theorem bytesAt_self (a : List Byte) (n : Nat) (h : a.length = n) : bytesAt a 0 n = a := by simp [bytesAt, ← h]

theorem fld_toLe (n v : Nat) : fld (toLe n v) 0 n = v % 256 ^ n := by
  rw [fld, bytesAt_self _ n (length_toLe n v), leVal_toLe]

/-- A list of one-byte fields. -/
theorem fld_one (l : List Byte) (k : Nat) (b : Byte) (h : l[k]? = some b) : fld l k 1 = b.toNat := by
  obtain ⟨hk, hb⟩ := List.getElem?_eq_some_iff.mp h
  rw [fld, bytesAt, List.drop_eq_getElem_cons hk]
  simp [leVal, hb]

/-- The entry j of a payload of entries of one size. -/
theorem bytesAt_flatMap {α : Type} (f : α → List Byte) (n : Nat) (hf : ∀ x, (f x).length = n) (l : List α) (j : Nat) (x : α)
    (h : l[j]? = some x) : bytesAt (l.flatMap f) (n * j) n = f x := by
  induction l generalizing j with
  | nil => simp at h
  | cons y l ih =>
    cases j with
    | zero =>
      simp only [List.getElem?_cons_zero, Option.some.injEq] at h
      subst h
      rw [List.flatMap_cons, Nat.mul_zero, bytesAt_append_lt _ _ _ _ (by simp [hf]), bytesAt_self _ n (hf y)]
    | succ j =>
      simp only [List.getElem?_cons_succ] at h
      rw [List.flatMap_cons, bytesAt_append_ge _ _ _ _ (by rw [hf, Nat.mul_succ]; omega), hf, ← ih j h]
      congr 1; rw [Nat.mul_succ]; omega

theorem length_flatMap_const {α : Type} (f : α → List Byte) (n : Nat) (hf : ∀ x, (f x).length = n) (l : List α) :
    (l.flatMap f).length = n * l.length := by
  induction l with
  | nil => rfl
  | cons y l ih => simp [List.flatMap_cons, hf, ih, Nat.mul_succ]; omega

theorem crcBit_lt (c : Nat) (h : c < 4294967296) : crcBit c < 4294967296 := by
  unfold crcBit
  split
  · exact Nat.xor_lt_two_pow (n := 32) (by omega) (by decide)
  · omega

theorem crcByte_lt (c b : Nat) (h : c < 4294967296) (hb : b < 256) : crcByte c b < 4294967296 := by
  have hx : c ^^^ b < 4294967296 := Nat.xor_lt_two_pow (n := 32) h (by omega)
  simp only [crcByte]
  repeat apply crcBit_lt
  exact hx

/-- CRC-32C is a 32-bit value. -/
theorem crc32c_lt (l : List Byte) : crc32c l < 4294967296 := by
  have h : ∀ (l : List Byte) (c : Nat), c < 4294967296 → (l.map BitVec.toNat).foldl crcByte c < 4294967296 := by
    intro l
    induction l with
    | nil => intro c hc; exact hc
    | cons b l ih => intro c hc; exact ih _ (crcByte_lt c b.toNat hc b.isLt)
  exact Nat.xor_lt_two_pow (n := 32) (h l _ (by decide)) (by decide)

end Sys2Proof.Machine
end

