-- ==== Sys2Proof/Laws/Tbl.lean ====
section
/-! SUPPORT. What the sparse tables do: a read after a write, the other entries, and the order of the keys. -/

namespace Sys2Proof.Machine

variable {α : Type}

@[simp] theorem tget_nil (k : Nat) : tget ([] : Tbl α) k = none := rfl

@[simp] theorem tget_tset_same (t : Tbl α) (k : Nat) (v : α) : tget (tset t k v) k = some v := by
  induction t with
  | nil => simp [tset, tget]
  | cons p t ih =>
    obtain ⟨k', v'⟩ := p
    unfold tset
    split
    · simp [tget]
    · split
      · simp [tget]
      · rename_i h1 h2; simp [tget, h2, ih]

@[simp] theorem tget_tset_ne (t : Tbl α) {k j : Nat} (v : α) (h : j ≠ k) : tget (tset t k v) j = tget t j := by
  induction t with
  | nil => simp [tset, tget, h]
  | cons p t ih =>
    obtain ⟨k', v'⟩ := p
    unfold tset
    split
    · simp [tget, h]
    · split
      · rename_i h1 h2; subst h2; simp [tget, h]
      · simp [tget, ih]

@[simp] theorem tgetD_tset_same (t : Tbl α) (k : Nat) (v d : α) : tgetD (tset t k v) k d = v := by simp [tgetD]

@[simp] theorem tgetD_tset_ne (t : Tbl α) {k j : Nat} (v d : α) (h : j ≠ k) : tgetD (tset t k v) j d = tgetD t j d := by
  simp [tgetD, h]

@[simp] theorem tgetD_tmod_same (t : Tbl α) (k : Nat) (d : α) (f : α → α) : tgetD (tmod t k d f) k d = f (tgetD t k d) := by
  simp [tmod]

@[simp] theorem tgetD_tmod_ne (t : Tbl α) {k j : Nat} (d d' : α) (f : α → α) (h : j ≠ k) :
    tgetD (tmod t k d f) j d' = tgetD t j d' := by
  simp [tmod, h]

@[simp] theorem tget_tmod_same (t : Tbl α) (k : Nat) (d : α) (f : α → α) : tget (tmod t k d f) k = some (f (tgetD t k d)) := by
  simp [tmod]

@[simp] theorem tget_tmod_ne (t : Tbl α) {k j : Nat} (d : α) (f : α → α) (h : j ≠ k) : tget (tmod t k d f) j = tget t j := by
  simp [tmod, h]

theorem tget_tmap {β : Type} (t : Tbl α) (f : Nat → α → β) (k : Nat) : tget (tmap t f) k = (tget t k).map (f k) := by
  induction t with
  | nil => rfl
  | cons p t ih =>
    obtain ⟨k', v'⟩ := p
    by_cases h : k = k'
    · subst h; simp [tmap, tget]
    · simp only [tmap, List.map_cons, tget, h, if_false] at *; exact ih

theorem tget_filter_key (t : Tbl α) (q : Nat → Bool) (k : Nat) :
    tget (t.filter (fun p => q p.1)) k = if q k then tget t k else none := by
  induction t with
  | nil => simp [tget]
  | cons p t ih =>
    obtain ⟨k', v'⟩ := p
    by_cases hk : k = k'
    · subst hk
      by_cases hq : q k <;> simp_all [tget]
    · by_cases hq : q k' <;> simp_all [tget]

@[simp] theorem tget_tdel_same (t : Tbl α) (k : Nat) : tget (tdel t k) k = none := by
  have := tget_filter_key t (fun j => j != k) k
  simpa [tdel] using this

@[simp] theorem tget_tdel_ne (t : Tbl α) {k j : Nat} (h : j ≠ k) : tget (tdel t k) j = tget t j := by
  have := tget_filter_key t (fun j => j != k) j
  simpa [tdel, h] using this

/-! ### The order of the keys -/

/-- The keys of a table rise strictly. -/
theorem tkeys_tset (t : Tbl α) (k j : Nat) (v : α) : j ∈ tkeys (tset t k v) ↔ j = k ∨ j ∈ tkeys t := by
  induction t with
  | nil => simp [tset, tkeys]
  | cons p t ih =>
    obtain ⟨k', v'⟩ := p
    unfold tset
    split
    · simp [tkeys]
    · split
      · rename_i h1 h2; subst h2; simp [tkeys]
      · have := ih; simp only [tkeys, List.map_cons, List.mem_cons] at *
        rw [this]; tauto

theorem sorted_tset (t : Tbl α) (k : Nat) (v : α) (h : (tkeys t).Pairwise (· < ·)) : (tkeys (tset t k v)).Pairwise (· < ·) := by
  induction t with
  | nil => simp [tset, tkeys]
  | cons p t ih =>
    obtain ⟨k', v'⟩ := p
    have h' : (∀ j ∈ tkeys t, k' < j) ∧ (tkeys t).Pairwise (· < ·) := by simpa [tkeys] using h
    unfold tset
    split
    · rename_i h1
      have : ∀ j ∈ tkeys t, k < j := fun j hj => lt_trans h1 (h'.1 j hj)
      simp only [tkeys, List.map_cons, List.pairwise_cons, List.mem_cons] at *
      exact ⟨by rintro a (rfl | ha); exacts [h1, this a ha], h'⟩
    · split
      · rename_i h1 h2; subst h2; simpa [tkeys] using h
      · rename_i h1 h2
        have hk : k' < k := by omega
        have hs := ih h'.2
        have hm : ∀ j ∈ tkeys (tset t k v), k' < j := by
          intro j hj; rw [tkeys_tset] at hj; rcases hj with rfl | hj
          exacts [hk, h'.1 j hj]
        simp only [tkeys, List.map_cons, List.pairwise_cons] at *
        exact ⟨hm, hs⟩

/-- A write keeps a table's form. -/
theorem tsorted_tset (t : Tbl α) (k : Nat) (v : α) (h : tsorted t = true) : tsorted (tset t k v) = true := by
  simp only [tsorted, decide_eq_true_eq] at *; exact sorted_tset t k v h

/-- A filter keeps a table's form. -/
theorem tsorted_filter (t : Tbl α) (q : Nat × α → Bool) (h : tsorted t = true) : tsorted (t.filter q) = true := by
  have h' : (tkeys t).Pairwise (· < ·) := of_decide_eq_true h
  exact decide_eq_true (h'.sublist (List.Sublist.map _ List.filter_sublist))

/-- A map over the entries keeps a table's form. -/
theorem tsorted_tmap {β : Type} (t : Tbl α) (f : Nat → α → β) (h : tsorted t = true) : tsorted (tmap t f) = true := by
  have : tkeys (tmap t f) = tkeys t := by simp [tkeys, tmap]
  simpa [tsorted, this] using h

end Sys2Proof.Machine
end

