-- ==== Sys2Proof/Laws/State.lean ====
section
/-! SUPPORT. What each update of the state leaves alone, field by field, and what the readers of channels, ports, LDs
and lines answer after one. -/

namespace Sys2Proof.Machine

/-! ### modChan -/

@[simp] theorem modChan_pending (c : Nat) (f : Chan → Chan) (s : State) : (modChan c f s).pending = s.pending := rfl
@[simp] theorem modChan_mainUp (c : Nat) (f : Chan → Chan) (s : State) : (modChan c f s).mainUp = s.mainUp := rfl
@[simp] theorem modChan_health (c : Nat) (f : Chan → Chan) (s : State) : (modChan c f s).health = s.health := rfl
@[simp] theorem modChan_ports (c : Nat) (f : Chan → Chan) (s : State) : (modChan c f s).ports = s.ports := rfl
@[simp] theorem modChan_gate (c : Nat) (f : Chan → Chan) (s : State) : (modChan c f s).gate = s.gate := rfl
@[simp] theorem modChan_planner (c : Nat) (f : Chan → Chan) (s : State) : (modChan c f s).planner = s.planner := rfl
@[simp] theorem modChan_cache (c : Nat) (f : Chan → Chan) (s : State) : (modChan c f s).cache = s.cache := rfl
@[simp] theorem modChan_sealCtl (c : Nat) (f : Chan → Chan) (s : State) : (modChan c f s).sealCtl = s.sealCtl := rfl
@[simp] theorem modChan_tree (c : Nat) (f : Chan → Chan) (s : State) : (modChan c f s).tree = s.tree := rfl
@[simp] theorem modChan_travs (c : Nat) (f : Chan → Chan) (s : State) : (modChan c f s).travs = s.travs := rfl
@[simp] theorem modChan_way (c : Nat) (f : Chan → Chan) (s : State) : (modChan c f s).way = s.way := rfl
@[simp] theorem modChan_medium (c : Nat) (f : Chan → Chan) (s : State) : (modChan c f s).medium = s.medium := rfl
@[simp] theorem modChan_belay (c : Nat) (f : Chan → Chan) (s : State) : (modChan c f s).belay = s.belay := rfl
@[simp] theorem modChan_reck (c : Nat) (f : Chan → Chan) (s : State) : (modChan c f s).reck = s.reck := rfl
@[simp] theorem modChan_mctp (c : Nat) (f : Chan → Chan) (s : State) : (modChan c f s).mctp = s.mctp := rfl
@[simp] theorem modChan_ep (c : Nat) (f : Chan → Chan) (s : State) : (modChan c f s).ep = s.ep := rfl
@[simp] theorem modChan_sad (c : Nat) (f : Chan → Chan) (s : State) : (modChan c f s).sad = s.sad := rfl
@[simp] theorem modChan_cairn (c : Nat) (f : Chan → Chan) (s : State) : (modChan c f s).cairn = s.cairn := rfl
@[simp] theorem modChan_relay (c : Nat) (f : Chan → Chan) (s : State) : (modChan c f s).relay = s.relay := rfl
@[simp] theorem modChan_rope (c : Nat) (f : Chan → Chan) (s : State) : (modChan c f s).rope = s.rope := rfl
@[simp] theorem modChan_therm (c : Nat) (f : Chan → Chan) (s : State) : (modChan c f s).therm = s.therm := rfl
@[simp] theorem modChan_boot (c : Nat) (f : Chan → Chan) (s : State) : (modChan c f s).boot = s.boot := rfl
@[simp] theorem modChan_survey (c : Nat) (f : Chan → Chan) (s : State) : (modChan c f s).survey = s.survey := rfl
@[simp] theorem modChan_keeper (c : Nat) (f : Chan → Chan) (s : State) : (modChan c f s).keeper = s.keeper := rfl
@[simp] theorem modChan_freeCtr (c : Nat) (f : Chan → Chan) (s : State) : (modChan c f s).freeCtr = s.freeCtr := rfl
@[simp] theorem modChan_timeRef (c : Nat) (f : Chan → Chan) (s : State) : (modChan c f s).timeRef = s.timeRef := rfl

/-! ### modBank -/

@[simp] theorem modBank_pending (c b : Nat) (f : Bank → Bank) (s : State) : (modBank c b f s).pending = s.pending := rfl
@[simp] theorem modBank_mainUp (c b : Nat) (f : Bank → Bank) (s : State) : (modBank c b f s).mainUp = s.mainUp := rfl
@[simp] theorem modBank_health (c b : Nat) (f : Bank → Bank) (s : State) : (modBank c b f s).health = s.health := rfl
@[simp] theorem modBank_ports (c b : Nat) (f : Bank → Bank) (s : State) : (modBank c b f s).ports = s.ports := rfl
@[simp] theorem modBank_gate (c b : Nat) (f : Bank → Bank) (s : State) : (modBank c b f s).gate = s.gate := rfl
@[simp] theorem modBank_planner (c b : Nat) (f : Bank → Bank) (s : State) : (modBank c b f s).planner = s.planner := rfl
@[simp] theorem modBank_cache (c b : Nat) (f : Bank → Bank) (s : State) : (modBank c b f s).cache = s.cache := rfl
@[simp] theorem modBank_sealCtl (c b : Nat) (f : Bank → Bank) (s : State) : (modBank c b f s).sealCtl = s.sealCtl := rfl
@[simp] theorem modBank_tree (c b : Nat) (f : Bank → Bank) (s : State) : (modBank c b f s).tree = s.tree := rfl
@[simp] theorem modBank_travs (c b : Nat) (f : Bank → Bank) (s : State) : (modBank c b f s).travs = s.travs := rfl
@[simp] theorem modBank_way (c b : Nat) (f : Bank → Bank) (s : State) : (modBank c b f s).way = s.way := rfl
@[simp] theorem modBank_medium (c b : Nat) (f : Bank → Bank) (s : State) : (modBank c b f s).medium = s.medium := rfl
@[simp] theorem modBank_belay (c b : Nat) (f : Bank → Bank) (s : State) : (modBank c b f s).belay = s.belay := rfl
@[simp] theorem modBank_reck (c b : Nat) (f : Bank → Bank) (s : State) : (modBank c b f s).reck = s.reck := rfl
@[simp] theorem modBank_mctp (c b : Nat) (f : Bank → Bank) (s : State) : (modBank c b f s).mctp = s.mctp := rfl
@[simp] theorem modBank_ep (c b : Nat) (f : Bank → Bank) (s : State) : (modBank c b f s).ep = s.ep := rfl
@[simp] theorem modBank_sad (c b : Nat) (f : Bank → Bank) (s : State) : (modBank c b f s).sad = s.sad := rfl
@[simp] theorem modBank_cairn (c b : Nat) (f : Bank → Bank) (s : State) : (modBank c b f s).cairn = s.cairn := rfl
@[simp] theorem modBank_relay (c b : Nat) (f : Bank → Bank) (s : State) : (modBank c b f s).relay = s.relay := rfl
@[simp] theorem modBank_rope (c b : Nat) (f : Bank → Bank) (s : State) : (modBank c b f s).rope = s.rope := rfl
@[simp] theorem modBank_therm (c b : Nat) (f : Bank → Bank) (s : State) : (modBank c b f s).therm = s.therm := rfl
@[simp] theorem modBank_boot (c b : Nat) (f : Bank → Bank) (s : State) : (modBank c b f s).boot = s.boot := rfl
@[simp] theorem modBank_survey (c b : Nat) (f : Bank → Bank) (s : State) : (modBank c b f s).survey = s.survey := rfl
@[simp] theorem modBank_keeper (c b : Nat) (f : Bank → Bank) (s : State) : (modBank c b f s).keeper = s.keeper := rfl
@[simp] theorem modBank_freeCtr (c b : Nat) (f : Bank → Bank) (s : State) : (modBank c b f s).freeCtr = s.freeCtr := rfl
@[simp] theorem modBank_timeRef (c b : Nat) (f : Bank → Bank) (s : State) : (modBank c b f s).timeRef = s.timeRef := rfl

/-! ### modPort -/

@[simp] theorem modPort_pending (p : Nat) (f : Port → Port) (s : State) : (modPort p f s).pending = s.pending := rfl
@[simp] theorem modPort_mainUp (p : Nat) (f : Port → Port) (s : State) : (modPort p f s).mainUp = s.mainUp := rfl
@[simp] theorem modPort_health (p : Nat) (f : Port → Port) (s : State) : (modPort p f s).health = s.health := rfl
@[simp] theorem modPort_gate (p : Nat) (f : Port → Port) (s : State) : (modPort p f s).gate = s.gate := rfl
@[simp] theorem modPort_planner (p : Nat) (f : Port → Port) (s : State) : (modPort p f s).planner = s.planner := rfl
@[simp] theorem modPort_chans (p : Nat) (f : Port → Port) (s : State) : (modPort p f s).chans = s.chans := rfl
@[simp] theorem modPort_cache (p : Nat) (f : Port → Port) (s : State) : (modPort p f s).cache = s.cache := rfl
@[simp] theorem modPort_sealCtl (p : Nat) (f : Port → Port) (s : State) : (modPort p f s).sealCtl = s.sealCtl := rfl
@[simp] theorem modPort_tree (p : Nat) (f : Port → Port) (s : State) : (modPort p f s).tree = s.tree := rfl
@[simp] theorem modPort_travs (p : Nat) (f : Port → Port) (s : State) : (modPort p f s).travs = s.travs := rfl
@[simp] theorem modPort_way (p : Nat) (f : Port → Port) (s : State) : (modPort p f s).way = s.way := rfl
@[simp] theorem modPort_medium (p : Nat) (f : Port → Port) (s : State) : (modPort p f s).medium = s.medium := rfl
@[simp] theorem modPort_belay (p : Nat) (f : Port → Port) (s : State) : (modPort p f s).belay = s.belay := rfl
@[simp] theorem modPort_reck (p : Nat) (f : Port → Port) (s : State) : (modPort p f s).reck = s.reck := rfl
@[simp] theorem modPort_mctp (p : Nat) (f : Port → Port) (s : State) : (modPort p f s).mctp = s.mctp := rfl
@[simp] theorem modPort_ep (p : Nat) (f : Port → Port) (s : State) : (modPort p f s).ep = s.ep := rfl
@[simp] theorem modPort_sad (p : Nat) (f : Port → Port) (s : State) : (modPort p f s).sad = s.sad := rfl
@[simp] theorem modPort_cairn (p : Nat) (f : Port → Port) (s : State) : (modPort p f s).cairn = s.cairn := rfl
@[simp] theorem modPort_relay (p : Nat) (f : Port → Port) (s : State) : (modPort p f s).relay = s.relay := rfl
@[simp] theorem modPort_rope (p : Nat) (f : Port → Port) (s : State) : (modPort p f s).rope = s.rope := rfl
@[simp] theorem modPort_therm (p : Nat) (f : Port → Port) (s : State) : (modPort p f s).therm = s.therm := rfl
@[simp] theorem modPort_boot (p : Nat) (f : Port → Port) (s : State) : (modPort p f s).boot = s.boot := rfl
@[simp] theorem modPort_survey (p : Nat) (f : Port → Port) (s : State) : (modPort p f s).survey = s.survey := rfl
@[simp] theorem modPort_keeper (p : Nat) (f : Port → Port) (s : State) : (modPort p f s).keeper = s.keeper := rfl
@[simp] theorem modPort_freeCtr (p : Nat) (f : Port → Port) (s : State) : (modPort p f s).freeCtr = s.freeCtr := rfl
@[simp] theorem modPort_timeRef (p : Nat) (f : Port → Port) (s : State) : (modPort p f s).timeRef = s.timeRef := rfl

/-! ### modLd -/

@[simp] theorem modLd_pending (k : Nat) (f : Ld → Ld) (s : State) : (modLd k f s).pending = s.pending := rfl
@[simp] theorem modLd_mainUp (k : Nat) (f : Ld → Ld) (s : State) : (modLd k f s).mainUp = s.mainUp := rfl
@[simp] theorem modLd_health (k : Nat) (f : Ld → Ld) (s : State) : (modLd k f s).health = s.health := rfl
@[simp] theorem modLd_gate (k : Nat) (f : Ld → Ld) (s : State) : (modLd k f s).gate = s.gate := rfl
@[simp] theorem modLd_planner (k : Nat) (f : Ld → Ld) (s : State) : (modLd k f s).planner = s.planner := rfl
@[simp] theorem modLd_chans (k : Nat) (f : Ld → Ld) (s : State) : (modLd k f s).chans = s.chans := rfl
@[simp] theorem modLd_cache (k : Nat) (f : Ld → Ld) (s : State) : (modLd k f s).cache = s.cache := rfl
@[simp] theorem modLd_sealCtl (k : Nat) (f : Ld → Ld) (s : State) : (modLd k f s).sealCtl = s.sealCtl := rfl
@[simp] theorem modLd_tree (k : Nat) (f : Ld → Ld) (s : State) : (modLd k f s).tree = s.tree := rfl
@[simp] theorem modLd_travs (k : Nat) (f : Ld → Ld) (s : State) : (modLd k f s).travs = s.travs := rfl
@[simp] theorem modLd_way (k : Nat) (f : Ld → Ld) (s : State) : (modLd k f s).way = s.way := rfl
@[simp] theorem modLd_medium (k : Nat) (f : Ld → Ld) (s : State) : (modLd k f s).medium = s.medium := rfl
@[simp] theorem modLd_belay (k : Nat) (f : Ld → Ld) (s : State) : (modLd k f s).belay = s.belay := rfl
@[simp] theorem modLd_reck (k : Nat) (f : Ld → Ld) (s : State) : (modLd k f s).reck = s.reck := rfl
@[simp] theorem modLd_mctp (k : Nat) (f : Ld → Ld) (s : State) : (modLd k f s).mctp = s.mctp := rfl
@[simp] theorem modLd_ep (k : Nat) (f : Ld → Ld) (s : State) : (modLd k f s).ep = s.ep := rfl
@[simp] theorem modLd_sad (k : Nat) (f : Ld → Ld) (s : State) : (modLd k f s).sad = s.sad := rfl
@[simp] theorem modLd_cairn (k : Nat) (f : Ld → Ld) (s : State) : (modLd k f s).cairn = s.cairn := rfl
@[simp] theorem modLd_relay (k : Nat) (f : Ld → Ld) (s : State) : (modLd k f s).relay = s.relay := rfl
@[simp] theorem modLd_rope (k : Nat) (f : Ld → Ld) (s : State) : (modLd k f s).rope = s.rope := rfl
@[simp] theorem modLd_therm (k : Nat) (f : Ld → Ld) (s : State) : (modLd k f s).therm = s.therm := rfl
@[simp] theorem modLd_boot (k : Nat) (f : Ld → Ld) (s : State) : (modLd k f s).boot = s.boot := rfl
@[simp] theorem modLd_survey (k : Nat) (f : Ld → Ld) (s : State) : (modLd k f s).survey = s.survey := rfl
@[simp] theorem modLd_keeper (k : Nat) (f : Ld → Ld) (s : State) : (modLd k f s).keeper = s.keeper := rfl
@[simp] theorem modLd_freeCtr (k : Nat) (f : Ld → Ld) (s : State) : (modLd k f s).freeCtr = s.freeCtr := rfl
@[simp] theorem modLd_timeRef (k : Nat) (f : Ld → Ld) (s : State) : (modLd k f s).timeRef = s.timeRef := rfl

/-! ### setChg -/

@[simp] theorem setChg_pending (i k : Nat) (s : State) : (setChg i k s).pending = s.pending := rfl
@[simp] theorem setChg_mainUp (i k : Nat) (s : State) : (setChg i k s).mainUp = s.mainUp := rfl
@[simp] theorem setChg_health (i k : Nat) (s : State) : (setChg i k s).health = s.health := rfl
@[simp] theorem setChg_gate (i k : Nat) (s : State) : (setChg i k s).gate = s.gate := rfl
@[simp] theorem setChg_planner (i k : Nat) (s : State) : (setChg i k s).planner = s.planner := rfl
@[simp] theorem setChg_chans (i k : Nat) (s : State) : (setChg i k s).chans = s.chans := rfl
@[simp] theorem setChg_cache (i k : Nat) (s : State) : (setChg i k s).cache = s.cache := rfl
@[simp] theorem setChg_sealCtl (i k : Nat) (s : State) : (setChg i k s).sealCtl = s.sealCtl := rfl
@[simp] theorem setChg_tree (i k : Nat) (s : State) : (setChg i k s).tree = s.tree := rfl
@[simp] theorem setChg_travs (i k : Nat) (s : State) : (setChg i k s).travs = s.travs := rfl
@[simp] theorem setChg_way (i k : Nat) (s : State) : (setChg i k s).way = s.way := rfl
@[simp] theorem setChg_medium (i k : Nat) (s : State) : (setChg i k s).medium = s.medium := rfl
@[simp] theorem setChg_belay (i k : Nat) (s : State) : (setChg i k s).belay = s.belay := rfl
@[simp] theorem setChg_reck (i k : Nat) (s : State) : (setChg i k s).reck = s.reck := rfl
@[simp] theorem setChg_mctp (i k : Nat) (s : State) : (setChg i k s).mctp = s.mctp := rfl
@[simp] theorem setChg_ep (i k : Nat) (s : State) : (setChg i k s).ep = s.ep := rfl
@[simp] theorem setChg_sad (i k : Nat) (s : State) : (setChg i k s).sad = s.sad := rfl
@[simp] theorem setChg_cairn (i k : Nat) (s : State) : (setChg i k s).cairn = s.cairn := rfl
@[simp] theorem setChg_relay (i k : Nat) (s : State) : (setChg i k s).relay = s.relay := rfl
@[simp] theorem setChg_rope (i k : Nat) (s : State) : (setChg i k s).rope = s.rope := rfl
@[simp] theorem setChg_therm (i k : Nat) (s : State) : (setChg i k s).therm = s.therm := rfl
@[simp] theorem setChg_boot (i k : Nat) (s : State) : (setChg i k s).boot = s.boot := rfl
@[simp] theorem setChg_survey (i k : Nat) (s : State) : (setChg i k s).survey = s.survey := rfl
@[simp] theorem setChg_keeper (i k : Nat) (s : State) : (setChg i k s).keeper = s.keeper := rfl
@[simp] theorem setChg_freeCtr (i k : Nat) (s : State) : (setChg i k s).freeCtr = s.freeCtr := rfl
@[simp] theorem setChg_timeRef (i k : Nat) (s : State) : (setChg i k s).timeRef = s.timeRef := rfl

/-! ### modTile -/

@[simp] theorem modTile_pending (t : Nat) (f : Tile → Tile) (s : State) : (modTile t f s).pending = s.pending := rfl
@[simp] theorem modTile_mainUp (t : Nat) (f : Tile → Tile) (s : State) : (modTile t f s).mainUp = s.mainUp := rfl
@[simp] theorem modTile_health (t : Nat) (f : Tile → Tile) (s : State) : (modTile t f s).health = s.health := rfl
@[simp] theorem modTile_ports (t : Nat) (f : Tile → Tile) (s : State) : (modTile t f s).ports = s.ports := rfl
@[simp] theorem modTile_gate (t : Nat) (f : Tile → Tile) (s : State) : (modTile t f s).gate = s.gate := rfl
@[simp] theorem modTile_planner (t : Nat) (f : Tile → Tile) (s : State) : (modTile t f s).planner = s.planner := rfl
@[simp] theorem modTile_chans (t : Nat) (f : Tile → Tile) (s : State) : (modTile t f s).chans = s.chans := rfl
@[simp] theorem modTile_cache (t : Nat) (f : Tile → Tile) (s : State) : (modTile t f s).cache = s.cache := rfl
@[simp] theorem modTile_sealCtl (t : Nat) (f : Tile → Tile) (s : State) : (modTile t f s).sealCtl = s.sealCtl := rfl
@[simp] theorem modTile_tree (t : Nat) (f : Tile → Tile) (s : State) : (modTile t f s).tree = s.tree := rfl
@[simp] theorem modTile_travs (t : Nat) (f : Tile → Tile) (s : State) : (modTile t f s).travs = s.travs := rfl
@[simp] theorem modTile_medium (t : Nat) (f : Tile → Tile) (s : State) : (modTile t f s).medium = s.medium := rfl
@[simp] theorem modTile_belay (t : Nat) (f : Tile → Tile) (s : State) : (modTile t f s).belay = s.belay := rfl
@[simp] theorem modTile_reck (t : Nat) (f : Tile → Tile) (s : State) : (modTile t f s).reck = s.reck := rfl
@[simp] theorem modTile_mctp (t : Nat) (f : Tile → Tile) (s : State) : (modTile t f s).mctp = s.mctp := rfl
@[simp] theorem modTile_ep (t : Nat) (f : Tile → Tile) (s : State) : (modTile t f s).ep = s.ep := rfl
@[simp] theorem modTile_sad (t : Nat) (f : Tile → Tile) (s : State) : (modTile t f s).sad = s.sad := rfl
@[simp] theorem modTile_cairn (t : Nat) (f : Tile → Tile) (s : State) : (modTile t f s).cairn = s.cairn := rfl
@[simp] theorem modTile_relay (t : Nat) (f : Tile → Tile) (s : State) : (modTile t f s).relay = s.relay := rfl
@[simp] theorem modTile_rope (t : Nat) (f : Tile → Tile) (s : State) : (modTile t f s).rope = s.rope := rfl
@[simp] theorem modTile_therm (t : Nat) (f : Tile → Tile) (s : State) : (modTile t f s).therm = s.therm := rfl
@[simp] theorem modTile_boot (t : Nat) (f : Tile → Tile) (s : State) : (modTile t f s).boot = s.boot := rfl
@[simp] theorem modTile_survey (t : Nat) (f : Tile → Tile) (s : State) : (modTile t f s).survey = s.survey := rfl
@[simp] theorem modTile_keeper (t : Nat) (f : Tile → Tile) (s : State) : (modTile t f s).keeper = s.keeper := rfl
@[simp] theorem modTile_freeCtr (t : Nat) (f : Tile → Tile) (s : State) : (modTile t f s).freeCtr = s.freeCtr := rfl
@[simp] theorem modTile_timeRef (t : Nat) (f : Tile → Tile) (s : State) : (modTile t f s).timeRef = s.timeRef := rfl

/-! ### modLine -/

@[simp] theorem modLine_pending (k : Nat) (f : Line → Line) (s : State) : (modLine k f s).pending = s.pending := rfl
@[simp] theorem modLine_mainUp (k : Nat) (f : Line → Line) (s : State) : (modLine k f s).mainUp = s.mainUp := rfl
@[simp] theorem modLine_health (k : Nat) (f : Line → Line) (s : State) : (modLine k f s).health = s.health := rfl
@[simp] theorem modLine_ports (k : Nat) (f : Line → Line) (s : State) : (modLine k f s).ports = s.ports := rfl
@[simp] theorem modLine_gate (k : Nat) (f : Line → Line) (s : State) : (modLine k f s).gate = s.gate := rfl
@[simp] theorem modLine_planner (k : Nat) (f : Line → Line) (s : State) : (modLine k f s).planner = s.planner := rfl
@[simp] theorem modLine_chans (k : Nat) (f : Line → Line) (s : State) : (modLine k f s).chans = s.chans := rfl
@[simp] theorem modLine_sealCtl (k : Nat) (f : Line → Line) (s : State) : (modLine k f s).sealCtl = s.sealCtl := rfl
@[simp] theorem modLine_tree (k : Nat) (f : Line → Line) (s : State) : (modLine k f s).tree = s.tree := rfl
@[simp] theorem modLine_travs (k : Nat) (f : Line → Line) (s : State) : (modLine k f s).travs = s.travs := rfl
@[simp] theorem modLine_way (k : Nat) (f : Line → Line) (s : State) : (modLine k f s).way = s.way := rfl
@[simp] theorem modLine_medium (k : Nat) (f : Line → Line) (s : State) : (modLine k f s).medium = s.medium := rfl
@[simp] theorem modLine_belay (k : Nat) (f : Line → Line) (s : State) : (modLine k f s).belay = s.belay := rfl
@[simp] theorem modLine_reck (k : Nat) (f : Line → Line) (s : State) : (modLine k f s).reck = s.reck := rfl
@[simp] theorem modLine_mctp (k : Nat) (f : Line → Line) (s : State) : (modLine k f s).mctp = s.mctp := rfl
@[simp] theorem modLine_ep (k : Nat) (f : Line → Line) (s : State) : (modLine k f s).ep = s.ep := rfl
@[simp] theorem modLine_sad (k : Nat) (f : Line → Line) (s : State) : (modLine k f s).sad = s.sad := rfl
@[simp] theorem modLine_cairn (k : Nat) (f : Line → Line) (s : State) : (modLine k f s).cairn = s.cairn := rfl
@[simp] theorem modLine_relay (k : Nat) (f : Line → Line) (s : State) : (modLine k f s).relay = s.relay := rfl
@[simp] theorem modLine_rope (k : Nat) (f : Line → Line) (s : State) : (modLine k f s).rope = s.rope := rfl
@[simp] theorem modLine_therm (k : Nat) (f : Line → Line) (s : State) : (modLine k f s).therm = s.therm := rfl
@[simp] theorem modLine_boot (k : Nat) (f : Line → Line) (s : State) : (modLine k f s).boot = s.boot := rfl
@[simp] theorem modLine_survey (k : Nat) (f : Line → Line) (s : State) : (modLine k f s).survey = s.survey := rfl
@[simp] theorem modLine_keeper (k : Nat) (f : Line → Line) (s : State) : (modLine k f s).keeper = s.keeper := rfl
@[simp] theorem modLine_freeCtr (k : Nat) (f : Line → Line) (s : State) : (modLine k f s).freeCtr = s.freeCtr := rfl
@[simp] theorem modLine_timeRef (k : Nat) (f : Line → Line) (s : State) : (modLine k f s).timeRef = s.timeRef := rfl

/-! ### modCtx -/

@[simp] theorem modCtx_pending (p : Path) (f : Mailbox → Mailbox) (s : State) : (modCtx p f s).pending = s.pending := by cases p <;> rfl
@[simp] theorem modCtx_mainUp (p : Path) (f : Mailbox → Mailbox) (s : State) : (modCtx p f s).mainUp = s.mainUp := by cases p <;> rfl
@[simp] theorem modCtx_health (p : Path) (f : Mailbox → Mailbox) (s : State) : (modCtx p f s).health = s.health := by cases p <;> rfl
@[simp] theorem modCtx_gate (p : Path) (f : Mailbox → Mailbox) (s : State) : (modCtx p f s).gate = s.gate := by cases p <;> rfl
@[simp] theorem modCtx_planner (p : Path) (f : Mailbox → Mailbox) (s : State) : (modCtx p f s).planner = s.planner := by cases p <;> rfl
@[simp] theorem modCtx_chans (p : Path) (f : Mailbox → Mailbox) (s : State) : (modCtx p f s).chans = s.chans := by cases p <;> rfl
@[simp] theorem modCtx_cache (p : Path) (f : Mailbox → Mailbox) (s : State) : (modCtx p f s).cache = s.cache := by cases p <;> rfl
@[simp] theorem modCtx_sealCtl (p : Path) (f : Mailbox → Mailbox) (s : State) : (modCtx p f s).sealCtl = s.sealCtl := by cases p <;> rfl
@[simp] theorem modCtx_tree (p : Path) (f : Mailbox → Mailbox) (s : State) : (modCtx p f s).tree = s.tree := by cases p <;> rfl
@[simp] theorem modCtx_travs (p : Path) (f : Mailbox → Mailbox) (s : State) : (modCtx p f s).travs = s.travs := by cases p <;> rfl
@[simp] theorem modCtx_way (p : Path) (f : Mailbox → Mailbox) (s : State) : (modCtx p f s).way = s.way := by cases p <;> rfl
@[simp] theorem modCtx_medium (p : Path) (f : Mailbox → Mailbox) (s : State) : (modCtx p f s).medium = s.medium := by cases p <;> rfl
@[simp] theorem modCtx_belay (p : Path) (f : Mailbox → Mailbox) (s : State) : (modCtx p f s).belay = s.belay := by cases p <;> rfl
@[simp] theorem modCtx_reck (p : Path) (f : Mailbox → Mailbox) (s : State) : (modCtx p f s).reck = s.reck := by cases p <;> rfl
@[simp] theorem modCtx_ep (p : Path) (f : Mailbox → Mailbox) (s : State) : (modCtx p f s).ep = s.ep := by cases p <;> rfl
@[simp] theorem modCtx_sad (p : Path) (f : Mailbox → Mailbox) (s : State) : (modCtx p f s).sad = s.sad := by cases p <;> rfl
@[simp] theorem modCtx_cairn (p : Path) (f : Mailbox → Mailbox) (s : State) : (modCtx p f s).cairn = s.cairn := by cases p <;> rfl
@[simp] theorem modCtx_relay (p : Path) (f : Mailbox → Mailbox) (s : State) : (modCtx p f s).relay = s.relay := by cases p <;> rfl
@[simp] theorem modCtx_rope (p : Path) (f : Mailbox → Mailbox) (s : State) : (modCtx p f s).rope = s.rope := by cases p <;> rfl
@[simp] theorem modCtx_therm (p : Path) (f : Mailbox → Mailbox) (s : State) : (modCtx p f s).therm = s.therm := by cases p <;> rfl
@[simp] theorem modCtx_boot (p : Path) (f : Mailbox → Mailbox) (s : State) : (modCtx p f s).boot = s.boot := by cases p <;> rfl
@[simp] theorem modCtx_survey (p : Path) (f : Mailbox → Mailbox) (s : State) : (modCtx p f s).survey = s.survey := by cases p <;> rfl
@[simp] theorem modCtx_keeper (p : Path) (f : Mailbox → Mailbox) (s : State) : (modCtx p f s).keeper = s.keeper := by cases p <;> rfl
@[simp] theorem modCtx_freeCtr (p : Path) (f : Mailbox → Mailbox) (s : State) : (modCtx p f s).freeCtr = s.freeCtr := by cases p <;> rfl
@[simp] theorem modCtx_timeRef (p : Path) (f : Mailbox → Mailbox) (s : State) : (modCtx p f s).timeRef = s.timeRef := by cases p <;> rfl

/-! ### bump -/

@[simp] theorem bump_pending (code par n : Nat) (s : State) : (bump code par n s).pending = s.pending := rfl
@[simp] theorem bump_mainUp (code par n : Nat) (s : State) : (bump code par n s).mainUp = s.mainUp := rfl
@[simp] theorem bump_health (code par n : Nat) (s : State) : (bump code par n s).health = s.health := rfl
@[simp] theorem bump_ports (code par n : Nat) (s : State) : (bump code par n s).ports = s.ports := rfl
@[simp] theorem bump_gate (code par n : Nat) (s : State) : (bump code par n s).gate = s.gate := rfl
@[simp] theorem bump_planner (code par n : Nat) (s : State) : (bump code par n s).planner = s.planner := rfl
@[simp] theorem bump_chans (code par n : Nat) (s : State) : (bump code par n s).chans = s.chans := rfl
@[simp] theorem bump_cache (code par n : Nat) (s : State) : (bump code par n s).cache = s.cache := rfl
@[simp] theorem bump_sealCtl (code par n : Nat) (s : State) : (bump code par n s).sealCtl = s.sealCtl := rfl
@[simp] theorem bump_tree (code par n : Nat) (s : State) : (bump code par n s).tree = s.tree := rfl
@[simp] theorem bump_travs (code par n : Nat) (s : State) : (bump code par n s).travs = s.travs := rfl
@[simp] theorem bump_way (code par n : Nat) (s : State) : (bump code par n s).way = s.way := rfl
@[simp] theorem bump_medium (code par n : Nat) (s : State) : (bump code par n s).medium = s.medium := rfl
@[simp] theorem bump_belay (code par n : Nat) (s : State) : (bump code par n s).belay = s.belay := rfl
@[simp] theorem bump_mctp (code par n : Nat) (s : State) : (bump code par n s).mctp = s.mctp := rfl
@[simp] theorem bump_ep (code par n : Nat) (s : State) : (bump code par n s).ep = s.ep := rfl
@[simp] theorem bump_sad (code par n : Nat) (s : State) : (bump code par n s).sad = s.sad := rfl
@[simp] theorem bump_cairn (code par n : Nat) (s : State) : (bump code par n s).cairn = s.cairn := rfl
@[simp] theorem bump_relay (code par n : Nat) (s : State) : (bump code par n s).relay = s.relay := rfl
@[simp] theorem bump_rope (code par n : Nat) (s : State) : (bump code par n s).rope = s.rope := rfl
@[simp] theorem bump_therm (code par n : Nat) (s : State) : (bump code par n s).therm = s.therm := rfl
@[simp] theorem bump_boot (code par n : Nat) (s : State) : (bump code par n s).boot = s.boot := rfl
@[simp] theorem bump_survey (code par n : Nat) (s : State) : (bump code par n s).survey = s.survey := rfl
@[simp] theorem bump_keeper (code par n : Nat) (s : State) : (bump code par n s).keeper = s.keeper := rfl
@[simp] theorem bump_freeCtr (code par n : Nat) (s : State) : (bump code par n s).freeCtr = s.freeCtr := rfl
@[simp] theorem bump_timeRef (code par n : Nat) (s : State) : (bump code par n s).timeRef = s.timeRef := rfl

/-! ### bumpMax -/

@[simp] theorem bumpMax_pending (code par n : Nat) (s : State) : (bumpMax code par n s).pending = s.pending := rfl
@[simp] theorem bumpMax_mainUp (code par n : Nat) (s : State) : (bumpMax code par n s).mainUp = s.mainUp := rfl
@[simp] theorem bumpMax_health (code par n : Nat) (s : State) : (bumpMax code par n s).health = s.health := rfl
@[simp] theorem bumpMax_ports (code par n : Nat) (s : State) : (bumpMax code par n s).ports = s.ports := rfl
@[simp] theorem bumpMax_gate (code par n : Nat) (s : State) : (bumpMax code par n s).gate = s.gate := rfl
@[simp] theorem bumpMax_planner (code par n : Nat) (s : State) : (bumpMax code par n s).planner = s.planner := rfl
@[simp] theorem bumpMax_chans (code par n : Nat) (s : State) : (bumpMax code par n s).chans = s.chans := rfl
@[simp] theorem bumpMax_cache (code par n : Nat) (s : State) : (bumpMax code par n s).cache = s.cache := rfl
@[simp] theorem bumpMax_sealCtl (code par n : Nat) (s : State) : (bumpMax code par n s).sealCtl = s.sealCtl := rfl
@[simp] theorem bumpMax_tree (code par n : Nat) (s : State) : (bumpMax code par n s).tree = s.tree := rfl
@[simp] theorem bumpMax_travs (code par n : Nat) (s : State) : (bumpMax code par n s).travs = s.travs := rfl
@[simp] theorem bumpMax_way (code par n : Nat) (s : State) : (bumpMax code par n s).way = s.way := rfl
@[simp] theorem bumpMax_medium (code par n : Nat) (s : State) : (bumpMax code par n s).medium = s.medium := rfl
@[simp] theorem bumpMax_belay (code par n : Nat) (s : State) : (bumpMax code par n s).belay = s.belay := rfl
@[simp] theorem bumpMax_mctp (code par n : Nat) (s : State) : (bumpMax code par n s).mctp = s.mctp := rfl
@[simp] theorem bumpMax_ep (code par n : Nat) (s : State) : (bumpMax code par n s).ep = s.ep := rfl
@[simp] theorem bumpMax_sad (code par n : Nat) (s : State) : (bumpMax code par n s).sad = s.sad := rfl
@[simp] theorem bumpMax_cairn (code par n : Nat) (s : State) : (bumpMax code par n s).cairn = s.cairn := rfl
@[simp] theorem bumpMax_relay (code par n : Nat) (s : State) : (bumpMax code par n s).relay = s.relay := rfl
@[simp] theorem bumpMax_rope (code par n : Nat) (s : State) : (bumpMax code par n s).rope = s.rope := rfl
@[simp] theorem bumpMax_therm (code par n : Nat) (s : State) : (bumpMax code par n s).therm = s.therm := rfl
@[simp] theorem bumpMax_boot (code par n : Nat) (s : State) : (bumpMax code par n s).boot = s.boot := rfl
@[simp] theorem bumpMax_survey (code par n : Nat) (s : State) : (bumpMax code par n s).survey = s.survey := rfl
@[simp] theorem bumpMax_keeper (code par n : Nat) (s : State) : (bumpMax code par n s).keeper = s.keeper := rfl
@[simp] theorem bumpMax_freeCtr (code par n : Nat) (s : State) : (bumpMax code par n s).freeCtr = s.freeCtr := rfl
@[simp] theorem bumpMax_timeRef (code par n : Nat) (s : State) : (bumpMax code par n s).timeRef = s.timeRef := rfl

/-! ### bumpMin -/

@[simp] theorem bumpMin_pending (code par n : Nat) (s : State) : (bumpMin code par n s).pending = s.pending := rfl
@[simp] theorem bumpMin_mainUp (code par n : Nat) (s : State) : (bumpMin code par n s).mainUp = s.mainUp := rfl
@[simp] theorem bumpMin_health (code par n : Nat) (s : State) : (bumpMin code par n s).health = s.health := rfl
@[simp] theorem bumpMin_ports (code par n : Nat) (s : State) : (bumpMin code par n s).ports = s.ports := rfl
@[simp] theorem bumpMin_gate (code par n : Nat) (s : State) : (bumpMin code par n s).gate = s.gate := rfl
@[simp] theorem bumpMin_planner (code par n : Nat) (s : State) : (bumpMin code par n s).planner = s.planner := rfl
@[simp] theorem bumpMin_chans (code par n : Nat) (s : State) : (bumpMin code par n s).chans = s.chans := rfl
@[simp] theorem bumpMin_cache (code par n : Nat) (s : State) : (bumpMin code par n s).cache = s.cache := rfl
@[simp] theorem bumpMin_sealCtl (code par n : Nat) (s : State) : (bumpMin code par n s).sealCtl = s.sealCtl := rfl
@[simp] theorem bumpMin_tree (code par n : Nat) (s : State) : (bumpMin code par n s).tree = s.tree := rfl
@[simp] theorem bumpMin_travs (code par n : Nat) (s : State) : (bumpMin code par n s).travs = s.travs := rfl
@[simp] theorem bumpMin_way (code par n : Nat) (s : State) : (bumpMin code par n s).way = s.way := rfl
@[simp] theorem bumpMin_medium (code par n : Nat) (s : State) : (bumpMin code par n s).medium = s.medium := rfl
@[simp] theorem bumpMin_belay (code par n : Nat) (s : State) : (bumpMin code par n s).belay = s.belay := rfl
@[simp] theorem bumpMin_mctp (code par n : Nat) (s : State) : (bumpMin code par n s).mctp = s.mctp := rfl
@[simp] theorem bumpMin_ep (code par n : Nat) (s : State) : (bumpMin code par n s).ep = s.ep := rfl
@[simp] theorem bumpMin_sad (code par n : Nat) (s : State) : (bumpMin code par n s).sad = s.sad := rfl
@[simp] theorem bumpMin_cairn (code par n : Nat) (s : State) : (bumpMin code par n s).cairn = s.cairn := rfl
@[simp] theorem bumpMin_relay (code par n : Nat) (s : State) : (bumpMin code par n s).relay = s.relay := rfl
@[simp] theorem bumpMin_rope (code par n : Nat) (s : State) : (bumpMin code par n s).rope = s.rope := rfl
@[simp] theorem bumpMin_therm (code par n : Nat) (s : State) : (bumpMin code par n s).therm = s.therm := rfl
@[simp] theorem bumpMin_boot (code par n : Nat) (s : State) : (bumpMin code par n s).boot = s.boot := rfl
@[simp] theorem bumpMin_survey (code par n : Nat) (s : State) : (bumpMin code par n s).survey = s.survey := rfl
@[simp] theorem bumpMin_keeper (code par n : Nat) (s : State) : (bumpMin code par n s).keeper = s.keeper := rfl
@[simp] theorem bumpMin_freeCtr (code par n : Nat) (s : State) : (bumpMin code par n s).freeCtr = s.freeCtr := rfl
@[simp] theorem bumpMin_timeRef (code par n : Nat) (s : State) : (bumpMin code par n s).timeRef = s.timeRef := rfl

/-! ### bumpSet -/

@[simp] theorem bumpSet_pending (code par : Nat) (f : Nat → Nat) (s : State) : (bumpSet code par f s).pending = s.pending := rfl
@[simp] theorem bumpSet_mainUp (code par : Nat) (f : Nat → Nat) (s : State) : (bumpSet code par f s).mainUp = s.mainUp := rfl
@[simp] theorem bumpSet_health (code par : Nat) (f : Nat → Nat) (s : State) : (bumpSet code par f s).health = s.health := rfl
@[simp] theorem bumpSet_ports (code par : Nat) (f : Nat → Nat) (s : State) : (bumpSet code par f s).ports = s.ports := rfl
@[simp] theorem bumpSet_gate (code par : Nat) (f : Nat → Nat) (s : State) : (bumpSet code par f s).gate = s.gate := rfl
@[simp] theorem bumpSet_planner (code par : Nat) (f : Nat → Nat) (s : State) : (bumpSet code par f s).planner = s.planner := rfl
@[simp] theorem bumpSet_chans (code par : Nat) (f : Nat → Nat) (s : State) : (bumpSet code par f s).chans = s.chans := rfl
@[simp] theorem bumpSet_cache (code par : Nat) (f : Nat → Nat) (s : State) : (bumpSet code par f s).cache = s.cache := rfl
@[simp] theorem bumpSet_sealCtl (code par : Nat) (f : Nat → Nat) (s : State) : (bumpSet code par f s).sealCtl = s.sealCtl := rfl
@[simp] theorem bumpSet_tree (code par : Nat) (f : Nat → Nat) (s : State) : (bumpSet code par f s).tree = s.tree := rfl
@[simp] theorem bumpSet_travs (code par : Nat) (f : Nat → Nat) (s : State) : (bumpSet code par f s).travs = s.travs := rfl
@[simp] theorem bumpSet_way (code par : Nat) (f : Nat → Nat) (s : State) : (bumpSet code par f s).way = s.way := rfl
@[simp] theorem bumpSet_medium (code par : Nat) (f : Nat → Nat) (s : State) : (bumpSet code par f s).medium = s.medium := rfl
@[simp] theorem bumpSet_belay (code par : Nat) (f : Nat → Nat) (s : State) : (bumpSet code par f s).belay = s.belay := rfl
@[simp] theorem bumpSet_mctp (code par : Nat) (f : Nat → Nat) (s : State) : (bumpSet code par f s).mctp = s.mctp := rfl
@[simp] theorem bumpSet_ep (code par : Nat) (f : Nat → Nat) (s : State) : (bumpSet code par f s).ep = s.ep := rfl
@[simp] theorem bumpSet_sad (code par : Nat) (f : Nat → Nat) (s : State) : (bumpSet code par f s).sad = s.sad := rfl
@[simp] theorem bumpSet_cairn (code par : Nat) (f : Nat → Nat) (s : State) : (bumpSet code par f s).cairn = s.cairn := rfl
@[simp] theorem bumpSet_relay (code par : Nat) (f : Nat → Nat) (s : State) : (bumpSet code par f s).relay = s.relay := rfl
@[simp] theorem bumpSet_rope (code par : Nat) (f : Nat → Nat) (s : State) : (bumpSet code par f s).rope = s.rope := rfl
@[simp] theorem bumpSet_therm (code par : Nat) (f : Nat → Nat) (s : State) : (bumpSet code par f s).therm = s.therm := rfl
@[simp] theorem bumpSet_boot (code par : Nat) (f : Nat → Nat) (s : State) : (bumpSet code par f s).boot = s.boot := rfl
@[simp] theorem bumpSet_survey (code par : Nat) (f : Nat → Nat) (s : State) : (bumpSet code par f s).survey = s.survey := rfl
@[simp] theorem bumpSet_keeper (code par : Nat) (f : Nat → Nat) (s : State) : (bumpSet code par f s).keeper = s.keeper := rfl
@[simp] theorem bumpSet_freeCtr (code par : Nat) (f : Nat → Nat) (s : State) : (bumpSet code par f s).freeCtr = s.freeCtr := rfl
@[simp] theorem bumpSet_timeRef (code par : Nat) (f : Nat → Nat) (s : State) : (bumpSet code par f s).timeRef = s.timeRef := rfl

/-! ### bumpChN -/

@[simp] theorem bumpChN_pending (code ch n : Nat) (s : State) : (bumpChN code ch n s).pending = s.pending := rfl
@[simp] theorem bumpChN_mainUp (code ch n : Nat) (s : State) : (bumpChN code ch n s).mainUp = s.mainUp := rfl
@[simp] theorem bumpChN_health (code ch n : Nat) (s : State) : (bumpChN code ch n s).health = s.health := rfl
@[simp] theorem bumpChN_ports (code ch n : Nat) (s : State) : (bumpChN code ch n s).ports = s.ports := rfl
@[simp] theorem bumpChN_gate (code ch n : Nat) (s : State) : (bumpChN code ch n s).gate = s.gate := rfl
@[simp] theorem bumpChN_planner (code ch n : Nat) (s : State) : (bumpChN code ch n s).planner = s.planner := rfl
@[simp] theorem bumpChN_chans (code ch n : Nat) (s : State) : (bumpChN code ch n s).chans = s.chans := rfl
@[simp] theorem bumpChN_cache (code ch n : Nat) (s : State) : (bumpChN code ch n s).cache = s.cache := rfl
@[simp] theorem bumpChN_sealCtl (code ch n : Nat) (s : State) : (bumpChN code ch n s).sealCtl = s.sealCtl := rfl
@[simp] theorem bumpChN_tree (code ch n : Nat) (s : State) : (bumpChN code ch n s).tree = s.tree := rfl
@[simp] theorem bumpChN_travs (code ch n : Nat) (s : State) : (bumpChN code ch n s).travs = s.travs := rfl
@[simp] theorem bumpChN_way (code ch n : Nat) (s : State) : (bumpChN code ch n s).way = s.way := rfl
@[simp] theorem bumpChN_medium (code ch n : Nat) (s : State) : (bumpChN code ch n s).medium = s.medium := rfl
@[simp] theorem bumpChN_belay (code ch n : Nat) (s : State) : (bumpChN code ch n s).belay = s.belay := rfl
@[simp] theorem bumpChN_mctp (code ch n : Nat) (s : State) : (bumpChN code ch n s).mctp = s.mctp := rfl
@[simp] theorem bumpChN_ep (code ch n : Nat) (s : State) : (bumpChN code ch n s).ep = s.ep := rfl
@[simp] theorem bumpChN_sad (code ch n : Nat) (s : State) : (bumpChN code ch n s).sad = s.sad := rfl
@[simp] theorem bumpChN_cairn (code ch n : Nat) (s : State) : (bumpChN code ch n s).cairn = s.cairn := rfl
@[simp] theorem bumpChN_relay (code ch n : Nat) (s : State) : (bumpChN code ch n s).relay = s.relay := rfl
@[simp] theorem bumpChN_rope (code ch n : Nat) (s : State) : (bumpChN code ch n s).rope = s.rope := rfl
@[simp] theorem bumpChN_therm (code ch n : Nat) (s : State) : (bumpChN code ch n s).therm = s.therm := rfl
@[simp] theorem bumpChN_boot (code ch n : Nat) (s : State) : (bumpChN code ch n s).boot = s.boot := rfl
@[simp] theorem bumpChN_survey (code ch n : Nat) (s : State) : (bumpChN code ch n s).survey = s.survey := rfl
@[simp] theorem bumpChN_keeper (code ch n : Nat) (s : State) : (bumpChN code ch n s).keeper = s.keeper := rfl
@[simp] theorem bumpChN_freeCtr (code ch n : Nat) (s : State) : (bumpChN code ch n s).freeCtr = s.freeCtr := rfl
@[simp] theorem bumpChN_timeRef (code ch n : Nat) (s : State) : (bumpChN code ch n s).timeRef = s.timeRef := rfl

/-! ### emitN -/

@[simp] theorem emitN_pending (b : Bool) (code inst p q r d : Nat) (s : State) : (emitN b code inst p q r d s).pending = s.pending := by unfold emitN; split <;> rfl
@[simp] theorem emitN_mainUp (b : Bool) (code inst p q r d : Nat) (s : State) : (emitN b code inst p q r d s).mainUp = s.mainUp := by unfold emitN; split <;> rfl
@[simp] theorem emitN_health (b : Bool) (code inst p q r d : Nat) (s : State) : (emitN b code inst p q r d s).health = s.health := by unfold emitN; split <;> rfl
@[simp] theorem emitN_ports (b : Bool) (code inst p q r d : Nat) (s : State) : (emitN b code inst p q r d s).ports = s.ports := by unfold emitN; split <;> rfl
@[simp] theorem emitN_gate (b : Bool) (code inst p q r d : Nat) (s : State) : (emitN b code inst p q r d s).gate = s.gate := by unfold emitN; split <;> rfl
@[simp] theorem emitN_planner (b : Bool) (code inst p q r d : Nat) (s : State) : (emitN b code inst p q r d s).planner = s.planner := by unfold emitN; split <;> rfl
@[simp] theorem emitN_chans (b : Bool) (code inst p q r d : Nat) (s : State) : (emitN b code inst p q r d s).chans = s.chans := by unfold emitN; split <;> rfl
@[simp] theorem emitN_cache (b : Bool) (code inst p q r d : Nat) (s : State) : (emitN b code inst p q r d s).cache = s.cache := by unfold emitN; split <;> rfl
@[simp] theorem emitN_sealCtl (b : Bool) (code inst p q r d : Nat) (s : State) : (emitN b code inst p q r d s).sealCtl = s.sealCtl := by unfold emitN; split <;> rfl
@[simp] theorem emitN_tree (b : Bool) (code inst p q r d : Nat) (s : State) : (emitN b code inst p q r d s).tree = s.tree := by unfold emitN; split <;> rfl
@[simp] theorem emitN_travs (b : Bool) (code inst p q r d : Nat) (s : State) : (emitN b code inst p q r d s).travs = s.travs := by unfold emitN; split <;> rfl
@[simp] theorem emitN_way (b : Bool) (code inst p q r d : Nat) (s : State) : (emitN b code inst p q r d s).way = s.way := by unfold emitN; split <;> rfl
@[simp] theorem emitN_medium (b : Bool) (code inst p q r d : Nat) (s : State) : (emitN b code inst p q r d s).medium = s.medium := by unfold emitN; split <;> rfl
@[simp] theorem emitN_belay (b : Bool) (code inst p q r d : Nat) (s : State) : (emitN b code inst p q r d s).belay = s.belay := by unfold emitN; split <;> rfl
@[simp] theorem emitN_reck (b : Bool) (code inst p q r d : Nat) (s : State) : (emitN b code inst p q r d s).reck = s.reck := by unfold emitN; split <;> rfl
@[simp] theorem emitN_mctp (b : Bool) (code inst p q r d : Nat) (s : State) : (emitN b code inst p q r d s).mctp = s.mctp := by unfold emitN; split <;> rfl
@[simp] theorem emitN_ep (b : Bool) (code inst p q r d : Nat) (s : State) : (emitN b code inst p q r d s).ep = s.ep := by unfold emitN; split <;> rfl
@[simp] theorem emitN_sad (b : Bool) (code inst p q r d : Nat) (s : State) : (emitN b code inst p q r d s).sad = s.sad := by unfold emitN; split <;> rfl
@[simp] theorem emitN_rope (b : Bool) (code inst p q r d : Nat) (s : State) : (emitN b code inst p q r d s).rope = s.rope := by unfold emitN; split <;> rfl
@[simp] theorem emitN_therm (b : Bool) (code inst p q r d : Nat) (s : State) : (emitN b code inst p q r d s).therm = s.therm := by unfold emitN; split <;> rfl
@[simp] theorem emitN_boot (b : Bool) (code inst p q r d : Nat) (s : State) : (emitN b code inst p q r d s).boot = s.boot := by unfold emitN; split <;> rfl
@[simp] theorem emitN_survey (b : Bool) (code inst p q r d : Nat) (s : State) : (emitN b code inst p q r d s).survey = s.survey := by unfold emitN; split <;> rfl
@[simp] theorem emitN_keeper (b : Bool) (code inst p q r d : Nat) (s : State) : (emitN b code inst p q r d s).keeper = s.keeper := by unfold emitN; split <;> rfl
@[simp] theorem emitN_freeCtr (b : Bool) (code inst p q r d : Nat) (s : State) : (emitN b code inst p q r d s).freeCtr = s.freeCtr := by unfold emitN; split <;> rfl
@[simp] theorem emitN_timeRef (b : Bool) (code inst p q r d : Nat) (s : State) : (emitN b code inst p q r d s).timeRef = s.timeRef := by unfold emitN; split <;> rfl

/-! ### emit -/

@[simp] theorem emit_pending (code inst p q r d : Nat) (s : State) : (emit code inst p q r d s).pending = s.pending := emitN_pending ..
@[simp] theorem emit_mainUp (code inst p q r d : Nat) (s : State) : (emit code inst p q r d s).mainUp = s.mainUp := emitN_mainUp ..
@[simp] theorem emit_health (code inst p q r d : Nat) (s : State) : (emit code inst p q r d s).health = s.health := emitN_health ..
@[simp] theorem emit_ports (code inst p q r d : Nat) (s : State) : (emit code inst p q r d s).ports = s.ports := emitN_ports ..
@[simp] theorem emit_gate (code inst p q r d : Nat) (s : State) : (emit code inst p q r d s).gate = s.gate := emitN_gate ..
@[simp] theorem emit_planner (code inst p q r d : Nat) (s : State) : (emit code inst p q r d s).planner = s.planner := emitN_planner ..
@[simp] theorem emit_chans (code inst p q r d : Nat) (s : State) : (emit code inst p q r d s).chans = s.chans := emitN_chans ..
@[simp] theorem emit_cache (code inst p q r d : Nat) (s : State) : (emit code inst p q r d s).cache = s.cache := emitN_cache ..
@[simp] theorem emit_sealCtl (code inst p q r d : Nat) (s : State) : (emit code inst p q r d s).sealCtl = s.sealCtl := emitN_sealCtl ..
@[simp] theorem emit_tree (code inst p q r d : Nat) (s : State) : (emit code inst p q r d s).tree = s.tree := emitN_tree ..
@[simp] theorem emit_travs (code inst p q r d : Nat) (s : State) : (emit code inst p q r d s).travs = s.travs := emitN_travs ..
@[simp] theorem emit_way (code inst p q r d : Nat) (s : State) : (emit code inst p q r d s).way = s.way := emitN_way ..
@[simp] theorem emit_medium (code inst p q r d : Nat) (s : State) : (emit code inst p q r d s).medium = s.medium := emitN_medium ..
@[simp] theorem emit_belay (code inst p q r d : Nat) (s : State) : (emit code inst p q r d s).belay = s.belay := emitN_belay ..
@[simp] theorem emit_reck (code inst p q r d : Nat) (s : State) : (emit code inst p q r d s).reck = s.reck := emitN_reck ..
@[simp] theorem emit_mctp (code inst p q r d : Nat) (s : State) : (emit code inst p q r d s).mctp = s.mctp := emitN_mctp ..
@[simp] theorem emit_ep (code inst p q r d : Nat) (s : State) : (emit code inst p q r d s).ep = s.ep := emitN_ep ..
@[simp] theorem emit_sad (code inst p q r d : Nat) (s : State) : (emit code inst p q r d s).sad = s.sad := emitN_sad ..
@[simp] theorem emit_rope (code inst p q r d : Nat) (s : State) : (emit code inst p q r d s).rope = s.rope := emitN_rope ..
@[simp] theorem emit_therm (code inst p q r d : Nat) (s : State) : (emit code inst p q r d s).therm = s.therm := emitN_therm ..
@[simp] theorem emit_boot (code inst p q r d : Nat) (s : State) : (emit code inst p q r d s).boot = s.boot := emitN_boot ..
@[simp] theorem emit_survey (code inst p q r d : Nat) (s : State) : (emit code inst p q r d s).survey = s.survey := emitN_survey ..
@[simp] theorem emit_keeper (code inst p q r d : Nat) (s : State) : (emit code inst p q r d s).keeper = s.keeper := emitN_keeper ..
@[simp] theorem emit_freeCtr (code inst p q r d : Nat) (s : State) : (emit code inst p q r d s).freeCtr = s.freeCtr := emitN_freeCtr ..
@[simp] theorem emit_timeRef (code inst p q r d : Nat) (s : State) : (emit code inst p q r d s).timeRef = s.timeRef := emitN_timeRef ..

/-! ### postEvent -/

@[simp] theorem postEvent_pending (l : List Nat) (log : Nat) (e : EventRec) (s : State) : (postEvent l log e s).pending = s.pending := by unfold postEvent; split <;> rfl
@[simp] theorem postEvent_mainUp (l : List Nat) (log : Nat) (e : EventRec) (s : State) : (postEvent l log e s).mainUp = s.mainUp := by unfold postEvent; split <;> rfl
@[simp] theorem postEvent_health (l : List Nat) (log : Nat) (e : EventRec) (s : State) : (postEvent l log e s).health = s.health := by unfold postEvent; split <;> rfl
@[simp] theorem postEvent_ports (l : List Nat) (log : Nat) (e : EventRec) (s : State) : (postEvent l log e s).ports = s.ports := by unfold postEvent; split <;> rfl
@[simp] theorem postEvent_gate (l : List Nat) (log : Nat) (e : EventRec) (s : State) : (postEvent l log e s).gate = s.gate := by unfold postEvent; split <;> rfl
@[simp] theorem postEvent_planner (l : List Nat) (log : Nat) (e : EventRec) (s : State) : (postEvent l log e s).planner = s.planner := by unfold postEvent; split <;> rfl
@[simp] theorem postEvent_chans (l : List Nat) (log : Nat) (e : EventRec) (s : State) : (postEvent l log e s).chans = s.chans := by unfold postEvent; split <;> rfl
@[simp] theorem postEvent_cache (l : List Nat) (log : Nat) (e : EventRec) (s : State) : (postEvent l log e s).cache = s.cache := by unfold postEvent; split <;> rfl
@[simp] theorem postEvent_sealCtl (l : List Nat) (log : Nat) (e : EventRec) (s : State) : (postEvent l log e s).sealCtl = s.sealCtl := by unfold postEvent; split <;> rfl
@[simp] theorem postEvent_tree (l : List Nat) (log : Nat) (e : EventRec) (s : State) : (postEvent l log e s).tree = s.tree := by unfold postEvent; split <;> rfl
@[simp] theorem postEvent_travs (l : List Nat) (log : Nat) (e : EventRec) (s : State) : (postEvent l log e s).travs = s.travs := by unfold postEvent; split <;> rfl
@[simp] theorem postEvent_way (l : List Nat) (log : Nat) (e : EventRec) (s : State) : (postEvent l log e s).way = s.way := by unfold postEvent; split <;> rfl
@[simp] theorem postEvent_medium (l : List Nat) (log : Nat) (e : EventRec) (s : State) : (postEvent l log e s).medium = s.medium := by unfold postEvent; split <;> rfl
@[simp] theorem postEvent_belay (l : List Nat) (log : Nat) (e : EventRec) (s : State) : (postEvent l log e s).belay = s.belay := by unfold postEvent; split <;> rfl
@[simp] theorem postEvent_reck (l : List Nat) (log : Nat) (e : EventRec) (s : State) : (postEvent l log e s).reck = s.reck := by unfold postEvent; split <;> rfl
@[simp] theorem postEvent_mctp (l : List Nat) (log : Nat) (e : EventRec) (s : State) : (postEvent l log e s).mctp = s.mctp := by unfold postEvent; split <;> rfl
@[simp] theorem postEvent_ep (l : List Nat) (log : Nat) (e : EventRec) (s : State) : (postEvent l log e s).ep = s.ep := by unfold postEvent; split <;> rfl
@[simp] theorem postEvent_sad (l : List Nat) (log : Nat) (e : EventRec) (s : State) : (postEvent l log e s).sad = s.sad := by unfold postEvent; split <;> rfl
@[simp] theorem postEvent_cairn (l : List Nat) (log : Nat) (e : EventRec) (s : State) : (postEvent l log e s).cairn = s.cairn := by unfold postEvent; split <;> rfl
@[simp] theorem postEvent_rope (l : List Nat) (log : Nat) (e : EventRec) (s : State) : (postEvent l log e s).rope = s.rope := by unfold postEvent; split <;> rfl
@[simp] theorem postEvent_therm (l : List Nat) (log : Nat) (e : EventRec) (s : State) : (postEvent l log e s).therm = s.therm := by unfold postEvent; split <;> rfl
@[simp] theorem postEvent_boot (l : List Nat) (log : Nat) (e : EventRec) (s : State) : (postEvent l log e s).boot = s.boot := by unfold postEvent; split <;> rfl
@[simp] theorem postEvent_survey (l : List Nat) (log : Nat) (e : EventRec) (s : State) : (postEvent l log e s).survey = s.survey := by unfold postEvent; split <;> rfl
@[simp] theorem postEvent_keeper (l : List Nat) (log : Nat) (e : EventRec) (s : State) : (postEvent l log e s).keeper = s.keeper := by unfold postEvent; split <;> rfl
@[simp] theorem postEvent_freeCtr (l : List Nat) (log : Nat) (e : EventRec) (s : State) : (postEvent l log e s).freeCtr = s.freeCtr := by unfold postEvent; split <;> rfl
@[simp] theorem postEvent_timeRef (l : List Nat) (log : Nat) (e : EventRec) (s : State) : (postEvent l log e s).timeRef = s.timeRef := by unfold postEvent; split <;> rfl

/-! ### markRecs -/

@[simp] theorem markRecs_pending (ks : List Nat) (s : State) : (markRecs ks s).pending = s.pending := rfl
@[simp] theorem markRecs_mainUp (ks : List Nat) (s : State) : (markRecs ks s).mainUp = s.mainUp := rfl
@[simp] theorem markRecs_health (ks : List Nat) (s : State) : (markRecs ks s).health = s.health := rfl
@[simp] theorem markRecs_ports (ks : List Nat) (s : State) : (markRecs ks s).ports = s.ports := rfl
@[simp] theorem markRecs_gate (ks : List Nat) (s : State) : (markRecs ks s).gate = s.gate := rfl
@[simp] theorem markRecs_planner (ks : List Nat) (s : State) : (markRecs ks s).planner = s.planner := rfl
@[simp] theorem markRecs_chans (ks : List Nat) (s : State) : (markRecs ks s).chans = s.chans := rfl
@[simp] theorem markRecs_cache (ks : List Nat) (s : State) : (markRecs ks s).cache = s.cache := rfl
@[simp] theorem markRecs_sealCtl (ks : List Nat) (s : State) : (markRecs ks s).sealCtl = s.sealCtl := rfl
@[simp] theorem markRecs_tree (ks : List Nat) (s : State) : (markRecs ks s).tree = s.tree := rfl
@[simp] theorem markRecs_travs (ks : List Nat) (s : State) : (markRecs ks s).travs = s.travs := rfl
@[simp] theorem markRecs_way (ks : List Nat) (s : State) : (markRecs ks s).way = s.way := rfl
@[simp] theorem markRecs_medium (ks : List Nat) (s : State) : (markRecs ks s).medium = s.medium := rfl
@[simp] theorem markRecs_belay (ks : List Nat) (s : State) : (markRecs ks s).belay = s.belay := rfl
@[simp] theorem markRecs_reck (ks : List Nat) (s : State) : (markRecs ks s).reck = s.reck := rfl
@[simp] theorem markRecs_mctp (ks : List Nat) (s : State) : (markRecs ks s).mctp = s.mctp := rfl
@[simp] theorem markRecs_ep (ks : List Nat) (s : State) : (markRecs ks s).ep = s.ep := rfl
@[simp] theorem markRecs_cairn (ks : List Nat) (s : State) : (markRecs ks s).cairn = s.cairn := rfl
@[simp] theorem markRecs_relay (ks : List Nat) (s : State) : (markRecs ks s).relay = s.relay := rfl
@[simp] theorem markRecs_rope (ks : List Nat) (s : State) : (markRecs ks s).rope = s.rope := rfl
@[simp] theorem markRecs_therm (ks : List Nat) (s : State) : (markRecs ks s).therm = s.therm := rfl
@[simp] theorem markRecs_boot (ks : List Nat) (s : State) : (markRecs ks s).boot = s.boot := rfl
@[simp] theorem markRecs_survey (ks : List Nat) (s : State) : (markRecs ks s).survey = s.survey := rfl
@[simp] theorem markRecs_keeper (ks : List Nat) (s : State) : (markRecs ks s).keeper = s.keeper := rfl
@[simp] theorem markRecs_freeCtr (ks : List Nat) (s : State) : (markRecs ks s).freeCtr = s.freeCtr := rfl
@[simp] theorem markRecs_timeRef (ks : List Nat) (s : State) : (markRecs ks s).timeRef = s.timeRef := rfl

/-! ### modImg -/

@[simp] theorem modImg_pending (ks : List Nat) (f : SadImage → SadImage) (s : State) : (modImg ks f s).pending = s.pending := rfl
@[simp] theorem modImg_mainUp (ks : List Nat) (f : SadImage → SadImage) (s : State) : (modImg ks f s).mainUp = s.mainUp := rfl
@[simp] theorem modImg_health (ks : List Nat) (f : SadImage → SadImage) (s : State) : (modImg ks f s).health = s.health := rfl
@[simp] theorem modImg_ports (ks : List Nat) (f : SadImage → SadImage) (s : State) : (modImg ks f s).ports = s.ports := rfl
@[simp] theorem modImg_gate (ks : List Nat) (f : SadImage → SadImage) (s : State) : (modImg ks f s).gate = s.gate := rfl
@[simp] theorem modImg_planner (ks : List Nat) (f : SadImage → SadImage) (s : State) : (modImg ks f s).planner = s.planner := rfl
@[simp] theorem modImg_chans (ks : List Nat) (f : SadImage → SadImage) (s : State) : (modImg ks f s).chans = s.chans := rfl
@[simp] theorem modImg_cache (ks : List Nat) (f : SadImage → SadImage) (s : State) : (modImg ks f s).cache = s.cache := rfl
@[simp] theorem modImg_sealCtl (ks : List Nat) (f : SadImage → SadImage) (s : State) : (modImg ks f s).sealCtl = s.sealCtl := rfl
@[simp] theorem modImg_tree (ks : List Nat) (f : SadImage → SadImage) (s : State) : (modImg ks f s).tree = s.tree := rfl
@[simp] theorem modImg_travs (ks : List Nat) (f : SadImage → SadImage) (s : State) : (modImg ks f s).travs = s.travs := rfl
@[simp] theorem modImg_way (ks : List Nat) (f : SadImage → SadImage) (s : State) : (modImg ks f s).way = s.way := rfl
@[simp] theorem modImg_medium (ks : List Nat) (f : SadImage → SadImage) (s : State) : (modImg ks f s).medium = s.medium := rfl
@[simp] theorem modImg_belay (ks : List Nat) (f : SadImage → SadImage) (s : State) : (modImg ks f s).belay = s.belay := rfl
@[simp] theorem modImg_reck (ks : List Nat) (f : SadImage → SadImage) (s : State) : (modImg ks f s).reck = s.reck := rfl
@[simp] theorem modImg_mctp (ks : List Nat) (f : SadImage → SadImage) (s : State) : (modImg ks f s).mctp = s.mctp := rfl
@[simp] theorem modImg_ep (ks : List Nat) (f : SadImage → SadImage) (s : State) : (modImg ks f s).ep = s.ep := rfl
@[simp] theorem modImg_cairn (ks : List Nat) (f : SadImage → SadImage) (s : State) : (modImg ks f s).cairn = s.cairn := rfl
@[simp] theorem modImg_relay (ks : List Nat) (f : SadImage → SadImage) (s : State) : (modImg ks f s).relay = s.relay := rfl
@[simp] theorem modImg_rope (ks : List Nat) (f : SadImage → SadImage) (s : State) : (modImg ks f s).rope = s.rope := rfl
@[simp] theorem modImg_therm (ks : List Nat) (f : SadImage → SadImage) (s : State) : (modImg ks f s).therm = s.therm := rfl
@[simp] theorem modImg_boot (ks : List Nat) (f : SadImage → SadImage) (s : State) : (modImg ks f s).boot = s.boot := rfl
@[simp] theorem modImg_survey (ks : List Nat) (f : SadImage → SadImage) (s : State) : (modImg ks f s).survey = s.survey := rfl
@[simp] theorem modImg_keeper (ks : List Nat) (f : SadImage → SadImage) (s : State) : (modImg ks f s).keeper = s.keeper := rfl
@[simp] theorem modImg_freeCtr (ks : List Nat) (f : SadImage → SadImage) (s : State) : (modImg ks f s).freeCtr = s.freeCtr := rfl
@[simp] theorem modImg_timeRef (ks : List Nat) (f : SadImage → SadImage) (s : State) : (modImg ks f s).timeRef = s.timeRef := rfl

/-! ### meter -/

@[simp] theorem meter_pending (part : Nat) (f : Meter → Meter) (s : State) : (meter part f s).pending = s.pending := by unfold meter; split <;> rfl
@[simp] theorem meter_mainUp (part : Nat) (f : Meter → Meter) (s : State) : (meter part f s).mainUp = s.mainUp := by unfold meter; split <;> rfl
@[simp] theorem meter_health (part : Nat) (f : Meter → Meter) (s : State) : (meter part f s).health = s.health := by unfold meter; split <;> rfl
@[simp] theorem meter_ports (part : Nat) (f : Meter → Meter) (s : State) : (meter part f s).ports = s.ports := by unfold meter; split <;> rfl
@[simp] theorem meter_gate (part : Nat) (f : Meter → Meter) (s : State) : (meter part f s).gate = s.gate := by unfold meter; split <;> rfl
@[simp] theorem meter_planner (part : Nat) (f : Meter → Meter) (s : State) : (meter part f s).planner = s.planner := by unfold meter; split <;> rfl
@[simp] theorem meter_chans (part : Nat) (f : Meter → Meter) (s : State) : (meter part f s).chans = s.chans := by unfold meter; split <;> rfl
@[simp] theorem meter_cache (part : Nat) (f : Meter → Meter) (s : State) : (meter part f s).cache = s.cache := by unfold meter; split <;> rfl
@[simp] theorem meter_sealCtl (part : Nat) (f : Meter → Meter) (s : State) : (meter part f s).sealCtl = s.sealCtl := by unfold meter; split <;> rfl
@[simp] theorem meter_tree (part : Nat) (f : Meter → Meter) (s : State) : (meter part f s).tree = s.tree := by unfold meter; split <;> rfl
@[simp] theorem meter_travs (part : Nat) (f : Meter → Meter) (s : State) : (meter part f s).travs = s.travs := by unfold meter; split <;> rfl
@[simp] theorem meter_way (part : Nat) (f : Meter → Meter) (s : State) : (meter part f s).way = s.way := by unfold meter; split <;> rfl
@[simp] theorem meter_medium (part : Nat) (f : Meter → Meter) (s : State) : (meter part f s).medium = s.medium := by unfold meter; split <;> rfl
@[simp] theorem meter_belay (part : Nat) (f : Meter → Meter) (s : State) : (meter part f s).belay = s.belay := by unfold meter; split <;> rfl
@[simp] theorem meter_mctp (part : Nat) (f : Meter → Meter) (s : State) : (meter part f s).mctp = s.mctp := by unfold meter; split <;> rfl
@[simp] theorem meter_ep (part : Nat) (f : Meter → Meter) (s : State) : (meter part f s).ep = s.ep := by unfold meter; split <;> rfl
@[simp] theorem meter_sad (part : Nat) (f : Meter → Meter) (s : State) : (meter part f s).sad = s.sad := by unfold meter; split <;> rfl
@[simp] theorem meter_cairn (part : Nat) (f : Meter → Meter) (s : State) : (meter part f s).cairn = s.cairn := by unfold meter; split <;> rfl
@[simp] theorem meter_relay (part : Nat) (f : Meter → Meter) (s : State) : (meter part f s).relay = s.relay := by unfold meter; split <;> rfl
@[simp] theorem meter_rope (part : Nat) (f : Meter → Meter) (s : State) : (meter part f s).rope = s.rope := by unfold meter; split <;> rfl
@[simp] theorem meter_therm (part : Nat) (f : Meter → Meter) (s : State) : (meter part f s).therm = s.therm := by unfold meter; split <;> rfl
@[simp] theorem meter_boot (part : Nat) (f : Meter → Meter) (s : State) : (meter part f s).boot = s.boot := by unfold meter; split <;> rfl
@[simp] theorem meter_survey (part : Nat) (f : Meter → Meter) (s : State) : (meter part f s).survey = s.survey := by unfold meter; split <;> rfl
@[simp] theorem meter_keeper (part : Nat) (f : Meter → Meter) (s : State) : (meter part f s).keeper = s.keeper := by unfold meter; split <;> rfl
@[simp] theorem meter_freeCtr (part : Nat) (f : Meter → Meter) (s : State) : (meter part f s).freeCtr = s.freeCtr := by unfold meter; split <;> rfl
@[simp] theorem meter_timeRef (part : Nat) (f : Meter → Meter) (s : State) : (meter part f s).timeRef = s.timeRef := by unfold meter; split <;> rfl

/-! ### histAdd -/

@[simp] theorem histAdd_pending (key ns : Nat) (s : State) : (histAdd key ns s).pending = s.pending := rfl
@[simp] theorem histAdd_mainUp (key ns : Nat) (s : State) : (histAdd key ns s).mainUp = s.mainUp := rfl
@[simp] theorem histAdd_health (key ns : Nat) (s : State) : (histAdd key ns s).health = s.health := rfl
@[simp] theorem histAdd_ports (key ns : Nat) (s : State) : (histAdd key ns s).ports = s.ports := rfl
@[simp] theorem histAdd_gate (key ns : Nat) (s : State) : (histAdd key ns s).gate = s.gate := rfl
@[simp] theorem histAdd_planner (key ns : Nat) (s : State) : (histAdd key ns s).planner = s.planner := rfl
@[simp] theorem histAdd_chans (key ns : Nat) (s : State) : (histAdd key ns s).chans = s.chans := rfl
@[simp] theorem histAdd_cache (key ns : Nat) (s : State) : (histAdd key ns s).cache = s.cache := rfl
@[simp] theorem histAdd_sealCtl (key ns : Nat) (s : State) : (histAdd key ns s).sealCtl = s.sealCtl := rfl
@[simp] theorem histAdd_tree (key ns : Nat) (s : State) : (histAdd key ns s).tree = s.tree := rfl
@[simp] theorem histAdd_travs (key ns : Nat) (s : State) : (histAdd key ns s).travs = s.travs := rfl
@[simp] theorem histAdd_way (key ns : Nat) (s : State) : (histAdd key ns s).way = s.way := rfl
@[simp] theorem histAdd_medium (key ns : Nat) (s : State) : (histAdd key ns s).medium = s.medium := rfl
@[simp] theorem histAdd_belay (key ns : Nat) (s : State) : (histAdd key ns s).belay = s.belay := rfl
@[simp] theorem histAdd_mctp (key ns : Nat) (s : State) : (histAdd key ns s).mctp = s.mctp := rfl
@[simp] theorem histAdd_ep (key ns : Nat) (s : State) : (histAdd key ns s).ep = s.ep := rfl
@[simp] theorem histAdd_sad (key ns : Nat) (s : State) : (histAdd key ns s).sad = s.sad := rfl
@[simp] theorem histAdd_cairn (key ns : Nat) (s : State) : (histAdd key ns s).cairn = s.cairn := rfl
@[simp] theorem histAdd_relay (key ns : Nat) (s : State) : (histAdd key ns s).relay = s.relay := rfl
@[simp] theorem histAdd_rope (key ns : Nat) (s : State) : (histAdd key ns s).rope = s.rope := rfl
@[simp] theorem histAdd_therm (key ns : Nat) (s : State) : (histAdd key ns s).therm = s.therm := rfl
@[simp] theorem histAdd_boot (key ns : Nat) (s : State) : (histAdd key ns s).boot = s.boot := rfl
@[simp] theorem histAdd_survey (key ns : Nat) (s : State) : (histAdd key ns s).survey = s.survey := rfl
@[simp] theorem histAdd_keeper (key ns : Nat) (s : State) : (histAdd key ns s).keeper = s.keeper := rfl
@[simp] theorem histAdd_freeCtr (key ns : Nat) (s : State) : (histAdd key ns s).freeCtr = s.freeCtr := rfl
@[simp] theorem histAdd_timeRef (key ns : Nat) (s : State) : (histAdd key ns s).timeRef = s.timeRef := rfl

/-! ### cairnSample -/

@[simp] theorem cairnSample_pending (id bin : Nat) (s : State) : (cairnSample id bin s).pending = s.pending := rfl
@[simp] theorem cairnSample_mainUp (id bin : Nat) (s : State) : (cairnSample id bin s).mainUp = s.mainUp := rfl
@[simp] theorem cairnSample_health (id bin : Nat) (s : State) : (cairnSample id bin s).health = s.health := rfl
@[simp] theorem cairnSample_ports (id bin : Nat) (s : State) : (cairnSample id bin s).ports = s.ports := rfl
@[simp] theorem cairnSample_gate (id bin : Nat) (s : State) : (cairnSample id bin s).gate = s.gate := rfl
@[simp] theorem cairnSample_planner (id bin : Nat) (s : State) : (cairnSample id bin s).planner = s.planner := rfl
@[simp] theorem cairnSample_chans (id bin : Nat) (s : State) : (cairnSample id bin s).chans = s.chans := rfl
@[simp] theorem cairnSample_cache (id bin : Nat) (s : State) : (cairnSample id bin s).cache = s.cache := rfl
@[simp] theorem cairnSample_sealCtl (id bin : Nat) (s : State) : (cairnSample id bin s).sealCtl = s.sealCtl := rfl
@[simp] theorem cairnSample_tree (id bin : Nat) (s : State) : (cairnSample id bin s).tree = s.tree := rfl
@[simp] theorem cairnSample_travs (id bin : Nat) (s : State) : (cairnSample id bin s).travs = s.travs := rfl
@[simp] theorem cairnSample_way (id bin : Nat) (s : State) : (cairnSample id bin s).way = s.way := rfl
@[simp] theorem cairnSample_medium (id bin : Nat) (s : State) : (cairnSample id bin s).medium = s.medium := rfl
@[simp] theorem cairnSample_belay (id bin : Nat) (s : State) : (cairnSample id bin s).belay = s.belay := rfl
@[simp] theorem cairnSample_reck (id bin : Nat) (s : State) : (cairnSample id bin s).reck = s.reck := rfl
@[simp] theorem cairnSample_mctp (id bin : Nat) (s : State) : (cairnSample id bin s).mctp = s.mctp := rfl
@[simp] theorem cairnSample_ep (id bin : Nat) (s : State) : (cairnSample id bin s).ep = s.ep := rfl
@[simp] theorem cairnSample_sad (id bin : Nat) (s : State) : (cairnSample id bin s).sad = s.sad := rfl
@[simp] theorem cairnSample_relay (id bin : Nat) (s : State) : (cairnSample id bin s).relay = s.relay := rfl
@[simp] theorem cairnSample_rope (id bin : Nat) (s : State) : (cairnSample id bin s).rope = s.rope := rfl
@[simp] theorem cairnSample_therm (id bin : Nat) (s : State) : (cairnSample id bin s).therm = s.therm := rfl
@[simp] theorem cairnSample_boot (id bin : Nat) (s : State) : (cairnSample id bin s).boot = s.boot := rfl
@[simp] theorem cairnSample_survey (id bin : Nat) (s : State) : (cairnSample id bin s).survey = s.survey := rfl
@[simp] theorem cairnSample_keeper (id bin : Nat) (s : State) : (cairnSample id bin s).keeper = s.keeper := rfl
@[simp] theorem cairnSample_freeCtr (id bin : Nat) (s : State) : (cairnSample id bin s).freeCtr = s.freeCtr := rfl
@[simp] theorem cairnSample_timeRef (id bin : Nat) (s : State) : (cairnSample id bin s).timeRef = s.timeRef := rfl

/-! ### Readers -/

@[simp] theorem chan_modChan_same (c : Nat) (f : Chan → Chan) (s : State) : chan (modChan c f s) c = f (chan s c) := by
  simp [chan, modChan]
@[simp] theorem chan_modChan_ne {c d : Nat} (f : Chan → Chan) (s : State) (h : d ≠ c) : chan (modChan c f s) d = chan s d := by
  simp [chan, modChan, h]
@[simp] theorem port_modPort_same (p : Nat) (f : Port → Port) (s : State) : port (modPort p f s) p = f (port s p) := by
  simp [port, modPort]
@[simp] theorem port_modPort_ne {p q : Nat} (f : Port → Port) (s : State) (h : q ≠ p) : port (modPort p f s) q = port s q := by
  simp [port, modPort, h]
@[simp] theorem ldAt_modPort (p k : Nat) (f : Port → Port) (s : State) : ldAt (modPort p f s) k = ldAt s k := rfl
@[simp] theorem port_modLd (k p : Nat) (f : Ld → Ld) (s : State) : port (modLd k f s) p = port s p := rfl
@[simp] theorem ldAt_modLd_same (k : Nat) (f : Ld → Ld) (s : State) : ldAt (modLd k f s) k = f (ldAt s k) := by
  simp [ldAt, modLd]
@[simp] theorem ldAt_modLd_ne {k j : Nat} (f : Ld → Ld) (s : State) (h : j ≠ k) : ldAt (modLd k f s) j = ldAt s j := by
  simp [ldAt, modLd, h]
@[simp] theorem lineAt_modLine_same (k : Nat) (f : Line → Line) (s : State) : lineAt (modLine k f s) k = f (lineAt s k) := by
  simp [lineAt, modLine]
@[simp] theorem lineAt_modLine_ne {k j : Nat} (f : Line → Line) (s : State) (h : j ≠ k) : lineAt (modLine k f s) j = lineAt s j := by
  simp [lineAt, modLine, h]
theorem ldAt_modLd (k j : Nat) (f : Ld → Ld) (s : State) : ldAt (modLd k f s) j = if j = k then f (ldAt s k) else ldAt s j := by
  split
  · subst j; simp
  · simp [*]

/-! ### Command contexts -/

@[simp] theorem ctx_modCtx_same (p : Path) (f : Mailbox → Mailbox) (s : State) : ctx (modCtx p f s) p = f (ctx s p) := by
  cases p <;> simp [ctx, modCtx]

theorem ldAt_modCtx (p : Path) (k : Nat) (f : Mailbox → Mailbox) (s : State) :
    ldAt (modCtx p f s) k = (if pathKey p = some k then { ldAt s k with mbox := f (ldAt s k).mbox } else ldAt s k) := by
  cases p with
  | mctp => rfl
  | ld q l => simp only [modCtx, ldAt_modLd, pathKey, Option.some.injEq]; split <;> simp_all [eq_comm]

@[simp] theorem port_modCtx (p : Path) (q : Nat) (f : Mailbox → Mailbox) (s : State) : port (modCtx p f s) q = port s q := by
  cases p <;> rfl

end Sys2Proof.Machine
end

