-- ==== Sys2Proof/Laws/Commands.lean ====
section
/-! SUPPORT. What taking a command does, said once: a rejection, a completion with a payload, a wait for the commit of
records, and a background job. The statements about commands cite these. -/

namespace Sys2Proof.Machine

theorem ctx_emit (p : Path) (code inst a b c d : Nat) (s : State) : ctx (emit code inst a b c d s) p = ctx s p := by
  cases p <;> simp [ctx, ldAt]

/-- Two changes of one context leave everything else alone. -/
theorem onlyCtx_modCtx_modCtx (p : Path) (f g : Mailbox → Mailbox) (s : State) : OnlyCtx p s (modCtx p f (modCtx p g s)) := by
  refine ⟨?_, ?_, ?_, ?_⟩
  · cases p <;> rfl
  · intro k; rw [ldAt_modCtx, ldAt_modCtx]; split <;> simp
  · intro k h; rw [ldAt_modCtx, ldAt_modCtx]; simp [h]
  · intro h; cases p <;> simp_all [modCtx]

/-- A path that is ready takes the command; a check that fails completes it with the rejection. -/
theorem takeCmd_rejected (c : Cmd) (p : Path) (i : List Byte) (s : State) (h : Ready p s) (r : Reply)
    (hr : checkCmd c p i (takeIn c.op p i s) = some r) :
    takeCmd c p i s = complete c.op p (fld i 0 4) r (countRejected c.op p r (takeIn c.op p i s)) := by
  obtain ⟨_, h2, h3⟩ := h
  simp [takeCmd, h2, h3, hr]

/-- An admitted command has its effect on the state in which it was taken, and settles. -/
theorem takeCmd_admitted (c : Cmd) (p : Path) (i : List Byte) (s : State) (h : Admitted c p i s)
    (hu : (c.body p i (takeIn c.op p i s)).2.mainUp = true) :
    takeCmd c p i s = settle c.op p i (c.body p i (takeIn c.op p i s)).1 (c.body p i (takeIn c.op p i s)).2 := by
  obtain ⟨⟨_, h2, h3⟩, h4⟩ := h
  simp [takeCmd, h2, h3, h4, hu]

theorem turned_complete (op : Nat) (p : Path) (n rc d o : Nat) (s : State) : Turned p rc d o (complete op p n (rej rc d o) s) := by
  simp [Turned, complete, rej]

/-- The bytes at the front of a patched buffer. -/
theorem take_patch_zero (l b : List Byte) : (patch l 0 b).take b.length = b := by simp [patch, zeros]

theorem succeeded_complete (op : Nat) (p : Path) (n : Nat) (out : List Byte) (s : State) :
    Succeeded p out (complete op p n { out := out } s) := by
  simp [Succeeded, complete, take_patch_zero]

/-- A command that answers a payload from an unchanged state, and is no Saddlebag command, only reads. -/
theorem reads_of_body (c : Cmd) (p : Path) (i : List Byte) (s : State) (out : List Byte) (h : Admitted c p i s)
    (hs : ∀ x, cmdInfo c.op = some x → x.saddle = false)
    (hb : c.body p i (takeIn c.op p i s) = ({ out := out }, takeIn c.op p i s)) :
    Succeeded p out (whenMain (takeCmd c p i) s) ∧ OnlyCtx p s (whenMain (takeCmd c p i) s) := by
  have hm : s.mainUp = true := h.1.1
  have hu : (c.body p i (takeIn c.op p i s)).2.mainUp = true := by rw [hb]; simp [takeIn, hm]
  simp only [whenMain, hm, if_true]
  rw [takeCmd_admitted c p i s h hu, hb]
  simp only [settle, List.isEmpty_nil, if_true]
  refine ⟨succeeded_complete .., ?_⟩
  cases hc : cmdInfo c.op with
  | none =>
    simp only [complete, hc, Bool.false_and, Bool.false_eq_true, if_false, takeIn]
    exact onlyCtx_modCtx_modCtx ..
  | some x =>
    simp only [complete, hc, hs x hc, Bool.false_and, Bool.false_eq_true, if_false, takeIn]
    exact onlyCtx_modCtx_modCtx ..

/-- A command without input only reads. -/
theorem reads_noInput (op : Nat) (f : Path → State → List Byte) (p : Path) (i : List Byte) (s : State)
    (h : Admitted (noInput op f) p i s) (hs : ∀ x, cmdInfo op = some x → x.saddle = false) :
    Succeeded p (f p (takeIn op p i s)) (whenMain (takeCmd (noInput op f) p i) s) ∧
      OnlyCtx p s (whenMain (takeCmd (noInput op f) p i) s) :=
  reads_of_body (noInput op f) p i s _ h hs rfl

/-! ### What the taking of a command leaves alone -/

theorem takeIn_frame (op : Nat) (p : Path) (i : List Byte) (s : State) :
    takeIn op p i s = { s with mctp := (takeIn op p i s).mctp, ports := { s.ports with lds := (takeIn op p i s).ports.lds } } := by
  cases p <;> rfl

@[simp] theorem port_takeIn (op : Nat) (p : Path) (i : List Byte) (s : State) (q : Nat) : port (takeIn op p i s) q = port s q := by
  cases p <;> rfl

theorem ldAt_takeIn (op : Nat) (p : Path) (i : List Byte) (s : State) (k : Nat) :
    ldAt (takeIn op p i s) k = { ldAt s k with mbox := (ldAt (takeIn op p i s) k).mbox } := by
  simp only [takeIn, ldAt_modCtx]; split <;> rfl

@[simp] theorem map_takeIn (op : Nat) (p : Path) (i : List Byte) (s : State) (k : Nat) :
    (ldAt (takeIn op p i s) k).map = (ldAt s k).map := by rw [ldAt_takeIn]

@[simp] theorem mgmtKey_takeIn (op : Nat) (p : Path) (i : List Byte) (s : State) : mgmtKey (takeIn op p i s) = mgmtKey s := by
  cases p <;> rfl

@[simp] theorem pathLd_takeIn (op : Nat) (p q : Path) (i : List Byte) (s : State) : pathLd (takeIn op p i s) q = pathLd s q := by
  cases q <;> simp [pathLd]

@[simp] theorem pathRole_takeIn (op : Nat) (p q : Path) (i : List Byte) (s : State) : pathRole (takeIn op p i s) q = pathRole s q := by
  cases q <;> simp [pathRole]

end Sys2Proof.Machine
end

