-- ==== Sys2Proof/Laws/Flash.lean ====
section
/-! SUPPORT. The firmware flash as byte memory (R526): a read after a write, the bytes that a write leaves alone, and
the canonical form, which every operation keeps. -/

namespace Sys2Proof.Machine

theorem flashRead_flashWrite (m : List Host.Cell) (a : Nat) (b : Byte) (h : Memory.wf m) (x : Nat) :
    flashRead (flashWrite m a b) x = if x = a then b else flashRead m x := by
  have out : ∀ (l : List Host.Cell) (k : Nat), (∀ c ∈ l, k < c.1) → flashRead l k = flashDefault := by
    intro l k hl
    induction l with
    | nil => rfl
    | cons c l ih =>
      obtain ⟨k', v'⟩ := c
      have hk := hl (k', v') (by simp)
      simp only [flashRead]
      rw [if_neg (by simp at hk; omega)]
      exact ih (fun d hd => hl d (by simp [hd]))
  induction m with
  | nil => unfold flashWrite; split <;> simp_all [flashRead]
  | cons c m ih =>
    obtain ⟨k, v⟩ := c
    have hw : Memory.wf m := ⟨(List.pairwise_cons.1 h.1).2, fun d hd => h.2 d (by simp [hd])⟩
    have hlow : ∀ d ∈ m, k < d.1 := (List.pairwise_cons.1 h.1).1
    have hi := ih hw
    unfold flashWrite
    split
    · rename_i hak
      split
      · rename_i hb
        by_cases hx : x = a
        · subst hx
          have : flashRead ((k, v) :: m) x = flashDefault := by
            apply out; intro d hd
            rcases List.mem_cons.1 hd with rfl | hd
            · exact hak
            · exact lt_trans hak (hlow d hd)
          simp [this, hb]
        · simp [hx]
      · by_cases hx : x = a <;> simp [flashRead, hx]
    · split
      · rename_i h1 h2
        subst h2
        split
        · rename_i hb
          by_cases hx : x = a
          · subst hx; simp [out m x hlow, hb]
          · simp [flashRead, hx]
        · by_cases hx : x = a <;> simp [flashRead, hx]
      · rename_i h1 h2
        by_cases hx : x = k
        · subst hx; simp [flashRead]; intro he; exact absurd he (by omega)
        · simp [flashRead, hx, hi]

/-- Every address of a write's result is the written one or was there before. -/
theorem mem_flashWrite (m : List Host.Cell) (a : Nat) (b : Byte) (c : Host.Cell) (hc : c ∈ flashWrite m a b) :
    (c = (a, b) ∧ b ≠ flashDefault) ∨ c ∈ m := by
  induction m with
  | nil => unfold flashWrite at hc; split at hc <;> simp_all
  | cons d m ih =>
    obtain ⟨k, v⟩ := d
    unfold flashWrite at hc
    split at hc
    · split at hc <;> simp_all
    · split at hc
      · split at hc
        · simp_all
        · simp only [List.mem_cons] at *; tauto
      · simp only [List.mem_cons] at *
        rcases hc with h | h
        · tauto
        · have := ih h; tauto

/-- One byte's write keeps the canonical form. -/
theorem wf_flashWrite (m : List Host.Cell) (a : Nat) (b : Byte) (h : Memory.wf m) : Memory.wf (flashWrite m a b) := by
  refine ⟨?_, fun c hc => ?_⟩
  · induction m with
    | nil => unfold flashWrite; split <;> simp
    | cons d m ih =>
      obtain ⟨k, v⟩ := d
      have hw : Memory.wf m := ⟨(List.pairwise_cons.1 h.1).2, fun d hd => h.2 d (by simp [hd])⟩
      have hlow : ∀ d ∈ m, k < d.1 := (List.pairwise_cons.1 h.1).1
      unfold flashWrite
      split
      · rename_i hak
        split
        · exact h.1
        · refine List.pairwise_cons.2 ⟨?_, h.1⟩
          intro d hd
          rcases List.mem_cons.1 hd with rfl | hd
          · exact hak
          · exact lt_trans hak (hlow d hd)
      · split
        · rename_i h1 h2
          subst h2
          split
          · exact hw.1
          · exact List.pairwise_cons.2 ⟨hlow, hw.1⟩
        · rename_i h1 h2
          refine List.pairwise_cons.2 ⟨?_, ih hw⟩
          intro d hd
          rcases mem_flashWrite m a b d hd with ⟨rfl, -⟩ | hd
          · simp; omega
          · exact hlow d hd
  · rcases mem_flashWrite m a b c hc with ⟨rfl, hb⟩ | hc
    · exact hb
    · exact h.2 c hc

/-- Programming consecutive bytes keeps the canonical form. -/
theorem wf_flashProgram (l : List Byte) : ∀ (m : List Host.Cell) (a : Nat), Memory.wf m → Memory.wf (flashProgram m a l) := by
  induction l with
  | nil => intro m a h; exact h
  | cons b l ih => intro m a h; exact ih _ _ (wf_flashWrite m a b h)

/-- An erase keeps the canonical form. -/
theorem wf_flashErase (m : List Host.Cell) (a n : Nat) (h : Memory.wf m) : Memory.wf (flashErase m a n) := by
  refine ⟨h.1.sublist List.filter_sublist, fun c hc => h.2 c (List.mem_of_mem_filter hc)⟩

/-- A programmed byte reads back; the others stand. -/
theorem flashRead_flashProgram (l : List Byte) : ∀ (m : List Host.Cell) (a x : Nat), Memory.wf m →
    flashRead (flashProgram m a l) x = if a ≤ x ∧ x < a + l.length then l.getD (x - a) 0 else flashRead m x := by
  induction l with
  | nil => intro m a x h; simp [flashProgram]
  | cons b l ih =>
    intro m a x h
    simp only [flashProgram, ih _ _ x (wf_flashWrite m a b h), flashRead_flashWrite m a b h x, List.length_cons]
    by_cases hx : x = a
    · subst hx; simp
    · by_cases h1 : a + 1 ≤ x ∧ x < a + 1 + l.length
      · have h2 : a ≤ x ∧ x < a + (l.length + 1) := by omega
        obtain ⟨n, rfl⟩ : ∃ n, x = a + 1 + n := ⟨x - (a + 1), by omega⟩
        rw [if_pos h1, if_pos h2]
        have : a + 1 + n - a = n + 1 := by omega
        simp [this]
      · have h2 : ¬ (a ≤ x ∧ x < a + (l.length + 1)) := by omega
        rw [if_neg h1, if_neg h2, if_neg hx]

/-- R526: an erased range reads 0xFF, and the rest stands. -/
theorem flashRead_flashErase (m : List Host.Cell) (a n x : Nat) :
    flashRead (flashErase m a n) x = if a ≤ x ∧ x < a + n then flashDefault else flashRead m x := by
  induction m with
  | nil => simp [flashErase, flashRead]
  | cons c m ih =>
    obtain ⟨k, v⟩ := c
    simp only [flashErase] at ih
    by_cases hk : k < a ∨ a + n ≤ k
    · simp only [flashErase, List.filter_cons, hk, decide_true, if_true, flashRead, ih]
      by_cases hx : x = k
      · subst hx; rw [if_pos rfl, if_neg (by omega), if_pos rfl]
      · simp [hx]
    · simp only [flashErase, List.filter_cons, hk, decide_false, if_false, Bool.false_eq_true, flashRead, ih]
      by_cases hx : x = k
      · subst hx; rw [if_pos (by omega), if_pos (by omega)]
      · simp [hx]

end Sys2Proof.Machine
end

