-- ==== Sys2Proof/Laws/Seal.lean ====
section
/-! SUPPORT. What sealing a parcel, and writing a tag into registers, undo: nothing here evaluates a cipher. -/

namespace Sys2Proof.Machine

/-- The low part of a concatenation. -/
theorem append_low {n m : Nat} (x : BitVec n) (y : BitVec m) : (x ++ y).extractLsb' 0 m = y := by
  ext i hi; simp [BitVec.getLsbD_append, hi]

/-- A field of the high part of a concatenation. -/
theorem append_high {n m : Nat} (x : BitVec n) (y : BitVec m) (k w : Nat) : (x ++ y).extractLsb' (m + k) w = x.extractLsb' k w := by
  ext i hi
  have h : ¬ m + k + i < m := by omega
  have e : m + k + i - m = k + i := by omega
  simp [BitVec.getLsbD_append, h, e]

/-- R215: a parcel sealed under a key set and counter passes its checks under the same ones. -/
theorem unsealFail_sealWord (k : KeySet) (part lpn : Nat) (j : BitVec 64) (m : BitVec 7) (p : Bool) (d : Parcel) :
    unsealFail k part lpn j m (sealWord k part lpn j m p d) = 0 := by
  have h1 : ∀ w s g q, (metaOf part lpn w s g q).extractLsb' 0 10 = BitVec.ofNat 10 part := fun w s g q => append_low _ _
  have h2 : ∀ w s g q, (metaOf part lpn w s g q).extractLsb' 10 19 = BitVec.ofNat 19 lpn := fun w s g q =>
    (append_high _ (BitVec.ofNat 10 part) 0 19).trans (append_low _ _)
  simp [unsealFail, sealWord, h1, h2]

/-- The bits of a parcel read back. -/
theorem bitsParcel_parcelBits (d : Parcel) : bitsParcel (parcelBits d) = d := by
  have h0 : (parcelBits d).extractLsb' 0 512 = d[0] := append_low _ _
  have h1 : (parcelBits d).extractLsb' 512 512 = d[1] := (append_high _ d[0] 0 512).trans (append_low _ _)
  have h2 : (parcelBits d).extractLsb' 1024 512 = d[2] :=
    (append_high _ d[0] 512 512).trans ((append_high _ d[1] 0 512).trans (append_low _ _))
  have h3 : (parcelBits d).extractLsb' 1536 512 = d[3] :=
    (append_high _ d[0] 1024 512).trans ((append_high _ d[1] 512 512).trans ((append_high d[3] d[2] 0 512).trans
      (by ext i hi; simp)))
  simp only [bitsParcel, h0, h1, h2, h3]
  apply Vector.ext
  intro i hi
  match i, hi with
  | 0, _ => rfl
  | 1, _ => rfl
  | 2, _ => rfl
  | 3, _ => rfl

/-- R212: a sealed parcel decrypts to its data under the same key set and counter. -/
theorem unsealData_sealWord (k : KeySet) (part lpn : Nat) (j : BitVec 64) (m : BitVec 7) (p : Bool) (d : Parcel) :
    unsealData k lpn j m (sealWord k part lpn j m p d) = d := by
  simp [unsealData, sealWord, bitsParcel_parcelBits]

/-- The bytes of a value read back. -/
theorem toLe_leVal (l : List Byte) : toLe l.length (leVal l) = l := by
  induction l with
  | nil => rfl
  | cons b l ih =>
    have h : (b.toNat + 256 * leVal l) / 256 = leVal l := by have := b.isLt; omega
    simp only [List.length_cons, leVal, toLe, h, ih, List.cons.injEq, and_true]
    apply BitVec.eq_of_toNat_eq
    have := b.isLt
    simp
    omega

/-- R435: 16 bytes written into the four TAG registers read back. -/
theorem regBytes_regsOf (l : List Byte) (h : l.length = 16) : regBytes (regsOf l) = l := by
  obtain ⟨a0, a1, a2, a3, a4, a5, a6, a7, a8, a9, a10, a11, a12, a13, a14, a15, rfl⟩ :
      ∃ a0 a1 a2 a3 a4 a5 a6 a7 a8 a9 a10 a11 a12 a13 a14 a15, l = [a0, a1, a2, a3, a4, a5, a6, a7, a8, a9, a10, a11, a12, a13, a14, a15] := by
    match l, h with
    | [a0, a1, a2, a3, a4, a5, a6, a7, a8, a9, a10, a11, a12, a13, a14, a15], _ => exact ⟨_, _, _, _, _, _, _, _, _, _, _, _, _, _, _, _, rfl⟩
  have q : ∀ a b c d : Byte, toLe 4 (BitVec.ofNat 32 (leVal [a, b, c, d])).toNat = [a, b, c, d] := by
    intro a b c d
    have e : (BitVec.ofNat 32 (leVal [a, b, c, d])).toNat = leVal [a, b, c, d] := by
      have := a.isLt; have := b.isLt; have := c.isLt; have := d.isLt
      simp [leVal]; omega
    rw [e]; exact toLe_leVal [a, b, c, d]
  have r : regsOf [a0, a1, a2, a3, a4, a5, a6, a7, a8, a9, a10, a11, a12, a13, a14, a15] =
      [BitVec.ofNat 32 (leVal [a0, a1, a2, a3]), BitVec.ofNat 32 (leVal [a4, a5, a6, a7]),
       BitVec.ofNat 32 (leVal [a8, a9, a10, a11]), BitVec.ofNat 32 (leVal [a12, a13, a14, a15])] := rfl
  rw [r]; unfold regBytes; simp only [List.flatMap_cons, List.flatMap_nil, q]; rfl

@[simp] theorem length_aesBytes (b : BitVec 128) : (aesBytes b).length = 16 := by simp [aesBytes]

end Sys2Proof.Machine
end

