-- ==== Sys2Proof/Tests/Slice0.lean ====
section
/-! SUPPORT. The model's own tests: ill-formed commands that WellFormed refuses, the manual's worked examples, and for
every statement with hypotheses a theorem wit_<Statement> that shows, clause by clause, a state and operands that meet
all of them together. -/

set_option maxRecDepth 10000
set_option linter.unusedVariables false
set_option Elab.async false

namespace Sys2Proof.Machine

/-! ### Ill-formed commands -/

/-- A request within its ranges. -/
def tReq : MemReq := { port := 31, ld := 15, tag := 65535, dpa := 0 }
/-- A bring-up within its ranges. -/
def tUp : BringUp :=
  { present := true, identityOk := true, generation := 1, serial := 1, dies := 8, tilesPerBank := 8192, badPagesOk := true
    badTiles := [], failFast := none, failSlow := none }

/-- Ports, LD-IDs, tags and the codes of a request. -/
theorem test_wf_requests :
    (Instr.memInv tReq).wf = true ∧
    [Instr.memInv { tReq with port := 32 }, .memInv { tReq with ld := 16 }, .memInv { tReq with tag := 65536 }, .memInv { tReq with malformed := 5 },
     .memInv { tReq with link := 4 }, .memRd tReq { nodes := [{ level := 0, idx := 0, copyA := true, copyB := true }] },
     .memRd tReq { nodes := [{ level := 12, idx := 0, copyA := true, copyB := true }] }, .linkDown 32, .flr 0 17, .requestAge25ms 0 0 65536,
     .perstAssert 8, .perstDeassert 8, .linkUp 0 { gen := 6, width := 17, cxl := 0x31 }, .linkUp 0 { gen := 6, width := 0, cxl := 0x31 },
     .linkUp 0 { gen := 6, width := 8, cxl := 0x30 }, .unclassifiedM2sOpcode tReq 16 true false].all (fun i => !i.wf) = true := by
  decide +kernel

/-- Channels, banks, windows, dies and what a channel answers. -/
theorem test_wf_channels :
    (Instr.channelBringUp 31 tUp).wf = true ∧
    [Instr.modPresLost 32, .windowBoundary 0 128 0, .windowBoundary 0 0 16, .codewordDecode 0 128 0 0, .calThresholdPeriodic 0 128,
     .statusReply 0 { crcOk := true, resendOk := true, outcomes := [{ bank := 128, done := true }] },
     .statusReply 0 { crcOk := true, resendOk := true, outcomes := [{ bank := 0, done := false, cause := 16 }] },
     .tempReply 0 { crcOk := true, dies := [1, 2, 3], board := 0 }, .channelBringUp 0 { tUp with dies := 9 },
     .channelBringUp 0 { tUp with tilesPerBank := 8193 }, .driftSetTune 0 8 0 [], .driftSetTune 0 0 8 [], .mediaLossHandling 0 (some 8),
     .sweepReset 0 33554432].all (fun i => !i.wf) = true := by
  decide +kernel

/-- Slices, parcels, levels, partitions, bales and the ranges of the other operands. -/
theorem test_wf_ranges :
    [Instr.sliceRetirementEnd 16, .backgroundWriteback 16, .fillComplete ⟨549755813888, 0⟩, .scrubRead 549755813888 true 0, .forcedReleaseGraceEnd 0 0 17179869184,
     .counterWriteback 0 0, .counterWriteback 12 0, .lostNodeReplace 0 0, .traverseBale 1024, .traverseFinish 1024, .rebale 2147483648,
     .rebaleCommit 2147483648, .hbmPatrol { uncorrectable := true, single := false, region := 12, page := 0, addr := 0 }, .flushStart 0,
     .flushStart 7, .mctpRequest (.command 65536) [], .mctpRequest (.control 256) [], .backgroundProgressUpdate .mctp 101, .identify (.ld 32 0) [], .unsupportedOpcode .mctp 65536 [],
     .keyLoad 0 0 4 0, .keyClear 0 0 4, .relayItemDrain 12, .relayItemProduced 12 { code := 0 }, .cairnRecordArrival { code := 65536 },
     .cairnRecordArrival { code := 0, inst := 256 }, .cairnRecordArrival { code := 0, flags := 256 }, .cairnRecordArrival { code := 0, p1 := 4294967296 },
     .watchdogExpiry 4 0, .fatalFault 0 0 0 0, .fatalFault 6 0 0 0, .alarm 0 0 0, .alarm 5 0 0, .svPromote 5 [], .reg64LowRead 0 0 73728,
     .narrowOrMisalignedAccess 0 0 0 9 none, .registerWrite 0 0 73728 0, .linkLayerReplay 32 0].all (fun i => !i.wf) = true := by
  decide +kernel

/-- R393: a payload of more than 64 KiB. -/
theorem test_wf_input : (Instr.svUnlock (zeros 65537)).wf = false := by simp [Instr.wf, wfInput]

/-! ### The manual's worked examples and published values -/

/-- Device Architecture, decoding one read: DPA 0x8012_3440 of partition 0x02A, whose legs are 1,200 to 1,203. -/
theorem test_decode_read :
    legAt [(0, { part := 0x2A, pos := 0, leg := 1200, count := 4 })] 0x2A (0x80123440 / gib) = some 1202 ∧ lpnOf 1202 0x80123440 = 5041558068 ∧
    lpnLbi 5041558068 = 19693586 ∧ sectorOf 0x80123440 = 1 := by
  decide +kernel

/-- Pannier Line Cache, placing one parcel. -/
theorem test_place_parcel : hashSlice 5041558068 = 9 ∧ setOf 5041558068 = 104 ∧ hashSlice 5041558069 = 8 ∧ setOf 5041558069 = 104 := by decide +kernel

/-- Seal Engine, the counter path of one parcel. -/
theorem test_counter_path :
    (List.range 11).map (fun i => nodeIdx 5041558068 (i + 1)) = [78774344, 9846793, 1230849, 153856, 19232, 2404, 300, 37, 4, 0, 0] ∧
    minorIdx 5041558068 = 52 := by
  decide +kernel

/-- Waybill Mapping, the drift set of one bale: its stamp at 62 °C and 5,000 hours, and age 36. -/
theorem test_drift_set :
    stampNow { chans := [(9, { clock := 5000 * 1024 * 1048576, tMax := some 992 })] } 9 = 37768 ∧ ageSet 36 = 3 := by
  decide +kernel

/-- Belay, the daily test on the reference shelf: E_low 0.6237 J gives s = 662 and 254,208 lines;
29.81 ms over 10 Ω gives 35.00 mF. -/
theorem test_budget :
    scaleOf 12474000000000 = 662 ∧ dirtyLimit { belay := { s := 662, through := false } } = 254208 ∧ capacitance 29810 10000 / 10 = 3500 := by
  decide +kernel

/-- Registers, a throttled stage seen from LD 5: VND_IDENT. -/
theorem test_ident : vndIdent { ports := { lds := [(56, { map := { typ := .tenant, part := 0x2A } })] } } 56 = 0x042A0305 := by decide +kernel

/-- Registers, the same: F_H at 107.4 °C is 778, and THROTTLED is set. -/
theorem test_throttle :
    ∃ t, exec (.junctionReading (List.replicate 32 (some 1718)) [1600, 1600]) { mainUp := true, boot := { running := true } } = .next t ∧
      t.therm.fH = 778 ∧ t.therm.throttle = true :=
  ⟨_, rfl, by decide +kernel⟩

/-- Saddlebag, recall after a power loss during a commit: TRAVERSE 3 falls back to SEQ 411, and record 0x1004 is (90,001, 2, 1). -/
theorem test_recall :
    let r := recallSlots
      [(rk 8 3, { a := some { seq := 412, group := 90001, gcount := 2, body := none }, b := some { seq := 411, group := 89994, gcount := 1, body := none } }),
       (rk 9 0, { a := some { seq := 77, group := 89990, gcount := 1, body := none }, b := some { seq := 78, group := 89998, gcount := 1, body := none } })] []
    r.rolled = some (90001, 2, 1) ∧ r.taken.map (fun t => (t.key, t.copy.map (·.seq))) = [(rk 8 3, some 411), (rk 9 0, some 78)] := by
  decide +kernel

/-- CRC-32C of the digits 1 to 9, its published check value. -/
theorem test_crc : crc32c [0x31, 0x32, 0x33, 0x34, 0x35, 0x36, 0x37, 0x38, 0x39] = 0xE3069283 := by decide +kernel

/-- FIPS 197: the S-box of 0x53, and multiplication of 0x57 by 0x83. -/
theorem test_aes : subByte 0x53 = 0xED ∧ subByteInv 0xED = 0x53 ∧ gfMul 0x57 0x83 = 0xC1 := by decide +kernel

/-- R550: the IDCODE register, least significant byte first. -/
theorem test_idcode :
    ∃ t, step { mainUp := true, pending := [.idcode] } = .next t ∧ t.survey.tdo = [0xE7, 0x01, 0x28, 0x01] ∧ t.pending = [] :=
  ⟨_, rfl, by decide +kernel⟩

/-- No row of the opcode table gives bits. -/
theorem test_words (s : State) (n w : Nat) : decodeTableWord n w = none ∧ s.withFetchWord n w = s := ⟨rfl, rfl⟩


/-! ### Helper states of the witnesses -/

/-- A tenant's key set. -/
def wKeys : KeySet := { dataKey := 5, hashKey := 7, gen := 1 }
/-- A tenant LD's map: two legs of partition 1 at DPA 0. -/
def wMap : LdMap := { typ := .tenant, part := 1, ranges := [{ dpaLeg := 0, count := 2, pos := 0 }] }
/-- A channel in service. -/
def wChan : Chan := { st := .active, gen := 3, rate := 4800, serial := 77, tilesPerBank := 64, railsGood := true, spares := 100,
                      hostLeft := 9, maintLeft := 5, slotsLeft := 40, plan := { hEff := 9, m := 5 }, tMax := some 700, tMin := some 600 }
/-- A running device with one MLD port, two tenant LDs and the management LD, one partition and two channels. -/
def wBase : State :=
  { mainUp := true, health := { st := 0 }
    ports := { ports := [(0, { up := true, gen := 5, width := 8, cxl := 0x31, flit256 := true, ndrCredits := 100, drsCredits := 100, ent := { mld := true, ldCount := 2 } })]
               lds := [(0, { map := wMap, memActive := true }),
                       (1, { map := { wMap with part := 2, ranges := [{ dpaLeg := 0, count := 1, pos := 0 }] }, memActive := true }),
                       (16, { map := { typ := .management } })]
               perst := 0 }
    sad := { recalling := false
             img := { parts := [(1, { keyGen := 1, readShare := 8, writeShare := 8 }), (2, { keyGen := 3 })]
                      runs := [(0, { part := 1, pos := 0, leg := 10, count := 2 }), (1, { part := 2, pos := 0, leg := 12, count := 1 })]
                      modules := [(0, { serial := 77, gen := 3 })] } }
    sealCtl := { slots := [(1, { cur := some wKeys }), (2, { cur := some { wKeys with dataKey := 9, gen := 3 } })] }
    chans := [(0, wChan), (3, { wChan with st := .reduced, rate := 3200 })]
    planner := { stage := 40, cycle := 100, shares := [(1, (8, 8))] }
    belay := { v := 12000, e := 20000000000, tested := true, s := 1024, through := false }
    reck := { tb := 5000000000, st := .locked }
    rope := { st := .on, driveLow := false, pitch := 15 }
    therm := { tj := some 900 }
    boot := { running := true, version := 5, secVersion := 2, pairing := 7 } }
/-- The first parcel of the first leg of `wBase`'s partition 1. -/
def wLpn : Nat := 41943040

/-- `wBase` with one bank of channel 0 set. -/
def wBank (b : Bank) : State := { wBase with chans := [(0, { wChan with banks := [(5, b)] }), (3, { wChan with st := .reduced })] }
/-- A guaranteed read of `wLpn` at a location of channel 0, bank 5. -/
def wRead : RdItem := { lpn := wLpn, ppa := 5 * 134217728 + 3, cls := .guaranteed, part := 1, age := 4999900000, base := [0, 0, 0, 0, 0, 0, 0] }
/-- A stored codeword of `wLpn`. -/
def wCell : Codeword := { cipher := 5, mac := 9, mdat := metaOf 1 wLpn 1 false true false }
/-- A parcel of zeros that `wKeys` sealed. -/
def wSealed : Codeword := sealWord wKeys 1 wLpn 0 1 false zeroParcel
/-- A read of that parcel has been received, its fill waits, and its counter is 1. -/
def wOpens : State :=
  { wBank { received := [wRead] } with
    cache := { fills := [(wLpn, {})] }, medium := { cells := [(5 * 134217728 + 3, wSealed)] }
    sealCtl := { wBase.sealCtl with leaves := [(wLpn / 64, { minors := (Vector.replicate 64 0).set 0 1 })] } }
theorem wSealed_opens : verdict wOpens 1 wLpn wSealed = 0 := by
  have h : openKey wOpens 1 (metaKg wSealed.mdat) = some wKeys := by decide +kernel
  have c : openCtr wOpens wLpn = (0, 1) := by decide +kernel
  simp only [verdict, h, c]
  exact unsealFail_sealWord wKeys 1 wLpn 0 1 false zeroParcel
/-- What bring-up meets in channel 0 where all is well. -/
def wUp : BringUp := { present := true, identityOk := true, generation := 3, serial := 77, dies := 8, tilesPerBank := 64,
                       badPagesOk := true, badTiles := [], failFast := none, failSlow := none }
/-- `wBase` with channel 0 off and its rails good. -/
def wOff : State := { wBase with chans := [(0, { railsGood := true }), (3, { wChan with st := .reduced })] }
/-- A request of LD 0 for sector 1 of `wLpn`. -/
def wReq : MemReq := { port := 0, ld := 0, tag := 9, dpa := 64 }
/-- The line of `wLpn`, CLEAN and VALID in three sectors. -/
def wLine : Line := { lpn := wLpn, part := 1, st := .clean, valid := 7, data := #v[1, 2, 3, 4] }
/-- `wBase` with one line in the cache, beside another parcel's. -/
def wCache (l : Line) : State := { wBase with cache := { lines := [(3, { lpn := wLpn + 1, part := 1, st := .dirty, valid := 15, dirty := 15 }), (4, l)] } }
/-- The way that `wLpn` would take first. -/
def wWay : Nat := (setWays wBase wLpn).headD 0
/-- `wBase` with LD 0's map and contract changed. -/
def wLd (f : Ld → Ld) : State := modLd 0 f wBase
/-- A request of LD 0 that waits in the device. -/
def wWait : Req := { port := 0, ld := 0, tag := 9, op := .rd, dpa := 64, lpn := wLpn, sector := 1, part := 1, stamp := 4999990000 }
/-- A DIRTY line of `wLpn` chosen for eviction, with a loaded leaf. -/
def wEv : State :=
  { wCache { wLine with st := .dirty, valid := 15, dirty := 7 } with
    cache := { (wCache { wLine with st := .dirty, valid := 15, dirty := 7 }).cache with evDue := [{ lpn := wLpn, why := .victim, creditPart := 1 }] } }
/-- A write-buffer entry of `wLpn` on channel 0. -/
def wBuf : WbEntry := { lpn := wLpn, part := 1, creditPart := 1, plain := #v[1, 2, 3, 4], poison := false, word := wCell, ppa := 5 * 134217728 + 3 }
/-- `wBase` with requests in the device. -/
def wBusy : State := modPort 0 (fun p => { p with reqs := [wWait, { wWait with ld := 1, tag := 3 }], ingress := [{ wWait with ld := 1, tag := 4, op := .wr }] }) wBase
/-- A range operation of the management LD at its second parcel. -/
def wRange (kind next : Nat) (ev : List Nat) : Bg := { opcode := 0xC300 + kind, job := .range kind 1 0 512 next none 3000000000 ev false }
/-- A state with that operation running. -/
def wRangeOn (s : State) (b : Bg) : State := modLd 16 (fun l => { l with mbox := { l.mbox with bg := some b } }) s
/-- A rolling leaf's companion. -/
def wComp : Companion := { major := 3, minors := Vector.replicate 64 4, done := 0xFFFFFFFFFFFFFFFE, part := 1 }
/-- The base segment of `wLpn`'s bale. -/
def wBale : Bale := { st := .baled, seg := 1, tile := 2, bank := 3, die := 1, ch := 0 }
/-- A traverse of partition 1. -/
def wTrav : Trav := { inst := 0, oldGen := 1, newGen := 2, rate := 0, w := 0, mark := 0, committed := 0 }
/-- `wBase` with the traverse of partition 1 running. -/
def wTravOn (t : Trav) : State :=
  { wBase with travs := [(1, t)]
               sealCtl := { wBase.sealCtl with slots := [(1, { cur := some wKeys, nxt := some { wKeys with gen := 2, dataKey := 8 } })] }
               sad := { wBase.sad with img := { wBase.sad.img with
                 travs := [(0, { part := 1, oldGen := 1, newGen := 2, rate := 0, mark := 0 })]
                 wraps := [(1, { part := 1, gen := 1, seq := 1, wrapped := 6, tag := 7 }), (1024, { part := 1, gen := 2, seq := 2, wrapped := 8, tag := 9 })] } } }
/-- The map with `wLpn` in the overlay. -/
def wOv : OvEntry := { kind := .located, ppa := 5 * 134217728 + 3, wseq := 1 }
/-- `wBase` with that map and its codeword. -/
def wMapped : State := { wBase with way := { map := { overlay := [(wLpn, wOv)], bales := [(163840, { st := .overlay, ovcnt := 1 })], tiles := [(40960, { st := .openHost, cls := .fast, valid := 1, next := 4 })] }, rebaleQ := [163840] }, medium := { cells := [(5 * 134217728 + 3, wCell)] } }
/-- That state with the leaf of `wLpn` rolling. -/
def wRoll : State :=
  { wMapped with
    sealCtl := { wBase.sealCtl with companions := [(wLpn / 64, wComp)], leaves := [(wLpn / 64, { major := 4, minors := Vector.replicate 64 1, cached := true })] }
    cache := { lines := [(4, { wLine with valid := 15 })] }, planner := { wBase.planner with writeCredit := [(32, 4096)] } }
/-- A re-bale of that bale whose segment is written. -/
def wJob : RebaleJob := { srcs := Src.entry wOv :: List.replicate 255 .unwritten, dest := some 1024, fast := false, words := [(0, .word wCell)] }
/-- Its program. -/
def wProg : MProg := { work := .bale 163840 0, load := .word wCell, fast := false, ppa := 1024, placed := true, passed := true }
/-- A system parcel. -/
def wSys : SysParcel := { space := 3, lpn := 0, count := 1, wseq := 1, root := 0, body := .journal { jseq := 4, recs := [.pad, .dropLeg 3] } 2 }
/-- A maintenance program of a system parcel that has passed verify. -/
def wDone (w : MWork) (ppa : Nat) : MProg := { work := w, load := .sys wSys, ppa := ppa, placed := true, passed := true }
/-- A traverse over a bale with a POISON entry. -/
def wTravMap : State :=
  { wTravOn wTrav with way := { wMapped.way with map := { wMapped.way.map with overlay := [(wLpn, { wOv with kind := .poison })] } }
                       sealCtl := { (wTravOn wTrav).sealCtl with leaves := [(wLpn / 64, { minors := Vector.replicate 64 1, cached := true })] } }
/-- `wBase` with C measured. -/
def wCap : State := { wBase with sad := { wBase.sad with img := { wBase.sad.img with belay := { c := some 20000, rTest := 4700 } } }, belay := { wBase.belay with e := 9000000000000, raise := [(1000, 3000000000), (1024, 4500000000)], s := 512 } }
/-- `wBase` in a step of a flush. -/
def wFlush (n : Nat) : State := { wBase with belay := { wBase.belay with step := n, cause := 4, latch := some { state := n, cause := 4, start := 7 } } }
/-- `wBase` with an LD's mailbox set. -/
def wBox (l : Nat) (m : Mailbox) : State := modLd l (fun x => { x with mbox := m }) wBase
/-- A log with two records. -/
def wLog : EventLog := { recs := [{ handle := 3, code := 0x0101, ts := 9 }, { handle := 4, code := 0x10000, ts := 10, dpa := 512 }], overflow := true, dropped := 70000, firstTs := 4, lastTs := 8, nextHandle := 5 }
/-- `wBase` with logs, poison entries and extents of LD 0. -/
def wFull : State :=
  { modLd 0 (fun l => { l with
      logs := [{}, {}, wLog, {}, {}], shutdown := 1, alertLife := 90, alertTemp := 70, alertUnder := -5, alertValid := 3
      map := { l.map with dynamic := true }
      poisonList := [{ dpa := 0, len := 256 }, { dpa := 512, len := 256, injected := true }]
      mbox := { bgPct := 100, bgOpcode := 0xC300, bgRet := 3, bgDetail := 7 } })
      (modLd 16 (fun l => { l with mbox := { bg := some (wRange 0 0 []), bgPct := 30, bgOpcode := 0xC300 } }) wBase) with
    cairn := { stored := [{ code := 0x0101, ts := 9 }, { code := 0x0102, ts := 8 }, { code := 0x0103, ts := 7 }], epochs := [{ number := 4, hist := [(17, 5)] }] }
    gate := { freezes := [{ master := ldMaster 0 1, code := 0x0201, addr := 64, detail := 0, tb := 5 }, { master := surveyMaster, code := 0x0207, addr := 0, detail := 0, tb := 6 }] }
    travs := [(1, { wTrav with bales := 3, mark := 65536, w := 65536, committed := 65536 })]
    sad := { wBase.sad with img := { wBase.sad.img with ldMaps := [(0, { wMap with dynamic := true }), (1, wMap)], boot := { boots := 4, dirtyShutdowns := 2 } } }
    therm := { tj := some 900, sensors := [(0, 900), (35, 640)], hbm := [500, 520], excluded := [35] }
    reck := { wBase.reck with adj := -9, lastE := -44, arm := some 7, ring := [(1, { bank := { minute := 1, closeTs := 120000000000, recs := [(1, { readOps := 4 })], hists := [(1, [(3, 4)])] } })], lastClosed := some 1 } }
/-- The input of SET_PORT_CONFIG with a mode for group 0. -/
def wPortCfg (m : Byte) : List Byte := [m, 0, 0, 0, 0, 0, 0, 0, 3, 0, 0, 0] ++ (List.range 8).flatMap (fun _ => [5, 0x20, 1, 4]) ++ zeros 96
/-- The input of SET_PITCH_TABLE with a role in entry 12 of the default table. -/
def wPitch (r : Nat) : List Byte := pitchTable (defaultPitch.set 12 { role := r })
/-- `wBase` with LD 1 DYNAMIC, with an offer of two legs. -/
def wDyn (o : List Offer) : State := modLd 1 (fun l => { l with map := { l.map with dynamic := true }, offers := o }) wBase
/-- An extent list of the host's form. -/
def wExt (a n : Nat) : List Byte := toLe 4 1 ++ zeros 4 ++ toLe 8 (a * gib) ++ toLe 8 (n * gib) ++ zeros 8
/-- An extent list of the manager's form, for LD 1. -/
def wMgr (flags : Byte) (a n : Nat) : List Byte := [0, 1, flags] ++ zeros 25 ++ toLe 4 1 ++ toLe 8 (a * gib) ++ toLe 8 (n * gib) ++ zeros 24
/-- The runs after a leg has joined partition 2. -/
def wRuns : Tbl LegRun := [(0, { part := 1, pos := 0, leg := 10, count := 2 }), (1, { part := 2, pos := 0, leg := 12, count := 2 })]
/-- A range command of the management LD on partition 1. -/
def wRangeIn (start len : Nat) : List Byte := [0, 0, 1, 0, 0, 0, 0, 0] ++ toLe 8 start ++ toLe 8 len
/-- A range command of a tenant. -/
def wRangeTen (start len : Nat) : List Byte := [1, 0, 0, 0, 0, 0, 0, 0] ++ toLe 8 start ++ toLe 8 len
/-- `wBase` with a NEW module in channel 5. -/
def wNew : State := { wBase with chans := wBase.chans ++ [(5, { wChan with st := .new, serial := 500 })], medium := { cells := [(5 * 17179869184 + 7, wCell)] } }
/-- `wBase` with an image in the staging. -/
def wStage (b : List Byte) : State := { wBase with boot := { wBase.boot with staging := b, transferPath := 2 } }
/-- A header without a body, but for its CRC. -/
def wHeadBody : List Byte := [0x42, 0x56, 0x41, 0x43, 1, 0, 0x80, 0x12] ++ zeros 4084
/-- That header. -/
def wHead : List Byte := wHeadBody ++ toLe 4 (crc32c wHeadBody)
theorem wHead_ok : stagedOk wHead = true := by
  have n : wHeadBody.length = 4092 := by simp [wHeadBody]
  have l : wHead.length = 4096 := by simp [wHead, n]
  have c : leVal (bytesAt wHead 4092 4) = crc32c wHeadBody := by
    have := crc32c_lt wHeadBody
    change fld wHead 4092 4 = _
    rw [wHead, fld_append_ge _ _ _ _ (by omega), n, Nat.sub_self, fld_toLe]
    exact Nat.mod_eq_of_lt (by omega)
  have t : wHead.take 4092 = wHeadBody := by rw [wHead, ← n]; exact List.take_left
  have w : wHead.take 4096 = wHead := by rw [← l]; exact List.take_length
  have e : ∀ o k, o + k ≤ 4092 → bytesAt wHead o k = bytesAt wHeadBody o k := fun o k h => bytesAt_append_lt _ _ _ _ (by omega)
  simp only [stagedOk, headerWhole, w, t, c, l, fld, e 0 4 (by decide), e 4 1 (by decide), e 6 2 (by decide), e 16 4 (by decide), beq_self_eq_true]
  decide +kernel
theorem wHead_chunks : stagedOk (wHead.take 3968 ++ (([3, 1, 0, 0, 31, 0, 0, 0] ++ zeros 120 ++ wHead.drop 3968 : List Byte).drop 128)) = true := by
  have d : ([3, 1, 0, 0, 31, 0, 0, 0] ++ zeros 120 ++ wHead.drop 3968 : List Byte).drop 128 = wHead.drop 3968 := List.drop_left' (by decide)
  rw [d, List.take_append_drop]; exact wHead_ok
/-- `wBase` with an activation in some phase. -/
def wAct (ph : Nat) : State :=
  { modLd 16 (fun l => { l with mbox := { bg := some { opcode := 0x0202, job := .activate 4000000000 } } }) wBase with
    boot := { wBase.boot with staging := zeros 16 ++ toLe 4 70000 ++ zeros 10 ++ [7, 0xFF], staged := true, actPhase := ph, flash := [(3, 4), (4100, 9), (200000, 1)] } }
/-- `wBase` with LD 0's Coffer page changed, and its descriptor in the round robin when it runs. -/
def wCof (f : CofPage → CofPage) : State :=
  let s := wLd (fun l => { l with cof := f l.cof })
  { s with ports := { s.ports with cofOrder := if (ldAt s 0).cof.run.isSome then [0] else [] } }
/-- A valid key slot without a tweak key. -/
def wKey : CofKey := { valid := true, key := 0x2B7E151628AED2A6ABF7158809CF4F3C }
/-- A CTR descriptor of one parcel in place. -/
def wDesc : CofDesc := { ctrl := 2, src := 0, dst := 0, len := 256 }
/-- Its run. -/
def wRun : CofRun := { desc := wDesc, part := 1, key := wKey }
/-- A clean line of the first parcel of partition 1 and `s`. -/
def wLined (l : Line) (s : State) : State := { s with cache := (wCache l).cache }
/-- A freeze of a master. -/
def wFrz (m : Nat) : Freeze := { master := m, code := 0x0203, addr := 0, detail := 0, tb := 0 }
/-- A GCM decryption of 16 bytes in its first pass, with an expected tag. -/
def wGcm (t : List (BitVec 32)) : CofRun := { desc := { ctrl := 0x11, len := 16, tag := t }, part := 1, key := wKey, input := zeros 16 }
/-- A CMAC check of 16 bytes, with an expected tag. -/
def wMac (t : List (BitVec 32)) : CofRun := { desc := { ctrl := 0x14, len := 16, tag := t }, part := 1, key := wKey, input := zeros 16 }
/-- A tag that a run does not compute. -/
def wOther (f : List (BitVec 32) → CofRun) : List (BitVec 32) := if tagMatches (f [0, 0, 0, 0]) then [1, 0, 0, 0] else [0, 0, 0, 0]
theorem wOther_fails (f : List (BitVec 32) → CofRun) (x : List Byte) (hc : ∀ t, cofTag (f t) = x) (hl : ∀ t, (f t).desc.tagLen = 16)
    (ht : ∀ t, (f t).desc.tag = t) : tagMatches (f (wOther f)) = false := by
  unfold wOther
  split
  · rename_i h
    simp only [tagMatches, hc, hl, ht, beq_iff_eq] at h ⊢
    rw [h]; decide
  · rename_i h; simpa using h
theorem wGcm_right : tagMatches (wGcm (regsOf (cofTag (wGcm [])))) = true := by
  have c : cofTag (wGcm (regsOf (cofTag (wGcm [])))) = cofTag (wGcm []) := rfl
  have n : (cofTag (wGcm [])).length = 16 := by
    simp only [cofTag, gcmTag]
    rw [if_neg (by decide), if_pos (by decide)]
    exact length_aesBytes _
  have g : (wGcm (regsOf (cofTag (wGcm [])))).desc.tag = regsOf (cofTag (wGcm [])) := rfl
  simp only [tagMatches, c, g, regBytes_regsOf _ n, beq_self_eq_true]
/-- `wBase` with records to commit. -/
def wDirty (l : List Nat) : State := { wBase with sad := { wBase.sad with dirty := l } }
/-- A group of partition 1's record. -/
def wGroup : Group := { num := 6, recs := [(rk 3 1, some (.part { keyGen := 1, readShare := 8 })), (rk 3 2, none)] }
/-- `wBase` with a group that commits. -/
def wCommit : State :=
  { wBase with sad := { wBase.sad with running := some wGroup, lastGroup := 5, dirty := [rk 9 0]
                                       slots := [(rk 3 1, { a := some { seq := 3, group := 4, gcount := 1, body := none }, b := some { seq := 4, group := 5, gcount := 1, body := none } })] } }
/-- A command that waits for a record. -/
def wWaits (r : List Nat) : WaitCmd := { opcode := 0xC008, first4 := 1, recs := r, out := [1, 2, 3], done := .none, since := 4000000000 }
/-- A state with a command that waits on the MCTP path. -/
def wCmd (s : State) (r : List Nat) : State := { s with mctp := { doorbell := true, wait := some (wWaits r) } }
/-- The keeper alone, at the first HOLDOFF. -/
def wKeeper : State := { keeper := { lastTb := 1000000000, since := 500000000, tbKnown := true } }
/-- `wBase` with its management LD's window loading. -/
def wWin (n : Nat) : State :=
  modLd 16 (fun l => { l with win := { position := n, loading := true, auto := true, ready := true } })
    { wBase with ports := { wBase.ports with mgmt := some 0 }, cairn := { stored := [{ code := 9, p1 := 4 }, { code := 7 }, { code := 5 }] } }
/-- `wBase` with a Relay queue. -/
def wQueue (x : RelayQ) : State := { wBase with relay := { queues := [(2, { fill := [{ code := 1 }] }), (4, x)] }, sad := { wBase.sad with img := { wBase.sad.img with boot := { boots := 6 } } } }
/-- Event descriptors. -/
def wEvent (k log : Nat) : EventDesc := { lds := [k], log := log, ev := { handle := 0, code := 0x0202, ts := 5 } }
/-- `wKeeper` with Rope in a state. -/
def wRope (r : Rope) : State := { wKeeper with rope := r }
/-- A pitch of a power-up. -/
def wRising (n : Nat) : Rope := { st := .rising, pitch := n, en := 0xFFFF >>> (16 - n), driveLow := false, relTb := 1400000000 }
/-- A Survey session in a life-cycle state. -/
def wSv (l : Life) (lvl : Option Nat) : State := { wBase with keeper := { life := l }, survey := { level := lvl } }
/-- A write of the medium through Survey. -/
def wAddr (sp : Nat) : BitVec 128 := BitVec.ofNat 128 ((sp * 2 ^ 62 + 671088643) * 2 ^ 64 + 5)
/-- The state after a step. -/
def wNext (s : State) : State := match step s with | .next t => t | _ => s
/-- A promotion at the front of the queue. -/
def wPromote : State := { wSv .provision (some 1) with pending := [.svPromote 2 []] }
/-- An activation's flash step at the front of the queue. -/
def wFlashStep : State := { wAct 1 with pending := [.activationFlashStep true] }

/-! ### Witnesses -/

/-- The hypotheses of each clause of StageRows are met together. -/
theorem wit_StageRows :
    (∃ (s : State), s.mainUp = true ∧ s.boot.recovering = false) ∧
    (∃ (s : State), s.mainUp = true) ∧
    (∃ (s : State) (ch : Nat) (cycle : Nat) (p : Plan), s.mainUp = true ∧ (chan s ch).building = some p) :=
  ⟨⟨({ wBase with chans := [(0, { wChan with building := some { hEff := 3 }, published := some { hEff := 7, m := 30, seqs := [] } }), (3, { wChan with st := .reduced, missRun := 2 }), (5, {})], way := { wBase.way with tail := [.pad, .dropLeg 4] } }), by decide +kernel⟩,
    ⟨({ wBase with chans := [(0, { wChan with building := some { hEff := 3 }, published := some { hEff := 7, m := 30, seqs := [] } }), (3, { wChan with st := .reduced, missRun := 2 }), (5, {})], way := { wBase.way with tail := [.pad, .dropLeg 4] } }), by decide +kernel⟩,
    ⟨({ wBase with chans := [(0, { wChan with building := some { hEff := 3 }, missRun := 2 }), (3, wChan)] }), 0, 4063, ({ hEff := 3 }), by decide +kernel⟩⟩

/-- The hypotheses of each clause of WindowBoundaryOrder are met together. -/
theorem wit_WindowBoundaryOrder :
    (∃ (s : State) (c : Nat) (b : Nat) (w : Nat) (r : RdItem) (rest : List RdItem), s.mainUp = true ∧ inService (chan s c) = true ∧ b < 128 ∧ w < 16 ∧ (chan s c).diesOut.getLsbD (b / 16) = false ∧ (bankOf (chan s c) b).run = .idle ∧ s.planner.emergency = false ∧ (bankOf (chan s c) b).seq = none ∧ (bankOf (chan s c) b).otherQ = [] ∧ (bankOf (chan s c) b).retryQ = r :: rest ∧ (if r.cls = .maint then 0 < (chan s c).maintLeft else 0 < hostAvail (chan s c) w)) ∧
    (∃ (s : State) (c : Nat) (b : Nat) (w : Nat) (r : RdItem), s.mainUp = true ∧ inService (chan s c) = true ∧ b < 128 ∧ w < 16 ∧ (chan s c).diesOut.getLsbD (b / 16) = false ∧ (bankOf (chan s c) b).run = .idle ∧ s.planner.emergency = false ∧ (bankOf (chan s c) b).seq = none ∧ (bankOf (chan s c) b).otherQ = [] ∧ (bankOf (chan s c) b).retryQ = [] ∧ 0 < hostAvail (chan s c) w ∧ oldest (bankOf (chan s c) b).guarQ = some r) :=
  ⟨⟨(wBank { retryQ := [{ wRead with retry := 1 }], guarQ := [wRead] }), 0, 5, 15, ({ wRead with retry := 1 }), ([]), by decide +kernel⟩,
    ⟨(wBank { guarQ := [{ wRead with age := 4999950000 }, wRead], received := [wRead] }), 0, 5, 0, wRead, by decide +kernel⟩⟩

/-- The hypotheses of each clause of MediaReads are met together. -/
theorem wit_MediaReads :
    (∃ (s : State) (c : Nat) (r : StatusReply) (o : BankOutcome) (it : RdItem), s.mainUp = true ∧ inService (chan s c) = true ∧ r.crcOk = true ∧ r.outcomes = [o] ∧ o.cause = 0 ∧ o.done = true ∧ (bankOf (chan s c) o.bank).run = .read it) ∧
    (∃ (s : State) (c : Nat) (r : StatusReply), s.mainUp = true ∧ inService (chan s c) = true ∧ r.crcOk = false ∧ r.resendOk = false ∧ (chan s c).crcRun < 2) ∧
    (∃ (s : State) (c : Nat) (r : StatusReply), s.mainUp = true ∧ inService (chan s c) = true ∧ r.crcOk = false ∧ r.resendOk = false ∧ 2 ≤ (chan s c).crcRun) ∧
    (∃ (s : State) (c : Nat) (b : Nat) (bits : Nat) (it : RdItem) (rest : List RdItem), s.mainUp = true ∧ inService (chan s c) = true ∧ (bankOf (chan s c) b).received = it :: rest ∧ it.deep = false ∧ it.retry < 3 ∧ it.base ≠ [] ∧ s.belay.step = 0) ∧
    (∃ (s : State) (c : Nat) (b : Nat) (bits : Nat) (it : RdItem) (rest : List RdItem) (w : Codeword) (k : KeySet), s.mainUp = true ∧ inService (chan s c) = true ∧ (bankOf (chan s c) b).received = it :: rest ∧ it.deep = false ∧ it.retry = 0 ∧ it.work = .host ∧ s.sealCtl.zeroed = false ∧ lostParcel s it.lpn = false ∧ thas s.cache.fills it.lpn = true ∧ tget s.medium.cells it.ppa = some w ∧ verdict s it.part it.lpn w = 0 ∧ openKey s it.part (metaKg w.mdat) = some k ∧ metaPoison w.mdat = false) ∧
    (∃ (s : State) (c : Nat) (b : Nat) (bits : Nat) (it : RdItem) (rest : List RdItem), s.mainUp = true ∧ inService (chan s c) = true ∧ (bankOf (chan s c) b).received = it :: rest ∧ it.deep = false ∧ it.retry = 0 ∧ it.work = .scrub ∧ bits ≤ 24) ∧
    (∃ (s : State) (c : Nat) (b : Nat) (r : RdItem), s.mainUp = true ∧ (bankOf (chan s c) b).retryQ = [r] ∧ (bankOf (chan s c) b).guarQ = [] ∧ (bankOf (chan s c) b).otherQ = [] ∧ (bankOf (chan s c) b).received = [] ∧ (bankOf (chan s c) b).run = .idle ∧ (chan s c).deepWait = [] ∧ r.deep = true ∧ r.age + 40000 ≤ tbNow s ∧ r.work = .host ∧ lpnLeg r.lpn < 81920 ∧ lookupHeld s r.lpn = false) :=
  ⟨⟨(wBank { run := .read wRead, received := [{ wRead with lpn := 5 }] }), 0, ({ crcOk := true, resendOk := false, outcomes := [{ bank := 5, done := true }] }), ({ bank := 5, done := true }), wRead, by decide +kernel⟩,
    ⟨({ wBank { run := .read wRead } with chans := [(0, { wChan with crcRun := 1, banks := [(5, { run := .read wRead }), (7, { run := .pulse, seq := some (.reset 3 0 true 0 0 0) })] })] }), 0, ({ crcOk := false, resendOk := false, outcomes := [] }), by decide +kernel⟩,
    ⟨({ wBank { run := .read wRead } with chans := [(0, { wChan with crcRun := 2, banks := [(5, { run := .read wRead }), (7, { run := .pulse, seq := some (.reset 3 0 true 0 0 0) })] })] }), 0, ({ crcOk := false, resendOk := false, outcomes := [] }), by decide +kernel⟩,
    ⟨(wBank { received := [{ wRead with retry := 2 }], retryQ := [{ wRead with lpn := 8 }] }), 0, 5, 0, ({ wRead with retry := 2 }), ([]), by decide +kernel⟩,
    ⟨wOpens, 0, 5, 3, wRead, ([]), wSealed, wKeys, by
  refine ⟨?_, ?_, ?_, ?_, (by decide +kernel), ?_, ?_, ?_, ?_, rfl, wSealed_opens, ?_⟩ <;> decide +kernel⟩,
    ⟨(wBank { received := [{ wRead with cls := .maint, work := .scrub }, wRead] }), 0, 5, 24, ({ wRead with cls := .maint, work := .scrub }), ([wRead]), by decide +kernel⟩,
    ⟨({ wBase with chans := [(0, { wChan with deepUsed := 1, banks := [(5, { retryQ := [{ wRead with deep := true, age := 4999960000 }] })] })], cache := { fills := [(wLpn, { waiters := [] })] } }), 0, 5, ({ wRead with deep := true, age := 4999960000 }), by decide +kernel⟩⟩

/-- The hypotheses of each clause of Channels are met together. -/
theorem wit_Channels :
    (∃ (s : State) (c : Nat), s.mainUp = true ∧ (inService (chan s c) = true ∨ (chan s c).st = .new)) ∧
    (∃ (s : State) (c : Nat), s.mainUp = true ∧ inService (chan s c) = true) ∧
    (∃ (s : State) (c : Nat) (b : BringUp), s.mainUp = true ∧ c < 32 ∧ (chan s c).railsGood = true ∧ (chan s c).brought = false) ∧
    (∃ (s : State) (c : Nat) (b : BringUp), s.mainUp = true ∧ c < 32 ∧ (chan s c).railsGood = true ∧ (chan s c).brought = false ∧ b.present = false) ∧
    (∃ (s : State) (c : Nat) (b : BringUp), s.mainUp = true ∧ c < 32 ∧ (chan s c).railsGood = true ∧ (chan s c).brought = false ∧ b.present = true ∧ b.identityOk = false) ∧
    (∃ (s : State) (c : Nat) (b : BringUp), s.mainUp = true ∧ c < 32 ∧ (chan s c).railsGood = true ∧ (chan s c).brought = false ∧ b.present = true ∧ b.identityOk = true ∧ (b.generation = 2 ∨ b.generation = 3) ∧ b.failSlow ≠ none ∧ ((b.generation = 3 → b.failFast ≠ none))) ∧
    (∃ (s : State) (c : Nat) (b : BringUp) (m : ModuleRec), s.mainUp = true ∧ c < 32 ∧ (chan s c).railsGood = true ∧ (chan s c).brought = false ∧ b.present = true ∧ b.identityOk = true ∧ b.badPagesOk = true ∧ tget s.sad.img.modules c = some m ∧ m.serial = b.serial ∧ b.generation = 3 ∧ b.failFast = none) ∧
    (∃ (s : State) (c : Nat) (b : BringUp) (m : ModuleRec), s.mainUp = true ∧ c < 32 ∧ (chan s c).railsGood = true ∧ (chan s c).brought = false ∧ b.present = true ∧ b.identityOk = true ∧ b.badPagesOk = true ∧ tget s.sad.img.modules c = some m ∧ m.serial = b.serial ∧ b.generation = 3 ∧ b.failFast ≠ none ∧ b.failSlow = none) ∧
    (∃ (s : State) (c : Nat) (b : BringUp) (m : ModuleRec), s.mainUp = true ∧ c < 32 ∧ (chan s c).railsGood = true ∧ (chan s c).brought = false ∧ b.present = true ∧ b.identityOk = true ∧ b.badPagesOk = true ∧ tget s.sad.img.modules c = some m ∧ m.serial = b.serial ∧ b.generation = 2 ∧ b.failSlow = none) ∧
    (∃ (s : State) (c : Nat) (b : BringUp) (m : ModuleRec), s.mainUp = true ∧ c < 32 ∧ (chan s c).railsGood = true ∧ (chan s c).brought = false ∧ b.present = true ∧ b.identityOk = true ∧ b.badPagesOk = true ∧ tget s.sad.img.modules c = some m ∧ m.serial ≠ b.serial ∧ b.generation = 2 ∧ b.failSlow = none) ∧
    (∃ (s : State) (c : Nat) (b : BringUp), s.mainUp = true ∧ c < 32 ∧ (chan s c).railsGood = true ∧ (chan s c).brought = false ∧ b.present = true ∧ b.identityOk = true ∧ b.badPagesOk = false ∧ b.generation = 2 ∧ b.failSlow = none) ∧
    (∃ (s : State) (c : Nat) (b : BringUp), s.mainUp = true ∧ c < 32 ∧ (chan s c).railsGood = true ∧ (chan s c).brought = false ∧ b.present = true ∧ b.identityOk = true ∧ b.badPagesOk = true ∧ tget s.sad.img.modules c = none ∧ b.generation = 2 ∧ b.failSlow = none ∧ s.boot.firstStart = true) ∧
    (∃ (s : State) (c : Nat) (b : BringUp), s.mainUp = true ∧ c < 32 ∧ (chan s c).railsGood = true ∧ (chan s c).brought = false ∧ b.present = true ∧ b.identityOk = true ∧ b.badPagesOk = true ∧ tget s.sad.img.modules c = none ∧ b.generation = 2 ∧ b.failSlow = none ∧ s.boot.firstStart = false ∧ rk 0x000C c ∉ s.boot.lostRecs) ∧
    (∃ (s : State) (c : Nat) (b : BringUp), s.mainUp = true ∧ (chan s c).brought = true) ∧
    (∃ (s : State) (c : Nat) (r : TempReply) (d : Int) (ds : List Int), s.mainUp = true ∧ inService (chan s c) = true ∧ r.crcOk = true ∧ r.dies = d :: ds) ∧
    (∃ (s : State) (c : Nat), s.mainUp = true ∧ inService (chan s c) = true ∧ (chan s c).tempMissing = false ∧ 64 ≤ (chan s c).tempMissStages) ∧
    (∃ (s : State) (c : Nat) (b : Nat), s.mainUp = true ∧ inService (chan s c) = true ∧ b < 128 ∧ s.planner.emergency = false ∧ (bankOf (chan s c) b).run = .idle ∧ claimed (chan s c) + (travFloor s c (chan s c).plan.m - ((chan s c).plan.m - (chan s c).maintLeft)) < (chan s c).maintLeft ∧ 2 ≤ (chan s c).slotsLeft) :=
  ⟨⟨({ wBase with chans := [(0, { wChan with crcRun := 1, banks := [(5, { run := .read wRead }), (7, { run := .pulse, seq := some (.reset 3 0 true 0 0 0) })] }), (3, wChan)] }), 0, by decide +kernel⟩,
    ⟨({ wBase with chans := [(0, { wChan with crcRun := 1, banks := [(5, { run := .read wRead }), (7, { run := .pulse, seq := some (.reset 3 0 true 0 0 0) })] }), (3, wChan)] }), 0, by decide +kernel⟩,
    ⟨wOff, 0, ({ wUp with generation := 2, badPagesOk := false }), by decide +kernel⟩,
    ⟨wOff, 0, ({ wUp with present := false }), by decide +kernel⟩,
    ⟨wOff, 0, ({ wUp with identityOk := false }), by decide +kernel⟩,
    ⟨wOff, 0, ({ wUp with failFast := some 5, failSlow := some 9 }), by decide +kernel⟩,
    ⟨wOff, 0, wUp, ({ serial := 77, gen := 3 }), by decide +kernel⟩,
    ⟨wOff, 0, ({ wUp with failFast := some 6 }), ({ serial := 77, gen := 3 }), by decide +kernel⟩,
    ⟨wOff, 0, ({ wUp with generation := 2 }), ({ serial := 77, gen := 3 }), by decide +kernel⟩,
    ⟨wOff, 0, ({ wUp with generation := 2, serial := 5 }), ({ serial := 77, gen := 3 }), by decide +kernel⟩,
    ⟨wOff, 0, ({ wUp with generation := 2, badPagesOk := false }), by decide +kernel⟩,
    ⟨({ wOff with sad := { wOff.sad with img := { wOff.sad.img with modules := [] } }, boot := { wOff.boot with firstStart := true } }), 0, ({ wUp with generation := 2 }), by decide +kernel⟩,
    ⟨({ wOff with sad := { wOff.sad with img := { wOff.sad.img with modules := [] } } }), 0, ({ wUp with generation := 2 }), by decide +kernel⟩,
    ⟨({ wOff with chans := [(0, { railsGood := true, brought := true })] }), 0, wUp, by decide +kernel⟩,
    ⟨({ wBase with chans := [(0, { wChan with tempMissing := true, outside := true }), (3, wChan)] }), 0, ({ crcOk := true, dies := [1281, 1200, 40], board := 3 }), 1281, ([1200, 40]), by decide +kernel⟩,
    ⟨({ wBase with chans := [(0, { wChan with tempMissStages := 64 }), (3, wChan)] }), 0, by decide +kernel⟩,
    ⟨wBase, 3, 127, by decide +kernel⟩⟩

/-- The hypotheses of each clause of ReadHit are met together. -/
theorem wit_ReadHit :
    (∃ (s : State) (q : MemReq) (e : ReadEnv) (leg : Nat) (k : Nat), Hits .rd q noData leg k s ∧ e.parity = 0 ∧ e.tagErr = .none ∧ (lineAt s k).valid.getLsbD (sectorOf q.dpa.toNat) = true) ∧
    (∃ (s : State) (q : MemReq) (e : ReadEnv) (leg : Nat) (k : Nat), Hits .rdData q noData leg k s ∧ e.parity = 0 ∧ e.tagErr = .none ∧ (lineAt s k).valid.getLsbD (sectorOf q.dpa.toNat) = true) ∧
    (∃ (s : State) (q : MemReq) (e : ReadEnv) (leg : Nat) (k : Nat) (op : MemOp) (c : Instr), ((op = .rd ∧ c = .memRd q e ∨ op = .rdData ∧ c = .memRdData q e)) ∧ Passes op q noData leg s ∧ 0 < (port s q.port).drsCredits ∧ isRetiring s (hashSlice (lpnOf leg q.dpa.toNat)) = false ∧ findWay s (lpnOf leg q.dpa.toNat) = some k ∧ (((lineAt s k).st = .clean ∨ (lineAt s k).st = .dirty)) ∧ (lineAt s k).poison = true ∧ e.parity = 0 ∧ e.tagErr = .none) :=
  ⟨⟨(wCache wLine), wReq, ({}), 10, 4, by unfold Hits Passes; decide +kernel⟩,
    ⟨(wCache wLine), wReq, ({}), 10, 4, by unfold Hits Passes; decide +kernel⟩,
    ⟨(wCache { wLine with poison := true, valid := 0, st := .dirty, dirty := 15 }), wReq, ({}), 10, 4, .rd, (.memRd wReq {}), by unfold Passes; decide +kernel⟩⟩

/-- The hypotheses of each clause of ReadMiss are met together. -/
theorem wit_ReadMiss :
    (∃ (s : State) (q : MemReq) (e : ReadEnv) (leg : Nat), Passes .rd q noData leg s ∧ isRetiring s (hashSlice (lpnOf leg q.dpa.toNat)) = false ∧ findWay s (lpnOf leg q.dpa.toNat) = none ∧ ((thas s.cache.fills (lpnOf leg q.dpa.toNat) = true ∨ fillsIn s (lpnOf leg q.dpa.toNat) < 512))) ∧
    (∃ (s : State) (q : MemReq) (e : ReadEnv) (leg : Nat) (k : Nat), Passes .specRd q noData leg s ∧ isRetiring s (hashSlice (lpnOf leg q.dpa.toNat)) = false ∧ findWay s (lpnOf leg q.dpa.toNat) = none ∧ thas s.cache.fills (lpnOf leg q.dpa.toNat) = false ∧ fillsIn s (lpnOf leg q.dpa.toNat) < 256 ∧ (setWays s (lpnOf leg q.dpa.toNat)).find? (fun w => (lineAt s w).st = .invalid) = some k) ∧
    (∃ (s : State) (q : MemReq) (e : ReadEnv) (leg : Nat), Passes .specRd q noData leg s ∧ isRetiring s (hashSlice (lpnOf leg q.dpa.toNat)) = false ∧ findWay s (lpnOf leg q.dpa.toNat) = none ∧ ((thas s.cache.fills (lpnOf leg q.dpa.toNat) = true ∨ 256 ≤ fillsIn s (lpnOf leg q.dpa.toNat)))) :=
  ⟨⟨wBase, wReq, ({}), 10, by unfold Passes; decide +kernel⟩,
    ⟨wBase, wReq, ({}), 10, wWay, by unfold Passes; decide +kernel⟩,
    ⟨({ wBase with cache := { fills := [(wLpn, {})] } }), wReq, ({}), 10, by unfold Passes; decide +kernel⟩⟩

/-- The hypotheses of each clause of WritesAndInvalidates are met together. -/
theorem wit_WritesAndInvalidates :
    (∃ (s : State) (q : MemReq) (w : WrData) (e : ReadEnv) (leg : Nat) (k : Nat), Hits .wr q w leg k s ∧ e.tagErr = .none ∧ WritesFreely k s) ∧
    (∃ (s : State) (q : MemReq) (w : WrData) (e : ReadEnv) (leg : Nat) (k : Nat), Hits .wrPtl q w leg k s ∧ e.tagErr = .none ∧ WritesFreely k s ∧ (lineAt s k).valid.getLsbD (sectorOf q.dpa.toNat) = true) ∧
    (∃ (s : State) (q : MemReq) (w : WrData) (e : ReadEnv) (leg : Nat) (k : Nat), Hits .wrPtl q w leg k s ∧ e.tagErr = .none ∧ WritesFreely k s ∧ (lineAt s k).valid.getLsbD (sectorOf q.dpa.toNat) = false ∧ ((thas s.cache.fills (lpnOf leg q.dpa.toNat) = true ∨ fillsIn s (lpnOf leg q.dpa.toNat) < 512))) ∧
    (∃ (s : State) (q : MemReq) (leg : Nat), Passes .inv q noData leg s ∧ 0 < (port s q.port).ndrCredits) ∧
    (∃ (s : State) (q : MemReq) (leg : Nat), Passes .invNt q noData leg s ∧ 0 < (port s q.port).ndrCredits) ∧
    (∃ (s : State) (q : MemReq) (leg : Nat), Passes .clnEvct q noData leg s ∧ 0 < (port s q.port).ndrCredits) :=
  ⟨⟨(wCache wLine), ({ wReq with dpa := 192 }), ({ data := 99 }), ({}), 10, 4, by unfold Hits Passes WritesFreely; decide +kernel⟩,
    ⟨(wCache wLine), wReq, ({ data := 99, be := 1 }), ({}), 10, 4, by unfold Hits Passes WritesFreely; decide +kernel⟩,
    ⟨(wCache wLine), ({ wReq with dpa := 192 }), ({ data := 99, be := 1 }), ({}), 10, 4, by unfold Hits Passes WritesFreely; decide +kernel⟩,
    ⟨wBase, ({ wReq with dpa := 1073741888 }), 11, by unfold Passes; decide +kernel⟩,
    ⟨wBase, ({ wReq with dpa := 1073741888 }), 11, by unfold Passes; decide +kernel⟩,
    ⟨wBase, ({ wReq with dpa := 1073741888 }), 11, by unfold Passes; decide +kernel⟩⟩

/-- The hypotheses of each clause of TollgateChecks are met together. -/
theorem wit_TollgateChecks :
    (∃ (s : State) (q : MemReq) (e : ReadEnv), s.mainUp = true ∧ (port s q.port).up = true ∧ s.belay.step = 0 ∧ interim s = false ∧ q.link = 0 ∧ (port s q.port).reqCredits ≠ 0 ∧ ldConfigured s q.port q.ld = true ∧ ((∀ r ∈ (port s q.port).reqs ++ (port s q.port).oldReqs, r.ld ≠ q.ld ∨ r.tag ≠ q.tag)) ∧ ((∀ r ∈ (port s q.port).ingress, r.ld ≠ q.ld)) ∧ tenantLd s (ldKey q.port q.ld) = true ∧ ldFrozen s q.port q.ld = true) ∧
    (∃ (s : State) (q : MemReq) (e : ReadEnv), s.mainUp = true ∧ (port s q.port).up = true ∧ s.belay.step = 0 ∧ interim s = false ∧ q.link = 0 ∧ (port s q.port).reqCredits ≠ 0 ∧ ldConfigured s q.port q.ld = true ∧ ((∀ r ∈ (port s q.port).reqs ++ (port s q.port).oldReqs, r.ld ≠ q.ld ∨ r.tag ≠ q.tag)) ∧ ((∀ r ∈ (port s q.port).ingress, r.ld ≠ q.ld)) ∧ tenantLd s (ldKey q.port q.ld) = true ∧ ldFrozen s q.port q.ld = false ∧ q.malformed ≠ 0) ∧
    (∃ (s : State) (q : MemReq) (e : ReadEnv), s.mainUp = true ∧ (port s q.port).up = true ∧ s.belay.step = 0 ∧ interim s = false ∧ q.link = 0 ∧ (port s q.port).reqCredits ≠ 0 ∧ ldConfigured s q.port q.ld = true ∧ ((∀ r ∈ (port s q.port).reqs ++ (port s q.port).oldReqs, r.ld ≠ q.ld ∨ r.tag ≠ q.tag)) ∧ ((∀ r ∈ (port s q.port).ingress, r.ld ≠ q.ld)) ∧ tenantLd s (ldKey q.port q.ld) = true ∧ ldFrozen s q.port q.ld = false ∧ q.malformed = 0 ∧ (ldAt s (ldKey q.port q.ld)).map.opcodes.getLsbD 0 = false) ∧
    (∃ (s : State) (q : MemReq) (e : ReadEnv), s.mainUp = true ∧ (port s q.port).up = true ∧ s.belay.step = 0 ∧ interim s = false ∧ q.link = 0 ∧ (port s q.port).reqCredits ≠ 0 ∧ ldConfigured s q.port q.ld = true ∧ ((∀ r ∈ (port s q.port).reqs ++ (port s q.port).oldReqs, r.ld ≠ q.ld ∨ r.tag ≠ q.tag)) ∧ ((∀ r ∈ (port s q.port).ingress, r.ld ≠ q.ld)) ∧ tenantLd s (ldKey q.port q.ld) = true ∧ ldFrozen s q.port q.ld = false ∧ q.malformed = 0 ∧ (ldAt s (ldKey q.port q.ld)).map.opcodes.getLsbD 0 = true ∧ (ldAt s (ldKey q.port q.ld)).map.outstanding ≤ (ldAt s (ldKey q.port q.ld)).outstanding) ∧
    (∃ (s : State) (q : MemReq) (e : ReadEnv), s.mainUp = true ∧ (port s q.port).up = true ∧ s.belay.step = 0 ∧ interim s = false ∧ q.link = 0 ∧ (port s q.port).reqCredits ≠ 0 ∧ ldConfigured s q.port q.ld = true ∧ ((∀ r ∈ (port s q.port).reqs ++ (port s q.port).oldReqs, r.ld ≠ q.ld ∨ r.tag ≠ q.tag)) ∧ ((∀ r ∈ (port s q.port).ingress, r.ld ≠ q.ld)) ∧ tenantLd s (ldKey q.port q.ld) = true ∧ ldFrozen s q.port q.ld = false ∧ q.malformed = 0 ∧ (ldAt s (ldKey q.port q.ld)).map.opcodes.getLsbD 0 = true ∧ (ldAt s (ldKey q.port q.ld)).outstanding < (ldAt s (ldKey q.port q.ld)).map.outstanding ∧ rangePos (ldAt s (ldKey q.port q.ld)).map.ranges (q.dpa.toNat / gib) = none ∧ inGrace (tbNow s) (ldAt s (ldKey q.port q.ld)) (q.dpa.toNat / gib) = false) ∧
    (∃ (s : State) (q : MemReq) (op : Nat) (d : Bool), s.mainUp = true ∧ (port s q.port).up = true ∧ s.belay.step = 0 ∧ interim s = false ∧ isFrozen s (portMaster q.port) = false) ∧
    (∃ (s : State) (q : MemReq) (op : Nat) (d : Bool), s.mainUp = true ∧ (port s q.port).up = true ∧ s.belay.step = 0 ∧ interim s = false ∧ q.link = 0 ∧ q.malformed = 0 ∧ (port s q.port).reqCredits ≠ 0 ∧ ldConfigured s q.port q.ld = true ∧ ((∀ r ∈ (port s q.port).reqs ++ (port s q.port).oldReqs ++ (port s q.port).ingress, r.ld ≠ q.ld ∨ r.tag ≠ q.tag)) ∧ tenantLd s (ldKey q.port q.ld) = true ∧ ldFrozen s q.port q.ld = false) :=
  ⟨⟨({ wBase with gate := { freezes := [{ master := portMaster 0, code := 0x0208, addr := 0, detail := 0, tb := 0 }] } }), ({ wReq with malformed := 2 }), ({}), by decide +kernel⟩,
    ⟨wBase, ({ wReq with malformed := 4 }), ({}), by decide +kernel⟩,
    ⟨(wLd (fun l => { l with map := { l.map with opcodes := 0x7E } })), wReq, ({}), by decide +kernel⟩,
    ⟨(wLd (fun l => { l with outstanding := 64 })), wReq, ({}), by decide +kernel⟩,
    ⟨wBase, ({ wReq with dpa := 2147483648 }), ({}), by decide +kernel⟩,
    ⟨wBase, wReq, 3, true, by decide +kernel⟩,
    ⟨wBase, wReq, 3, false, by decide +kernel⟩⟩

/-- The hypotheses of each clause of FillsComplete are met together. -/
theorem wit_FillsComplete :
    (∃ (s : State) (lpn : Nat) (k : Nat) (parity : BitVec 4) (f : Fill) (d : Parcel) (r : Req), s.mainUp = true ∧ tget s.cache.fills lpn = some f ∧ f.st = .ready d ∧ f.waiters = [r] ∧ r.op.isRead = true ∧ r.tagKind = .reserved ∧ s.cache.waiting = [] ∧ 0 < (port s r.port).drsCredits ∧ (port s r.port).oldReqs = [] ∧ findWay s lpn = some k ∧ f.drop = false ∧ s.cache.online.getLsbD (k / 32768) = true ∧ parity &&& (lineAt s k).valid = 0 ∧ (lineAt s k).dropOnFill = false ∧ (lineAt s k).poison = false) ∧
    (∃ (s : State) (lpn : Nat) (k : Nat) (parity : BitVec 4) (f : Fill) (r : Req), s.mainUp = true ∧ tget s.cache.fills lpn = some f ∧ f.st = .readyPoison ∧ f.waiters = [r] ∧ r.op.isRead = true ∧ r.tagKind = .reserved ∧ s.cache.waiting = [] ∧ 0 < (port s r.port).drsCredits ∧ (port s r.port).oldReqs = [] ∧ findWay s lpn = some k ∧ f.drop = false ∧ s.cache.online.getLsbD (k / 32768) = true ∧ parity &&& (lineAt s k).valid = 0 ∧ (lineAt s k).dropOnFill = false) ∧
    (∃ (s : State) (lpn : Nat) (k : Nat), s.mainUp = true ∧ s.belay.step = 0 ∧ findWay s lpn = some k ∧ (lineAt s k).st = .dirty ∧ (lineAt s k).poison = false ∧ (lineAt s k).valid ≠ 15 ∧ (lineAt s k).partialSince + 2 ≤ s.planner.stage ∧ ((thas s.cache.fills lpn = true ∨ fillsIn s lpn < 512))) ∧
    (∃ (s : State) (lpn : Nat) (t0 : Nat), s.mainUp = true ∧ tget s.way.heldLookups lpn = some t0 ∧ t0 + 2000000 ≤ tbNow s ∧ stripeHeld s lpn = true) :=
  ⟨⟨({ wCache { wLine with st := .filling, valid := 2, dirty := 2 } with cache := { (wCache { wLine with st := .filling, valid := 2, dirty := 2 }).cache with fills := [(wLpn, { st := .ready #v[11, 12, 13, 14], waiters := [wWait], part := 1 })] } }), wLpn, 4, 0, ({ st := .ready #v[11, 12, 13, 14], waiters := [wWait], part := 1 }), (#v[11, 12, 13, 14]), wWait, by decide +kernel⟩,
    ⟨({ wCache { wLine with st := .filling, valid := 2, dirty := 2 } with cache := { (wCache { wLine with st := .filling, valid := 2, dirty := 2 }).cache with fills := [(wLpn, { st := .readyPoison, waiters := [wWait], part := 1 })] } }), wLpn, 4, 0, ({ st := .readyPoison, waiters := [wWait], part := 1 }), wWait, by decide +kernel⟩,
    ⟨(wCache { wLine with st := .dirty, dirty := 2, partialSince := 38 }), wLpn, 4, by decide +kernel⟩,
    ⟨({ wBase with way := { heldLookups := [(wLpn, 4998000000)], heldStripes := (pagesOf wLpn).map stripeOf }, cache := { fills := [(wLpn, { waiters := [wWait] })] } }), wLpn, 4998000000, by decide +kernel⟩⟩

/-- The hypotheses of each clause of Evictions are met together. -/
theorem wit_Evictions :
    (∃ (s : State) (s' : State) (t' : State) (lpn : Nat) (k : Nat) (ch : Nat) (ppa : Nat) (e : ReadEnv) (d : EvDue) (key : KeySet), s.mainUp = true ∧ s.cache.evDue.find? (fun d => d.lpn = lpn) = some d ∧ findWay s lpn = some k ∧ (lineAt s k).st = .dirty ∧ (lineAt s k).valid = 15 ∧ (lineAt s k).poison = false ∧ (lineAt s k).maint = false ∧ (lineAt s k).dropOnFill = false ∧ e.parity = 0 ∧ e.tagErr = .none ∧ s.sealCtl.zeroed = false ∧ s.belay.step = 0 ∧ s' = fetchPath e.nodes lpn s ∧ underRetired s' lpn = false ∧ underLost s' lpn = false ∧ rollWaits s' lpn (lineAt s k).part = false ∧ counterWaits s' lpn = false ∧ placeHost s' = some (ch, ppa, t') ∧ sealKey s' (lineAt s k).part lpn = some key ∧ mayEvict s' d ch = true ∧ (leafAt s' (lpn / 64)).minors[minorIdx lpn] ≠ 127) ∧
    (∃ (s : State) (lpn : Nat) (k : Nat) (p : PendEv) (w : WbEntry), s.mainUp = true ∧ tget s.cache.pend lpn = some p ∧ p.atOrder = false ∧ p.poison = false ∧ s.cache.waiting = [] ∧ s.cache.fills = [] ∧ findWay s lpn = some k ∧ (lineAt s k).st = .evicting ∧ (lineAt s k).dropOnFill = false ∧ s.cache.online.getLsbD (k / 32768) = true ∧ wbEntry s p.ch lpn p.ppa = some w ∧ w.dropped = false) :=
  ⟨⟨wEv, (fetchPath [] wLpn wEv), ((placeHost (fetchPath [] wLpn wEv)).elim wEv (fun p => p.2.2)), wLpn, 4, ((placeHost (fetchPath [] wLpn wEv)).elim 0 (fun p => p.1)), ((placeHost (fetchPath [] wLpn wEv)).elim 0 (fun p => p.2.1)), ({}), ({ lpn := wLpn, why := .victim, creditPart := 1 }), wKeys, by decide +kernel⟩,
    ⟨({ wCache { wLine with st := .evicting, valid := 15, dirty := 15 } with cache := { (wCache { wLine with st := .evicting, valid := 15, dirty := 15 }).cache with pend := [(wLpn, { ch := 0, keep := true, ppa := 5 * 134217728 + 3 })] }, chans := [(0, { wChan with wbuf := [wBuf] })] }), wLpn, 4, ({ ch := 0, keep := true, ppa := 5 * 134217728 + 3 }), wBuf, by decide +kernel⟩⟩

/-- The hypotheses of each clause of CacheUpkeep are met together. -/
theorem wit_CacheUpkeep :
    (∃ (s : State) (r : Req), s.mainUp = true ∧ s.cache.budgetWait = [r] ∧ r.op = .wr ∧ s.belay.step = 0 ∧ isRetiring s (hashSlice r.lpn) = false ∧ r.health ≠ 2 ∧ r.health ≠ 3 ∧ r.health ≠ 4 ∧ dirtyLimit s ≠ 0 ∧ dirtyLimit s ≤ dirtyCount s ∧ ((∀ k, findWay s r.lpn = some k → (lineAt s k).st = .clean))) ∧
    (∃ (s : State) (r : Req) (k : Nat), s.mainUp = true ∧ s.cache.budgetWait = [r] ∧ r.op = .wr ∧ r.wr.poison = false ∧ r.tagKind = .reserved ∧ (port s r.port).oldReqs = [] ∧ 0 < (port s r.port).ndrCredits ∧ isRetiring s (hashSlice r.lpn) = false ∧ r.health ≠ 2 ∧ s.belay.step = 0 ∧ r.health ≠ 3 ∧ r.health ≠ 4 ∧ findWay s r.lpn = some k ∧ (lineAt s k).st = .clean ∧ (lineAt s k).poison = false ∧ dirtyLimit s ≠ 0 ∧ dirtyCount s < dirtyLimit s) ∧
    (∃ (s : State) (z : Nat), s.mainUp = true ∧ s.cache.online.getLsbD z = true ∧ s.belay.step = 0 ∧ 7 * dirtyLimit s < sliceDirty s z * 8 * (onlineSlices s.cache.online).length ∧ 0 < sliceDirty s z - leaving s z - 3 * dirtyLimit s / (4 * (onlineSlices s.cache.online).length) ∧ (dirtiestSet s z).isSome = true) ∧
    (∃ (s : State) (lpn : Nat) (k : Nat) (e : ReadEnv), s.mainUp = true ∧ s.belay.step = 0 ∧ findWay s lpn = some k ∧ e.tagErr = .none ∧ (((lineAt s k).st = .clean ∨ (lineAt s k).st = .dirty)) ∧ (lineAt s k).poison = false ∧ e.parity &&& (lineAt s k).valid ≠ 0 ∧ e.parity &&& (lineAt s k).valid &&& (lineAt s k).dirty = 0 ∧ ((thas s.cache.fills lpn = true ∨ fillsIn s lpn < 512))) ∧
    (∃ (s : State) (lpn : Nat) (k : Nat) (e : ReadEnv), s.mainUp = true ∧ findWay s lpn = some k ∧ e.tagErr = .none ∧ (lineAt s k).st = .dirty ∧ e.parity &&& (lineAt s k).valid &&& (lineAt s k).dirty ≠ 0) ∧
    (∃ (s : State) (z : Nat), s.mainUp = true ∧ isRetiring s z = true ∧ sliceHolds s z = false ∧ s.cache.heldReqs = []) :=
  ⟨⟨({ wBase with belay := { wBase.belay with s := 1 }, cache := { lines := (List.range 384).map (fun i => (i, { lpn := i, st := .dirty })), budgetWait := [{ wWait with op := .wr }] } }), ({ wWait with op := .wr }), by decide +kernel⟩,
    ⟨({ wCache wLine with cache := { (wCache wLine).cache with budgetWait := [{ wWait with op := .wr, wr := { data := 88 } }] } }), ({ wWait with op := .wr, wr := { data := 88 } }), 4, by decide +kernel⟩,
    ⟨({ wCache { wLine with st := .dirty } with belay := { wBase.belay with s := 0 } }), 0, by decide +kernel⟩,
    ⟨(wCache { wLine with st := .dirty, dirty := 2 }), wLpn, 4, ({ parity := 13 }), by decide +kernel⟩,
    ⟨(wCache { wLine with st := .dirty, dirty := 2 }), wLpn, 4, ({ parity := 2 }), by decide +kernel⟩,
    ⟨({ wBase with cache := { retiring := [{ slice := 3, tb := 0, drained := 5 }, { slice := 4, tb := 0, drained := 0 }], online := 0xFFE7 } }), 3, by decide +kernel⟩⟩

/-- The hypotheses of each clause of PortAndTollgateTimers are met together. -/
theorem wit_PortAndTollgateTimers :
    (∃ (s : State) (p : Nat) (t0 : Nat), s.mainUp = true ∧ (port s p).up = true ∧ (port s p).withheldSince = some t0 ∧ (port s p).withheldRec = false ∧ t0 + 10000000 ≤ tbNow s) ∧
    (∃ (s : State) (p : Nat) (ndr : Nat) (drs : Nat) (r0 : Nat) (r : Req) (k : RespKind), s.mainUp = true ∧ (port s p).up = true ∧ (port s p).ingress = [] ∧ (port s p).held = [(r0, r, k)] ∧ r.port = p ∧ r.ld < 17 ∧ 0 < (if k = .cmp then (port s p).ndrCredits + ndr else (port s p).drsCredits + drs)) ∧
    (∃ (s : State) (p : Nat) (ndr : Nat) (drs : Nat), s.mainUp = true ∧ (port s p).up = true ∧ (port s p).ingress = [] ∧ (port s p).held = []) ∧
    (∃ (s : State) (p : Nat) (l : Nat) (tag : Nat) (r : Req), s.mainUp = true ∧ (port s p).reqs.find? (fun r => r.ld == l && r.tag == tag && !r.aged && decide (r.stamp + 25000000 ≤ tbNow s)) = some r ∧ (port s p).held = []) ∧
    (∃ (s : State) (p : Nat) (n : Nat), s.mainUp = true ∧ (port s p).up = true) ∧
    (∃ (s : State) (p : Nat) (l : Nat) (n : Nat), s.mainUp = true ∧ (ldAt s (ldKey p l)).pendingOut = some n ∧ (ldAt s (ldKey p l)).outstanding ≤ n) ∧
    (∃ (s : State), s.mainUp = true) ∧
    (∃ (s : State) (p : Nat) (l : Nat) (leg : Nat), s.mainUp = true) ∧
    (∃ (s : State) (f : Freeze), s.mainUp = true ∧ s.gate.freezes = [f] ∧ tget s.sad.img.freezes (freezeSlot f.master) ≠ some f) :=
  ⟨⟨(modPort 0 (fun p => { p with withheldSince := some 4980000000 }) wBase), 0, 4980000000, by decide +kernel⟩,
    ⟨(modPort 0 (fun p => { p with withheldSince := some 4980000000, held := [(4999999000, wWait, .cmp)], reqs := [wWait] }) wBase), 0, 5, 0, 4999999000, wWait, .cmp, by decide +kernel⟩,
    ⟨wBase, 0, 7, 0, by decide +kernel⟩,
    ⟨(modPort 0 (fun p => { p with reqs := [{ wWait with stamp := 4975000000 }, { wWait with tag := 3, stamp := 0 }] }) wBase), 0, 0, 9, ({ wWait with stamp := 4975000000 }), by decide +kernel⟩,
    ⟨wBase, 0, 12, by decide +kernel⟩,
    ⟨(wLd (fun l => { l with pendingOut := some 4, outstanding := 4 })), 0, 0, 4, by decide +kernel⟩,
    ⟨(wLd (fun l => { l with poisonCnt := 4 })), by decide +kernel⟩,
    ⟨(wLd (fun l => { l with graces := [{ dpaLeg := 5, count := 1 }, { dpaLeg := 7, count := 1 }] })), 0, 0, 5, by decide +kernel⟩,
    ⟨({ wBase with gate := { freezes := [{ master := ldMaster 0 1, code := 0x0203, addr := 0, detail := 0, tb := 0 }] } }), ({ master := ldMaster 0 1, code := 0x0203, addr := 0, detail := 0, tb := 0 }), by decide +kernel⟩⟩

/-- The hypotheses of each clause of Training are met together. -/
theorem wit_Training :
    (∃ (s : State) (p : Nat) (g : Nat) (m : Nat) (i : Nat) (x : Partner), s.mainUp = true ∧ groupOf s p = some (g, m, i) ∧ (port s p).up = false ∧ (port s p).stayDown = false ∧ (port s p).retryDue = false ∧ s.ports.perst.getLsbD g = false ∧ s.survey.instr ≠ 0 ∧ 4 ≤ min (tgetD (governing s).ports p {}).maxGen x.gen ∧ (port s p).oldReqs = []) ∧
    (∃ (s : State) (p : Nat) (rate : Nat), s.mainUp = true ∧ (groupOf s p).isSome = true ∧ (port s p).stayDown = false) ∧
    (∃ (s : State) (p : Nat), s.mainUp = true) :=
  ⟨⟨wBase, 1, 1, 0, 0, ({ gen := 4, width := 32, cxl := 0x20 }), by decide +kernel⟩,
    ⟨(modPort 0 (fun p => { p with fails := 2 }) wBase), 0, 3, by decide +kernel⟩,
    ⟨(modPort 1 (fun p => { p with retryDue := true }) wBase), 1, by decide +kernel⟩⟩

/-- The hypotheses of each clause of PortResets are met together. -/
theorem wit_PortResets :
    (∃ (s : State) (p : Nat) (c : Instr), s.mainUp = true ∧ (port s p).up = true ∧ (c = Instr.linkDown p ∨ c = Instr.linkDisable p)) ∧
    (∃ (s : State) (p : Nat), s.mainUp = true ∧ (groupOf s p).isSome = true) ∧
    (∃ (s : State) (g : Nat), s.mainUp = true ∧ g < 8 ∧ s.ports.perst.getLsbD g = false) ∧
    (∃ (s : State) (g : Nat), s.mainUp = true ∧ g < 8 ∧ s.ports.perst.getLsbD g = true) :=
  ⟨⟨wBusy, 0, (Instr.linkDown 0), by decide +kernel⟩,
    ⟨(modPort 0 (fun p => { p with fails := 2 }) wBusy), 0, by decide +kernel⟩,
    ⟨wBusy, 0, by decide +kernel⟩,
    ⟨({ wBase with ports := { wBase.ports with perst := 2 } }), 1, by decide +kernel⟩⟩

/-- The hypotheses of each clause of LdResets are met together. -/
theorem wit_LdResets :
    (∃ (s : State) (p : Nat) (l : Nat), s.mainUp = true ∧ ldConfigured s p l = true) ∧
    (∃ (s : State) (p : Nat) (l : Nat) (b : Bool), s.mainUp = true ∧ ldConfigured s p l = true ∧ (port s p).up = true ∧ (port s p).cxl ≠ 0x11) ∧
    (∃ (s : State) (p : Nat) (l : Nat) (ty : Nat) (ep : Bool), s.mainUp = true ∧ (port s p).up = true) ∧
    (∃ (s : State) (p : Nat) (n : Nat), s.mainUp = true ∧ (port s p).up = true ∧ (port s p).cxl ≠ 0x11 ∧ s.belay.step = 0) ∧
    (∃ (s : State) (p : Nat) (n : Nat), s.mainUp = true ∧ (port s p).up = true ∧ (port s p).cxl ≠ 0x11 ∧ s.belay.step = 0 ∧ writesWaiting s p = false) :=
  ⟨⟨wBusy, 0, 16, by decide +kernel⟩,
    ⟨wBusy, 0, 1, true, by decide +kernel⟩,
    ⟨wBase, 0, 1, 2, true, by decide +kernel⟩,
    ⟨wBase, 0, 5, by decide +kernel⟩,
    ⟨wBase, 0, 5, by decide +kernel⟩⟩

/-- The hypotheses of each clause of RangeOperations are met together. -/
theorem wit_RangeOperations :
    (∃ (s : State) (p : Path) (b : Bg) (kind : Nat) (part : Nat) (start : Nat) (len : Nat) (next : Nat) (t0 : Nat) (lpn : Nat) (ld : Option Nat) (ev : List Nat), s.mainUp = true ∧ (ctx s p).bg = some b ∧ b.job = .range kind part start len next ld t0 ev false ∧ next < len ∧ rangeFrozen s p = false ∧ rangeLpn s part ld (start + next) = some lpn ∧ kind = 0 ∧ findWay s lpn = none ∧ thas s.cache.fills lpn = false) ∧
    (∃ (s : State) (p : Path) (b : Bg) (kind : Nat) (part : Nat) (start : Nat) (len : Nat) (next : Nat) (t0 : Nat) (lpn : Nat) (ld : Option Nat) (ev : List Nat) (k : Nat), s.mainUp = true ∧ (ctx s p).bg = some b ∧ b.job = .range kind part start len next ld t0 ev false ∧ next < len ∧ rangeFrozen s p = false ∧ rangeLpn s part ld (start + next) = some lpn ∧ kind = 0 ∧ findWay s lpn = some k ∧ (lineAt s k).st = .dirty ∧ s.cache.evDue = []) ∧
    (∃ (s : State) (p : Path) (b : Bg) (kind : Nat) (part : Nat) (start : Nat) (len : Nat) (next : Nat) (t0 : Nat) (lpn : Nat) (ld : Option Nat) (ev : List Nat) (k : Nat), s.mainUp = true ∧ (ctx s p).bg = some b ∧ b.job = .range kind part start len next ld t0 ev false ∧ next < len ∧ rangeFrozen s p = false ∧ rangeLpn s part ld (start + next) = some lpn ∧ kind = 1 ∧ findWay s lpn = some k ∧ (lineAt s k).st = .clean) ∧
    (∃ (s : State) (p : Path) (b : Bg) (kind : Nat) (part : Nat) (start : Nat) (len : Nat) (next : Nat) (t0 : Nat) (lpn : Nat) (ld : Option Nat) (ev : List Nat) (k : Nat), s.mainUp = true ∧ (ctx s p).bg = some b ∧ b.job = .range kind part start len next ld t0 ev false ∧ next < len ∧ rangeFrozen s p = false ∧ rangeLpn s part ld (start + next) = some lpn ∧ kind < 2 ∧ findWay s lpn = some k ∧ (lineAt s k).st = .evicting) ∧
    (∃ (s : State) (p : Path) (b : Bg) (kind : Nat) (part : Nat) (start : Nat) (len : Nat) (next : Nat) (t0 : Nat) (lpn : Nat) (ld : Option Nat) (ev : List Nat) (k : Nat), s.mainUp = true ∧ (ctx s p).bg = some b ∧ b.job = .range kind part start len next ld t0 ev false ∧ next < len ∧ rangeFrozen s p = false ∧ rangeLpn s part ld (start + next) = some lpn ∧ kind = 2 ∧ findWay s lpn = some k ∧ (lineAt s k).st = .dirty ∧ (lineAt s k).dropOnFill = false ∧ writeLost s s.health.st = false) ∧
    (∃ (s : State) (p : Path) (b : Bg) (kind : Nat) (part : Nat) (start : Nat) (len : Nat) (next : Nat) (t0 : Nat) (ld : Option Nat) (ev : List Nat) (met : Bool), s.mainUp = true ∧ (ctx s p).bg = some b ∧ b.job = .range kind part start len next ld t0 ev met ∧ next < len ∧ rangeFrozen s p = true) ∧
    (∃ (s : State) (p : Path) (b : Bg) (kind : Nat) (part : Nat) (start : Nat) (len : Nat) (next : Nat) (t0 : Nat) (ld : Option Nat) (ev : List Nat) (met : Bool), s.mainUp = true ∧ (ctx s p).bg = some b ∧ b.job = .range kind part start len next ld t0 ev met ∧ len ≤ next ∧ ((kind = 2 ∨ rangeVerified s ev = true))) ∧
    (∃ (s : State) (p : Path) (b : Bg) (kind : Nat) (part : Nat) (start : Nat) (len : Nat) (next : Nat) (t0 : Nat) (ld : Option Nat) (ev : List Nat) (met : Bool), s.mainUp = true ∧ (ctx s p).bg = some b ∧ b.job = .range kind part start len next ld t0 ev met ∧ t0 + 1000000000 ≤ tbNow s ∧ nextChannel s = none) :=
  ⟨⟨(wRangeOn wBase (wRange 0 256 [])), (.ld 0 16), (wRange 0 256 []), 0, 1, 0, 512, 256, 3000000000, (wLpn + 1), none, ([]), by decide +kernel⟩,
    ⟨(wRangeOn (wCache wLine) (wRange 0 256 [3])), (.ld 0 16), (wRange 0 256 [3]), 0, 1, 0, 512, 256, 3000000000, (wLpn + 1), none, ([3]), 3, by decide +kernel⟩,
    ⟨(wRangeOn (wCache wLine) (wRange 1 0 [])), (.ld 0 16), (wRange 1 0 []), 1, 1, 0, 512, 0, 3000000000, wLpn, none, ([]), 4, by decide +kernel⟩,
    ⟨(wRangeOn (wCache { wLine with st := .evicting }) (wRange 1 0 [])), (.ld 0 16), (wRange 1 0 []), 1, 1, 0, 512, 0, 3000000000, wLpn, none, ([]), 4, by decide +kernel⟩,
    ⟨(wRangeOn (wCache wLine) (wRange 2 256 [])), (.ld 0 16), (wRange 2 256 []), 2, 1, 0, 512, 256, 3000000000, (wLpn + 1), none, ([]), 3, by decide +kernel⟩,
    ⟨({ (modLd 0 (fun l => { l with mbox := { bg := some (wRange 0 256 []) } }) wBase) with gate := { freezes := [{ master := ldMaster 0 0, code := 0x0201, addr := 0, detail := 0, tb := 0 }] } }), (.ld 0 0), (wRange 0 256 []), 0, 1, 0, 512, 256, 3000000000, none, ([]), false, by decide +kernel⟩,
    ⟨(wRangeOn wBase (wRange 1 512 [wLpn])), (.ld 0 16), (wRange 1 512 [wLpn]), 1, 1, 0, 512, 512, 3000000000, none, ([wLpn]), false, by decide +kernel⟩,
    ⟨({ wRangeOn wBase (wRange 1 256 []) with chans := [(0, { wChan with tempMissing := true })] }), (.ld 0 16), (wRange 1 256 []), 1, 1, 0, 512, 256, 3000000000, none, ([]), false, by decide +kernel⟩⟩

/-- The hypotheses of each clause of CounterTree are met together. -/
theorem wit_CounterTree :
    (∃ (s : State) (s' : State) (lpn : Nat) (c : Companion), s.mainUp = true ∧ thas s.sealCtl.companions (lpn / 64) = true ∧ (tgetD s.sealCtl.companions (lpn / 64) c).done.getLsbD (lpn % 64) = false ∧ s.sealCtl.zeroed = false ∧ s.health.st ≠ 5 ∧ lookupHeld s lpn = false ∧ resealRuns s lpn = false ∧ sealsItself s lpn = false ∧ s' = fetchPath [] lpn s ∧ underLost s' lpn = false ∧ tget s'.sealCtl.companions (lpn / 64) = some c ∧ unwritten s' lpn = true) ∧
    (∃ (s : State) (s' : State) (lpn : Nat) (c : Companion) (k : Nat) (p : Nat) (ch : Nat) (ppa : Nat) (t' : State) (key : KeySet), s.mainUp = true ∧ thas s.sealCtl.companions (lpn / 64) = true ∧ (tgetD s.sealCtl.companions (lpn / 64) c).done.getLsbD (lpn % 64) = false ∧ s.sealCtl.zeroed = false ∧ s.health.st ≠ 5 ∧ lookupHeld s lpn = false ∧ resealRuns s lpn = false ∧ sealsItself s lpn = false ∧ s' = fetchPath [] lpn s ∧ underLost s' lpn = false ∧ tget s'.sealCtl.companions (lpn / 64) = some c ∧ lookup s' lpn = .at_ p ∧ findWay s lpn = some k ∧ (lineAt s k).st = .clean ∧ (lineAt s k).valid = 15 ∧ (lineAt s k).poison = false ∧ (tgetD s.sealCtl.companions (lpn / 64) c).part = c.part ∧ sealKey s' c.part lpn = some key ∧ placeHost s' = some (ch, ppa, t') ∧ 1024 ≤ wrCredit s' c.part ch) ∧
    (∃ (s : State) (i : Nat), s.mainUp = true ∧ treeMay s = true ∧ i < nodesOf (legSpace s) 1 ∧ ((∀ j ∈ fourNodes s 1 (i / 4), resident s 1 j = true)) ∧ (leafAt s i).dirty = true ∧ parcelWaits s 1 (i / 4) = false ∧ s.sealCtl.ckptLevel = some 1) ∧
    (∃ (s : State), s.mainUp = true ∧ treeMay s = true ∧ s.sealCtl.ckptLevel = none ∧ s.sealCtl.ckptTb + 10000000000 ≤ tbNow s ∧ s.sealCtl.dirtyOrder = [] ∧ ((∀ l, treeFlying s l = false))) ∧
    (∃ (s : State) (i : Nat), s.mainUp = true ∧ treeMay s = true ∧ s.sealCtl.ckptLevel = none ∧ s.sealCtl.ckptTb + 10000000000 ≤ tbNow s ∧ s.sealCtl.dirtyOrder = [nodeKey 1 i] ∧ i < nodesOf (legSpace s) 1 ∧ i < 1099511627776 ∧ (leafAt s i).dirty = true ∧ ((∀ j ∈ fourNodes s 1 (i / 4), resident s 1 j = true)) ∧ parcelWaits s 1 (i / 4) = false) ∧
    (∃ (s : State) (level : Nat) (idx : Nat) (n : LostNode), s.mainUp = true ∧ n ∈ s.sealCtl.lost ∧ n.level = level ∧ n.idx = idx ∧ n.replaced = false ∧ n.retired = false ∧ n.epoch = none ∧ s.sad.img.epoch < 255) ∧
    (∃ (s : State) (level : Nat) (idx : Nat) (n : LostNode), s.mainUp = true ∧ n ∈ s.sealCtl.lost ∧ n.level = level ∧ n.idx = idx ∧ n.replaced = false ∧ n.retired = false ∧ n.epoch = none ∧ 255 ≤ s.sad.img.epoch) :=
  ⟨⟨({ wBase with sealCtl := { wBase.sealCtl with companions := [(wLpn / 64, wComp)] } }), (fetchPath [] wLpn { wBase with sealCtl := { wBase.sealCtl with companions := [(wLpn / 64, wComp)] } }), wLpn, wComp, by decide +kernel⟩,
    ⟨wRoll, (fetchPath [] wLpn wRoll), wLpn, wComp, 4, (5 * 134217728 + 3), ((placeHost (fetchPath [] wLpn wRoll)).elim 0 (fun p => p.1)), ((placeHost (fetchPath [] wLpn wRoll)).elim 0 (fun p => p.2.1)), ((placeHost (fetchPath [] wLpn wRoll)).elim wRoll (fun p => p.2.2)), wKeys, by decide +kernel⟩,
    ⟨({ wBase with sealCtl := { wBase.sealCtl with ckptLevel := some 1, leaves := [(wLpn / 64, { major := 4, minors := Vector.replicate 64 1, dirty := true, cached := true }), (wLpn / 64 + 1, { cached := true }), (wLpn / 64 + 2, { cached := true }), (wLpn / 64 + 3, { cached := true })] } }), (wLpn / 64), by decide +kernel⟩,
    ⟨({ wBase with reck := { wBase.reck with tb := 11000000000 }, sealCtl := { wBase.sealCtl with ckptTb := 1000000000 } }), by
  refine ⟨?_, ?_, ?_, ?_, (by decide +kernel), (fun _ => rfl)⟩ <;> decide +kernel⟩,
    ⟨({ wBase with reck := { wBase.reck with tb := 11000000000 }, sealCtl := { wBase.sealCtl with ckptTb := 1000000000, dirtyOrder := [nodeKey 1 (wLpn / 64)], leaves := [(wLpn / 64, { major := 4, minors := Vector.replicate 64 1, dirty := true, cached := true }), (wLpn / 64 + 1, { cached := true }), (wLpn / 64 + 2, { cached := true }), (wLpn / 64 + 3, { cached := true })] } }), (wLpn / 64), by decide +kernel⟩,
    ⟨({ wBase with sealCtl := { wBase.sealCtl with lost := [{ level := 1, idx := wLpn / 64 }] } }), 1, (wLpn / 64), ({ level := 1, idx := wLpn / 64 }), by decide +kernel⟩,
    ⟨({ wBase with sealCtl := { wBase.sealCtl with lost := [{ level := 1, idx := wLpn / 64 }] }, sad := { wBase.sad with img := { wBase.sad.img with epoch := 255 } } }), 1, (wLpn / 64), ({ level := 1, idx := wLpn / 64 }), by decide +kernel⟩⟩

/-- The hypotheses of each clause of TraverseSteps are met together. -/
theorem wit_TraverseSteps :
    (∃ (s : State) (part : Nat) (off : Nat) (lbi : Nat) (x : Trav), s.mainUp = true ∧ tget s.travs part = some x ∧ x.pause = 0 ∧ pauseCause s = 0 ∧ x.phase = 0 ∧ maintMay s = true ∧ rateHolds s x = false ∧ nextBale s part x.mark = some off ∧ baleOfOffset s part off = some lbi ∧ partOfLpn s (lbi * 256) = some part ∧ offsetOfLpn s (lbi * 256) = off ∧ oldEvictions s lbi = false ∧ ((∀ i < 256, lookupHeld s (lbi * 256 + i) = false)) ∧ thas s.way.rebales lbi = false ∧ ((∀ i < 256, srcOf s (lbi * 256 + i) = .unwritten))) ∧
    (∃ (s : State) (part : Nat) (off : Nat) (lbi : Nat) (x : Trav), s.mainUp = true ∧ tget s.travs part = some x ∧ x.pause = 0 ∧ pauseCause s = 0 ∧ x.phase = 0 ∧ maintMay s = true ∧ rateHolds s x = false ∧ nextBale s part x.mark = some off ∧ baleOfOffset s part off = some lbi ∧ partOfLpn s (lbi * 256) = some part ∧ offsetOfLpn s (lbi * 256) = off ∧ oldEvictions s lbi = false ∧ ((∀ i < 256, lookupHeld s (lbi * 256 + i) = false)) ∧ thas s.way.rebales lbi = false ∧ ((∃ i < 256, srcOf s (lbi * 256 + i) ≠ .unwritten)) ∧ sparseFull s lbi = false) ∧
    (∃ (s : State) (part : Nat) (off : Nat) (lbi : Nat) (x : Trav) (j : RebaleJob), s.mainUp = true ∧ tget s.travs part = some x ∧ x.pause = 0 ∧ pauseCause s = 0 ∧ x.phase = 0 ∧ maintMay s = true ∧ rateHolds s x = false ∧ nextBale s part x.mark = some off ∧ baleOfOffset s part off = some lbi ∧ partOfLpn s (lbi * 256) = some part ∧ offsetOfLpn s (lbi * 256) = off ∧ oldEvictions s lbi = false ∧ ((∀ i < 256, lookupHeld s (lbi * 256 + i) = false)) ∧ tget s.way.rebales lbi = some j ∧ j.traverse = true ∧ segmentWhole s lbi j = true ∧ served s (j.dest.getD 0) = true) ∧
    (∃ (s : State) (part : Nat) (x : Trav) (r : TravRec), s.mainUp = true ∧ s.travs = [(part, x)] ∧ tget s.sad.img.travs x.inst = some r ∧ r.mark ≠ x.mark) ∧
    (∃ (s : State) (part : Nat) (x : Trav) (w : KeyWrap), s.mainUp = true ∧ tget s.travs part = some x ∧ x.phase = 0 ∧ nextBale s part x.mark = none ∧ isActive s part = true ∧ s.chans.any (fun c => c.2.wbuf.any (fun w => w.oldGen && w.part == part)) = false ∧ s.sealCtl.zeroed = false ∧ part < 1024 ∧ tget s.sad.img.wraps (1024 + x.inst) = some w) :=
  ⟨⟨(wTravOn wTrav), 1, 0, 163840, wTrav, by decide +kernel⟩,
    ⟨wTravMap, 1, 0, 163840, wTrav, by
  refine ⟨?_, ?_, ?_, ?_, (by decide +kernel), ?_, ?_, ?_, ?_, (by decide +kernel), ?_, ?_, ?_, ?_, ⟨0, by decide +kernel, by decide +kernel⟩, ?_⟩ <;> decide +kernel⟩,
    ⟨({ wTravMap with way := { wTravMap.way with rebales := [(163840, { wJob with traverse := true })], progs := [wProg] } }), 1, 0, 163840, wTrav, ({ wJob with traverse := true }), by decide +kernel⟩,
    ⟨(wTravOn { wTrav with mark := 131072 }), 1, ({ wTrav with mark := 131072 }), ({ part := 1, oldGen := 1, newGen := 2, rate := 0, mark := 0 }), by decide +kernel⟩,
    ⟨(wTravOn { wTrav with mark := 2147483648 }), 1, ({ wTrav with mark := 2147483648 }), ({ part := 1, gen := 2, seq := 2, wrapped := 8, tag := 9 }), by decide +kernel⟩⟩

/-- The hypotheses of each clause of Rebaling are met together. -/
theorem wit_Rebaling :
    (∃ (s : State) (lbi : Nat) (part : Nat) (fast : Bool), s.mainUp = true ∧ baleOwner s lbi = some (part, fast) ∧ maintMay s = true ∧ anyProgram s = true ∧ thas s.way.rebales lbi = false ∧ rebaleDue s lbi = true ∧ spentMay s lbi = true ∧ ((∃ i < 256, srcOf s (lbi * 256 + i) ≠ .unwritten)) ∧ sparseFull s lbi = false) ∧
    (∃ (s : State) (lbi : Nat) (d : Nat) (j : RebaleJob), s.mainUp = true ∧ tget s.way.rebales lbi = some j ∧ s.belay.step = 0 ∧ j.dest = some d ∧ segmentWhole s lbi j = true ∧ j.traverse = false ∧ ((∀ i < 256, lookupHeld s (lbi * 256 + i) = false)) ∧ served s d = true ∧ j.srcs.length = 256) ∧
    (∃ (s : State) (lbi : Nat) (d : Nat) (j : RebaleJob), s.mainUp = true ∧ tget s.way.rebales lbi = some j ∧ s.belay.step = 0 ∧ j.dest = some d ∧ segmentWhole s lbi j = true ∧ j.traverse = false ∧ ((∀ i < 256, lookupHeld s (lbi * 256 + i) = false)) ∧ served s d = false) ∧
    (∃ (s : State) (lpn : Nat) (e : OvEntry), s.mainUp = true ∧ tget s.way.map.overlay lpn = some e ∧ recalling s = false ∧ s.way.drover.coldAge ≤ (nowStamp s + 4096 - e.lastWrite % 4096) % 4096) :=
  ⟨⟨wMapped, 163840, 1, false, by decide +kernel⟩,
    ⟨({ wMapped with way := { wMapped.way with rebales := [(163840, wJob)], progs := [wProg] } }), 163840, 1024, wJob, by decide +kernel⟩,
    ⟨({ wMapped with way := { wMapped.way with rebales := [(163840, { wJob with dest := some (9 * 17179869184) })], progs := [wProg] } }), 163840, (9 * 17179869184), ({ wJob with dest := some (9 * 17179869184) }), by decide +kernel⟩,
    ⟨({ wMapped with reck := { wBase.reck with tb := 7200000000000 } }), wLpn, wOv, by decide +kernel⟩⟩

/-- The hypotheses of each clause of JournalAndMapMemory are met together. -/
theorem wit_JournalAndMapMemory :
    (∃ (s : State) (e : HbmError), s.mainUp = true ∧ e.single = true ∧ e.uncorrectable = false) ∧
    (∃ (s : State) (e : HbmError), s.mainUp = true ∧ e.uncorrectable = true ∧ e.region ≤ 4 ∧ e.second = none ∧ s.way.heldPages = []) ∧
    (∃ (s : State) (e : HbmError), s.mainUp = true ∧ e.uncorrectable = true ∧ e.region = 7) ∧
    (∃ (s : State) (region : Nat) (page : Nat) (us : Nat), s.mainUp = true ∧ region * 4294967296 + page ∈ s.way.heldPages) ∧
    (∃ (s : State) (region : Nat) (stripe : Nat) (ms : Nat), s.mainUp = true ∧ region * 4294967296 + stripe ∈ s.way.heldStripes) ∧
    (∃ (s : State) (p : JParcel) (rest : List JParcel), s.mainUp = true ∧ s.way.parcels = p :: rest ∧ (bothPassed s (.journal p.jseq)).isSome = true ∧ ((∀ q, rest.head? = some q → bothPassed s (.journal q.jseq) = none))) ∧
    (∃ (s : State), s.mainUp = true ∧ roundDue s = true ∧ maintMay s = true ∧ anyProgram s = true ∧ s.sealCtl.zeroed = false) ∧
    (∃ (s : State) (r : Round) (a : Nat) (b : Nat), s.mainUp = true ∧ s.way.round = some r ∧ bothPassed s .dir = some (a, b) ∧ roundOpen s r.num = true ∧ maintMay s = true) ∧
    (∃ (s : State), s.mainUp = true ∧ s.boot.running = true ∧ maintMay s = true ∧ anyProgram s = true ∧ s.boot.recovering = false ∧ s.sealCtl.zeroed = false) :=
  ⟨⟨wBase, ({ uncorrectable := false, single := true, region := 1, page := 7, addr := 9 }), by decide +kernel⟩,
    ⟨wBase, ({ uncorrectable := true, single := false, region := 4, page := 7, addr := 9 }), by decide +kernel⟩,
    ⟨wBase, ({ uncorrectable := true, single := false, region := 7, page := 7, addr := 9, level := 2, idx := 81920 }), by decide +kernel⟩,
    ⟨({ wBase with way := { heldPages := [4294967301, 6] } }), 1, 5, 4, by decide +kernel⟩,
    ⟨({ wBase with way := { heldStripes := [4294967301, 6] } }), 0, 6, 4, by decide +kernel⟩,
    ⟨({ wBase with way := { parcels := [{ jseq := 4, recs := [.pad, .dropLeg 3] }, { jseq := 5, recs := [] }], progs := [wDone (.journal 4 0) 7, wDone (.journal 4 1) (3 * 17179869184)] } }), ({ jseq := 4, recs := [.pad, .dropLeg 3] }), ([{ jseq := 5, recs := [] }]), by decide +kernel⟩,
    ⟨({ wMapped with reck := { wBase.reck with tb := 10000000000 } }), by decide +kernel⟩,
    ⟨({ wMapped with way := { wMapped.way with round := some { num := 1, jseq := 4 }, progs := [wDone (.dir 0) 7, wDone (.dir 1) (3 * 17179869184)] } }), ({ num := 1, jseq := 4 }), 7, (3 * 17179869184), by decide +kernel⟩,
    ⟨(wLd (fun l => { l with logsChanged := true, logs := [{ recs := [{ handle := 1, code := 5, ts := 9 }] }] })), by decide +kernel⟩⟩

/-- The hypotheses of each clause of Sweeping are met together. -/
theorem wit_Sweeping :
    (∃ (s : State) (c : Nat) (k : Nat), s.mainUp = true ∧ inService (chan s c) = true ∧ forbidden (chan s c) = false ∧ maintMay s = true ∧ ((∀ x ∈ s.way.sweeps, tileCh x.1 ≠ c)) ∧ forbiddenTile s c = none ∧ refreshVictim s c = some k ∧ ((∀ x ∈ s.way.map.bales, (x.2.st ≠ .baled ∧ x.2.st ≠ .sparse) ∨ tileKey (basePpa x.2 0) ≠ k)) ∧ ((∀ x ∈ s.way.map.overlay, x.2.kind ≠ .located ∨ tileKey x.2.ppa ≠ k))) ∧
    (∃ (s : State) (c : Nat) (k : Nat) (lpn : Nat) (e : OvEntry), s.mainUp = true ∧ inService (chan s c) = true ∧ forbidden (chan s c) = false ∧ maintMay s = true ∧ ((∀ x ∈ s.way.sweeps, tileCh x.1 ≠ c)) ∧ forbiddenTile s c = none ∧ refreshVictim s c = some k ∧ ((∀ x ∈ s.way.map.bales, (x.2.st ≠ .baled ∧ x.2.st ≠ .sparse) ∨ tileKey (basePpa x.2 0) ≠ k)) ∧ s.way.map.overlay.filter (fun p => p.2.kind == .located && tileKey p.2.ppa == k) = [(lpn, e)]) ∧
    (∃ (s : State) (c : Nat) (b : Nat) (k : Nat) (bits : Nat) (lpn : Nat) (it : RdItem) (rest : List RdItem) (j : SweepJob) (l : Load) (e : OvEntry), s.mainUp = true ∧ inService (chan s c) = true ∧ (bankOf (chan s c) b).received = it :: rest ∧ it.deep = false ∧ it.retry = 0 ∧ it.reseal = false ∧ it.work = .sweep k ∧ tget s.way.sweeps k = some j ∧ loadAt s it.ppa = some l ∧ (lpn, e) ∈ s.way.map.overlay ∧ e.kind = .located ∧ e.ppa = it.ppa ∧ progOf s (.sweep k it.ppa) = none) ∧
    (∃ (s : State) (c : Nat) (n : Nat) (j : SweepJob), s.mainUp = true ∧ tget s.way.sweeps (c * 1048576 + n) = some j ∧ maintMay s = true ∧ inService (chan s c) = true ∧ sweepWhole s (c * 1048576 + n) j = true ∧ sweepCommitted s j = true ∧ tileRead (chan s c) (c * 1048576 + n) = false ∧ (tileAt s (c * 1048576 + n)).pfail ≠ 3) :=
  ⟨⟨({ wMapped with way := { wMapped.way with map := { wMapped.way.map with tiles := [(40960, { st := .full, cls := .fast }), (40961, { st := .full, cls := .dense })] }, refreshTiles := [40961] } }), 0, 40961, by decide +kernel⟩,
    ⟨({ wMapped with way := { wMapped.way with refreshTiles := [40960] } }), 0, 40960, wLpn, wOv, by decide +kernel⟩,
    ⟨({ wMapped with chans := [(0, { wChan with banks := [(5, { received := [{ wRead with work := .sweep 40960, cls := .maint }] })] })], way := { wMapped.way with sweeps := [(40960, { todo := [5 * 134217728 + 3] })] } }), 0, 5, 40960, 0, wLpn, ({ wRead with work := .sweep 40960, cls := .maint }), ([]), ({ todo := [5 * 134217728 + 3] }), (.word wCell), wOv, by decide +kernel⟩,
    ⟨({ wMapped with way := { wMapped.way with sweeps := [(40961, { todo := [], copies := [(wLpn, 671105024)] })], map := { wMapped.way.map with tiles := [(40961, { st := .sweeping, cls := .dense })] } } }), 0, 40961, ({ todo := [], copies := [(wLpn, 671105024)] }), by decide +kernel⟩⟩

/-- The hypotheses of each clause of DriftScrubLoss are met together. -/
theorem wit_DriftScrubLoss :
    (∃ (s : State), s.mainUp = true ∧ s.therm.clocked ≠ secondNow s) ∧
    (∃ (s : State), s.mainUp = true ∧ s.therm.clocked = secondNow s) ∧
    (∃ (s : State) (c : Nat) (die : Nat) (set : Nat) (delta : List Int) (o : List Int), s.mainUp = true ∧ inService (chan s c) = true ∧ die < 8 ∧ set < 8 ∧ (chan s c).diesOut.getLsbD die = false ∧ tget (chan s c).tuned die = none ∧ s.health.st ≠ 6 ∧ delta.length = 7 ∧ ((∀ d ∈ delta, -1 ≤ d ∧ d ≤ 1)) ∧ ((∃ d ∈ delta, d ≠ 0)) ∧ tget (chan s c).driftSets (die * 8 + set) = some o ∧ o.length = 7) ∧
    (∃ (s : State) (ppa : Nat) (q : Nat) (bits : Nat), s.mainUp = true ∧ scrubbable s ppa = true ∧ scrubDue s ppa = true ∧ s.belay.step = 0 ∧ s.health.st ≠ 6 ∧ recalling s = false ∧ bits ≤ 24 ∧ q ≠ ppa ∧ scrubbable s q = true ∧ q ∉ s.way.scrubbed ∧ claimed (chan s (ppaCh ppa)) + (travFloor s (ppaCh ppa) (chan s (ppaCh ppa)).plan.m - ((chan s (ppaCh ppa)).plan.m - (chan s (ppaCh ppa)).maintLeft)) < (chan s (ppaCh ppa)).maintLeft ∧ 2 ≤ (chan s (ppaCh ppa)).slotsLeft) ∧
    (∃ (s : State) (c : Nat), s.mainUp = true ∧ inService (chan s c) = false ∧ (chan s c).heldData = true ∧ maintMay s = true ∧ ((∃ x ∈ s.way.map.overlay, x.2.kind = .located ∧ ppaCh x.2.ppa = c))) :=
  ⟨⟨({ wBase with chans := [(0, { wChan with clock := 7 }), (3, { wChan with tMax := none }), (9, { tMax := some 400 })] }), by decide +kernel⟩,
    ⟨({ wBase with therm := { wBase.therm with clocked := 6 } }), by decide +kernel⟩,
    ⟨({ wBase with chans := [(0, { wChan with driftSets := [(63, [0, 7, -8, 1, 2, 3, 4])] })] }), 0, 7, 7, ([1, 1, -1, 0, 0, 0, -1]), ([0, 7, -8, 1, 2, 3, 4]), by decide +kernel⟩,
    ⟨({ wMapped with medium := { cells := [(671088643, wCell), (671088644, wCell)] } }), 671088643, 671088644, 24, by decide +kernel⟩,
    ⟨({ wMapped with chans := [(0, { wChan with st := .failed, heldData := true }), (3, wChan)], way := { wMapped.way with map := { wMapped.way.map with bales := [(163840, { st := .overlay, ovcnt := 1 }), (163841, wBale), (163842, { wBale with st := .sparse })] } } }), 0, by
  refine ⟨?_, ?_, ?_, ?_, ⟨(wLpn, wOv), by decide +kernel, by decide +kernel, by decide +kernel⟩⟩ <;> decide +kernel⟩⟩

/-- The hypotheses of each clause of HoldUpEnergy are met together. -/
theorem wit_HoldUpEnergy :
    (∃ (s : State) (u : Nat), s.mainUp = true) ∧
    (∃ (s : State), s.mainUp = true ∧ s.belay.test = none ∧ s.belay.step = 0 ∧ s.belay.s < raiseDue s) ∧
    (∃ (s : State) (t0 : Nat), s.mainUp = true ∧ s.belay.above34 = some t0 ∧ t0 + 1000000000 ≤ tbNow s) ∧
    (∃ (s : State) (u : Nat), s.mainUp = true ∧ s.sad.img.belay.rTest ≠ 0 ∧ s.belay.step = 0 ∧ s.belay.notBefore ≤ tbNow s ∧ s.belay.test = none ∧ testWanted s = true ∧ 102 * s.sad.img.belay.vTrip * 100 < 90 * bankMv s u * 100) ∧
    (∃ (s : State) (u : Nat), s.mainUp = true ∧ s.sad.img.belay.rTest ≠ 0 ∧ s.belay.step = 0 ∧ s.belay.notBefore ≤ tbNow s ∧ s.belay.test = none ∧ testWanted s = true ∧ 90 * bankMv s u * 100 ≤ 102 * s.sad.img.belay.vTrip * 100) ∧
    (∃ (s : State) (u : Nat), s.mainUp = true ∧ s.belay.test = none ∧ testWanted s = false) ∧
    (∃ (s : State) (x : CapTest), s.mainUp = true ∧ s.belay.test = some x ∧ x.high = false ∧ x.startTb + 100000000 ≤ tbNow s ∧ s.belay.postponed < 9) ∧
    (∃ (s : State) (x : CapTest), s.mainUp = true ∧ s.belay.test = some x ∧ x.high = false ∧ x.startTb + 100000000 ≤ tbNow s ∧ 9 ≤ s.belay.postponed) ∧
    (∃ (s : State) (x : CapTest) (us : Nat), s.mainUp = true ∧ s.belay.test = some x ∧ x.high = true ∧ s.sad.img.belay.rTest ≠ 0) ∧
    (∃ (s : State) (x : CapTest), s.mainUp = true ∧ s.belay.test = some x ∧ x.high = true ∧ x.startTb + 500000000 ≤ tbNow s) :=
  ⟨⟨wCap, 618750, by decide +kernel⟩,
    ⟨wCap, by decide +kernel⟩,
    ⟨({ wBase with belay := { wBase.belay with through := true, above34 := some 4000000000 } }), 4000000000, by decide +kernel⟩,
    ⟨wCap, 750000, by decide +kernel⟩,
    ⟨wCap, 722500, by decide +kernel⟩,
    ⟨({ wBase with belay := { wBase.belay with testDue := false } }), 700000, by decide +kernel⟩,
    ⟨({ wCap with belay := { wCap.belay with test := some { v0 := 12000, startTb := 4900000000 }, postponed := 8 } }), ({ v0 := 12000, startTb := 4900000000 }), by decide +kernel⟩,
    ⟨({ wCap with belay := { wCap.belay with test := some { v0 := 12000, startTb := 4900000000 }, postponed := 9 } }), ({ v0 := 12000, startTb := 4900000000 }), by decide +kernel⟩,
    ⟨({ wCap with belay := { wCap.belay with test := some { v0 := 12000, startTb := 4900000000, high := true }, postponed := 8, holdupTest := true } }), ({ v0 := 12000, startTb := 4900000000, high := true }), 15000, by decide +kernel⟩,
    ⟨({ wCap with belay := { wCap.belay with test := some { v0 := 12000, startTb := 4500000000, high := true }, postponed := 8, holdupTest := true } }), ({ v0 := 12000, startTb := 4500000000, high := true }), by decide +kernel⟩⟩

/-- The hypotheses of each clause of Flush are met together. -/
theorem wit_Flush :
    (∃ (s : State) (c : Instr) (cause : Nat), s.mainUp = true ∧ s.boot.running = true ∧ s.belay.step = 0 ∧ ((c = .pfailNLow ∧ cause = 1 ∨ c = .vTripCrossing ∧ cause = 2 ∨ c = .flushStart cause ∧ 1 ≤ cause ∧ cause ≤ 6))) ∧
    (∃ (s : State) (v : Nat), s.mainUp = true ∧ ((s.belay.step = 1 ∧ s.sealCtl.zeroed = false ∨ s.belay.step = 2 ∧ banksCalm s = true))) ∧
    (∃ (s : State) (v : Nat), s.mainUp = true ∧ s.belay.step = 1 ∧ s.sealCtl.zeroed = true ∧ s.boot.recovering = false) ∧
    (∃ (s : State) (v : Nat), s.mainUp = true ∧ ((s.belay.step = 2 ∧ banksCalm s = false ∨ s.belay.step = 3 ∧ linesOut s = false))) ∧
    (∃ (s : State) (v : Nat), s.mainUp = true ∧ s.belay.step = 3 ∧ linesOut s = true ∧ treeMay s = true ∧ storeAllowed s = true ∧ s.sealCtl.ckptLevel = none ∧ s.sealCtl.dirtyOrder = [] ∧ ((∀ l, treeFlying s l = false))) ∧
    (∃ (s : State) (v : Nat), s.mainUp = true ∧ s.belay.step = 4 ∧ s.sealCtl.ckptLevel = none ∧ s.keeper.summitWaits = false) ∧
    (∃ (s : State) (v : Nat), s.mainUp = true ∧ s.belay.step = 4 ∧ s.sealCtl.ckptLevel = none ∧ s.keeper.summitWaits = true ∧ storeAllowed s = false) ∧
    (∃ (s : State) (v : Nat), s.mainUp = true ∧ s.belay.step = 5 ∧ booksOut (booksGoOn s) = true ∧ storeAllowed (booksGoOn s) = true) ∧
    (∃ (s : State) (v : Nat), s.mainUp = true ∧ s.belay.step = 6) :=
  ⟨⟨({ wCache { wLine with st := .dirty, dirty := 2 } with cache := { (wCache { wLine with st := .dirty, dirty := 2 }).cache with waiting := [wWait], fills := [(wLpn + 9, { waiters := [wWait] })], budgetWait := [{ wWait with op := .wr }] } }), (.flushStart 6), 6, by decide +kernel⟩,
    ⟨(wFlush 2), 11000, by decide +kernel⟩,
    ⟨({ wFlush 1 with sealCtl := { wBase.sealCtl with zeroed := true } }), 11000, by decide +kernel⟩,
    ⟨({ wFlush 3 with cache := (wCache { wLine with st := .dirty, dirty := 2 }).cache }), 11000, by decide +kernel⟩,
    ⟨(wFlush 3), 11000, by
  refine ⟨?_, ?_, ?_, ?_, (by decide +kernel), ?_, ?_, (fun _ => rfl)⟩ <;> decide +kernel⟩,
    ⟨({ wFlush 4 with reck := { wBase.reck with openBank := { minute := 0 } }, relay := { evq10 := [{ lds := [16], log := 1, ev := { handle := 0, code := 5, ts := 3 } }] } }), 11000, by decide +kernel⟩,
    ⟨({ wFlush 4 with keeper := { summitWaits := true, vddKeep := 1500 } }), 11000, by decide +kernel⟩,
    ⟨(wFlush 5), 11000, by decide +kernel⟩,
    ⟨(wFlush 6), 11000, by decide +kernel⟩⟩

/-- The hypotheses of each clause of Timebase are met together. -/
theorem wit_Timebase :
    (∃ (s : State) (b : Bool) (e : Int), s.mainUp = true ∧ s.reck.cfgNext = none ∧ s.reck.cfg.present = true ∧ b = !s.reck.cfg.falling ∧ s.reck.st = .locked ∧ s.reck.arm = none ∧ 999000000 ≤ s.reck.sinceEdge ∧ e = ((tbNow s : Int) - s.reck.cfg.delay) - ((tbNow s : Int) - s.reck.cfg.delay + 500000000) / 1000000000 * 1000000000 ∧ e.natAbs ≤ 1000000) ∧
    (∃ (s : State) (b : Bool) (e : Int), s.mainUp = true ∧ s.reck.cfgNext = none ∧ s.reck.cfg.present = true ∧ b = !s.reck.cfg.falling ∧ s.reck.st = .locked ∧ e = ((tbNow s : Int) - s.reck.cfg.delay) - ((tbNow s : Int) - s.reck.cfg.delay + 500000000) / 1000000000 * 1000000000 ∧ 1000000 < e.natAbs) ∧
    (∃ (s : State), s.mainUp = true ∧ ((s.reck.st = .acquiring ∨ s.reck.st = .locked)) ∧ 1500000000 ≤ s.reck.sinceEdge) ∧
    (∃ (s : State) (n : Nat), s.mainUp = true ∧ s.reck.arm = some n ∧ 2000000000 ≤ s.reck.armAge) ∧
    (∃ (s : State), s.mainUp = true ∧ s.reck.slewLeft = 0) ∧
    (∃ (s : State), s.mainUp = true) ∧
    (∃ (s : State), s.mainUp = true ∧ s.reck.st = .refLost) :=
  ⟨⟨({ wBase with reck := { wBase.reck with tb := 5000000000, sinceEdge := 999000000, rejRun := 2, cfg := { delay := -1000000 } } }), true, 1000000, by decide +kernel⟩,
    ⟨({ wBase with reck := { wBase.reck with tb := 4998999999, rejRun := 2 } }), true, (-1000001), by decide +kernel⟩,
    ⟨({ wBase with reck := { wBase.reck with sinceEdge := 1500000000, adj := 5, adjHist := List.replicate 60 7 } }), by decide +kernel⟩,
    ⟨({ wBase with reck := { wBase.reck with arm := some 9, armAge := 2000000000 } }), 9, by decide +kernel⟩,
    ⟨({ wBase with reck := { wBase.reck with slew := 429497 } }), by decide +kernel⟩,
    ⟨wBase, by decide +kernel⟩,
    ⟨({ wBase with timeRef := false, reck := { wBase.reck with st := .refLost } }), by decide +kernel⟩⟩

/-- The hypotheses of each clause of Minutes are met together. -/
theorem wit_Minutes :
    (∃ (s : State), s.mainUp = true ∧ s.boot.running = true ∧ s.reck.openBank.minute < tbNow s / 60000000000) ∧
    (∃ (s : State) (b : MinuteBank), s.mainUp = true ∧ 10000 ≤ s.reck.openAge ∧ s.reck.closing = some b) ∧
    (∃ (s : State) (t' : State) (k : Nat) (r : RingSlot), s.mainUp = true ∧ s.reck.block = none ∧ oldestOpen s = some (k, r) ∧ ledgerMay s = true ∧ chainSlot (r.bank.minute % 64800) s = some t') ∧
    (∃ (s : State) (m : Nat) (r : RingSlot), s.mainUp = true ∧ s.reck.block = some m ∧ 512 ≤ s.reck.blockNext ∧ blockFlying s m = false ∧ tget s.reck.ring (m % 1440) = some r) ∧
    (∃ (s : State) (m : Nat), s.mainUp = true ∧ s.reck.block = some m ∧ blockFlying s m = true ∧ ((∃ r, tget s.reck.ring (m % 1440) = some r ∧ r.bank.minute = m))) :=
  ⟨⟨({ wBase with reck := { wBase.reck with tb := 120000000000, openBank := { minute := 1, recs := [(1, { readOps := 4 })], hists := [(1, [(3, 4)])] } } }), by decide +kernel⟩,
    ⟨({ wBase with reck := { wBase.reck with tb := 120000010000, openAge := 10000, openBank := { minute := 2 }, closing := some { minute := 1, closeTs := 120000000000, counts := [(4, 5)] } } }), ({ minute := 1, closeTs := 120000000000, counts := [(4, 5)] }), by decide +kernel⟩,
    ⟨({ wBase with reck := { wBase.reck with ring := [(1, { bank := { minute := 1 } }), (2, { bank := { minute := 2 } })] } }), ((chainSlot 1 { wBase with reck := { wBase.reck with ring := [(1, { bank := { minute := 1 } }), (2, { bank := { minute := 2 } })] } }).getD wBase), 1, ({ bank := { minute := 1 } }), by decide +kernel⟩,
    ⟨({ wBase with reck := { wBase.reck with block := some 1, blockNext := 512, ring := [(1, { bank := { minute := 1 } })] } }), 1, ({ bank := { minute := 1 } }), by decide +kernel⟩,
    ⟨({ wBase with way := { progs := [{ work := .ledger 1 0 0, load := .sys wSys }] }, reck := { wBase.reck with block := some 1, blockNext := 8, ring := [(1, { bank := { minute := 1 } })] } }), 1, by decide +kernel⟩⟩

/-- The hypotheses of each clause of OpcodesOfCommands are met together. -/
theorem wit_OpcodesOfCommands :
    (∃ (s : State) (q : Nat) (l : Nat) (op : Nat) (i : List Byte), s.mainUp = true ∧ (ldAt s (ldKey q l)).mbox.doorbell = false ∧ (ldAt s (ldKey q l)).mbox.opcode = op ∧ (ldAt s (ldKey q l)).mbox.len = i.length ∧ padTo i.length (ldAt s (ldKey q l)).mbox.payload = i ∧ op = 0x4100) ∧
    (∃ (s : State) (q : Nat) (l : Nat) (op : Nat) (i : List Byte), s.mainUp = true ∧ (ldAt s (ldKey q l)).mbox.doorbell = false ∧ (ldAt s (ldKey q l)).mbox.opcode = op ∧ (ldAt s (ldKey q l)).mbox.len = i.length ∧ padTo i.length (ldAt s (ldKey q l)).mbox.payload = i ∧ op = 0x4203) ∧
    (∃ (s : State) (q : Nat) (l : Nat) (op : Nat) (i : List Byte), s.mainUp = true ∧ (ldAt s (ldKey q l)).mbox.doorbell = false ∧ (ldAt s (ldKey q l)).mbox.opcode = op ∧ (ldAt s (ldKey q l)).mbox.len = i.length ∧ padTo i.length (ldAt s (ldKey q l)).mbox.payload = i ∧ op = 0x4204) ∧
    (∃ (s : State) (q : Nat) (l : Nat) (op : Nat) (i : List Byte), s.mainUp = true ∧ (ldAt s (ldKey q l)).mbox.doorbell = false ∧ (ldAt s (ldKey q l)).mbox.opcode = op ∧ (ldAt s (ldKey q l)).mbox.len = i.length ∧ padTo i.length (ldAt s (ldKey q l)).mbox.payload = i ∧ op = 0x4300) ∧
    (∃ (s : State) (q : Nat) (l : Nat) (op : Nat) (i : List Byte), s.mainUp = true ∧ (ldAt s (ldKey q l)).mbox.doorbell = false ∧ (ldAt s (ldKey q l)).mbox.opcode = op ∧ (ldAt s (ldKey q l)).mbox.len = i.length ∧ padTo i.length (ldAt s (ldKey q l)).mbox.payload = i ∧ op = 0x4301) ∧
    (∃ (s : State) (q : Nat) (l : Nat) (op : Nat) (i : List Byte), s.mainUp = true ∧ (ldAt s (ldKey q l)).mbox.doorbell = false ∧ (ldAt s (ldKey q l)).mbox.opcode = op ∧ (ldAt s (ldKey q l)).mbox.len = i.length ∧ padTo i.length (ldAt s (ldKey q l)).mbox.payload = i ∧ op = 0x4302) ∧
    (∃ (s : State) (q : Nat) (l : Nat) (op : Nat) (i : List Byte), s.mainUp = true ∧ (ldAt s (ldKey q l)).mbox.doorbell = false ∧ (ldAt s (ldKey q l)).mbox.opcode = op ∧ (ldAt s (ldKey q l)).mbox.len = i.length ∧ padTo i.length (ldAt s (ldKey q l)).mbox.payload = i ∧ op = 0x4800) ∧
    (∃ (s : State) (q : Nat) (l : Nat) (op : Nat) (i : List Byte), s.mainUp = true ∧ (ldAt s (ldKey q l)).mbox.doorbell = false ∧ (ldAt s (ldKey q l)).mbox.opcode = op ∧ (ldAt s (ldKey q l)).mbox.len = i.length ∧ padTo i.length (ldAt s (ldKey q l)).mbox.payload = i ∧ op = 0x4801) ∧
    (∃ (s : State) (q : Nat) (l : Nat) (op : Nat) (i : List Byte), s.mainUp = true ∧ (ldAt s (ldKey q l)).mbox.doorbell = false ∧ (ldAt s (ldKey q l)).mbox.opcode = op ∧ (ldAt s (ldKey q l)).mbox.len = i.length ∧ padTo i.length (ldAt s (ldKey q l)).mbox.payload = i ∧ op = 0x4802) ∧
    (∃ (s : State) (q : Nat) (l : Nat) (op : Nat) (i : List Byte), s.mainUp = true ∧ (ldAt s (ldKey q l)).mbox.doorbell = false ∧ (ldAt s (ldKey q l)).mbox.opcode = op ∧ (ldAt s (ldKey q l)).mbox.len = i.length ∧ padTo i.length (ldAt s (ldKey q l)).mbox.payload = i ∧ op = 0x4803) ∧
    (∃ (s : State) (q : Nat) (l : Nat) (op : Nat) (i : List Byte), s.mainUp = true ∧ (ldAt s (ldKey q l)).mbox.doorbell = false ∧ (ldAt s (ldKey q l)).mbox.opcode = op ∧ (ldAt s (ldKey q l)).mbox.len = i.length ∧ padTo i.length (ldAt s (ldKey q l)).mbox.payload = i ∧ op = 0xC300) ∧
    (∃ (s : State) (q : Nat) (l : Nat) (op : Nat) (i : List Byte), s.mainUp = true ∧ (ldAt s (ldKey q l)).mbox.doorbell = false ∧ (ldAt s (ldKey q l)).mbox.opcode = op ∧ (ldAt s (ldKey q l)).mbox.len = i.length ∧ padTo i.length (ldAt s (ldKey q l)).mbox.payload = i ∧ op = 0x0300) ∧
    (∃ (s : State) (code : Nat) (d : List Byte), s.mainUp = true) :=
  ⟨⟨(wBox 0 { opcode := 0x4100, len := 0 }), 0, 0, 0x4100, ([]), by decide +kernel⟩,
    ⟨(wBox 0 { opcode := 0x4203 }), 0, 0, 0x4203, ([]), by decide +kernel⟩,
    ⟨(wBox 0 { opcode := 0x4204, len := 1, payload := [1, 7] }), 0, 0, 0x4204, ([1]), by decide +kernel⟩,
    ⟨(wBox 0 { opcode := 0x4300, len := 2, payload := [1] }), 0, 0, 0x4300, ([1, 0]), by decide +kernel⟩,
    ⟨(wBox 0 { opcode := 0x4301, len := 2, payload := [1] }), 0, 0, 0x4301, ([1, 0]), by decide +kernel⟩,
    ⟨(wBox 0 { opcode := 0x4302, len := 2, payload := [1] }), 0, 0, 0x4302, ([1, 0]), by decide +kernel⟩,
    ⟨(wBox 0 { opcode := 0x4800, len := 2, payload := [1] }), 0, 0, 0x4800, ([1, 0]), by decide +kernel⟩,
    ⟨(wBox 0 { opcode := 0x4801, len := 2, payload := [1] }), 0, 0, 0x4801, ([1, 0]), by decide +kernel⟩,
    ⟨(wBox 0 { opcode := 0x4802, len := 2, payload := [1] }), 0, 0, 0x4802, ([1, 0]), by decide +kernel⟩,
    ⟨(wBox 0 { opcode := 0x4803, len := 2, payload := [1] }), 0, 0, 0x4803, ([1, 0]), by decide +kernel⟩,
    ⟨(wBox 0 { opcode := 0xC300, len := 2, payload := [1] }), 0, 0, 0xC300, ([1, 0]), by decide +kernel⟩,
    ⟨(wBox 16 { opcode := 0x0300, len := 0, payload := [1] }), 0, 16, 0x0300, ([]), by decide +kernel⟩,
    ⟨wBase, 1, ([0, 9]), by decide +kernel⟩⟩

/-- The hypotheses of each clause of CommandsTurnedAway are met together. -/
theorem wit_CommandsTurnedAway :
    (∃ (s : State) (p : Path) (op : Nat) (i : List Byte), Ready p s ∧ cmdInfo op = none ∧ 0xC000 ≤ op) ∧
    (∃ (s : State) (p : Path) (op : Nat) (i : List Byte), Ready p s ∧ cmdInfo op = none ∧ op < 0xC000) ∧
    (∃ (s : State) (p : Path) (i : List Byte), Ready p s) ∧
    (∃ (s : State), s.mainUp = true ∧ s.mctp.wait = none ∧ recalling s = false ∧ s.health.st ≠ 6) ∧
    (∃ (s : State) (op : Nat) (i : List Byte) (c : CmdInfo), s.mainUp = true ∧ s.mctp.wait = none ∧ cmdInfo op = some c ∧ c.frm.getLsbD 2 = false) ∧
    (∃ (s : State) (op : Nat) (i : List Byte) (c : CmdInfo), s.mainUp = true ∧ s.mctp.wait = none ∧ cmdInfo op = some c ∧ c.frm.getLsbD 2 = true ∧ recalling s = true ∧ op ∉ recallSet) ∧
    (∃ (s : State) (op : Nat) (i : List Byte) (c : CmdInfo), s.mainUp = true ∧ s.mctp.wait = none ∧ cmdInfo op = some c ∧ c.frm.getLsbD 2 = true ∧ recalling s = false ∧ s.health.st = 6 ∧ op ∉ bivouacSet) ∧
    (∃ (s : State) (op : Nat) (i : List Byte) (c : CmdInfo), s.mainUp = true ∧ s.mctp.wait = none ∧ cmdInfo op = some c ∧ c.frm.getLsbD 2 = true ∧ recalling s = false ∧ s.health.st ≠ 6 ∧ op ∈ backgroundSet ∧ s.mctp.bg.isSome = true ∧ ((∀ b n, s.mctp.bg = some b → b.job ≠ .activate n))) ∧
    (∃ (s : State) (op : Nat) (i : List Byte) (w : WaitCmd), s.mainUp = true ∧ s.mctp.wait = some w) ∧
    (∃ (s : State) (q : Nat) (l : Nat), s.mainUp = true ∧ (ldAt s (ldKey q l)).mbox.doorbell = true) ∧
    (∃ (s : State) (q : Nat) (l : Nat) (c : CmdInfo), Ready (.ld q l) s ∧ (ldAt s (ldKey q l)).mbox.doorbell = false ∧ cmdInfo (ldAt s (ldKey q l)).mbox.opcode = some c ∧ c.frm.getLsbD (pathRole s (.ld q l)) = true ∧ recalling s = false ∧ s.health.st = 6 ∧ pathRole s (.ld q l) = 0) ∧
    (∃ (s : State) (q : Nat) (l : Nat) (c : CmdInfo), Ready (.ld q l) s ∧ (ldAt s (ldKey q l)).mbox.doorbell = false ∧ cmdInfo (ldAt s (ldKey q l)).mbox.opcode = some c ∧ c.frm.getLsbD (pathRole s (.ld q l)) = true ∧ recalling s = false ∧ s.health.st ≠ 6 ∧ ldFrozen s q l = true ∧ (ldAt s (ldKey q l)).mbox.opcode ∉ frozenSet) ∧
    (∃ (s : State) (q : Nat) (l : Nat) (c : CmdInfo), Ready (.ld q l) s ∧ (ldAt s (ldKey q l)).mbox.doorbell = false ∧ cmdInfo (ldAt s (ldKey q l)).mbox.opcode = some c ∧ c.frm.getLsbD (pathRole s (.ld q l)) = true ∧ recalling s = false ∧ s.health.st = 5 ∧ ldFrozen s q l = false ∧ (ldAt s (ldKey q l)).mbox.opcode ∈ programSet ∧ (ldAt s (ldKey q l)).mbox.bg = none) ∧
    (∃ (s : State) (q : Nat) (l : Nat), Ready (.ld q l) s ∧ (ldAt s (ldKey q l)).mbox.doorbell = false ∧ (ldAt s (ldKey q l)).mbox.opcode = 0x0300 ∧ (ldAt s (ldKey q l)).mbox.len = 0 ∧ recalling s = false ∧ s.health.st ≠ 6) :=
  ⟨⟨wBase, (.ld 0 1), 0xCFFF, ([1]), by unfold Ready; decide +kernel⟩,
    ⟨wBase, (.ld 0 1), 0x0007, ([1]), by unfold Ready; decide +kernel⟩,
    ⟨wBase, .mctp, ([]), by unfold Ready; decide +kernel⟩,
    ⟨wBase, by decide +kernel⟩,
    ⟨wBase, 0x4301, ([]), ((cmdInfo 0x4301).getD { op := 0, frm := 0 }), by decide +kernel⟩,
    ⟨({ wBase with health := { st := 7 } }), 0xC101, ([]), ((cmdInfo 0xC101).getD { op := 0, frm := 0 }), by decide +kernel⟩,
    ⟨({ wBase with health := { st := 6 } }), 0xC101, ([]), ((cmdInfo 0xC101).getD { op := 0, frm := 0 }), by decide +kernel⟩,
    ⟨({ wBase with mctp := { bg := some (wRange 0 0 []) } }), 0xC101, ([]), ((cmdInfo 0xC101).getD { op := 0, frm := 0 }), by
  refine ⟨?_, ?_, ?_, ?_, (by decide +kernel), ?_, (by decide), ?_, (by intro b n h; cases h; simp [wRange])⟩ <;> decide +kernel⟩,
    ⟨({ wBase with mctp := { wait := some { opcode := 1, first4 := 0, recs := [], out := [], done := .none, since := 0 } } }), 0xC101, ([]), ({ opcode := 1, first4 := 0, recs := [], out := [], done := .none, since := 0 }), by decide +kernel⟩,
    ⟨(wBox 0 { doorbell := true, opcode := 0x4300 }), 0, 0, by decide +kernel⟩,
    ⟨({ wBox 0 { opcode := 0x4300 } with health := { st := 6 } }), 0, 0, ((cmdInfo 0x4300).getD { op := 0, frm := 0 }), by unfold Ready; decide +kernel⟩,
    ⟨({ wBox 0 { opcode := 0x4301 } with gate := { freezes := [{ master := ldMaster 0 0, code := 0x0201, addr := 0, detail := 0, tb := 0 }] } }), 0, 0, ((cmdInfo 0x4301).getD { op := 0, frm := 0 }), by unfold Ready; decide +kernel⟩,
    ⟨({ wBox 0 { opcode := 0xC302 } with health := { st := 5 } }), 0, 0, ((cmdInfo 0xC302).getD { op := 0, frm := 0 }), by unfold Ready; decide +kernel⟩,
    ⟨(wBox 16 { opcode := 0x0300 }), 0, 16, by unfold Ready; decide +kernel⟩⟩

/-- The hypotheses of each clause of StandardReads are met together. -/
theorem wit_StandardReads :
    (∃ (s : State) (p : Path) (i : List Byte), Admitted cmdIdentify p i s) ∧
    (∃ (s : State) (p : Path) (i : List Byte), Admitted cmdBgStatus p i s) ∧
    (∃ (s : State) (p : Path) (i : List Byte) (k : Nat), Admitted cmdGetEventRecords p i s ∧ pathLd s p = some k ∧ fld i 0 1 < 4) ∧
    (∃ (s : State) (p : Path) (i : List Byte), Admitted cmdGetEventInterruptPolicy p i s) ∧
    (∃ (s : State) (p : Path) (i : List Byte), Admitted cmdGetTimestamp p i s) ∧
    (∃ (s : State) (p : Path) (i : List Byte), Admitted cmdGetSupportedLogs p i s) ∧
    (∃ (s : State) (p : Path) (i : List Byte), Admitted cmdGetLog p i s ∧ bytesAt i 0 16 = celUuid ∧ fld i 16 4 + fld i 20 4 ≤ 4 * (cmdTable.filter (fun c => c.frm.getLsbD (pathRole s p))).length) ∧
    (∃ (s : State) (p : Path) (i : List Byte), Admitted cmdIdentifyMemoryDevice p i s) ∧
    (∃ (s : State) (p : Path) (i : List Byte), Admitted cmdGetPartitionInfo p i s) ∧
    (∃ (s : State) (p : Path) (i : List Byte) (k : Nat), Admitted cmdGetShutdownState p i s ∧ pathLd s p = some k) ∧
    (∃ (s : State) (p : Path) (i : List Byte) (k : Nat), Admitted cmdGetAlertConfiguration p i s ∧ pathLd s p = some k) :=
  ⟨⟨wFull, (.ld 0 0), ([]), by unfold Admitted Ready; decide +kernel⟩,
    ⟨wFull, .mctp, ([]), by unfold Admitted Ready; decide +kernel⟩,
    ⟨wFull, (.ld 0 0), ([2]), 0, by unfold Admitted Ready; decide +kernel⟩,
    ⟨wFull, (.ld 0 0), ([]), by unfold Admitted Ready; decide +kernel⟩,
    ⟨wFull, (.ld 0 16), ([]), by unfold Admitted Ready; decide +kernel⟩,
    ⟨wFull, (.ld 0 1), ([]), by unfold Admitted Ready; decide +kernel⟩,
    ⟨wFull, .mctp, (celUuid ++ toLe 4 0 ++ toLe 4 12), by unfold Admitted Ready; decide +kernel⟩,
    ⟨wFull, (.ld 0 0), ([]), by unfold Admitted Ready; decide +kernel⟩,
    ⟨wFull, (.ld 0 0), ([]), by unfold Admitted Ready; decide +kernel⟩,
    ⟨wFull, (.ld 0 0), ([]), 0, by unfold Admitted Ready; decide +kernel⟩,
    ⟨wFull, (.ld 0 0), ([]), 0, by unfold Admitted Ready; decide +kernel⟩⟩

/-- The hypotheses of each clause of HealthAndCapacityReads are met together. -/
theorem wit_HealthAndCapacityReads :
    (∃ (s : State) (p : Path) (i : List Byte), Admitted cmdGetHealthInfo p i s) ∧
    (∃ (s : State) (p : Path) (i : List Byte), Admitted cmdGetFwInfo p i s) ∧
    (∃ (s : State) (p : Path) (i : List Byte) (k : Nat), Admitted cmdGetPoisonList p i s ∧ pathLd s p = some k) ∧
    (∃ (s : State) (p : Path) (i : List Byte), Admitted cmdGetLdInfo p i s ∧ portMld s (fld i 0 1) = true) ∧
    (∃ (s : State) (p : Path) (i : List Byte), Admitted cmdGetLdAllocations p i s ∧ portMld s (fld i 0 1) = true ∧ ldsOn s (fld i 0 1) < 256) ∧
    (∃ (s : State) (p : Path) (i : List Byte) (k : Nat), Admitted cmdGetDcConfig p i s ∧ pathLd s p = some k ∧ dcLd s k = true ∧ fld i 0 1 ≠ 0 ∧ fld i 1 1 = 0) ∧
    (∃ (s : State) (p : Path) (i : List Byte) (k : Nat), Admitted cmdGetDcExtents p i s ∧ pathLd s p = some k ∧ dcLd s k = true) :=
  ⟨⟨wFull, .mctp, ([]), by unfold Admitted Ready; decide +kernel⟩,
    ⟨({ wFull with boot := { wFull.boot with pendingVersion := some 77 } }), .mctp, ([]), by unfold Admitted Ready; decide +kernel⟩,
    ⟨wFull, (.ld 0 0), (toLe 8 0 ++ toLe 8 100), 0, by unfold Admitted Ready; decide +kernel⟩,
    ⟨wFull, .mctp, ([0]), by unfold Admitted Ready; decide +kernel⟩,
    ⟨wFull, .mctp, ([0, 0, 9]), by unfold Admitted Ready; decide +kernel⟩,
    ⟨wFull, (.ld 0 0), ([1, 0]), 0, by unfold Admitted Ready; decide +kernel⟩,
    ⟨wFull, (.ld 0 0), (toLe 4 5 ++ toLe 4 0), 0, by unfold Admitted Ready; decide +kernel⟩⟩

/-- The hypotheses of each clause of DeviceReads are met together. -/
theorem wit_DeviceReads :
    (∃ (s : State) (p : Path) (i : List Byte), Admitted cmdGetDeviceInfo p i s) ∧
    (∃ (s : State) (p : Path) (i : List Byte), Admitted cmdGetPortConfig p i s ∧ s.sad.img.portCfg.groupMode.length = 8) ∧
    (∃ (s : State) (p : Path) (i : List Byte), Admitted cmdGetStageConfig p i s) ∧
    (∃ (s : State) (p : Path) (i : List Byte), Admitted cmdGetHealth p i s) ∧
    (∃ (s : State) (i : List Byte), Admitted (cmdGetLastXstatus (xstatus s.mctp)) .mctp i s) ∧
    (∃ (s : State) (p : Path) (i : List Byte), Admitted cmdGetPartition p i s ∧ fld i 0 2 < 1024 ∧ ownsPart s p (fld i 0 2) = true) ∧
    (∃ (s : State) (p : Path) (i : List Byte), Admitted cmdGetPartitionList p i s) ∧
    (∃ (s : State) (p : Path) (i : List Byte) (k : Nat), Admitted cmdGetLdMap p i s ∧ ldOperand s i = .ok k ∧ ownsLd s p k = true) ∧
    (∃ (s : State) (p : Path) (i : List Byte) (k : Nat), Admitted cmdGetContract p i s ∧ ldOperand s i = .ok k ∧ ownsLd s p k = true) ∧
    (∃ (s : State) (p : Path) (i : List Byte), Admitted cmdGetFreeze p i s ∧ masterRsvd (fld i 0 4) = false) ∧
    (∃ (s : State) (p : Path) (i : List Byte), Admitted cmdGetTimebase p i s) ∧
    (∃ (s : State) (p : Path) (i : List Byte), Admitted cmdGetTimeConfig p i s) ∧
    (∃ (s : State) (p : Path) (i : List Byte), Admitted cmdGetMeters p i s ∧ fld i 0 2 < 1024 ∧ ownsPart s p (fld i 0 2) = true ∧ 1 ≤ fld i 2 2 ∧ fld i 2 2 ≤ 500) ∧
    (∃ (s : State) (p : Path) (i : List Byte), Admitted cmdGetHistogram p i s ∧ fld i 0 1 = 0 ∧ fld i 2 2 < 1024 ∧ ownsPart s p (fld i 2 2) = true ∧ 1 ≤ fld i 8 2 ∧ fld i 8 2 ≤ 120) :=
  ⟨⟨wFull, (.ld 0 0), ([]), by unfold Admitted Ready; decide +kernel⟩,
    ⟨wFull, .mctp, ([]), by unfold Admitted Ready; decide +kernel⟩,
    ⟨wFull, .mctp, ([]), by unfold Admitted Ready; decide +kernel⟩,
    ⟨wFull, (.ld 0 0), ([]), by unfold Admitted Ready; decide +kernel⟩,
    ⟨({ wFull with mctp := { xDetail := 5, xValid := true, xOffset := 0xFFF } }), ([]), by unfold Admitted Ready; decide +kernel⟩,
    ⟨wFull, (.ld 0 0), ([1, 0]), by unfold Admitted Ready; decide +kernel⟩,
    ⟨wFull, .mctp, ([]), by unfold Admitted Ready; decide +kernel⟩,
    ⟨wFull, (.ld 0 0), ([0, 0]), 0, by unfold Admitted Ready; decide +kernel⟩,
    ⟨wFull, .mctp, ([0, 1]), 1, by unfold Admitted Ready; decide +kernel⟩,
    ⟨wFull, .mctp, ([0, 0, 0, 0]), by unfold Admitted Ready; decide +kernel⟩,
    ⟨wFull, (.ld 0 1), ([]), by unfold Admitted Ready; decide +kernel⟩,
    ⟨wFull, .mctp, ([]), by unfold Admitted Ready; decide +kernel⟩,
    ⟨wFull, (.ld 0 0), ([1, 0, 5, 0, 0, 0, 0, 0]), by unfold Admitted Ready; decide +kernel⟩,
    ⟨wFull, (.ld 0 0), ([0, 0, 1, 0, 0, 0, 0, 0, 3, 0, 0, 0]), by unfold Admitted Ready; decide +kernel⟩⟩

/-- The hypotheses of each clause of UnitReads are met together. -/
theorem wit_UnitReads :
    (∃ (s : State) (p : Path) (i : List Byte) (r : PartRec), Admitted cmdGetTraverse p i s ∧ fld i 0 2 < 1024 ∧ ownsPart s p (fld i 0 2) = true ∧ partRec s (fld i 0 2) = some r) ∧
    (∃ (s : State) (p : Path) (i : List Byte), Admitted cmdGetMediaHealth p i s) ∧
    (∃ (s : State) (p : Path) (i : List Byte), Admitted cmdGetDroverConfig p i s) ∧
    (∃ (s : State) (p : Path) (i : List Byte), Admitted cmdGetBelayConfig p i s) ∧
    (∃ (s : State) (p : Path) (i : List Byte), Admitted cmdGetRopeStatus p i s) ∧
    (∃ (s : State) (p : Path) (i : List Byte), Admitted cmdGetPitchTable p i s) ∧
    (∃ (s : State) (p : Path) (i : List Byte), Admitted cmdGetThermal p i s) ∧
    (∃ (s : State) (p : Path) (i : List Byte), Admitted cmdGetCairnInfo p i s) ∧
    (∃ (s : State) (p : Path) (i : List Byte), Admitted cmdCairnRead p i s ∧ 1 ≤ fld i 4 2 ∧ fld i 4 2 ≤ 2047) ∧
    (∃ (s : State) (p : Path) (i : List Byte), Admitted cmdGetCairnHistogram p i s ∧ fld i 0 2 < 0x26 ∧ fld i 2 2 ≤ 720) ∧
    (∃ (s : State) (p : Path) (i : List Byte), Admitted cmdGetBootInfo p i s) ∧
    (∃ (s : State) (p : Path) (i : List Byte), Admitted cmdGetResetInfo p i s) ∧
    (∃ (s : State) (p : Path) (i : List Byte), Admitted cmdGetLifecycle p i s) :=
  ⟨⟨wFull, (.ld 0 0), ([1, 0]), ({ keyGen := 1, readShare := 8, writeShare := 8 }), by unfold Admitted Ready; decide +kernel⟩,
    ⟨wFull, .mctp, ([]), by unfold Admitted Ready; decide +kernel⟩,
    ⟨wFull, .mctp, ([]), by unfold Admitted Ready; decide +kernel⟩,
    ⟨wFull, .mctp, ([]), by unfold Admitted Ready; decide +kernel⟩,
    ⟨wFull, .mctp, ([]), by unfold Admitted Ready; decide +kernel⟩,
    ⟨wFull, .mctp, ([]), by unfold Admitted Ready; decide +kernel⟩,
    ⟨wFull, (.ld 0 0), ([]), by unfold Admitted Ready; decide +kernel⟩,
    ⟨wFull, .mctp, ([]), by unfold Admitted Ready; decide +kernel⟩,
    ⟨wFull, .mctp, ([1, 0, 0, 0, 5, 0, 0, 0]), by unfold Admitted Ready; decide +kernel⟩,
    ⟨wFull, .mctp, ([2, 0, 1, 0]), by unfold Admitted Ready; decide +kernel⟩,
    ⟨wFull, .mctp, ([]), by unfold Admitted Ready; decide +kernel⟩,
    ⟨wFull, .mctp, ([]), by unfold Admitted Ready; decide +kernel⟩,
    ⟨wFull, .mctp, ([]), by unfold Admitted Ready; decide +kernel⟩⟩

/-- The hypotheses of each clause of StandardChanges are met together. -/
theorem wit_StandardChanges :
    (∃ (s : State) (p : Path) (i : List Byte) (k : Nat), Admitted cmdClearEventRecords p i s ∧ pathLd s p = some k ∧ fld i 0 1 < 4 ∧ fld i 1 1 = 1) ∧
    (∃ (s : State) (p : Path) (i : List Byte) (k : Nat), Admitted cmdClearEventRecords p i s ∧ pathLd s p = some k ∧ fld i 0 1 < 4 ∧ fld i 1 1 = 0 ∧ ((∀ n, n < fld i 2 1 → ∃ e ∈ (logOf (ldAt s k) (fld i 0 1)).recs, e.handle = fld i (6 + 2 * n) 2))) ∧
    (∃ (s : State) (p : Path) (i : List Byte), Admitted cmdSetEventInterruptPolicy p i s ∧ ((∀ b ∈ i, b &&& 3 = 0))) ∧
    (∃ (s : State) (p : Path) (i : List Byte) (n : Nat) (b : Byte), Admitted cmdSetEventInterruptPolicy p i s ∧ i[n]? = some b ∧ b &&& 3 ≠ 0 ∧ ((∀ j c, j < n → i[j]? = some c → c &&& 3 = 0))) ∧
    (∃ (s : State) (p : Path) (i : List Byte) (k : Nat), Admitted cmdSetAlertConfiguration p i s ∧ pathLd s p = some k ∧ fld i 0 1 < 8 ∧ fld i 1 1 < 8) ∧
    (∃ (s : State) (p : Path) (i : List Byte) (k : Nat), Admitted cmdSetShutdownState p i s ∧ pathLd s p = some k) ∧
    (∃ (s : State) (p : Path) (i : List Byte) (k : Nat) (lpn : Nat) (w : Nat), Admitted cmdInjectPoison p i s ∧ pathLd s p = some k ∧ rangeLpn s 0 (some k) (fld i 0 8 / 256 * 256) = some lpn ∧ (ldAt s k).map.opcodes.getLsbD 2 = true ∧ (ldAt s k).map.opcodes.getLsbD 6 = true ∧ (injectedOf (ldAt s k)).length < 8 ∧ fld i 0 8 / 256 * 256 ∉ injectedOf (ldAt s k) ∧ findWay s lpn = some w ∧ (((lineAt s w).st = .clean ∨ (lineAt s w).st = .dirty)) ∧ WritesFreely w s) ∧
    (∃ (s : State) (p : Path) (i : List Byte) (k : Nat) (lpn : Nat), Admitted cmdInjectPoison p i s ∧ pathLd s p = some k ∧ rangeLpn s 0 (some k) (fld i 0 8 / 256 * 256) = some lpn ∧ ((ldAt s k).map.opcodes.getLsbD 2 = false ∨ (ldAt s k).map.opcodes.getLsbD 6 = false)) ∧
    (∃ (s : State) (p : Path) (i : List Byte) (k : Nat) (lpn : Nat), Admitted cmdInjectPoison p i s ∧ pathLd s p = some k ∧ rangeLpn s 0 (some k) (fld i 0 8 / 256 * 256) = some lpn ∧ (ldAt s k).map.opcodes.getLsbD 2 = true ∧ (ldAt s k).map.opcodes.getLsbD 6 = true ∧ 8 ≤ (injectedOf (ldAt s k)).length ∧ fld i 0 8 / 256 * 256 ∉ injectedOf (ldAt s k)) ∧
    (∃ (s : State) (p : Path) (i : List Byte) (k : Nat) (lpn : Nat) (w : Nat), Admitted cmdClearPoison p i s ∧ pathLd s p = some k ∧ rangeLpn s 0 (some k) (fld i 0 8) = some lpn ∧ (ldAt s k).map.opcodes.getLsbD 2 = true ∧ findWay s lpn = some w ∧ (lineAt s w).st = .dirty ∧ (lineAt s w).poison = true ∧ (lineAt s w).valid = 0 ∧ (lineAt s w).dirty = 15 ∧ (lineAt s w).lpn = lpn ∧ (lineAt s w).dropOnFill = false ∧ s.health.st ≠ 3 ∧ s.health.st ≠ 4 ∧ dirtyLimit s ≠ 0) ∧
    (∃ (s : State) (p : Path) (i : List Byte) (k : Nat), pathLd s p = some k ∧ Admitted cmdInjectPoison p i s ∧ rangeLpn s 0 (some k) (fld i 0 8 / 256 * 256) = none) ∧
    (∃ (s : State) (p : Path) (i : List Byte) (k : Nat), pathLd s p = some k ∧ Admitted cmdClearPoison p i s ∧ rangeLpn s 0 (some k) (fld i 0 8) = none) :=
  ⟨⟨wFull, (.ld 0 0), ([2, 1, 0, 0, 0, 0]), 0, by unfold Admitted Ready; decide +kernel⟩,
    ⟨wFull, (.ld 0 0), ([2, 0, 1, 0, 0, 0, 3, 0]), 0, by unfold Admitted Ready; decide +kernel⟩,
    ⟨wFull, (.ld 0 0), ([0, 0, 4, 0]), by unfold Admitted Ready; decide +kernel⟩,
    ⟨wFull, (.ld 0 0), ([0, 0, 4, 2]), 3, 2, by
  refine ⟨(by unfold Admitted Ready; decide +kernel), ?_, ?_, (by
    intro j c h e
    match j, h with
    | 0, _ => cases e; rfl
    | 1, _ => cases e; rfl
    | 2, _ => cases e; rfl)⟩ <;> decide +kernel⟩,
    ⟨wFull, (.ld 0 0), ([5, 4, 80, 0, 7, 0, 0xFE, 0xFF, 0, 0, 0, 0]), 0, by unfold Admitted Ready; decide +kernel⟩,
    ⟨wFull, (.ld 0 0), ([1]), 0, by unfold Admitted Ready; decide +kernel⟩,
    ⟨(wCache wLine), (.ld 0 0), (toLe 8 192), 0, wLpn, 4, by unfold Admitted Ready WritesFreely; decide +kernel⟩,
    ⟨(wLd (fun l => { l with map := { l.map with opcodes := 0x3F } })), (.ld 0 0), (toLe 8 192), 0, wLpn, by unfold Admitted Ready; decide +kernel⟩,
    ⟨(wLd (fun l => { l with poisonList := (List.range 8).map (fun n => { dpa := 256 * (n + 1), len := 256, injected := true }) })), (.ld 0 0), (toLe 8 192), 0, wLpn, by unfold Admitted Ready; decide +kernel⟩,
    ⟨(wCache { wLine with st := .dirty, poison := true, valid := 0, dirty := 15 }), (.ld 0 0), (toLe 8 192 ++ toLe 64 12345), 0, wLpn, 4, by unfold Admitted Ready; decide +kernel⟩,
    ⟨wBase, (.ld 0 0), (toLe 8 2147483648), 0, by unfold Admitted Ready; decide +kernel⟩,
    ⟨wBase, (.ld 0 0), (toLe 8 2147483648 ++ zeros 64), 0, by unfold Admitted Ready; decide +kernel⟩⟩

/-- The hypotheses of each clause of ConfigurationChanges are met together. -/
theorem wit_ConfigurationChanges :
    (∃ (s : State) (p : Path) (i : List Byte), Admitted cmdSetPortConfig p i s ∧ portCfgBad i = none) ∧
    (∃ (s : State) (p : Path) (i : List Byte) (o : Nat) (d : Nat), Admitted cmdSetPortConfig p i s ∧ portCfgBad i = some (o, d)) ∧
    (∃ (s : State) (p : Path) (i : List Byte), Admitted cmdSetStageConfig p i s ∧ 1 ≤ fld i 0 1 ∧ fld i 0 1 ≤ 8) ∧
    (∃ (s : State) (p : Path) (i : List Byte), Admitted cmdSetStageConfig p i s ∧ (fld i 0 1 = 0 ∨ 8 < fld i 0 1)) ∧
    (∃ (s : State) (p : Path) (i : List Byte), Admitted cmdSetTimeConfig p i s ∧ fld i 0 1 < 2 ∧ fld i 1 1 < 2 ∧ -1000 ≤ fldI16 i 2 ∧ fldI16 i 2 ≤ 1000) ∧
    (∃ (s : State) (p : Path) (i : List Byte), Admitted cmdSetDroverConfig p i s ∧ ((8 ≤ fld i 0 1 ∧ fld i 0 1 ≤ 63 ∧ 60 ≤ fld i 2 2 ∧ fld i 2 2 ≤ 3000 ∧ 65536 ≤ fld i 4 4 ∧ fld i 4 4 ≤ 2097152 ∧ 240 ≤ fld i 8 2 ∧ fld i 8 2 ≤ 2016 ∧ 1 ≤ fld i 10 1 ∧ fld i 10 1 ≤ 28))) ∧
    (∃ (s : State) (p : Path) (i : List Byte), Admitted cmdSetBelayConfig p i s ∧ ((1024 ≤ fld i 0 4 ∧ fld i 0 4 ≤ 16384 ∧ 1000 ≤ fld i 4 4 ∧ fld i 4 4 < fld i 8 4 ∧ fld i 8 4 ≤ 60000 ∧ (fld i 12 4 = 0 ∨ 500 ≤ fld i 12 4 ∧ fld i 12 4 ≤ 100000) ∧ fld i 16 4 ≤ 86399))) ∧
    (∃ (s : State) (p : Path) (i : List Byte), Admitted cmdSetPitchTable p i s ∧ pitchBad i = none) ∧
    (∃ (s : State) (p : Path) (i : List Byte) (d : Nat) (o : Nat), Admitted cmdSetPitchTable p i s ∧ pitchBad i = some (d, o)) :=
  ⟨⟨wBase, .mctp, (wPortCfg 0), by unfold Admitted Ready; decide +kernel⟩,
    ⟨wBase, .mctp, (wPortCfg 5), 0, 0x0D83, by unfold Admitted Ready; decide +kernel⟩,
    ⟨wBase, .mctp, ([8, 0, 0, 0]), by unfold Admitted Ready; decide +kernel⟩,
    ⟨wBase, .mctp, ([9, 0, 0, 0]), by unfold Admitted Ready; decide +kernel⟩,
    ⟨wBase, .mctp, ([1, 1, 0x18, 0xFC]), by unfold Admitted Ready; decide +kernel⟩,
    ⟨wBase, .mctp, ([8, 0, 60, 0, 0, 0, 1, 0, 240, 0, 28, 0, 0, 0, 0, 0]), by unfold Admitted Ready; decide +kernel⟩,
    ⟨wBase, .mctp, (toLe 4 1024 ++ toLe 4 9000 ++ toLe 4 9001 ++ toLe 4 500 ++ toLe 4 86399 ++ toLe 4 0), by unfold Admitted Ready; decide +kernel⟩,
    ⟨wBase, .mctp, (wPitch 0), by unfold Admitted Ready; decide +kernel⟩,
    ⟨wBase, .mctp, (wPitch 4), 0x0D83, 152, by unfold Admitted Ready; decide +kernel⟩⟩

/-- The hypotheses of each clause of TimeOfDay are met together. -/
theorem wit_TimeOfDay :
    (∃ (s : State) (p : Path) (i : List Byte), Admitted cmdSetTimeOfDay p i s ∧ fld i 0 1 = 0 ∧ 500000 < ((fld i 8 8 : Int) - tbNow s).natAbs) ∧
    (∃ (s : State) (p : Path) (i : List Byte), Admitted cmdSetTimeOfDay p i s ∧ fld i 0 1 = 0 ∧ ((fld i 8 8 : Int) - tbNow s).natAbs ≤ 500000) ∧
    (∃ (s : State) (p : Path) (i : List Byte), Admitted cmdSetTimeOfDay p i s ∧ fld i 0 1 = 1 ∧ (s.reck.st = .free ∨ s.reck.st = .refLost)) ∧
    (∃ (s : State) (p : Path) (i : List Byte), Admitted cmdSetTimeOfDay p i s ∧ fld i 0 1 = 1 ∧ s.reck.st ≠ .free ∧ s.reck.st ≠ .refLost) :=
  ⟨⟨wBase, .mctp, (zeros 8 ++ toLe 8 4000000000), by unfold Admitted Ready; decide +kernel⟩,
    ⟨wBase, .mctp, (zeros 8 ++ toLe 8 5000500000), by unfold Admitted Ready; decide +kernel⟩,
    ⟨({ wBase with reck := { wBase.reck with st := .free } }), .mctp, (1 :: zeros 7 ++ toLe 8 9), by unfold Admitted Ready; decide +kernel⟩,
    ⟨wBase, .mctp, (1 :: zeros 7 ++ toLe 8 9), by unfold Admitted Ready; decide +kernel⟩⟩

/-- The hypotheses of each clause of FirmwareAndResetCommands are met together. -/
theorem wit_FirmwareAndResetCommands :
    (∃ (s : State) (p : Path) (i : List Byte), Admitted cmdConfirmFw p i s ∧ s.boot.running = true ∧ s.boot.secVersion ≠ s.boot.secCounter ∧ storeAllowed s = true) ∧
    (∃ (s : State) (p : Path) (i : List Byte), Admitted cmdConfirmFw p i s ∧ s.boot.running = true ∧ s.boot.secVersion = s.boot.secCounter) ∧
    (∃ (s : State) (p : Path) (i : List Byte), Admitted cmdConfirmFw p i s ∧ s.boot.running = false) ∧
    (∃ (s : State) (p : Path) (i : List Byte), Admitted cmdClearResetInfo p i s ∧ fld i 0 4 < 2048) ∧
    (∃ (s : State) (p : Path) (i : List Byte), Admitted cmdPreparePowerOff p i s ∧ activating s = false ∧ s.boot.running = true ∧ s.belay.step = 0) ∧
    (∃ (s : State) (p : Path) (i : List Byte), Admitted cmdWarmReset p i s ∧ activating s = false ∧ s.boot.running = true ∧ s.belay.step = 0) ∧
    (∃ (s : State) (p : Path) (i : List Byte), activating s = true ∧ Admitted cmdPreparePowerOff p i s) ∧
    (∃ (s : State) (p : Path) (i : List Byte), activating s = true ∧ Admitted cmdWarmReset p i s) :=
  ⟨⟨wBase, .mctp, ([]), by unfold Admitted Ready; decide +kernel⟩,
    ⟨({ wBase with boot := { wBase.boot with secCounter := 2 } }), .mctp, ([]), by unfold Admitted Ready; decide +kernel⟩,
    ⟨({ wBase with boot := { wBase.boot with running := false } }), .mctp, ([]), by unfold Admitted Ready; decide +kernel⟩,
    ⟨({ wBase with keeper := { wBase.keeper with resetInfo := 0x7FF, resetTb := 5000000000, resetNow := 0x20 } }), .mctp, (toLe 4 0x3F0), by unfold Admitted Ready; decide +kernel⟩,
    ⟨(wCache { wLine with st := .dirty, dirty := 1 }), (.ld 0 16), ([]), by unfold Admitted Ready; decide +kernel⟩,
    ⟨(wCache { wLine with st := .dirty, dirty := 1 }), (.ld 0 16), ([]), by unfold Admitted Ready; decide +kernel⟩,
    ⟨(wAct 0), .mctp, ([]), by unfold Admitted Ready; decide +kernel⟩,
    ⟨(wAct 0), .mctp, ([]), by unfold Admitted Ready; decide +kernel⟩⟩

/-- The hypotheses of each clause of PartitionCommands are met together. -/
theorem wit_PartitionCommands :
    (∃ (s : State) (p : Path) (i : List Byte), Admitted cmdCreatePartition p i s ∧ fld i 0 2 < 1024 ∧ fld i 2 1 < 2 ∧ partRec s (fld i 0 2) = none ∧ tget s.gate.freedMinute (fld i 0 2) ≠ some s.reck.openBank.minute ∧ shareSum s (fld i 0 2) + fld i 4 2 + fld i 6 2 ≤ 896) ∧
    (∃ (s : State) (p : Path) (i : List Byte) (kwk : BitVec 256) (part : Nat) (seq : Nat) (k : KeySet), Admitted cmdCreatePartition p i s ∧ fld i 0 2 < 1024 ∧ fld i 2 1 < 2) ∧
    (∃ (s : State) (p : Path) (i : List Byte), Admitted cmdCreatePartition p i s ∧ fld i 0 2 < 1024 ∧ fld i 2 1 < 2 ∧ (partRec s (fld i 0 2)).isSome = true) ∧
    (∃ (s : State) (p : Path) (i : List Byte), Admitted cmdCreatePartition p i s ∧ fld i 0 2 < 1024 ∧ fld i 2 1 < 2 ∧ partRec s (fld i 0 2) = none ∧ tget s.gate.freedMinute (fld i 0 2) = some s.reck.openBank.minute) ∧
    (∃ (s : State) (p : Path) (i : List Byte) (r : PartRec), Admitted cmdDeletePartition p i s ∧ fld i 0 2 < 1024 ∧ partRec s (fld i 0 2) = some r ∧ r.st = .active ∧ rangeMaps s (fld i 0 2) none = false) ∧
    (∃ (s : State) (p : Path) (i : List Byte) (r : PartRec), Admitted cmdDeletePartition p i s ∧ fld i 0 2 < 1024 ∧ partRec s (fld i 0 2) = some r ∧ r.st = .active ∧ rangeMaps s (fld i 0 2) none = true) ∧
    (∃ (s : State) (p : Path) (i : List Byte) (r : PartRec), Admitted cmdSetQos p i s ∧ fld i 0 2 < 1024 ∧ partRec s (fld i 0 2) = some r ∧ r.st = .active ∧ shareSum s (fld i 0 2) + fld i 2 2 + fld i 4 2 ≤ 896) ∧
    (∃ (s : State) (p : Path) (i : List Byte) (r : PartRec), Admitted cmdSetQos p i s ∧ fld i 0 2 < 1024 ∧ partRec s (fld i 0 2) = some r ∧ r.st = .active ∧ 896 < shareSum s (fld i 0 2) + fld i 2 2 + fld i 4 2) :=
  ⟨⟨wBase, .mctp, ([9, 0, 1, 0] ++ toLe 2 440 ++ toLe 2 440), by unfold Admitted Ready; decide +kernel⟩,
    ⟨wBase, .mctp, ([9, 0, 1, 0] ++ toLe 2 440 ++ toLe 2 440), 5, 9, 3, wKeys, by unfold Admitted Ready; decide +kernel⟩,
    ⟨wBase, .mctp, ([1, 0, 1, 0, 1, 0, 1, 0]), by unfold Admitted Ready; decide +kernel⟩,
    ⟨({ wBase with gate := { freedMinute := [(9, 0)] } }), .mctp, ([9, 0, 1, 0, 1, 0, 1, 0]), by unfold Admitted Ready; decide +kernel⟩,
    ⟨(wLd (fun l => { l with map := { l.map with typ := .unmapped } })), .mctp, ([1, 0]), ({ keyGen := 1, readShare := 8, writeShare := 8 }), by unfold Admitted Ready; decide +kernel⟩,
    ⟨({ wBase with sad := { wBase.sad with img := { wBase.sad.img with ldMaps := [(0, wMap)] } } }), .mctp, ([1, 0]), ({ keyGen := 1, readShare := 8, writeShare := 8 }), by unfold Admitted Ready; decide +kernel⟩,
    ⟨wBase, .mctp, ([1, 0] ++ toLe 2 448 ++ toLe 2 448 ++ [0, 0]), ({ keyGen := 1, readShare := 8, writeShare := 8 }), by unfold Admitted Ready; decide +kernel⟩,
    ⟨wBase, .mctp, ([1, 0] ++ toLe 2 448 ++ toLe 2 449 ++ [0, 0]), ({ keyGen := 1, readShare := 8, writeShare := 8 }), by unfold Admitted Ready; decide +kernel⟩⟩

/-- The hypotheses of each clause of LegCommands are met together. -/
theorem wit_LegCommands :
    (∃ (s : State) (p : Path) (i : List Byte) (legs : List Nat) (runs : Tbl LegRun), Admitted cmdAddLegs p i s ∧ fld i 0 2 < 1024 ∧ isActive s (fld i 0 2) = true ∧ 1 ≤ fld i 2 2 ∧ fld i 2 2 ≤ 1024 ∧ ((∀ q ∈ posList i, legAt s.sad.img.runs (fld i 0 2) q = none)) ∧ (posList i).Nodup ∧ placeLegs s (fld i 0 2) (posList i) = .ok (legs, runs) ∧ runRecs s.sad.img.runs runs ≠ []) ∧
    (∃ (s : State) (p : Path) (i : List Byte), Admitted cmdAddLegs p i s ∧ fld i 0 2 < 1024 ∧ isActive s (fld i 0 2) = true ∧ 1 ≤ fld i 2 2 ∧ fld i 2 2 ≤ 1024 ∧ ((∀ q ∈ posList i, legAt s.sad.img.runs (fld i 0 2) q = none)) ∧ (posList i).Nodup ∧ freeLegs s < (posList i).length * legCost s (fld i 0 2)) ∧
    (∃ (s : State) (p : Path) (i : List Byte) (q : Nat) (rest : List Nat), Admitted cmdAddLegs p i s ∧ fld i 0 2 < 1024 ∧ isActive s (fld i 0 2) = true ∧ 1 ≤ fld i 2 2 ∧ fld i 2 2 ≤ 1024 ∧ posList i = q :: rest ∧ (legAt s.sad.img.runs (fld i 0 2) q).isSome = true) ∧
    (∃ (s : State) (p : Path) (i : List Byte), Admitted cmdRemoveLegs p i s ∧ fld i 0 2 < 1024 ∧ isActive s (fld i 0 2) = true ∧ 1 ≤ fld i 2 2 ∧ fld i 2 2 ≤ 1024 ∧ ((∀ q ∈ posList i, rangeMaps s (fld i 0 2) (some q) = false ∧ (legAt s.sad.img.runs (fld i 0 2) q).isSome = true)) ∧ (posList i).Nodup) ∧
    (∃ (s : State) (p : Path) (i : List Byte) (q : Nat) (rest : List Nat), Admitted cmdRemoveLegs p i s ∧ fld i 0 2 < 1024 ∧ isActive s (fld i 0 2) = true ∧ 1 ≤ fld i 2 2 ∧ fld i 2 2 ≤ 1024 ∧ posList i = q :: rest ∧ rangeMaps s (fld i 0 2) (some q) = true) :=
  ⟨⟨wBase, .mctp, ([2, 0, 1, 0, 1, 0]), ([13]), wRuns, by unfold Admitted Ready; decide +kernel⟩,
    ⟨({ wBase with chans := [] }), .mctp, ([2, 0, 1, 0, 1, 0]), by unfold Admitted Ready; decide +kernel⟩,
    ⟨wBase, .mctp, ([1, 0, 2, 0, 1, 0, 5, 0]), 1, ([5]), by unfold Admitted Ready; decide +kernel⟩,
    ⟨(wLd (fun l => { l with map := { l.map with typ := .unmapped } })), .mctp, ([1, 0, 1, 0, 0, 0]), by unfold Admitted Ready; decide +kernel⟩,
    ⟨({ wBase with sad := { wBase.sad with img := { wBase.sad.img with ldMaps := [(0, wMap)] } } }), .mctp, ([1, 0, 1, 0, 1, 0]), 1, ([]), by unfold Admitted Ready; decide +kernel⟩⟩

/-- The hypotheses of each clause of MapAndThawCommands are met together. -/
theorem wit_MapAndThawCommands :
    (∃ (s : State) (p : Path) (i : List Byte) (k : Nat), Admitted cmdSetLdMap p i s ∧ ldOperand s i = .ok k ∧ fld i 2 1 < 3 ∧ fld i 3 1 < 2 ∧ fld i 4 2 < 1024 ∧ fld i 8 1 ≤ 64 ∧ ldMapBad s k i = none ∧ rangeTotal s (ldInst k) + (ldMapOf (tgetD s.sad.img.ldMaps (ldInst k) {}) i).ranges.length ≤ 4096) ∧
    (∃ (s : State) (p : Path) (i : List Byte) (k : Nat) (o : Nat), Admitted cmdSetLdMap p i s ∧ ldOperand s i = .ok k ∧ fld i 2 1 < 3 ∧ fld i 3 1 < 2 ∧ fld i 4 2 < 1024 ∧ fld i 8 1 ≤ 64 ∧ ldMapBad s k i = some o) ∧
    (∃ (s : State) (p : Path) (i : List Byte) (k : Nat), Admitted cmdSetContract p i s ∧ ldOperand s i = .ok k ∧ fld i 4 1 < 128 ∧ mgmtLdOf s = some k) ∧
    (∃ (s : State) (p : Path) (i : List Byte) (k : Nat), Admitted cmdSetContract p i s ∧ ldOperand s i = .ok k ∧ fld i 4 1 < 128 ∧ mgmtLdOf s ≠ some k ∧ 1 ≤ fld i 2 2 ∧ fld i 2 2 ≤ 2016 ∧ contractSum s k + fld i 2 2 ≤ 2016) ∧
    (∃ (s : State) (p : Path) (i : List Byte) (k : Nat), Admitted cmdSetContract p i s ∧ ldOperand s i = .ok k ∧ fld i 4 1 < 128 ∧ mgmtLdOf s ≠ some k ∧ 1 ≤ fld i 2 2 ∧ fld i 2 2 ≤ 2016 ∧ 2016 < contractSum s k + fld i 2 2) ∧
    (∃ (s : State) (p : Path) (i : List Byte) (f : Freeze), Admitted cmdThaw p i s ∧ masterRsvd (fld i 0 4) = false ∧ s.gate.freezes.find? (fun f => f.master = fld i 0 4) = some f ∧ f.tb ≠ tbNow s ∧ retrigger s (fld i 0 4) = none ∧ ((∀ q, (port s q).ingress = [])) ∧ thas s.sad.img.freezes (freezeSlot (fld i 0 4)) = false) ∧
    (∃ (s : State) (p : Path) (i : List Byte) (f : Freeze), Admitted cmdThaw p i s ∧ masterRsvd (fld i 0 4) = false ∧ s.gate.freezes.find? (fun f => f.master = fld i 0 4) = some f ∧ f.tb ≠ tbNow s ∧ retrigger s (fld i 0 4) = none ∧ ((∀ q, (port s q).ingress = [])) ∧ thas s.sad.img.freezes (freezeSlot (fld i 0 4)) = true) ∧
    (∃ (s : State) (p : Path) (i : List Byte) (f : Freeze) (h : Freeze), Admitted cmdThaw p i s ∧ masterRsvd (fld i 0 4) = false ∧ s.gate.freezes.find? (fun f => f.master = fld i 0 4) = some f ∧ f.tb ≠ tbNow s ∧ retrigger s (fld i 0 4) = some h ∧ ((∀ q, (port s q).ingress = [])) ∧ thas s.sad.img.freezes (freezeSlot (fld i 0 4)) = false) ∧
    (∃ (s : State) (p : Path) (i : List Byte) (f : Freeze), Admitted cmdThaw p i s ∧ masterRsvd (fld i 0 4) = false ∧ s.gate.freezes.find? (fun f => f.master = fld i 0 4) = some f ∧ f.tb = tbNow s) ∧
    (∃ (s : State) (p : Path) (i : List Byte), Admitted cmdThaw p i s ∧ masterRsvd (fld i 0 4) = false ∧ s.gate.freezes.find? (fun f => f.master = fld i 0 4) = none) ∧
    (∃ (s : State) (p : Path) (i : List Byte), Admitted cmdThaw p i s ∧ masterRsvd (fld i 0 4) = true) :=
  ⟨⟨wBase, .mctp, ([0, 1, 1, 0, 1, 0, 0, 0, 1, 0, 0, 0, 0, 0, 0, 0, 3, 0, 0, 0, 2, 0, 0, 0]), 1, by unfold Admitted Ready; decide +kernel⟩,
    ⟨wBase, .mctp, ([0, 1, 2, 0, 1, 0, 0, 0, 0, 0, 0, 0, 0, 0, 0, 0]), 1, 2, by unfold Admitted Ready; decide +kernel⟩,
    ⟨wBase, .mctp, ([0, 0xFF, 1, 0, 0x7F, 0, 0, 0]), 16, by unfold Admitted Ready; decide +kernel⟩,
    ⟨wBase, .mctp, ([0, 1] ++ toLe 2 1952 ++ [0x7F, 0, 9, 0]), 1, by unfold Admitted Ready; decide +kernel⟩,
    ⟨wBase, .mctp, ([0, 1] ++ toLe 2 1953 ++ [0x7F, 0, 9, 0]), 1, by unfold Admitted Ready; decide +kernel⟩,
    ⟨({ wLd (fun l => { l with poisonCnt := 9 }) with gate := { freezes := [{ master := ldMaster 0 0, code := 0x0205, addr := 0, detail := 0, tb := 7 }, { master := ldMaster 0 1, code := 0x0205, addr := 0, detail := 0, tb := 7 }] }, keeper := { wBase.keeper with latch := [{ master := ldMaster 0 0, code := 0x0205, addr := 0, detail := 0, tb := 7 }] } }), .mctp, (toLe 4 (ldMaster 0 0)), ({ master := ldMaster 0 0, code := 0x0205, addr := 0, detail := 0, tb := 7 }), by
  refine ⟨(by unfold Admitted Ready; decide +kernel), ?_, ?_, ?_, (by decide +kernel), (fun q => by cases q <;> rfl), ?_⟩ <;> decide +kernel⟩,
    ⟨({ wBase with gate := { freezes := [{ master := ldMaster 0 0, code := 0x0205, addr := 0, detail := 0, tb := 7 }] }, sad := { wBase.sad with img := { wBase.sad.img with freezes := [(freezeSlot (ldMaster 0 0), { master := ldMaster 0 0, code := 0x0205, addr := 0, detail := 0, tb := 7 }), (freezeSlot (ldMaster 0 1), { master := ldMaster 0 1, code := 0x0205, addr := 0, detail := 0, tb := 7 })] } } }), .mctp, (toLe 4 (ldMaster 0 0)), ({ master := ldMaster 0 0, code := 0x0205, addr := 0, detail := 0, tb := 7 }), by
  refine ⟨(by unfold Admitted Ready; decide +kernel), ?_, ?_, ?_, (by decide +kernel), (fun q => by cases q <;> rfl), ?_⟩ <;> decide +kernel⟩,
    ⟨({ wBase with gate := { freezes := [{ master := ldMaster 0 0, code := 0x0205, addr := 0, detail := 0, tb := 7 }, { master := ldMaster 0 1, code := 0x0205, addr := 0, detail := 0, tb := 7 }], again := [{ master := ldMaster 0 0, code := 0x0205, addr := 0, detail := 0, tb := 5000000000 }] } }), .mctp, (toLe 4 (ldMaster 0 0)), ({ master := ldMaster 0 0, code := 0x0205, addr := 0, detail := 0, tb := 7 }), ({ master := ldMaster 0 0, code := 0x0205, addr := 0, detail := 0, tb := 5000000000 }), by
  refine ⟨(by unfold Admitted Ready; decide +kernel), ?_, ?_, ?_, (by decide +kernel), (fun q => by cases q <;> rfl), ?_⟩ <;> decide +kernel⟩,
    ⟨({ wBase with gate := { freezes := [{ master := ldMaster 0 0, code := 0x0205, addr := 0, detail := 0, tb := 5000000000 }] } }), .mctp, (toLe 4 (ldMaster 0 0)), ({ master := ldMaster 0 0, code := 0x0205, addr := 0, detail := 0, tb := 5000000000 }), by unfold Admitted Ready; decide +kernel⟩,
    ⟨wBase, .mctp, (toLe 4 (ldMaster 0 0)), by unfold Admitted Ready; decide +kernel⟩,
    ⟨wBase, .mctp, (toLe 4 (ldMaster 0 0 + 0x8000000)), by unfold Admitted Ready; decide +kernel⟩⟩

/-- The hypotheses of each clause of DynamicCapacity are met together. -/
theorem wit_DynamicCapacity :
    (∃ (s : State) (p : Path) (i : List Byte) (k : Nat) (a : Nat) (n : Nat) (legs : List Nat) (runs : Tbl LegRun), Admitted cmdInitiateDcAdd p i s ∧ dcTarget s i = some k ∧ ((fld i 2 1 % 16 = 2 ∧ fld i 28 4 = 1 ∧ fld i 32 8 = a * gib ∧ fld i 40 8 = n * gib ∨ fld i 2 1 % 16 = 1 ∧ fld i 4 8 = n * gib ∧ ∃ m, (asExtents (emptyLegs s (ldAt s k).map)).find? (fun e => decide (n * gib ≤ e.2)) = some (a * gib, m))) ∧ 0 < n ∧ (ldAt s k).map.dcBase + a + n ≤ 65536 ∧ ((∀ j, j < n → legAt s.sad.img.runs (ldAt s k).map.part ((ldAt s k).map.dcBase + a + j) = none)) ∧ (withOffers (ldAt s k).map.dcBase (ldAt s k).map.ranges ((ldAt s k).offers ++ [{ dpaLeg := a, count := n, group := nextOffer (ldAt s k) }])).length ≤ 64 ∧ placeLegs s (ldAt s k).map.part ((List.range n).map (fun j => (ldAt s k).map.dcBase + (a + j))) = .ok (legs, runs) ∧ runRecs s.sad.img.runs runs ≠ []) ∧
    (∃ (s : State) (p : Path) (i : List Byte) (k : Nat) (a : Nat) (n : Nat) (g : Nat) (rest : List Offer) (rs : List Range), Admitted cmdAddDcResponse p i s ∧ pathLd s p = some k ∧ dcLd s k = true ∧ (ldAt s k).offers = { dpaLeg := a, count := n, group := g } :: rest ∧ ((∀ o ∈ rest, o.group ≠ g ∧ offered o (a * gib, n * gib) = false)) ∧ rs = (if fld i 0 4 = 0 then (ldAt s k).map.ranges else addRange (ldAt s k).map.dcBase (ldAt s k).map.ranges a n) ∧ rs.length ≤ 64 ∧ rangeTotal s (ldInst k) + rs.length ≤ 4096 ∧ fld i 0 4 = 1 ∧ fld i 8 8 = a * gib ∧ fld i 16 8 = n * gib ∧ 0 < n ∧ mapRecs s.sad.img (withMap (ldInst k) { tgetD s.sad.img.ldMaps (ldInst k) (ldAt s k).map with ranges := rs } s.sad.img) ≠ []) ∧
    (∃ (s : State) (p : Path) (i : List Byte) (k : Nat) (a : Nat) (n : Nat) (g : Nat) (rest : List Offer) (rs : List Range), Admitted cmdAddDcResponse p i s ∧ pathLd s p = some k ∧ dcLd s k = true ∧ (ldAt s k).offers = { dpaLeg := a, count := n, group := g } :: rest ∧ ((∀ o ∈ rest, o.group ≠ g ∧ offered o (a * gib, n * gib) = false)) ∧ rs = (if fld i 0 4 = 0 then (ldAt s k).map.ranges else addRange (ldAt s k).map.dcBase (ldAt s k).map.ranges a n) ∧ rs.length ≤ 64 ∧ rangeTotal s (ldInst k) + rs.length ≤ 4096 ∧ fld i 0 4 = 0) ∧
    (∃ (s : State) (p : Path) (i : List Byte) (k : Nat) (es : List (Nat × Nat)) (rs : List Range), Admitted cmdAddDcResponse p i s ∧ pathLd s p = some k ∧ dcLd s k = true ∧ es = extents i (fld i 0 4) 8 24 ∧ es ≠ [] ∧ unaligned es = none ∧ badAnswer (ldAt s k).offers es = none ∧ rs = es.foldl (fun r e => addRange (ldAt s k).map.dcBase r (e.1 / gib) (e.2 / gib)) (ldAt s k).map.ranges ∧ rs.length ≤ 64 ∧ rangeTotal s (ldInst k) + rs.length ≤ 4096) ∧
    (∃ (s : State) (p : Path) (i : List Byte) (k : Nat), Admitted cmdAddDcResponse p i s ∧ pathLd s p = some k ∧ dcLd s k = true ∧ fld i 0 4 = 1 ∧ fld i 8 8 % gib ≠ 0) ∧
    (∃ (s : State) (p : Path) (i : List Byte) (k : Nat) (a : Nat) (n : Nat), Admitted cmdReleaseDc p i s ∧ pathLd s p = some k ∧ dcLd s k = true ∧ fld i 0 4 = 1 ∧ fld i 8 8 = a * gib ∧ fld i 16 8 = n * gib ∧ 0 < n ∧ ((∀ j, j < n → (rangePos (ldAt s k).map.ranges (a + j)).isSome = true)) ∧ (cutRange a n (ldAt s k).map.ranges).length ≤ 64 ∧ rangeTotal s (ldInst k) + (cutRange a n (ldAt s k).map.ranges).length ≤ 4096 ∧ mapRecs s.sad.img (withMap (ldInst k) { tgetD s.sad.img.ldMaps (ldInst k) (ldAt s k).map with ranges := cutRange a n (ldAt s k).map.ranges } s.sad.img) ≠ []) ∧
    (∃ (s : State) (p : Path) (i : List Byte) (k : Nat) (a : Nat) (n : Nat), Admitted cmdInitiateDcRelease p i s ∧ dcTarget s i = some k ∧ fld i 2 1 % 16 = 1 ∧ fld i 28 4 = 1 ∧ fld i 32 8 = a * gib ∧ fld i 40 8 = n * gib ∧ 0 < n ∧ ((∀ j, j < n → (rangePos (ldAt s k).map.ranges (a + j)).isSome = true)) ∧ ((∀ o ∈ (ldAt s k).offers, o.dpaLeg = a → o.count ≠ n)) ∧ fld i 2 1 / 16 % 2 = 0 ∧ (ldAt s k).map.ranges.length ≤ 64 ∧ rangeTotal s (ldInst k) + (ldAt s k).map.ranges.length ≤ 4096) ∧
    (∃ (s : State) (p : Path) (i : List Byte) (k : Nat) (a : Nat) (n : Nat), Admitted cmdInitiateDcRelease p i s ∧ dcTarget s i = some k ∧ fld i 2 1 % 16 = 1 ∧ fld i 28 4 = 1 ∧ fld i 32 8 = a * gib ∧ fld i 40 8 = n * gib ∧ 0 < n ∧ ((∀ j, j < n → (rangePos (ldAt s k).map.ranges (a + j)).isSome = true)) ∧ ((∀ o ∈ (ldAt s k).offers, o.dpaLeg = a → o.count ≠ n)) ∧ fld i 2 1 / 16 % 2 = 1 ∧ (cutRange a n (ldAt s k).map.ranges).length ≤ 64 ∧ rangeTotal s (ldInst k) + (cutRange a n (ldAt s k).map.ranges).length ≤ 4096) ∧
    (∃ (s : State) (p : Path) (i : List Byte) (k : Nat) (a : Nat) (n : Nat) (runs : Tbl LegRun), Admitted cmdInitiateDcRelease p i s ∧ dcTarget s i = some k ∧ fld i 2 1 % 16 = 1 ∧ fld i 28 4 = 1 ∧ fld i 32 8 = a * gib ∧ fld i 40 8 = n * gib ∧ 0 < n ∧ ((∃ o ∈ (ldAt s k).offers, o.dpaLeg = a ∧ o.count = n)) ∧ runs = dropRuns (((List.range n).map (a + ·)).filterMap (fun d => legAt s.sad.img.runs (ldAt s k).map.part ((ldAt s k).map.dcBase + d))) s.sad.img.runs ∧ (ldAt s k).map.ranges.length ≤ 64 ∧ rangeTotal s (ldInst k) + (ldAt s k).map.ranges.length ≤ 4096) :=
  ⟨⟨(wDyn []), .mctp, (wMgr 2 1 1), 1, 1, 1, ([13]), wRuns, by
  refine ⟨(by unfold Admitted Ready; decide +kernel), ?_, .inl (by decide +kernel), ?_⟩ <;> decide +kernel⟩,
    ⟨(wDyn [{ dpaLeg := 1, count := 1, group := 0 }, { dpaLeg := 5, count := 2, group := 1 }]), (.ld 0 1), ((wExt 1 1).take 32), 1, 1, 1, 0, ([{ dpaLeg := 5, count := 2, group := 1 }]), ([{ dpaLeg := 0, count := 2, pos := 0 }]), by unfold Admitted Ready; decide +kernel⟩,
    ⟨({ wDyn [{ dpaLeg := 1, count := 1, group := 0 }, { dpaLeg := 5, count := 2, group := 1 }] with sad := { wBase.sad with img := { wBase.sad.img with runs := wRuns } } }), (.ld 0 1), (zeros 8), 1, 1, 1, 0, ([{ dpaLeg := 5, count := 2, group := 1 }]), ([{ dpaLeg := 0, count := 1, pos := 0 }]), by unfold Admitted Ready; decide +kernel⟩,
    ⟨(wDyn [{ dpaLeg := 1, count := 1, group := 0 }, { dpaLeg := 5, count := 2, group := 1 }]), (.ld 0 1), ((wExt 1 1).take 32), 1, ([(1 * gib, 1 * gib)]), ([{ dpaLeg := 0, count := 2, pos := 0 }]), by unfold Admitted Ready; decide +kernel⟩,
    ⟨(wDyn [{ dpaLeg := 1, count := 1, group := 0 }, { dpaLeg := 5, count := 2, group := 1 }]), (.ld 0 1), (toLe 4 1 ++ zeros 4 ++ toLe 8 256 ++ toLe 8 gib ++ zeros 8), 1, by unfold Admitted Ready; decide +kernel⟩,
    ⟨(wDyn []), (.ld 0 1), ((wExt 0 1).take 32), 1, 0, 1, by unfold Admitted Ready; decide +kernel⟩,
    ⟨(wDyn []), .mctp, (wMgr 1 0 1), 1, 0, 1, by unfold Admitted Ready; decide +kernel⟩,
    ⟨(wDyn []), .mctp, (wMgr 0x11 0 1), 1, 0, 1, by unfold Admitted Ready; decide +kernel⟩,
    ⟨({ wDyn [{ dpaLeg := 1, count := 1, group := 0 }, { dpaLeg := 5, count := 2, group := 1 }] with sad := { wBase.sad with img := { wBase.sad.img with runs := wRuns } } }), .mctp, (wMgr 1 1 1), 1, 1, 1, (dropRuns [13] wRuns), by unfold Admitted Ready; decide +kernel⟩⟩

/-- The hypotheses of each clause of BackgroundCommands are met together. -/
theorem wit_BackgroundCommands :
    (∃ (s : State) (p : Path) (i : List Byte) (c : Instr) (cmd : Cmd) (kind : Nat), ((c = .flushRange p i ∧ cmd = cmdFlushRange ∧ kind = 0 ∨ c = .invalidateRange p i ∧ cmd = cmdInvalidateRange ∧ kind = 1 ∨ c = .zeroRange p i ∧ cmd = cmdZeroRange ∧ kind = 2)) ∧ Admitted cmd p i s ∧ pathRole s p ≠ 0 ∧ fld i 0 1 = 0 ∧ fld i 2 2 < 1024 ∧ isActive s (fld i 2 2) = true ∧ fld i 8 8 % 256 = 0 ∧ fld i 16 8 % 256 = 0 ∧ rangeOccupied s (fld i 2 2) none (fld i 8 8) (fld i 16 8) = true) ∧
    (∃ (s : State) (p : Path) (i : List Byte) (c : Instr) (cmd : Cmd) (kind : Nat), ((c = .flushRange p i ∧ cmd = cmdFlushRange ∧ kind = 0 ∨ c = .invalidateRange p i ∧ cmd = cmdInvalidateRange ∧ kind = 1 ∨ c = .zeroRange p i ∧ cmd = cmdZeroRange ∧ kind = 2)) ∧ Admitted cmd p i s ∧ pathRole s p ≠ 0 ∧ fld i 0 1 = 0 ∧ fld i 2 2 < 1024 ∧ isActive s (fld i 2 2) = true ∧ fld i 8 8 % 256 ≠ 0) ∧
    (∃ (s : State) (p : Path) (i : List Byte) (c : Instr) (cmd : Cmd) (kind : Nat), ((c = .flushRange p i ∧ cmd = cmdFlushRange ∧ kind = 0 ∨ c = .invalidateRange p i ∧ cmd = cmdInvalidateRange ∧ kind = 1 ∨ c = .zeroRange p i ∧ cmd = cmdZeroRange ∧ kind = 2)) ∧ Admitted cmd p i s ∧ pathRole s p ≠ 0 ∧ fld i 0 1 = 0 ∧ fld i 2 2 < 1024 ∧ isActive s (fld i 2 2) = true ∧ fld i 8 8 % 256 = 0 ∧ fld i 16 8 % 256 ≠ 0) ∧
    (∃ (s : State) (p : Path) (i : List Byte) (c : Instr) (cmd : Cmd) (kind : Nat), ((c = .flushRange p i ∧ cmd = cmdFlushRange ∧ kind = 0 ∨ c = .invalidateRange p i ∧ cmd = cmdInvalidateRange ∧ kind = 1 ∨ c = .zeroRange p i ∧ cmd = cmdZeroRange ∧ kind = 2)) ∧ Admitted cmd p i s ∧ pathRole s p ≠ 0 ∧ fld i 0 1 = 0 ∧ fld i 2 2 < 1024 ∧ isActive s (fld i 2 2) = true ∧ fld i 8 8 % 256 = 0 ∧ fld i 16 8 % 256 = 0 ∧ rangeOccupied s (fld i 2 2) none (fld i 8 8) (fld i 16 8) = false) ∧
    (∃ (s : State) (p : Path) (i : List Byte) (c : Instr) (cmd : Cmd) (kind : Nat) (k : Nat), ((c = .flushRange p i ∧ cmd = cmdFlushRange ∧ kind = 0 ∨ c = .invalidateRange p i ∧ cmd = cmdInvalidateRange ∧ kind = 1 ∨ c = .zeroRange p i ∧ cmd = cmdZeroRange ∧ kind = 2)) ∧ Admitted cmd p i s ∧ pathRole s p = 0 ∧ pathLd s p = some k ∧ fld i 0 1 = 1 ∧ fld i 2 2 = 0 ∧ rangeRight kind (ldAt s k).map = true ∧ fld i 8 8 % 256 = 0 ∧ fld i 16 8 % 256 = 0 ∧ rangeOccupied s (ldAt s k).map.part (some k) (fld i 8 8) (fld i 16 8) = true) ∧
    (∃ (s : State) (p : Path) (i : List Byte) (c : Instr) (cmd : Cmd) (kind : Nat) (k : Nat), ((c = .flushRange p i ∧ cmd = cmdFlushRange ∧ kind = 0 ∨ c = .invalidateRange p i ∧ cmd = cmdInvalidateRange ∧ kind = 1 ∨ c = .zeroRange p i ∧ cmd = cmdZeroRange ∧ kind = 2)) ∧ Admitted cmd p i s ∧ pathRole s p = 0 ∧ pathLd s p = some k ∧ fld i 0 1 = 1 ∧ fld i 2 2 = 0 ∧ rangeRight kind (ldAt s k).map = false) ∧
    (∃ (s : State) (p : Path) (i : List Byte) (r : PartRec), Admitted cmdTraverse p i s ∧ fld i 0 2 < 1024 ∧ partRec s (fld i 0 2) = some r ∧ r.st = .active ∧ s.sealCtl.zeroed = true) ∧
    (∃ (s : State) (p : Path) (i : List Byte) (r : PartRec), Admitted cmdTraverse p i s ∧ fld i 0 2 < 1024 ∧ partRec s (fld i 0 2) = some r ∧ r.st = .active ∧ s.sealCtl.zeroed = false ∧ ((∀ t, tget s.travs (fld i 0 2) = some t → t.phase = 0)) ∧ s.sad.img.travs.find? (fun p => p.2.part = fld i 0 2) = none ∧ 16 ≤ s.sad.img.travs.length) ∧
    (∃ (s : State) (p : Path) (i : List Byte) (r : PartRec), Admitted cmdTraverse p i s ∧ fld i 0 2 < 1024 ∧ partRec s (fld i 0 2) = some r ∧ r.st = .active ∧ s.sealCtl.zeroed = false ∧ ((∀ t, tget s.travs (fld i 0 2) = some t → t.phase = 0)) ∧ s.sad.img.travs.find? (fun p => p.2.part = fld i 0 2) = none ∧ s.sad.img.travs.length < 16) ∧
    (∃ (s : State) (p : Path) (i : List Byte) (r : PartRec) (v : Trav), Admitted cmdTraverse p i s ∧ fld i 0 2 < 1024 ∧ partRec s (fld i 0 2) = some r ∧ r.st = .active ∧ s.sealCtl.zeroed = false ∧ tget s.travs (fld i 0 2) = some v ∧ v.phase ≠ 0) ∧
    (∃ (s : State) (p : Path) (i : List Byte) (r : PartRec) (n : Nat) (v : TravRec), Admitted cmdTraverse p i s ∧ fld i 0 2 < 1024 ∧ partRec s (fld i 0 2) = some r ∧ r.st = .active ∧ s.sealCtl.zeroed = false ∧ ((∀ t, tget s.travs (fld i 0 2) = some t → t.phase = 0)) ∧ s.sad.img.travs.find? (fun p => p.2.part = fld i 0 2) = some (n, v)) ∧
    (∃ (s : State) (p : Path) (i : List Byte), Admitted cmdAdoptModule p i s ∧ fld i 0 1 < 32 ∧ (chan s (fld i 0 1)).st ≠ .new) ∧
    (∃ (s : State) (p : Path) (i : List Byte), Admitted cmdAdoptModule p i s ∧ fld i 0 1 < 32 ∧ (chan s (fld i 0 1)).st = .new ∧ (chan s (fld i 0 1)).serial.toNat ≠ fld i 8 8) ∧
    (∃ (s : State) (p : Path) (i : List Byte), Admitted cmdAdoptModule p i s ∧ fld i 0 1 < 32 ∧ (chan s (fld i 0 1)).st = .new ∧ (chan s (fld i 0 1)).serial.toNat = fld i 8 8) ∧
    (∃ (s : State) (p : Path) (n : Nat) (b : Bg), s.mainUp = true ∧ (ctx s p).bg = some b) ∧
    (∃ (s : State) (e : Nat) (k : Nat) (n : Nat) (b : Nat), s.mainUp = true) :=
  ⟨⟨wBase, .mctp, (wRangeIn 256 512), (.zeroRange .mctp (wRangeIn 256 512)), cmdZeroRange, 2, by
  refine ⟨.inr (.inr ⟨rfl, rfl, rfl⟩), (by unfold Admitted Ready; decide +kernel), ?_⟩ <;> decide +kernel⟩,
    ⟨wBase, .mctp, (wRangeIn 64 512), (.flushRange .mctp (wRangeIn 64 512)), cmdFlushRange, 0, by
  refine ⟨.inl ⟨rfl, rfl, rfl⟩, (by unfold Admitted Ready; decide +kernel), ?_⟩ <;> decide +kernel⟩,
    ⟨wBase, .mctp, (wRangeIn 256 511), (.flushRange .mctp (wRangeIn 256 511)), cmdFlushRange, 0, by
  refine ⟨.inl ⟨rfl, rfl, rfl⟩, (by unfold Admitted Ready; decide +kernel), ?_⟩ <;> decide +kernel⟩,
    ⟨wBase, .mctp, (wRangeIn 256 2147483648), (.flushRange .mctp (wRangeIn 256 2147483648)), cmdFlushRange, 0, by
  refine ⟨.inl ⟨rfl, rfl, rfl⟩, (by unfold Admitted Ready; decide +kernel), ?_⟩ <;> decide +kernel⟩,
    ⟨wBase, (.ld 0 0), (wRangeTen 256 512), (.invalidateRange (.ld 0 0) (wRangeTen 256 512)), cmdInvalidateRange, 1, 0, by
  refine ⟨.inr (.inl ⟨rfl, rfl, rfl⟩), (by unfold Admitted Ready; decide +kernel), ?_⟩ <;> decide +kernel⟩,
    ⟨(wLd (fun l => { l with map := { l.map with opcodes := 0x7B } })), (.ld 0 0), (wRangeTen 256 512), (.zeroRange (.ld 0 0) (wRangeTen 256 512)), cmdZeroRange, 2, 0, by
  refine ⟨.inr (.inr ⟨rfl, rfl, rfl⟩), (by unfold Admitted Ready; decide +kernel), ?_⟩ <;> decide +kernel⟩,
    ⟨({ wBase with sealCtl := { wBase.sealCtl with zeroed := true } }), .mctp, ([1, 0, 0, 0, 5, 0, 0, 0]), ({ keyGen := 1, readShare := 8, writeShare := 8 }), by unfold Admitted Ready; decide +kernel⟩,
    ⟨({ wBase with sad := { wBase.sad with img := { wBase.sad.img with travs := (List.range 16).map (fun n => (n, { part := n + 10, oldGen := 0, newGen := 1, rate := 0, mark := 0 })) } } }), .mctp, ([1, 0, 0, 0, 5, 0, 0, 0]), ({ keyGen := 1, readShare := 8, writeShare := 8 }), by unfold Admitted Ready; decide +kernel⟩,
    ⟨wBase, .mctp, ([1, 0, 0, 0, 5, 0, 0, 0]), ({ keyGen := 1, readShare := 8, writeShare := 8 }), by unfold Admitted Ready; decide +kernel⟩,
    ⟨({ wTravOn wTrav with travs := [(1, { wTrav with phase := 1 })] }), .mctp, ([1, 0, 0, 0, 5, 0, 0, 0]), ({ keyGen := 1, readShare := 8, writeShare := 8 }), ({ wTrav with phase := 1 }), by unfold Admitted Ready; decide +kernel⟩,
    ⟨(wTravOn wTrav), .mctp, ([1, 0, 0, 0, 5, 0, 0, 0]), ({ keyGen := 1, readShare := 8, writeShare := 8 }), 0, ({ part := 1, oldGen := 1, newGen := 2, rate := 0, mark := 0 }), by unfold Admitted Ready; decide +kernel⟩,
    ⟨wBase, .mctp, (0 :: zeros 15), by unfold Admitted Ready; decide +kernel⟩,
    ⟨wNew, .mctp, (5 :: zeros 15), by unfold Admitted Ready; decide +kernel⟩,
    ⟨wNew, .mctp, (5 :: zeros 7 ++ toLe 8 500), by unfold Admitted Ready; decide +kernel⟩,
    ⟨(wRangeOn wBase (wRange 1 256 [])), (.ld 0 16), 200, (wRange 1 256 []), by decide +kernel⟩,
    ⟨wBase, 3, 1, 2, 100, by decide +kernel⟩⟩

/-- The hypotheses of each clause of FirmwareUpdate are met together. -/
theorem wit_FirmwareUpdate :
    (∃ (s : State) (p : Path) (i : List Byte), Admitted cmdTransferFw p i s ∧ fld i 0 1 = 0) ∧
    (∃ (s : State) (p : Path) (i : List Byte), Admitted cmdTransferFw p i s ∧ fld i 0 1 = 1 ∧ fld i 4 4 = 0 ∧ activating s = false ∧ ((s.boot.transferPath = 0 ∨ s.boot.staged = true ∨ s.boot.transferPath = fwPath p))) ∧
    (∃ (s : State) (p : Path) (i : List Byte), Admitted cmdTransferFw p i s ∧ fld i 0 1 = 1 ∧ activating s = false ∧ s.boot.transferPath ≠ 0 ∧ s.boot.staged = false ∧ s.boot.transferPath ≠ fwPath p) ∧
    (∃ (s : State) (p : Path) (i : List Byte), Admitted cmdTransferFw p i s ∧ fld i 0 1 = 2 ∧ s.boot.staged = false ∧ s.boot.transferPath = fwPath p ∧ fld i 4 4 * 128 = s.boot.staging.length ∧ s.boot.staging.length + (i.drop 128).length ≤ 8392704) ∧
    (∃ (s : State) (p : Path) (i : List Byte), Admitted cmdTransferFw p i s ∧ fld i 0 1 = 2 ∧ s.boot.staged = false ∧ s.boot.transferPath = fwPath p ∧ fld i 4 4 * 128 ≠ s.boot.staging.length) ∧
    (∃ (s : State) (p : Path) (i : List Byte), Admitted cmdTransferFw p i s ∧ fld i 0 1 = 3 ∧ s.boot.staged = false ∧ s.boot.transferPath = fwPath p ∧ fld i 4 4 * 128 = s.boot.staging.length ∧ s.boot.staging.length + (i.drop 128).length ≤ 8392704 ∧ fld i 1 1 ≠ 1) ∧
    (∃ (s : State) (p : Path) (i : List Byte), Admitted cmdTransferFw p i s ∧ fld i 0 1 = 3 ∧ s.boot.staged = false ∧ s.boot.transferPath = fwPath p ∧ fld i 4 4 * 128 = s.boot.staging.length ∧ s.boot.staging.length + (i.drop 128).length ≤ 8392704 ∧ fld i 1 1 = 1 ∧ stagedOk (s.boot.staging ++ i.drop 128) = true) ∧
    (∃ (s : State) (p : Path) (i : List Byte), Admitted cmdTransferFw p i s ∧ fld i 0 1 = 3 ∧ s.boot.staged = false ∧ s.boot.transferPath = fwPath p ∧ fld i 4 4 * 128 = s.boot.staging.length ∧ s.boot.staging.length + (i.drop 128).length ≤ 8392704 ∧ fld i 1 1 = 1 ∧ stagedOk (s.boot.staging ++ i.drop 128) = false) ∧
    (∃ (s : State) (p : Path) (i : List Byte), Admitted cmdTransferFw p i s ∧ fld i 0 1 = 4 ∧ activating s = false) ∧
    (∃ (s : State) (p : Path) (i : List Byte), Admitted cmdActivateFw p i s ∧ activating s = false ∧ fld i 0 1 = 0 ∧ fld i 1 1 = 1 ∧ s.boot.staged = true) ∧
    (∃ (s : State) (p : Path) (i : List Byte), Admitted cmdActivateFw p i s ∧ activating s = false ∧ fld i 0 1 ≠ 0) ∧
    (∃ (s : State) (p : Path) (i : List Byte), Admitted cmdActivateFw p i s ∧ activating s = false ∧ fld i 0 1 = 0 ∧ fld i 1 1 ≠ 1) ∧
    (∃ (s : State) (p : Path) (i : List Byte), Admitted cmdActivateFw p i s ∧ activating s = false ∧ fld i 0 1 = 0 ∧ fld i 1 1 = 1 ∧ s.boot.staged = false) ∧
    (∃ (s : State) (ok : Bool), s.mainUp = true ∧ activating s = true ∧ s.belay.step = 0 ∧ FlashOk s ∧ s.boot.actPhase = 0) ∧
    (∃ (s : State) (ok : Bool), s.mainUp = true ∧ activating s = true ∧ s.belay.step = 0 ∧ FlashOk s ∧ s.boot.actPhase = 1) ∧
    (∃ (s : State) (ok : Bool), s.mainUp = true ∧ activating s = true ∧ s.belay.step = 0 ∧ FlashOk s ∧ s.boot.actPhase = 2 ∧ s.boot.running = true) :=
  ⟨⟨wBase, .mctp, (zeros 128), by unfold Admitted Ready; decide +kernel⟩,
    ⟨(wStage [3]), .mctp, (1 :: zeros 127 ++ [7]), by unfold Admitted Ready; decide +kernel⟩,
    ⟨(wStage [3]), (.ld 0 16), (1 :: zeros 127 ++ [7]), by unfold Admitted Ready; decide +kernel⟩,
    ⟨(wStage (zeros 128)), .mctp, ([2, 0, 0, 0, 1, 0, 0, 0] ++ zeros 120 ++ [7]), by unfold Admitted Ready; decide +kernel⟩,
    ⟨(wStage (zeros 128)), .mctp, ([2, 0, 0, 0, 2, 0, 0, 0] ++ zeros 120 ++ [7]), by unfold Admitted Ready; decide +kernel⟩,
    ⟨(wStage (zeros 128)), .mctp, ([3, 2, 0, 0, 1, 0, 0, 0] ++ zeros 120 ++ [7]), by unfold Admitted Ready; decide +kernel⟩,
    ⟨(wStage (wHead.take 3968)), .mctp, ([3, 1, 0, 0, 31, 0, 0, 0] ++ zeros 120 ++ wHead.drop 3968), by
  refine ⟨(by unfold Admitted Ready; decide +kernel), ?_, ?_, ?_, (by decide +kernel), ?_, ?_, wHead_chunks⟩ <;> decide +kernel⟩,
    ⟨(wStage (zeros 128)), .mctp, ([3, 1, 0, 0, 1, 0, 0, 0] ++ zeros 120 ++ [7]), by unfold Admitted Ready; decide +kernel⟩,
    ⟨(wStage (zeros 128)), (.ld 0 16), (4 :: zeros 127), by unfold Admitted Ready; decide +kernel⟩,
    ⟨({ wStage wHead with boot := { (wStage wHead).boot with staged := true } }), .mctp, ([0, 1]), by unfold Admitted Ready; decide +kernel⟩,
    ⟨wBase, .mctp, ([1, 1]), by unfold Admitted Ready; decide +kernel⟩,
    ⟨wBase, .mctp, ([0, 2]), by unfold Admitted Ready; decide +kernel⟩,
    ⟨wBase, .mctp, ([0, 1]), by unfold Admitted Ready; decide +kernel⟩,
    ⟨(wAct 0), true, by unfold FlashOk; decide +kernel⟩,
    ⟨(wAct 1), true, by unfold FlashOk; decide +kernel⟩,
    ⟨(wAct 2), true, by unfold FlashOk; decide +kernel⟩⟩

/-- The hypotheses of each clause of CofferSubmit are met together. -/
theorem wit_CofferSubmit :
    (∃ (s : State) (q : Nat) (l : Nat) (v : BitVec 32), s.mainUp = true ∧ v.getLsbD 0 = true ∧ tenantLd s (ldKey q l) = true ∧ ((ldAt s (ldKey q l)).cof.run.isSome = true ∨ cofFrozen s q l = true)) ∧
    (∃ (s : State) (q : Nat) (l : Nat) (v : BitVec 32) (a : Nat), s.mainUp = true ∧ v.getLsbD 0 = true ∧ tenantLd s (ldKey q l) = true ∧ (ldAt s (ldKey q l)).cof.run = none ∧ cofFrozen s q l = false ∧ rightsBad s (ldAt s (ldKey q l)).map (ldAt s (ldKey q l)).cof.desc (ldAt s (ldKey q l)).cof.lenMode = some a ∧ isFrozen s (cofMaster q l) = false) ∧
    (∃ (s : State) (q : Nat) (l : Nat) (v : BitVec 32), s.mainUp = true ∧ v.getLsbD 0 = true ∧ tenantLd s (ldKey q l) = true ∧ (ldAt s (ldKey q l)).cof.run = none ∧ cofFrozen s q l = false ∧ rightsBad s (ldAt s (ldKey q l)).map (ldAt s (ldKey q l)).cof.desc (ldAt s (ldKey q l)).cof.lenMode = none ∧ checkCode s (ldAt s (ldKey q l)).cof ≠ 0) ∧
    (∃ (s : State) (q : Nat) (l : Nat) (v : BitVec 32), s.mainUp = true ∧ v.getLsbD 0 = true ∧ tenantLd s (ldKey q l) = true ∧ (ldAt s (ldKey q l)).cof.run = none ∧ cofFrozen s q l = false ∧ rightsBad s (ldAt s (ldKey q l)).map (ldAt s (ldKey q l)).cof.desc (ldAt s (ldKey q l)).cof.lenMode = none ∧ checkCode s (ldAt s (ldKey q l)).cof = 0) ∧
    (∃ (s : State) (q : Nat) (l : Nat) (v : BitVec 32), s.mainUp = true ∧ v.getLsbD 0 = true ∧ tenantLd s (ldKey q l) = true ∧ interim s = false ∧ s.health.st ≠ 5 ∧ s.sealCtl.zeroed = true) ∧
    (∃ (s : State) (q : Nat) (l : Nat) (v : BitVec 32), s.mainUp = true ∧ v.getLsbD 0 = true ∧ tenantLd s (ldKey q l) = true ∧ interim s = false ∧ s.health.st ≠ 5 ∧ s.sealCtl.zeroed = false ∧ 4 < (ldAt s (ldKey q l)).cof.desc.mode) ∧
    (∃ (s : State) (q : Nat) (l : Nat) (v : BitVec 32), s.mainUp = true ∧ v.getLsbD 0 = true ∧ tenantLd s (ldKey q l) = true ∧ interim s = false ∧ s.health.st ≠ 5 ∧ s.sealCtl.zeroed = false ∧ fieldBad (ldAt s (ldKey q l)).cof.desc = false ∧ (tgetD (ldAt s (ldKey q l)).cof.keys (ldAt s (ldKey q l)).cof.desc.slot {}).valid = false) :=
  ⟨⟨(wCof (fun p => { p with run := some wRun, desc := wDesc })), 0, 0, 1, by decide +kernel⟩,
    ⟨(wCof (fun p => { p with desc := { wDesc with dst := 2147483648, ctrl := 0xE2 }, keys := [(0, wKey)] })), 0, 0, 1, 2147483648, by decide +kernel⟩,
    ⟨(wCof (fun p => { p with desc := { wDesc with dst := 16 }, keys := [(0, wKey)] })), 0, 0, 1, by decide +kernel⟩,
    ⟨(wCof (fun p => { p with desc := wDesc, keys := [(0, wKey)] })), 0, 0, 1, by decide +kernel⟩,
    ⟨({ wCof (fun p => { p with desc := { wDesc with ctrl := 15 } }) with sealCtl := { wBase.sealCtl with zeroed := true } }), 0, 0, 1, by decide +kernel⟩,
    ⟨(wCof (fun p => { p with desc := { wDesc with ctrl := 5 } })), 0, 0, 1, by decide +kernel⟩,
    ⟨(wCof (fun p => { p with desc := { wDesc with ctrl := 0x302 }, keys := [(0, wKey)] })), 0, 0, 1, by decide +kernel⟩⟩

/-- The hypotheses of each clause of KeySlots are met together. -/
theorem wit_KeySlots :
    (∃ (s : State) (q : Nat) (l : Nat) (n : Nat) (v : BitVec 32) (c : Instr), s.mainUp = true ∧ tenantLd s (ldKey q l) = true ∧ n < 4 ∧ keyHeld s q l n = true ∧ (c = Instr.keyLoad q l n v ∨ c = Instr.keyClear q l n)) ∧
    (∃ (s : State) (q : Nat) (l : Nat) (n : Nat) (v : BitVec 32), s.mainUp = true ∧ tenantLd s (ldKey q l) = true ∧ n < 4 ∧ keyHeld s q l n = false) ∧
    (∃ (s : State) (q : Nat) (l : Nat) (n : Nat) (v : BitVec 32), s.mainUp = true ∧ tenantLd s (ldKey q l) = true ∧ n < 4 ∧ keyHeld s q l n = false ∧ s.sealCtl.zeroed = false) :=
  ⟨⟨(wCof (fun p => { p with run := some wRun, keys := [(0, wKey)] })), 0, 0, 0, 7, (Instr.keyLoad 0 0 0 7), by decide +kernel⟩,
    ⟨(wCof (fun p => { p with run := some wRun, keys := [(3, { wKey with mat := [1, 2] }), (0, wKey)] })), 0, 0, 3, 7, by decide +kernel⟩,
    ⟨(wCof (fun p => { p with keys := [(3, { mat := (List.range 64).map (fun i => BitVec.ofNat 8 i) })] })), 0, 0, 3, 6, by decide +kernel⟩⟩

/-- The hypotheses of each clause of CofferRun are met together. -/
theorem wit_CofferRun :
    (∃ (s : State) (k : Nat) (lpn : Nat) (w : Nat) (r : CofRun) (e : ReadEnv), s.mainUp = true ∧ s.belay.step = 0 ∧ s.ports.cofOrder = [k] ∧ (ldAt s k).cof.run = some r ∧ cofStop s k r = 0 ∧ r.zeroing = false ∧ passRead r = false ∧ r.desc.mode = 4 ∧ lpnOfOff s r.part (r.desc.src.toNat + r.input.length) = some lpn ∧ keyed s r.part = true ∧ isRetiring s (hashSlice lpn) = false ∧ findWay s lpn = some w ∧ e.tagErr = .none ∧ e.parity = 0 ∧ (((lineAt s w).st = .clean ∨ (lineAt s w).st = .dirty)) ∧ (lineAt s w).poison = false ∧ (lineAt s w).valid = 15) ∧
    (∃ (s : State) (k : Nat) (lpn : Nat) (w : Nat) (r : CofRun) (e : ReadEnv), s.mainUp = true ∧ s.belay.step = 0 ∧ s.ports.cofOrder = [k] ∧ (ldAt s k).cof.run = some r ∧ cofStop s k r = 0 ∧ r.zeroing = false ∧ passRead r = false ∧ r.desc.mode = 4 ∧ lpnOfOff s r.part (r.desc.src.toNat + r.input.length) = some lpn ∧ keyed s r.part = true ∧ isRetiring s (hashSlice lpn) = false ∧ findWay s lpn = some w ∧ e.tagErr = .none ∧ e.parity = 0 ∧ (((lineAt s w).st = .clean ∨ (lineAt s w).st = .dirty)) ∧ (lineAt s w).poison = true) ∧
    (∃ (s : State) (k : Nat) (lpn : Nat) (w : Nat) (r : CofRun) (e : ReadEnv), s.mainUp = true ∧ s.belay.step = 0 ∧ s.ports.cofOrder = [k] ∧ (ldAt s k).cof.run = some r ∧ cofStop s k r = 0 ∧ r.zeroing = false ∧ passRead r = true ∧ lpnOfOff s r.part (r.desc.dst.toNat + r.written) = some lpn ∧ (r.desc.dst.toNat + r.written) % 256 = 0 ∧ r.written + 256 ≤ (cofOutput r true).length ∧ (cofOutput r true).length ≤ r.desc.dstLen r.pad ∧ isRetiring s (hashSlice lpn) = false ∧ e.tagErr = .none ∧ findWay s lpn = some w ∧ (((lineAt s w).st = .clean ∨ (lineAt s w).st = .dirty)) ∧ (lineAt s w).poison = false ∧ WritesFreely w s) ∧
    (∃ (s : State) (k : Nat) (r : CofRun) (e : ReadEnv), s.mainUp = true ∧ s.belay.step = 0 ∧ s.ports.cofOrder = [k] ∧ (ldAt s k).cof.run = some r ∧ cofFrozen s (k / 17) (k % 17) = true) ∧
    (∃ (s : State) (q : Nat) (l : Nat) (r : CofRun), s.mainUp = true ∧ (ldAt s (ldKey q l)).cof.run = some r ∧ r.zeroing = false ∧ passRead r = true ∧ (cofOutput r true).length ≤ r.written ∧ cofUnsettled s (ldKey q l) = false ∧ cofStop s (ldKey q l) r = 0 ∧ (r.desc.mode = 0 ∨ r.desc.mode = 2 ∨ r.desc.mode = 3 ∧ r.pad = false)) ∧
    (∃ (s : State) (q : Nat) (l : Nat) (r : CofRun), s.mainUp = true ∧ (ldAt s (ldKey q l)).cof.run = some r ∧ r.zeroing = false ∧ passRead r = true ∧ (cofOutput r true).length ≤ r.written ∧ cofUnsettled s (ldKey q l) = false ∧ cofStop s (ldKey q l) r = 0 ∧ ((r.desc.mode = 1 ∨ r.desc.mode = 4)) ∧ r.desc.dec = false) ∧
    (∃ (s : State) (q : Nat) (l : Nat) (r : CofRun), s.mainUp = true ∧ (ldAt s (ldKey q l)).cof.run = some r ∧ r.zeroing = false ∧ passRead r = true ∧ (cofOutput r true).length ≤ r.written ∧ cofUnsettled s (ldKey q l) = false ∧ cofStop s (ldKey q l) r = 0 ∧ r.desc.mode = 1 ∧ r.desc.dec = true ∧ r.pass = false ∧ tagMatches r = true) ∧
    (∃ (s : State) (q : Nat) (l : Nat) (r : CofRun), s.mainUp = true ∧ (ldAt s (ldKey q l)).cof.run = some r ∧ r.zeroing = false ∧ passRead r = true ∧ (cofOutput r true).length ≤ r.written ∧ cofUnsettled s (ldKey q l) = false ∧ cofStop s (ldKey q l) r = 0 ∧ r.desc.mode = 4 ∧ r.desc.dec = true ∧ tagMatches r = false) ∧
    (∃ (s : State) (q : Nat) (l : Nat) (r : CofRun), s.mainUp = true ∧ (ldAt s (ldKey q l)).cof.run = some r ∧ r.zeroing = false ∧ passRead r = true ∧ (cofOutput r true).length ≤ r.written ∧ cofUnsettled s (ldKey q l) = false ∧ cofStop s (ldKey q l) r = 0 ∧ r.desc.mode = 1 ∧ r.desc.dec = true ∧ tagMatches r = false ∧ 0 < r.desc.len.toNat) ∧
    (∃ (s : State) (q : Nat) (l : Nat) (r : CofRun), s.mainUp = true ∧ (ldAt s (ldKey q l)).cof.run = some r ∧ r.zeroing = true ∧ r.desc.dstLen r.pad ≤ r.written ∧ cofUnsettled s (ldKey q l) = false ∧ cofDirtyLeft s r = false ∧ cofStop s (ldKey q l) r = 0) :=
  ⟨⟨(wLined { wLine with valid := 15 } (wCof (fun p => { p with run := some { wRun with desc := { wDesc with ctrl := 4 } } }))), 0, wLpn, 4, ({ wRun with desc := { wDesc with ctrl := 4 } }), ({}), by decide +kernel⟩,
    ⟨(wLined { wLine with poison := true } (wCof (fun p => { p with run := some { wRun with desc := { wDesc with ctrl := 4 } } }))), 0, wLpn, 4, ({ wRun with desc := { wDesc with ctrl := 4 } }), ({}), by decide +kernel⟩,
    ⟨(wLined { wLine with st := .dirty, dirty := 1, valid := 15 } (wCof (fun p => { p with run := some { wRun with input := zeros 256 } }))), 0, wLpn, 4, ({ wRun with input := zeros 256 }), ({}), by unfold WritesFreely; decide +kernel⟩,
    ⟨({ wCof (fun p => { p with run := some wRun }) with gate := { freezes := [wFrz (cofMaster 0 0)] } }), 0, wRun, ({}), by decide +kernel⟩,
    ⟨(wCof (fun p => { p with run := some { wRun with input := zeros 256, written := 256, maxProgress := 256 } })), 0, 0, ({ wRun with input := zeros 256, written := 256, maxProgress := 256 }), by decide +kernel⟩,
    ⟨(wCof (fun p => { p with run := some { wRun with desc := { wDesc with ctrl := 4, len := 16 }, input := zeros 16 } })), 0, 0, ({ wRun with desc := { wDesc with ctrl := 4, len := 16 }, input := zeros 16 }), by decide +kernel⟩,
    ⟨(wCof (fun p => { p with run := some (wGcm (regsOf (cofTag (wGcm [])))) })), 0, 0, (wGcm (regsOf (cofTag (wGcm [])))), by
  refine ⟨?_, rfl, ?_, ?_, (by decide +kernel), ?_, ?_, ?_, ?_, (by decide +kernel), wGcm_right⟩ <;> decide +kernel⟩,
    ⟨(wCof (fun p => { p with run := some (wMac (wOther wMac)) })), 0, 0, (wMac (wOther wMac)), by
  refine ⟨?_, rfl, ?_, ?_, (by decide +kernel), ?_, ?_, ?_, ?_, wOther_fails wMac (cofTag (wMac [])) (fun _ => rfl) (fun t => by simp [wMac, CofDesc.tagLen]) (fun _ => rfl)⟩ <;> decide +kernel⟩,
    ⟨(wCof (fun p => { p with run := some (wGcm (wOther wGcm)) })), 0, 0, (wGcm (wOther wGcm)), by
  refine ⟨?_, rfl, ?_, ?_, (by decide +kernel), ?_, ?_, ?_, ?_, wOther_fails wGcm (cofTag (wGcm [])) (fun _ => rfl) (fun t => by simp [wGcm, CofDesc.tagLen]) (fun _ => rfl), ?_⟩ <;> decide +kernel⟩,
    ⟨(wCof (fun p => { p with run := some { wRun with zeroing := true, endCode := 0x20, written := 256 } })), 0, 0, ({ wRun with zeroing := true, endCode := 0x20, written := 256 }), by decide +kernel⟩⟩

/-- The hypotheses of each clause of CommitGroups are met together. -/
theorem wit_CommitGroups :
    (∃ (s : State), s.mainUp = true ∧ s.sad.running = none ∧ s.sad.dirty ≠ [] ∧ s.sad.recalling = false ∧ s.belay.step = 0 ∧ groupsSpent s = false ∧ storeAllowed s = true) ∧
    (∃ (s : State), s.mainUp = true ∧ s.sad.running = none ∧ s.sad.dirty ≠ [] ∧ s.sad.recalling = false ∧ s.belay.step = 0 ∧ groupsSpent s = false ∧ storeAllowed s = false) ∧
    (∃ (s : State), s.mainUp = true ∧ (s.sad.running ≠ none ∨ s.sad.recalling = true ∨ s.belay.step ≠ 0 ∨ (s.sad.groupSec = secondNow s ∧ 1000 ≤ s.sad.groupsNow))) ∧
    (∃ (s : State) (g : Group), s.mainUp = true ∧ s.sad.running = some g ∧ (g.recs.map (·.1)).Nodup) ∧
    (∃ (s : State) (g : Group) (p : Path) (w : WaitCmd), s.mainUp = true ∧ s.sad.running = some g ∧ s.travs = [] ∧ s.sealCtl.lost = [] ∧ ((∀ x ∈ s.sad.img.parts, x.2.st ≠ .departing)) ∧ ((∀ x ∈ s.sad.img.runs, x.2.part ≠ 0xFFFF)) ∧ ((∀ q, jobOf s q = none)) ∧ ((∀ q, q ≠ p → ∀ v, (ctx s q).wait = some v → ∀ k part rs ps, v.done ≠ .release k part rs ps)) ∧ p ∈ allPaths s ∧ (ctx s p).wait = some w ∧ ((∀ k ∈ w.recs, k ∉ s.sad.dirty))) ∧
    (∃ (s : State) (vdd : Nat) (ek : Nat), s.keeper.stopped = false ∧ s.keeper.summitWaits = false ∧ s.sad.heldSince.isSome = true ∧ s.sad.running = none ∧ s.sad.dirty ≠ [] ∧ s.sad.recalling = false ∧ s.belay.step = 0 ∧ groupsSpent s = false) ∧
    (∃ (s : State) (t0 : Nat) (p : Path) (w : WaitCmd), s.mainUp = true ∧ s.sad.heldSince = some t0 ∧ t0 + 10000000 ≤ tbNow s ∧ p ∈ allPaths s ∧ (ctx s p).wait = some w ∧ w.since + 10000000 ≤ tbNow s) :=
  ⟨⟨(wDirty [rk 3 1, rk 9 0]), by decide +kernel⟩,
    ⟨({ wDirty [rk 3 1, rk 9 0] with keeper := { ek := 4999 } }), by decide +kernel⟩,
    ⟨({ wDirty [rk 3 1, rk 9 0] with belay := { wBase.belay with step := 2 } }), by decide +kernel⟩,
    ⟨wCommit, wGroup, by decide +kernel⟩,
    ⟨({ wCmd wCommit [rk 3 1, rk 3 2] with ports := {} }), wGroup, .mctp, (wWaits [rk 3 1, rk 3 2]), by
  refine ⟨?_, ?_, ?_, ?_, (by decide +kernel), ?_, (fun q => by cases q <;> rfl), (fun q h v e => by cases q <;> first | exact absurd rfl h | cases e), ?_⟩ <;> decide +kernel⟩,
    ⟨({ wDirty [rk 3 1, rk 9 0] with sad := { (wDirty [rk 3 1, rk 9 0]).sad with heldSince := some 7 } }), 1620, 5000, by decide +kernel⟩,
    ⟨({ wCmd (wDirty [rk 3 1]) [rk 3 1] with sad := { (wDirty [rk 3 1]).sad with heldSince := some 4000000000 }, reck := { wBase.reck with tb := 4010000000 } }), 4000000000, .mctp, (wWaits [rk 3 1]), by decide +kernel⟩⟩

/-- The hypotheses of each clause of KeeperPower are met together. -/
theorem wit_KeeperPower :
    (∃ (s : State) (vdd : Nat) (ek : Nat), s.keeper.stopped = false) ∧
    (∃ (s : State) (vdd : Nat) (ek : Nat), s.keeper.stopped = true) ∧
    (∃ (s : State) (f : Freeze), s.sad.recalling = true ∧ s.mainUp = false ∧ s.keeper.stopped = false ∧ s.keeper.latch = [f] ∧ s.keeper.latchArea = []) ∧
    (∃ (s : State) (a : Shadow) (b : Shadow) (x : TimeCfg) (y : TimeCfg), s.sad.recalling = true ∧ s.mainUp = false ∧ s.keeper.stopped = false ∧ s.keeper.latch = [] ∧ s.keeper.latchArea = [] ∧ s.sad.slots = [(rk 16 0, { a := some a, b := some b })] ∧ a.body = some (.time x) ∧ b.body = some (.time y) ∧ a.gcount ≤ 1 ∧ b.gcount ≤ 1 ∧ a.seq < 2147483648 ∧ b.seq = a.seq + 1) ∧
    (∃ (s : State) (us : Nat), s.keeper.stopped = false) ∧
    (∃ (s : State), s.mainUp = true) :=
  ⟨⟨({ wCommit with keeper := { latch := [wFrz 3], summitChanged := true, summit := Vector.replicate 8 5, lastTb := 9, since := 4, nvA := some (0, Vector.replicate 8 0) }, belay := { wBase.belay with latch := some {} }, cairn := { staging := [{ code := 5 }] } }), 1500, 5000, by decide +kernel⟩,
    ⟨({ wBase with keeper := { stopped := true } }), 1500, 3, by decide +kernel⟩,
    ⟨({ wKeeper with keeper := { latch := [wFrz 3] } }), (wFrz 3), by decide +kernel⟩,
    ⟨({ sad := { slots := [(rk 16 0, { a := some { seq := 7, group := 3, gcount := 1, body := some (.time {}) }, b := some { seq := 8, group := 4, gcount := 1, body := some (.time { delay := 500 }) } })] } }), ({ seq := 7, group := 3, gcount := 1, body := some (.time {}) }), ({ seq := 8, group := 4, gcount := 1, body := some (.time { delay := 500 }) }), ({}), ({ delay := 500 }), by decide +kernel⟩,
    ⟨wBase, 15999, by decide +kernel⟩,
    ⟨({ wBase with gate := { freezes := [wFrz 3] } }), by decide +kernel⟩⟩

/-- The hypotheses of each clause of Cairn are met together. -/
theorem wit_Cairn :
    (∃ (s : State) (r : CairnRec), s.keeper.stopped = false ∧ s.cairn.staging.length < 256) ∧
    (∃ (s : State) (r : CairnRec), s.keeper.stopped = false ∧ 256 ≤ s.cairn.staging.length) ∧
    (∃ (s : State) (r : CairnRec) (rest : List CairnRec), s.cairn.staging = r :: rest ∧ storeAllowed s = true) ∧
    (∃ (s : State) (r : CairnRec) (rest : List CairnRec), s.cairn.staging = r :: rest ∧ storeAllowed s = false) ∧
    (∃ (s : State), s.keeper.stopped = false) ∧
    (∃ (s : State), s.mainUp = true ∧ s.cairn.epochCycles < 3600000000000) ∧
    (∃ (s : State), s.mainUp = true ∧ 3600000000000 ≤ s.cairn.epochCycles) ∧
    (∃ (s : State) (p : Nat) (l : Nat) (n : Nat), s.mainUp = true ∧ mgmtKey s = some (ldKey p l) ∧ (ldAt s (ldKey p l)).win.loading = true ∧ (ldAt s (ldKey p l)).win.space = false ∧ (ldAt s (ldKey p l)).win.position = n) ∧
    (∃ (s : State) (p : Nat) (l : Nat), s.mainUp = true ∧ mgmtKey s = some (ldKey p l) ∧ (ldAt s (ldKey p l)).win.auto = true) ∧
    (∃ (s : State) (p : Nat) (l : Nat), s.mainUp = true ∧ mgmtKey s ≠ some (ldKey p l)) :=
  ⟨⟨wBase, ({ code := 0x0101, p1 := 5 }), by decide +kernel⟩,
    ⟨({ wBase with cairn := { staging := List.replicate 256 { code := 3 } } }), ({ code := 0x0101, p1 := 5 }), by decide +kernel⟩,
    ⟨({ wBase with cairn := { stored := [{ code := 2 }], staging := [{ code := 3 }, { code := 4 }], dropCount := 5, dropFirst := 9 } }), ({ code := 3 }), ([{ code := 4 }]), by decide +kernel⟩,
    ⟨({ wBase with cairn := { staging := [{ code := 3 }, { code := 4 }] }, keeper := { vddKeep := 1619 } }), ({ code := 3 }), ([{ code := 4 }]), by decide +kernel⟩,
    ⟨({ wBase with cairn := { stored := [{ code := 2 }], staging := [{ code := 3 }, { code := 4 }] } }), by decide +kernel⟩,
    ⟨({ wBase with cairn := { epochCycles := 3599999999999 } }), by decide +kernel⟩,
    ⟨({ wBase with cairn := { epochCycles := 3600000000000, epoch := { number := 7, hist := [(5, 281474976710656)] }, life := { number := 6 }, epochs := List.replicate 720 {} } }), by decide +kernel⟩,
    ⟨(wWin 0), 0, 16, 0, by decide +kernel⟩,
    ⟨(wWin 0), 0, 16, by decide +kernel⟩,
    ⟨(wWin 0), 0, 1, by decide +kernel⟩⟩

/-- The hypotheses of each clause of RelayQueues are met together. -/
theorem wit_RelayQueues :
    (∃ (s : State) (q : Nat) (r : CairnRec), s.mainUp = true ∧ q ≤ 9 ∧ (tgetD s.relay.queues q {}).gap = false ∧ (tgetD s.relay.queues q {}).fill.length < 62) ∧
    (∃ (s : State) (q : Nat) (r : CairnRec), s.mainUp = true ∧ q ≤ 9 ∧ (tgetD s.relay.queues q {}).gap = false ∧ (tgetD s.relay.queues q {}).fill.length = 62 ∧ (tgetD s.relay.queues q {}).drain = []) ∧
    (∃ (s : State) (q : Nat) (r : CairnRec), s.mainUp = true ∧ q ≤ 9 ∧ (tgetD s.relay.queues q {}).gap = false ∧ (tgetD s.relay.queues q {}).fill.length = 63 ∧ (tgetD s.relay.queues q {}).drain ≠ []) ∧
    (∃ (s : State) (r : CairnRec), s.mainUp = true ∧ r.p1 ≤ 1 ∧ s.relay.evq10.length < 126) ∧
    (∃ (s : State) (r : CairnRec), s.mainUp = true ∧ r.p1 ≤ 1 ∧ 126 ≤ s.relay.evq10.length) ∧
    (∃ (s : State) (r : CairnRec), s.mainUp = true ∧ 2 ≤ r.p1 ∧ r.p1 ≤ 4 ∧ 126 ≤ s.relay.evq11.length) ∧
    (∃ (s : State) (q : Nat) (r : CairnRec) (rest : List CairnRec), s.mainUp = true ∧ q ≤ 9 ∧ (((tgetD s.relay.queues q {}).drain = r :: rest ∨ ((tgetD s.relay.queues q {}).drain = [] ∧ (tgetD s.relay.queues q {}).fill = r :: rest))) ∧ s.cairn.staging.length < 256) ∧
    (∃ (s : State) (e : EventDesc) (rest : List EventDesc) (k : Nat), s.mainUp = true ∧ s.relay.evq10 = e :: rest ∧ s.relay.synetWait = [] ∧ e.lds = [k] ∧ e.log ≤ 1 ∧ (fiveLogs (ldAt s k)).length = 5) ∧
    (∃ (s : State) (q : Nat) (ptr : Nat), s.mainUp = true ∧ q ≤ 9 ∧ s.cairn.staging.length < 256) ∧
    (∃ (s : State) (q : Nat) (rs : List CairnRec), s.mainUp = true ∧ tget s.relay.lostNotices q = some rs ∧ rs ≠ [] ∧ tgetD s.relay.lostEvents q [] = [] ∧ s.cairn.staging.length + rs.length < 256) :=
  ⟨⟨(wQueue { fill := List.replicate 61 { code := 3 } }), 4, ({ code := 8, boot := 9 }), by decide +kernel⟩,
    ⟨(wQueue { fill := List.replicate 62 { code := 3 } }), 4, ({ code := 8, boot := 9 }), by decide +kernel⟩,
    ⟨(wQueue { fill := List.replicate 63 { code := 3 }, drain := [{ code := 2 }] }), 4, ({ code := 8, ts := 9 }), by decide +kernel⟩,
    ⟨({ wBase with relay := { evq10 := List.replicate 125 (wEvent 0 1) } }), ({ code := 8, inst := 1, p1 := 1 }), by decide +kernel⟩,
    ⟨({ wBase with relay := { evq10 := List.replicate 126 (wEvent 0 1) } }), ({ code := 8, inst := 1, p1 := 0 }), by decide +kernel⟩,
    ⟨({ wBase with relay := { evq11 := List.replicate 126 (wEvent 0 1) } }), ({ code := 8, inst := 1, p1 := 4 }), by decide +kernel⟩,
    ⟨(wQueue { fill := [{ code := 4 }], drain := [{ code := 2 }, { code := 3 }] }), 4, ({ code := 2 }), ([{ code := 3 }]), by decide +kernel⟩,
    ⟨({ wBase with relay := { evq10 := [wEvent 0 1, wEvent 1 0] } }), (wEvent 0 1), ([wEvent 1 0]), 0, by decide +kernel⟩,
    ⟨(wQueue { fill := [{ code := 4 }], drain := [{ code := 2 }, { code := 3 }], gap := true }), 4, 70, by decide +kernel⟩,
    ⟨({ wQueue {} with relay := { (wQueue {}).relay with lostNotices := [(4, [{ code := 2, boot := 1 }])] } }), 4, ([{ code := 2, boot := 1 }]), by decide +kernel⟩⟩

/-- The hypotheses of each clause of PowerUp are met together. -/
theorem wit_PowerUp :
    (∃ (s : State), s.keeper.stopped = false ∧ s.rope.st = .holdoff ∧ s.rope.holdTb + s.rope.holdMs * 1000000 ≤ keeperNow s ∧ ((s.rope.thermalHold = false ∨ ∃ t0, s.therm.keeperCoolTb = some t0 ∧ t0 + 10000000000 ≤ keeperNow s))) ∧
    (∃ (s : State), s.keeper.stopped = false ∧ s.rope.st = .holdoff ∧ keeperNow s < s.rope.holdTb + s.rope.holdMs * 1000000) ∧
    (∃ (s : State), s.keeper.stopped = false ∧ s.rope.st = .rising ∧ s.rope.driveLow = false ∧ s.rope.pitch < 15 ∧ (s.rope.pitch = 0 ∨ s.rope.pitchDone = true) ∧ s.rope.relTb + 1000 ≤ keeperNow s) ∧
    (∃ (s : State), s.keeper.stopped = false ∧ s.rope.st = .rising ∧ s.rope.driveLow = false ∧ s.rope.pitch = 15 ∧ s.rope.pitchDone = true ∧ s.rope.relTb + 1000 ≤ keeperNow s) ∧
    (∃ (s : State), s.keeper.stopped = false ∧ s.rope.st = .rising ∧ s.rope.driveLow = false ∧ s.rope.pitch ≠ 0 ∧ s.rope.pitchDone = false) ∧
    (∃ (s : State), s.keeper.stopped = false ∧ s.rope.st = .rising ∧ s.rope.driveLow = false ∧ keeperNow s < s.rope.relTb + 1000) ∧
    (∃ (s : State), s.keeper.stopped = false ∧ s.rope.st = .rising ∧ s.rope.driveLow = true) ∧
    (∃ (s : State), s.keeper.stopped = false ∧ s.rope.st = .rising ∧ 1 ≤ s.rope.pitch ∧ s.rope.pitchDone = false ∧ s.rope.pitchTb + 20000 ≤ keeperNow s) ∧
    (∃ (s : State) (h : Bool), s.keeper.stopped = false ∧ s.rope.st = .rising ∧ 1 ≤ s.rope.pitch ∧ s.rope.pitchDone = false ∧ keeperNow s < s.rope.pitchTb + 20000) ∧
    (∃ (s : State) (h : Bool), s.keeper.stopped = false ∧ s.rope.st = .rising ∧ 1 ≤ s.rope.pitch ∧ s.rope.pitchDone = false ∧ keeperNow s < s.rope.pitchTb + (if enablesAt s s.rope.pitch = [] then 21000 else 200000)) ∧
    (∃ (s : State), s.keeper.stopped = false ∧ s.rope.st = .rising ∧ 1 ≤ s.rope.pitch ∧ s.rope.pitchDone = false ∧ s.rope.driveLow = true ∧ s.rope.pitchTb + (if enablesAt s s.rope.pitch = [] then 21000 else 200000) ≤ keeperNow s ∧ s.rope.pitch ≠ 1) ∧
    (∃ (s : State), s.keeper.stopped = false ∧ s.rope.st = .rising ∧ 1 ≤ s.rope.pitch ∧ s.rope.pitchDone = false ∧ s.rope.driveLow = true ∧ s.rope.pitchTb + (if enablesAt s s.rope.pitch = [] then 21000 else 200000) ≤ keeperNow s) ∧
    (∃ (s : State), s.keeper.stopped = false ∧ s.rope.st = .rising ∧ 1 ≤ s.rope.pitch ∧ s.rope.pitchDone = false ∧ s.rope.driveLow = true ∧ s.rope.pitchTb + (if enablesAt s s.rope.pitch = [] then 21000 else 200000) ≤ keeperNow s ∧ s.rope.pitch = 1) ∧
    (∃ (s : State) (i : Nat) (c : Nat) (mv : Nat), s.keeper.stopped = false ∧ s.rope.st = .rising ∧ 1 ≤ s.rope.pitch ∧ s.rope.pitchDone = false ∧ i < 16 ∧ isRail (pitchAt s i) = true ∧ (pitchAt s i).pitch = s.rope.pitch ∧ ((c = 1 ∧ s.rope.pitchTb + 10000000 ≤ keeperNow s) ∨ (c = 2 ∧ (pitchAt s i).pg ≠ 255))) ∧
    (∃ (s : State) (i : Nat) (mv : Nat), s.keeper.stopped = false ∧ s.rope.st = .rising ∧ 1 ≤ s.rope.pitch ∧ s.rope.pitchDone = false ∧ keeperNow s < s.rope.pitchTb + 10000000) ∧
    (∃ (s : State), s.keeper.stopped = false ∧ s.rope.st = .rising ∧ 1 ≤ s.rope.pitch) ∧
    (∃ (s : State), s.keeper.stopped = false ∧ s.rope.st = .rising ∧ 1 ≤ s.rope.pitch ∧ s.rope.pitchDone = true ∧ s.rope.relTb + 100000000 ≤ keeperNow s) ∧
    (∃ (s : State), s.keeper.stopped = false ∧ s.rope.st = .rising ∧ 1 ≤ s.rope.pitch ∧ keeperNow s < s.rope.relTb + 100000000) :=
  ⟨⟨(wRope { holdMs := 1500 }), by decide +kernel⟩,
    ⟨(wRope { holdMs := 1501 }), by decide +kernel⟩,
    ⟨(wRope { wRising 2 with pitchDone := true }), by decide +kernel⟩,
    ⟨(wRope { wRising 15 with pitchDone := true, lostModules := 0x0200 }), by decide +kernel⟩,
    ⟨(wRope (wRising 3)), by decide +kernel⟩,
    ⟨(wRope { wRising 3 with pitchDone := true, relTb := 1499999001 }), by decide +kernel⟩,
    ⟨(wRope { wRising 3 with driveLow := true }), by decide +kernel⟩,
    ⟨(wRope (wRising 3)), by decide +kernel⟩,
    ⟨(wRope { wRising 3 with pitchTb := 1499990000 }), true, by decide +kernel⟩,
    ⟨(wRope { wRising 3 with pitchTb := 1499990000 }), true, by decide +kernel⟩,
    ⟨(wRope { wRising 3 with driveLow := true }), by decide +kernel⟩,
    ⟨(wRope { wRising 3 with driveLow := true }), by decide +kernel⟩,
    ⟨(wRope { wRising 1 with driveLow := true }), by decide +kernel⟩,
    ⟨(wRope (wRising 1)), 0, 2, 30, by decide +kernel⟩,
    ⟨(wRope { wRising 3 with pitchTb := 1499990000 }), 0, 30, by decide +kernel⟩,
    ⟨(wRope (wRising 3)), by decide +kernel⟩,
    ⟨(wRope { wRising 3 with pitchDone := true }), by decide +kernel⟩,
    ⟨(wRope { wRising 3 with pitchDone := true, relTb := 1400000001 }), by decide +kernel⟩⟩

/-- The hypotheses of each clause of PowerDown are met together. -/
theorem wit_PowerDown :
    (∃ (s : State) (i : Nat) (mv : Nat) (us : Nat), s.keeper.stopped = false ∧ i < 16 ∧ (pitchAt s i).role = 1 ∧ s.rope.en.getLsbD i = true ∧ 10 ≤ us ∧ ((s.rope.st = .on ∨ s.rope.st = .rising ∧ (pitchAt s i).pitch < s.rope.pitch))) ∧
    (∃ (s : State) (i : Nat) (mv : Nat) (us : Nat), s.keeper.stopped = false ∧ us < 10) ∧
    (∃ (s : State) (n : Nat) (t16 : Int), s.mainUp = true ∧ n < 32 ∧ n ∉ s.therm.excluded ∧ 2000 ≤ t16) ∧
    (∃ (s : State) (n : Nat) (t16 : Int), s.mainUp = true ∧ (t16 < 2000 ∨ n ∈ s.therm.excluded)) ∧
    (∃ (s : State) (i : Nat) (c : Nat), s.keeper.stopped = false ∧ s.rope.st = .on ∧ i < 16 ∧ (pitchAt s i).role = 2 ∧ s.rope.en.getLsbD i = true ∧ c < 32) ∧
    (∃ (s : State), s.keeper.stopped = false ∧ s.rope.st = .falling ∧ keeperNow s < s.rope.fallTb + pitchFall s) ∧
    (∃ (s : State), s.keeper.stopped = false ∧ s.rope.st = .falling ∧ s.rope.fallTb + pitchFall s ≤ keeperNow s ∧ ((∃ q, 1 ≤ q ∧ q < s.rope.pitch ∧ ∃ i, i < 16 ∧ onAt s.rope q i = true))) ∧
    (∃ (s : State), s.keeper.stopped = false ∧ s.rope.st = .falling ∧ s.rope.fallTb + pitchFall s ≤ keeperNow s ∧ ((∀ q i, 1 ≤ q → q < s.rope.pitch → i < 16 → onAt s.rope q i = false))) ∧
    (∃ (s : State) (i : Nat) (mv : Nat), s.keeper.stopped = false ∧ s.rope.st = .falling ∧ i < 16 ∧ isRail (pitchAt s i) = true ∧ (pitchAt s i).pitch = s.rope.pitch ∧ s.rope.fallTb + 100000000 ≤ keeperNow s) ∧
    (∃ (s : State) (i : Nat) (mv : Nat), s.keeper.stopped = false ∧ keeperNow s < s.rope.fallTb + 100000000) :=
  ⟨⟨({ wBase with rope := { wBase.rope with en := 0xFFFF, railFaultTb := some 1400000000 } }), 1, 5, 12, by decide +kernel⟩,
    ⟨({ wBase with rope := { wBase.rope with en := 0xFFFF } }), 1, 5, 9, by decide +kernel⟩,
    ⟨({ wBase with rope := { wBase.rope with en := 0xFFFF } }), 3, 2000, by decide +kernel⟩,
    ⟨({ wBase with therm := { excluded := [3] } }), 3, 2000, by decide +kernel⟩,
    ⟨({ wBase with rope := { wBase.rope with en := 0xFFFF } }), 8, 0, by decide +kernel⟩,
    ⟨(wRope { st := .falling, pitch := 9, en := 0x000F, topPitch := 15, fallTb := 1499999999 }), by decide +kernel⟩,
    ⟨(wRope { st := .falling, pitch := 9, en := 0x000F, topPitch := 15 }), by
  refine ⟨?_, ?_, ?_, ⟨3, by decide +kernel, by decide +kernel, 3, by decide +kernel, by decide +kernel⟩⟩ <;> decide +kernel⟩,
    ⟨(wRope { st := .falling, pitch := 2, en := 0xFFFE, topPitch := 15, downCause := 3 }), by
  refine ⟨?_, ?_, ?_, (by
    intro q i h1 h2 h3
    have e : q = 1 := by change q < 2 at h2; omega
    subst e
    exact (by decide +kernel : ∀ i < 16, onAt (wRope { st := .falling, pitch := 2, en := 0xFFFE, topPitch := 15, downCause := 3 }).rope 1 i = false) i h3)⟩ <;> decide +kernel⟩,
    ⟨(wRope { st := .falling, pitch := 4, en := 0x000F }), 4, 40, by decide +kernel⟩,
    ⟨(wRope { st := .falling, pitch := 4, en := 0x000F, fallTb := 1499999999 }), 4, 40, by decide +kernel⟩⟩

/-- The hypotheses of each clause of JunctionTemperature are met together. -/
theorem wit_JunctionTemperature :
    (∃ (s : State) (l : List (Option Int)) (hbm : List Int) (tj : Int), s.mainUp = true ∧ s.boot.running = true ∧ s.therm.excluded = [] ∧ l.length = 32 ∧ hbm.length = 2 ∧ ((∀ o ∈ l, ∃ x, o = some x ∧ x ≤ tj)) ∧ ((∀ x ∈ hbm, x ≤ tj)) ∧ ((some tj ∈ l ∨ tj ∈ hbm)) ∧ ((∀ x y, some x ∈ l → some y ∈ l → x ≤ y + 240))) ∧
    (∃ (s : State) (l : List (Option Int)) (hbm : List Int), s.mainUp = true) ∧
    (∃ (s : State) (l : List (Option Int)), s.keeper.stopped = false) :=
  ⟨⟨({ wBase with therm := { warn := true } }), (some 1888 :: List.replicate 31 (some 1700)), ([1600, 1610]), 1888, by
  refine ⟨?_, ?_, ?_, ?_, (by decide +kernel), (by
    intro o h
    rcases List.mem_cons.1 h with rfl | h
    · exact ⟨_, rfl, by decide⟩
    · exact ⟨1700, (List.mem_replicate.1 h).2, by decide⟩), ?_, ?_, (by
    intro x y hx hy
    simp at hx hy
    omega)⟩ <;> decide +kernel⟩,
    ⟨({ wBase with therm := { excluded := [20] } }), (List.replicate 17 none ++ List.replicate 15 (some 1700)), ([]), by decide +kernel⟩,
    ⟨wBase, ([some 1727, some 1500, some 1500, some 1600]), by decide +kernel⟩⟩

/-- The hypotheses of each clause of BootAndAlarms are met together. -/
theorem wit_BootAndAlarms :
    (∃ (s : State) (b : BootEnv), s.mainUp = false ∧ s.keeper.stopped = false ∧ s.rope.st = .on ∧ s.timeRef = true ∧ b.timeRef = true) ∧
    (∃ (s : State) (b : BootEnv), (s.mainUp = true ∨ s.rope.st ≠ .on ∨ s.timeRef = false ∨ b.timeRef = false ∨ s.keeper.stopped = true)) ∧
    (∃ (s : State), s.mainUp = false ∧ s.rope.st = .on) ∧
    (∃ (s : State), s.mainUp = true ∧ s.boot.running = true) ∧
    (∃ (s : State), s.mainUp = true ∧ s.boot.running = false) ∧
    (∃ (s : State) (core : Nat) (pr : Nat), s.mainUp = true ∧ s.boot.running = true ∧ s.belay.step = 0) ∧
    (∃ (s : State) (cause : Nat) (v1 : Nat) (v2 : Nat) (core : Nat), s.mainUp = true ∧ s.boot.running = true ∧ s.belay.step = 0 ∧ (cause = 2 ∨ cause = 3 ∨ cause = 5)) ∧
    (∃ (s : State) (cause : Nat) (v1 : Nat) (v2 : Nat) (core : Nat), s.mainUp = true ∧ s.boot.running = true ∧ s.belay.step = 0 ∧ cause = 4) ∧
    (∃ (s : State) (cause : Nat) (v1 : Nat) (v2 : Nat) (core : Nat), s.mainUp = true ∧ s.boot.running = true ∧ s.belay.step = 0 ∧ (cause = 0 ∨ 5 < cause)) ∧
    (∃ (s : State) (src : Nat) (det : Nat) (rd : Nat), s.keeper.stopped = false ∧ ((src = 1 ∨ src = 3 ∨ src = 4 ∨ src = 2 ∧ s.mainUp = true ∧ s.rope.st = .on))) :=
  ⟨⟨(wRope { st := .on }), ({ keeperNs := 600000000 }), by decide +kernel⟩,
    ⟨(wRope { st := .on }), ({ timeRef := false }), by decide +kernel⟩,
    ⟨(wRope { st := .on }), by decide +kernel⟩,
    ⟨wBase, by decide +kernel⟩,
    ⟨({ wBase with boot := { running := false, cause := 3 } }), by decide +kernel⟩,
    ⟨wBase, 1, 5, by decide +kernel⟩,
    ⟨wBase, 5, 5, 6, 2, by decide +kernel⟩,
    ⟨wBase, 4, 5, 6, 2, by decide +kernel⟩,
    ⟨wBase, 6, 5, 6, 2, by decide +kernel⟩,
    ⟨(wCof (fun p => { p with run := some wRun, keys := [(0, wKey)] })), 2, 5, 8, by decide +kernel⟩⟩

/-- The hypotheses of each clause of SurveyPort are met together. -/
theorem wit_SurveyPort :
    (∃ (s : State), s.mainUp = true) ∧
    (∃ (s : State), s.mainUp = true ∧ svFull s = true) ∧
    (∃ (s : State), s.mainUp = true ∧ svFull s = false) ∧
    (∃ (s : State) (token : List Byte), s.mainUp = true ∧ isFrozen s surveyMaster = false ∧ 3 ≤ s.survey.failures) ∧
    (∃ (s : State) (token : List Byte), s.mainUp = true ∧ isFrozen s surveyMaster = false ∧ s.survey.failures < 3 ∧ ((s.survey.challenge = none ∨ s.survey.challengeTb + 60000000000 < tbNow s ∨ fld token 0 1 ≠ lifeCode s.keeper.life ∨ token.length ≠ 256))) ∧
    (∃ (s : State) (w : Bool) (a : BitVec 128), s.mainUp = true ∧ s.keeper.life ≠ .blank ∧ s.survey.level = none) ∧
    (∃ (s : State) (w : Bool) (a : BitVec 128) (f : Nat) (n : Nat), s.mainUp = true ∧ s.keeper.life ≠ .blank ∧ s.survey.level = none) ∧
    (∃ (s : State) (w : Bool) (a : BitVec 128), s.mainUp = true ∧ svAccess s = true ∧ isFrozen s surveyMaster = false) ∧
    (∃ (s : State) (w : Bool) (a : BitVec 128) (x : Codeword), s.mainUp = true ∧ svAccess s = true ∧ isFrozen s surveyMaster = false ∧ a.extractLsb' 126 2 = 2 ∧ tget s.medium.cells ((a.extractLsb' 64 62).toNat % 549755813888) = some x ∧ x.mdat.getLsbD 61 = false) ∧
    (∃ (s : State) (w : Bool) (a : BitVec 128), s.mainUp = true ∧ svAccess s = true ∧ isFrozen s surveyMaster = false ∧ a.extractLsb' 126 2 ≠ 2 ∧ svFull s = false) ∧
    (∃ (s : State) (w : Bool) (a : BitVec 128), s.mainUp = true ∧ svAccess s = true ∧ isFrozen s surveyMaster = false ∧ a.extractLsb' 126 2 ≠ 2 ∧ svFull s = true) ∧
    (∃ (s : State) (w : Bool) (a : BitVec 128), s.mainUp = true ∧ svFull s = true ∧ isFrozen s surveyMaster = false) ∧
    (∃ (s : State) (w : Bool) (a : BitVec 128) (f : Nat) (n : Nat), s.mainUp = true ∧ s.survey.level.isSome = true ∧ isFrozen s surveyMaster = false ∧ 1 ≤ n ∧ n ≤ 2047) ∧
    (∃ (s : State) (token : List Byte), s.mainUp = true ∧ s.boot.running = true ∧ s.belay.step = 0 ∧ s.keeper.life = .provision ∧ s.survey.level = some 1) ∧
    (∃ (s : State) (token : List Byte), s.mainUp = true ∧ s.boot.running = true ∧ s.belay.step = 0 ∧ s.keeper.life = .production ∧ s.survey.level = some 2) ∧
    (∃ (s : State) (token : List Byte), s.mainUp = true ∧ s.boot.running = true ∧ s.belay.step = 0 ∧ s.keeper.life = .production ∧ s.survey.level ≠ some 2) ∧
    (∃ (s : State) (token : List Byte) (n : Nat), s.mainUp = true ∧ s.boot.running = true ∧ s.belay.step = 0 ∧ (s.keeper.life = .scrapped ∨ s.keeper.life = .production) ∧ (n = 0 ∨ n = 1 ∨ n = 2 ∨ 4 < n)) :=
  ⟨⟨wBase, by decide +kernel⟩,
    ⟨(wSv .provision (some 1)), by decide +kernel⟩,
    ⟨(wSv .provision none), by decide +kernel⟩,
    ⟨({ wSv .provision none with survey := { failures := 3 } }), ([1]), by decide +kernel⟩,
    ⟨({ wSv .provision (some 1) with survey := { failures := 2, challenge := some (zeros 64), challengeTb := 5000000000 } }), (2 :: zeros 255), by decide +kernel⟩,
    ⟨(wSv .provision none), true, (wAddr 2), by decide +kernel⟩,
    ⟨(wSv .provision none), true, (wAddr 2), 0, 3, by decide +kernel⟩,
    ⟨(wSv .provision (some 1)), false, (wAddr 2), by decide +kernel⟩,
    ⟨({ wSv .production (some 2) with medium := { cells := [(671088643, wCell)] } }), false, (wAddr 2), wCell, by decide +kernel⟩,
    ⟨(wSv .production (some 2)), true, (wAddr 1), by decide +kernel⟩,
    ⟨(wSv .provision (some 1)), true, (wAddr 1), by decide +kernel⟩,
    ⟨(wSv .provision (some 1)), true, (wAddr 1), by decide +kernel⟩,
    ⟨({ wSv .production (some 2) with cairn := { stored := [{ code := 5 }, { code := 6 }] } }), true, (wAddr 1), 0, 2, by decide +kernel⟩,
    ⟨(wSv .provision (some 1)), ([]), by decide +kernel⟩,
    ⟨(wSv .production (some 2)), ([]), by decide +kernel⟩,
    ⟨(wSv .production (some 1)), ([]), by decide +kernel⟩,
    ⟨(wSv .scrapped none), ([]), 2, by decide +kernel⟩⟩

/-- The hypotheses of each clause of Registers are met together. -/
theorem wit_Registers :
    (∃ (s : State) (p : Nat) (l : Nat), s.mainUp = true ∧ (port s p).up = true ∧ ldConfigured s p l = true) ∧
    (∃ (s : State) (p : Nat) (l : Nat) (off : Nat) (w : Nat) (v : BitVec 64), s.mainUp = true ∧ (port s p).up = true ∧ ldConfigured s p l = true ∧ ((w ≠ 4 ∧ w ≠ 8) ∨ off % w ≠ 0) ∧ ((off < 0x1020 ∨ 0x8000 ≤ off ∨ (w ≠ 1 ∧ w ≠ 2)))) ∧
    (∃ (s : State) (p : Nat) (l : Nat) (off : Nat) (v : BitVec 64), s.mainUp = true ∧ (port s p).up = true ∧ ldConfigured s p l = true ∧ 0x1020 ≤ off ∧ off < 0x8000 ∧ (ldAt s (ldKey p l)).mbox.doorbell = false) ∧
    (∃ (s : State) (p : Nat) (l : Nat) (v : BitVec 32), s.mainUp = true ∧ (port s p).up = true ∧ ldConfigured s p l = true) ∧
    (∃ (s : State) (p : Nat) (l : Nat) (v : BitVec 32), s.mainUp = true ∧ (port s p).up = true ∧ ldConfigured s p l = true ∧ (ldAt s (ldKey p l)).mbox.doorbell = false) ∧
    (∃ (s : State) (p : Nat) (l : Nat) (off : Nat) (v : BitVec 32), s.mainUp = true ∧ (port s p).up = true ∧ ldConfigured s p l = true ∧ (ldAt s (ldKey p l)).mbox.doorbell = true ∧ off % 4 = 0 ∧ ((off = 0x1008 ∨ off = 0x100C ∨ 0x1020 ≤ off ∧ off < 0x8000))) ∧
    (∃ (s : State) (p : Nat) (l : Nat) (v : BitVec 32), s.mainUp = true ∧ (port s p).up = true ∧ ldConfigured s p l = true ∧ v.getLsbD 0 = true) ∧
    (∃ (s : State) (p : Nat) (l : Nat) (v : BitVec 32), s.mainUp = true ∧ (port s p).up = true ∧ ldConfigured s p l = true ∧ v.getLsbD 0 = true ∧ tenantLd s (ldKey p l) = true) ∧
    (∃ (s : State) (p : Nat) (l : Nat) (v : BitVec 32), s.mainUp = true ∧ (port s p).up = true ∧ ldConfigured s p l = true ∧ mgmtKey s = some (ldKey p l)) ∧
    (∃ (s : State) (p : Nat) (l : Nat) (v : BitVec 32) (d : HdmDec) (e : HdmDec), s.mainUp = true ∧ (port s p).up = true ∧ ldConfigured s p l = true ∧ (ldAt s (ldKey p l)).decoders = [d, e]) ∧
    (∃ (s : State) (p : Nat) (l : Nat) (off : Nat) (v : BitVec 32), s.mainUp = true ∧ (port s p).up = true ∧ ldConfigured s p l = true ∧ (off < 0x1004 ∨ (0x1010 ≤ off ∧ off < 0x1020) ∨ (0x8004 ≤ off ∧ off ≤ 0x8004) ∨ (0x800C ≤ off ∧ off < 0x9000) ∨ (0x9008 ≤ off ∧ off < 0xC000) ∨ (0xD000 ≤ off ∧ off < 0x10000) ∨ 0x12000 ≤ off)) ∧
    (∃ (s : State) (p : Nat) (l : Nat) (off : Nat) (v : BitVec 32), s.mainUp = true ∧ (ldConfigured s p l = false ∨ (port s p).up = false)) :=
  ⟨⟨({ wBase with planner := { wBase.planner with stage := 4294967301 }, reck := { wBase.reck with tb := 4294967301 } }), 0, 1, by decide +kernel⟩,
    ⟨wBase, 0, 1, 0x1002, 4, 3, by decide +kernel⟩,
    ⟨(wBox 1 { payload := [1, 2, 3], base := 0 }), 0, 1, 0x1021, 0x1FF, by decide +kernel⟩,
    ⟨(wLd (fun l => { l with chg := 0x1F, chgTb := 5000000000, chgNow := 2 })), 0, 0, 0x001F0000, by decide +kernel⟩,
    ⟨wBase, 0, 1, 0x0008C000, by decide +kernel⟩,
    ⟨(wBox 1 { doorbell := true }), 0, 1, 0x100C, 5, by decide +kernel⟩,
    ⟨(wBox 1 { opcode := 0x0400 }), 0, 1, 1, by decide +kernel⟩,
    ⟨(wCof (fun p => { p with desc := wDesc, keys := [(0, wKey)] })), 0, 0, 1, by decide +kernel⟩,
    ⟨({ wBase with ports := { wBase.ports with mgmt := some 0 } }), 0, 16, 9, by decide +kernel⟩,
    ⟨(wLd (fun l => { l with decoders := [{}, {}] })), 0, 0, 0xF0000000, ({}), ({}), by decide +kernel⟩,
    ⟨wBase, 0, 1, 0x9008, 9, by decide +kernel⟩,
    ⟨wBase, 0, 5, 0x8000, 9, by decide +kernel⟩⟩

/-- The hypotheses of each clause of StepRunsFront are met together. -/
theorem wit_StepRunsFront :
    (∃ (s : State) (c : Instr) (rest : List Instr), s.pending = c :: rest) ∧
    (∃ (s : State), s.pending = []) ∧
    (∃ (s : State), s.pending = [] ∧ s.mainUp = false) ∧
    (∃ (s : State), s.pending = [] ∧ s.mainUp = true) ∧
    (∃ (s : State), s.pending = [] ∧ s.mainUp = true ∧ s.reck.adj = 0 ∧ s.reck.slewLeft = 0 ∧ s.reck.frac < 4294967296) :=
  ⟨⟨({ wBase with pending := [.commitGroup, .idcode] }), .commitGroup, ([.idcode]), by decide +kernel⟩,
    ⟨wBase, by decide +kernel⟩,
    ⟨wKeeper, by decide +kernel⟩,
    ⟨wBase, by decide +kernel⟩,
    ⟨wBase, by decide +kernel⟩⟩

/-- The hypotheses of FlashFormKept are met together. -/
theorem wit_FlashFormKept :
    ∃ (s : State) (t : State), FlashOk s ∧ step s = .next t :=
  ⟨({ wBase with pending := [.commitGroup] }), wBase, by unfold FlashOk; decide +kernel, rfl⟩

/-- The hypotheses of each clause of NeverUndone are met together. -/
theorem wit_NeverUndone :
    (∃ (s : State) (t : State), step s = .next t) ∧
    (∃ (s : State) (t : State), step s = .next t ∧ t.keeper.life ≠ s.keeper.life) ∧
    (∃ (s : State) (t : State), step s = .next t ∧ t.boot.flash ≠ s.boot.flash) :=
  ⟨⟨({ wBase with pending := [.commitGroup] }), wBase, rfl⟩,
    ⟨wPromote, (wNext wPromote), rfl, by decide +kernel⟩,
    ⟨wFlashStep, (wNext wFlashStep), rfl, by decide +kernel⟩⟩

/-- The hypotheses of FreezesStay are met together. -/
theorem wit_FreezesStay :
    ∃ (s : State) (t : State) (f : Freeze), step s = .next t ∧ f ∈ s.gate.freezes ∧ ((∀ rest, (∀ p i, s.pending ≠ .thaw p i :: rest) ∧ (∀ b, s.pending ≠ .mainDieResetRelease b :: rest) ∧ (∀ p l, s.pending ≠ .mailboxDoorbell p l :: rest) ∧ (∀ p l o v, s.pending ≠ .registerWrite p l o v :: rest) ∧ (∀ o i, s.pending ≠ .mctpRequest (.command o) i :: rest))) :=
  ⟨({ wBase with pending := [.commitGroup], gate := { freezes := [wFrz 3] } }), ({ wBase with gate := { freezes := [wFrz 3] } }), (wFrz 3), rfl, by decide +kernel, fun rest => by refine ⟨?_, ?_, ?_, ?_, ?_⟩ <;> (intros; simp)⟩

/-- The hypotheses of SurveyPort's promotion to RETURN are met, if the Config constant accepts some token. -/
theorem wit_SurveyPort_return (token : List Byte) (h : Config.transitionOk token 3 = true) :
    ∃ s : State, s.mainUp = true ∧ s.boot.running = true ∧ s.belay.step = 0 ∧ s.keeper.life = .production ∧ Config.transitionOk token 3 = true :=
  ⟨wSv .production none, by decide +kernel, by decide +kernel, by decide +kernel, by decide +kernel, h⟩

/-- The hypotheses of SurveyPort's unlock are met, if some token is signed under the Config constant. -/
theorem wit_SurveyPort_unlock (c token : List Byte) (n : token.length = 256) (v : fld token 0 1 = 1) (z : allZero token 1 15 = true)
    (d : bytesAt token 16 48 = sha384 c) (e : allZero token 160 96 = true)
    (k : ecdsaOk (sha384 (bytesAt token 0 64)) (bytesAt token 64 96) Config.debugKey = true) :
    ∃ s : State, s.mainUp = true ∧ isFrozen s surveyMaster = false ∧ s.survey.failures < 3 ∧ tokenGood s token = true := by
  refine ⟨{ wSv .provision none with survey := { challenge := some c, challengeTb := 5000000000 } }, rfl, rfl, by show 0 < 3; decide, ?_⟩
  have b : (5000000000 : Nat) ≤ 5000000000 + 60000000000 := Nat.le_add_right _ _
  show (token.length == 256 && decide (1 ≤ fld token 0 1) && decide (fld token 0 1 ≤ 3) && fld token 0 1 == 1 && allZero token 1 15 &&
    bytesAt token 16 48 == sha384 c && allZero token 160 96 &&
    ecdsaOk (sha384 (bytesAt token 0 64)) (bytesAt token 64 96) Config.debugKey &&
    decide ((5000000000 : Nat) ≤ 5000000000 + 60000000000)) = true
  rw [n, v, z, d, e, k, beq_self_eq_true (sha384 c), decide_eq_true b]
  rfl

end Sys2Proof.Machine
end

/-! SUPPORT. The registers of an LD's BAR (R10 to R14, R557 to R564): which state a register access leads to, offset by
offset, and the machine at its first keeper power-on reset; then the statements about both. -/

namespace Sys2Proof.Machine

/-! ### One LD changed -/

/-- A change of one LD shows in that LD's entry and leaves everything else alone. -/
theorem modLd_effect (k : Nat) (f : Ld → Ld) (s : State) :
    ldAt (modLd k f s) k = f (ldAt s k) ∧ (∀ j, j ≠ k → ldAt (modLd k f s) j = ldAt s j) ∧
    modLd k f s = { s with ports := { s.ports with lds := (modLd k f s).ports.lds } } :=
  ⟨ldAt_modLd_same k f s, fun _ h => ldAt_modLd_ne f s h, rfl⟩

/-- A change that an LD already satisfies shows in no LD. -/
theorem ldAt_modLd_of_fixed {k : Nat} {f : Ld → Ld} {s : State} (h : f (ldAt s k) = ldAt s k) (j : Nat) :
    ldAt (modLd k f s) j = ldAt s j := by
  rw [ldAt_modLd, h]
  split
  · rename_i hj; rw [hj]
  · rfl

/-- A register read answers its value, and changes the shadow that its LD keeps of the high half. -/
theorem modLd_answer_effect (k n : Nat) (f : Ld → Ld) (s : State) :
    (modLd k f (answer n s)).ports.readData = n ∧ ldAt (modLd k f (answer n s)) k = f (ldAt s k) ∧
    (∀ j, j ≠ k → ldAt (modLd k f (answer n s)) j = ldAt s j) ∧
    modLd k f (answer n s) = { s with ports := { s.ports with lds := (modLd k f (answer n s)).ports.lds, readData := n } } :=
  ⟨rfl, ldAt_modLd_same k f (answer n s), fun _ h => ldAt_modLd_ne f (answer n s) h, rfl⟩

/-! ### What a write does to a mailbox and to the change flags -/

/-- R396: the Command register ignores writes while the doorbell is 1. -/
theorem writeCommand_of_doorbell (high : Bool) (v : BitVec 32) {m : Mailbox} (h : m.doorbell = true) :
    writeCommand high v m = m := by
  simp [writeCommand, h]

/-- R11: a write of the Command register's low half waits for the high half. -/
theorem writeCommand_low (v : BitVec 32) {m : Mailbox} (h : m.doorbell = false) :
    writeCommand false v m = { m with cmdLow := v } := by
  simp [writeCommand, h]

/-- R11: a write of the Command register's high half takes effect with the low half written before. -/
theorem writeCommand_high (v : BitVec 32) {m : Mailbox} (h : m.doorbell = false) :
    writeCommand true v m =
      { m with opcode := m.cmdLow.toNat % 65536, len := m.cmdLow.toNat / 65536 + v.toNat % 32 * 65536 } := by
  simp [writeCommand, h]

/-- R396: the payload ignores writes while the doorbell is 1. -/
theorem windowWrite_of_doorbell (off : Nat) (b : List Byte) {m : Mailbox} (h : m.doorbell = true) :
    windowWrite off b m = m := by
  simp [windowWrite, h]

/-- R396, R561: with the doorbell at 0 a window write goes into the payload, which holds 64 KiB. -/
theorem windowWrite_of_free (off : Nat) (b : List Byte) {m : Mailbox} (h : m.doorbell = false) :
    windowWrite off b m = { m with payload := (patch m.payload (m.base * 4096 + (off - 0x1020)) b).take 65536 } := by
  simp [windowWrite, h]

/-- A buffer patched with one byte holds that byte at its place and the rest as it was; what lies past its end reads 0. -/
theorem getD_patch_byte (l : List Byte) (i j : Nat) (b : Byte) :
    (patch l i [b]).getD j 0 = if j = i then b else l.getD j 0 := by
  have hfront : (l.take i ++ zeros (i - l.length)).length = i := by
    simp only [List.length_append, List.length_take, length_zeros]; omega
  rw [patch, List.append_assoc, List.getD_eq_getElem?_getD, List.getElem?_append, hfront]
  rcases lt_trichotomy j i with hlt | heq | hgt
  · rw [if_pos hlt, if_neg hlt.ne, List.getElem?_append, List.length_take, List.getD_eq_getElem?_getD]
    split
    · rw [List.getElem?_take_of_lt hlt]
    · have hend : l.length ≤ j := by omega
      simp only [zeros, List.getElem?_replicate, List.getElem?_eq_none hend]
      split <;> rfl
  · simp [heq]
  · obtain ⟨d, rfl⟩ : ∃ d, j = i + 1 + d := ⟨j - (i + 1), by omega⟩
    have hd : i + 1 + d - i = d + 1 := by omega
    rw [if_neg (by omega), if_neg (by omega), hd]
    simp [List.getElem?_drop]

/-- R561: a byte written through the payload window lands at its place in the page that BASE picks. -/
theorem windowWrite_byte (off : Nat) (b : Byte) {m : Mailbox} (h : m.doorbell = false) {j : Nat} (hj : j < 65536) :
    (windowWrite off [b] m).payload.getD j 0 =
      if j = m.base * 4096 + (off - 0x1020) then b else m.payload.getD j 0 := by
  rw [← getD_patch_byte]
  simp only [windowWrite_of_free _ _ h, List.getD_eq_getElem?_getD, List.getElem?_take, if_pos hj]

/-- R563: a write of 1 clears a change flag that was set before. -/
theorem chg_clearChg {l : Ld} {now : Nat} (v : BitVec 32) (h : l.chgTb ≠ now) :
    (clearChg v now l).chg = l.chg &&& ~~~(v.extractLsb' 16 5) := by
  simp [clearChg, cleared, h]

/-- R14: a change flag set at the moment of the write stays. -/
theorem chg_clearChg_set_now {l : Ld} {now i : Nat} (v : BitVec 32) (h : l.chgTb = now) (hi : i < 5)
    (hset : l.chgNow.getLsbD i = true) : (clearChg v now l).chg.getLsbD i = l.chg.getLsbD i := by
  simp [clearChg, cleared, h, hi, hset]

/-! ### Which path a register access takes -/

section Accesses

variable {s : State} {p l : Nat} {P : State → Prop}

theorem pathLive_of_up_of_configured (hu : (port s p).up = true) (hc : ldConfigured s p l = true) :
    pathLive s (.ld p l) = true := by
  simp [pathLive, hu, hc]

theorem pathLive_of_down_or_absent (h : ldConfigured s p l = false ∨ (port s p).up = false) :
    pathLive s (.ld p l) = false := by
  rcases h with h | h <;> simp [pathLive, h]

/-- While the main die runs, a write over a live path is the write of that register. -/
theorem exec_registerWrite (hm : s.mainUp = true) (hl : pathLive s (.ld p l) = true) (off : Nat) (v : BitVec 32) :
    exec (.registerWrite p l off v) s = .next (registerWrite p l off v s) := by
  simp only [exec, execRegisterWrite, whenMain, hm, hl, if_true]

/-- A write over a path that is not live does nothing. -/
theorem exec_registerWrite_of_not_live (hl : pathLive s (.ld p l) = false) (off : Nat) (v : BitVec 32) :
    exec (.registerWrite p l off v) s = .next s := by
  simp [exec, execRegisterWrite, whenMain, hl]

/-- While the main die runs, a low-half read over a live path is the read of that register. -/
theorem exec_reg64LowRead (hm : s.mainUp = true) (hl : pathLive s (.ld p l) = true) (off : Nat) :
    exec (.reg64LowRead p l off) s = .next (reg64LowRead (ldKey p l) off s) := by
  simp only [exec, execReg64LowRead, whenMain, hm, hl, if_true]

/-- A read over a path that is not live does nothing. -/
theorem exec_reg64LowRead_of_not_live (hl : pathLive s (.ld p l) = false) (off : Nat) :
    exec (.reg64LowRead p l off) s = .next s := by
  simp [exec, execReg64LowRead, whenMain, hl]

/-- While the main die runs, a narrow or misaligned access over a live path is that access to the LD. -/
theorem exec_narrowAccess (hm : s.mainUp = true) (hl : pathLive s (.ld p l) = true) (off w : Nat) (o : Option (BitVec 64)) :
    exec (.narrowOrMisalignedAccess p l off w o) s = .next (narrowAccess (ldKey p l) off w o s) := by
  simp only [exec, execNarrowOrMisalignedAccess, whenMain, hm, hl, if_true]

theorem exec_mailboxDoorbell (hm : s.mainUp = true) :
    exec (.mailboxDoorbell p l) s = .next (mailboxDoorbell p l s) := by
  simp only [exec, execMailboxDoorbell, whenMain, hm, if_true]

theorem exec_cofSubmit (hm : s.mainUp = true) {v : BitVec 32} (hv : v.getLsbD 0 = true) :
    exec (.cofSubmit p l v) s = .next (cofSubmit p l s) := by
  simp only [exec, execCofSubmit, whenMain, hm, hv, if_true]

/-- A command whose outcome is known gives what holds of that outcome. -/
theorem gives_of_exec {c : Instr} {t u : State} (hx : exec c s = .next t) (ht : t = u) (hP : P u) : Gives c s P :=
  ⟨u, ht ▸ hx, hP⟩

end Accesses

/-! ### Low-half reads, by offset -/

section ByOffset

variable (s : State) (q l off : Nat) (v : BitVec 32)

theorem reg64LowRead_stage (k : Nat) :
    reg64LowRead k 0x8010 s =
      modLd k (fun x => { x with shStage := some (BitVec.ofNat 32 (s.planner.stage / 2 ^ 32)) }) (answer (s.planner.stage % 2 ^ 32) s) := by
  simp [reg64LowRead, readReg, vendorReg]

theorem reg64LowRead_timebase (k : Nat) :
    reg64LowRead k 0x8030 s =
      modLd k (fun x => { x with shTb := some (BitVec.ofNat 32 (tbNow s / 2 ^ 32)) }) (answer (tbNow s % 2 ^ 32) s) := by
  simp [reg64LowRead, readReg, vendorReg]

theorem reg64LowRead_command (k : Nat) :
    reg64LowRead k 0x1008 s =
      modLd k (fun x => { x with shCmd := some (BitVec.ofNat 32
          (((ldAt s k).mbox.opcode + (ldAt s k).mbox.len * 65536) / 2 ^ 32)) })
        (answer (((ldAt s k).mbox.opcode + (ldAt s k).mbox.len * 65536) % 2 ^ 32) s) := by
  simp [reg64LowRead, readReg, mboxHalf, mboxReg]

/-! ### Register writes, by offset -/

theorem registerWrite_doorbell (h : v.getLsbD 0 = true) : registerWrite q l 0x1004 v s = mailboxDoorbell q l s := by
  simp [registerWrite, h]

theorem registerWrite_commandLow :
    registerWrite q l 0x1008 v s = modLd (ldKey q l) (fun x => { x with mbox := writeCommand false v x.mbox }) s := by
  simp [registerWrite]

theorem registerWrite_commandHigh :
    registerWrite q l 0x100C v s = modLd (ldKey q l) (fun x => { x with mbox := writeCommand true v x.mbox }) s := by
  simp [registerWrite]

theorem registerWrite_payload (h4 : off % 4 = 0) (hlo : 0x1020 ≤ off) (hhi : off < 0x8000) :
    registerWrite q l off v s =
      modLd (ldKey q l) (fun x => { x with mbox := windowWrite off (toLe 4 v.toNat) x.mbox }) s := by
  simp (disch := omega) only [registerWrite, if_pos, if_neg]

theorem registerWrite_status :
    registerWrite q l 0x8000 v s = modLd (ldKey q l) (clearChg v (tbNow s)) s := by
  simp [registerWrite]

theorem registerWrite_windowBase :
    registerWrite q l 0x8008 v s =
      modLd (ldKey q l) (fun x => { x with mbox := { x.mbox with base := v.toNat % 16 } }) s := by
  simp [registerWrite]

theorem registerWrite_cairnPosition (h : mgmtKey s = some (ldKey q l)) :
    registerWrite q l 0x9000 v s =
      modLd (ldKey q l) (fun x => { x with win := startLoad { x.win with position := v.toNat } }) s := by
  simp [registerWrite, h, writeWin]

theorem registerWrite_go (ht : tenantLd s (ldKey q l) = true) (hv : v.getLsbD 0 = true) :
    registerWrite q l 0xC018 v s = cofSubmit q l s := by
  simp [registerWrite, writeCof, cofLive, ht, hv]

theorem registerWrite_bar0 :
    registerWrite q l 0x10010 v s =
      modLd (ldKey q l) (fun x => { x with io := { x.io with bar0 := v &&& 0xFFFF0000 } }) s := by
  simp [registerWrite, cfgWrite, cfgWriteHeader]

theorem registerWrite_uncorrectableStatus :
    registerWrite q l 0x10104 v s =
      modLd (ldKey q l) (fun x => { x with io := { x.io with uncStatus := x.io.uncStatus &&& ~~~v } }) s := by
  simp [registerWrite, cfgWrite, cfgWriteAer]

theorem registerWrite_hdmSizeLow :
    registerWrite q l 0x11018 v s =
      modLd (ldKey q l) (fun x => { x with
        decoders := x.decoders.mapIdx (fun i d => if i = 0 then writeDec 8 v d else d) }) s := by
  simp [registerWrite, hdmWrite]

/-- R12: an offset that holds no register with a write ignores it. -/
theorem registerWrite_readOnly
    (h : off < 0x1004 ∨ (0x1010 ≤ off ∧ off < 0x1020) ∨ off = 0x8004 ∨ (0x800C ≤ off ∧ off < 0x9000) ∨
      (0x9008 ≤ off ∧ off < 0xC000) ∨ (0xD000 ≤ off ∧ off < 0x10000) ∨ 0x12000 ≤ off) :
    registerWrite q l off v s = s := by
  by_cases h4 : off % 4 = 0
  · simp (disch := omega) only [registerWrite, if_neg]
  · simp [registerWrite, h4]

/-- R396: while the doorbell is 1, a write of the Command register or the payload changes no LD. -/
theorem registerWrite_of_doorbell (hd : (ldAt s (ldKey q l)).mbox.doorbell = true) (h4 : off % 4 = 0)
    (hoff : off = 0x1008 ∨ off = 0x100C ∨ 0x1020 ≤ off ∧ off < 0x8000) :
    ∃ f : Ld → Ld, registerWrite q l off v s = modLd (ldKey q l) f s ∧ f (ldAt s (ldKey q l)) = ldAt s (ldKey q l) := by
  rcases hoff with rfl | rfl | ⟨hlo, hhi⟩
  · exact ⟨_, registerWrite_commandLow .., by rw [writeCommand_of_doorbell _ _ hd]⟩
  · exact ⟨_, registerWrite_commandHigh .., by rw [writeCommand_of_doorbell _ _ hd]⟩
  · exact ⟨_, registerWrite_payload _ _ _ _ _ h4 hlo hhi, by rw [windowWrite_of_doorbell _ _ hd]⟩

/-! ### Narrow and misaligned accesses -/

/-- R10, R558: outside the payload window, and in it for what is no aligned byte or half word, an access that is narrow
or misaligned reads 0 and writes nothing. -/
theorem narrowAccess_outside (k : Nat) {w : Nat} (o : Option (BitVec 64)) (hn : (w ≠ 4 ∧ w ≠ 8) ∨ off % w ≠ 0)
    (hout : off < 0x1020 ∨ 0x8000 ≤ off ∨ (w ≠ 1 ∧ w ≠ 2)) :
    narrowAccess k off w o s = match o with
      | some _ => s
      | none => answer 0 s := by
  have hnarrow : narrow off w = true := by simpa [narrow] using hn
  have hwindow : inWindow off w = false := by
    simp only [inWindow, Bool.and_eq_false_iff, Bool.or_eq_false_iff, beq_eq_false_iff_ne, decide_eq_false_iff_not]
    omega
  simp only [narrowAccess, hnarrow, hwindow]
  cases o <;> rfl

/-- R561: a byte write inside the payload window. -/
theorem narrowAccess_byteWrite (k : Nat) (b : BitVec 64) (hlo : 0x1020 ≤ off) (hhi : off < 0x8000) :
    narrowAccess k off 1 (some b) s = modLd k (fun x => { x with mbox := windowWrite off [b.truncate 8] x.mbox }) s := by
  have hwindow : inWindow off 1 = true := by simp [inWindow, Nat.mod_one, hlo]; omega
  have hbyte : toLe 1 b.toNat = [b.truncate 8] := by simp [toLe, BitVec.truncate]
  simp [narrowAccess, narrow, hwindow, hbyte]

end ByOffset

/-! ### The machine at its first keeper power-on reset -/

@[simp] theorem ldAt_reset (k : Nat) : ldAt State.reset k = {} := rfl
@[simp] theorem port_reset (p : Nat) : port State.reset p = {} := rfl

/-- The flash of a part as shipped lists no cell. -/
theorem flashOk_reset : FlashOk State.reset := ⟨List.Pairwise.nil, fun _ h => absurd h List.not_mem_nil⟩

/-- Settles O57: every field is read off the reset state, and the tables of LDs and ports hold their defaults. -/
theorem resetState : Obligations.ResetState := by
  unfold Obligations.ResetState
  refine ⟨rfl, rfl, rfl, rfl, rfl, rfl, rfl, rfl, rfl, rfl, rfl, rfl, rfl, rfl, rfl, rfl, rfl, rfl, rfl, ?lds, ?ports,
    flashOk_reset⟩
  case lds => intro k; simp
  case ports => intro p; simp

/-- Settles O55, offset by offset: each access over a live path is a change of one LD (or, for the doorbell and GO, the
command itself), and over a path that is not live it is nothing. Beside R10 to R14 this rests on choices of the model:
the places of the configuration space and the HDM decoders (log entry 13), the Command register's high half (14), and
the offsets whose write is a command (15). -/
theorem registers : Obligations.Registers := by
  unfold Obligations.Registers
  refine ⟨fun s p l hm hu hc => ?live, fun s p l off v hm hdead => ?dead⟩
  case dead =>
    have hl := pathLive_of_down_or_absent hdead
    exact ⟨⟨s, exec_registerWrite_of_not_live hl off v, rfl⟩, ⟨s, exec_reg64LowRead_of_not_live hl off, rfl⟩⟩
  have hl := pathLive_of_up_of_configured hu hc
  refine ⟨?stage, ?timebase, ?command, ?narrow, ?byte, ?flags, ?commandWrite, ?doorbellSet, ?rows, ?base, ?position,
    ?cfgAndHdm, ?readOnly⟩
  case stage => exact gives_of_exec (exec_reg64LowRead hm hl _) (reg64LowRead_stage s _) (modLd_answer_effect ..)
  case timebase => exact gives_of_exec (exec_reg64LowRead hm hl _) (reg64LowRead_timebase s _) (modLd_answer_effect ..)
  case command => exact gives_of_exec (exec_reg64LowRead hm hl _) (reg64LowRead_command s _) (modLd_answer_effect ..)
  case narrow =>
    intro off w v hn hout
    exact ⟨⟨_, exec_narrowAccess hm hl off w none, narrowAccess_outside s off _ none hn hout⟩,
      ⟨_, exec_narrowAccess hm hl off w (some v), narrowAccess_outside s off _ (some v) hn hout⟩⟩
  case byte =>
    intro off v hlo hhi hd
    refine gives_of_exec (exec_narrowAccess hm hl off 1 (some v)) (narrowAccess_byteWrite s off _ v hlo hhi) ?_
    rw [ldAt_modLd_same]
    exact ⟨by simp only [windowWrite_of_free _ _ hd], fun j hj => windowWrite_byte off _ hd hj, (modLd_effect ..).2⟩
  case flags =>
    intro v
    refine gives_of_exec (exec_registerWrite hm hl _ v) (registerWrite_status s p l v) ?_
    rw [ldAt_modLd_same]
    exact ⟨chg_clearChg v, fun h i hi hset => chg_clearChg_set_now v h hi hset, rfl, (modLd_effect ..).2⟩
  case commandWrite =>
    intro v hd
    refine ⟨gives_of_exec (exec_registerWrite hm hl _ v) (registerWrite_commandLow s p l v) ?_,
      gives_of_exec (exec_registerWrite hm hl _ v) (registerWrite_commandHigh s p l v) ?_⟩
    · rw [ldAt_modLd_same, writeCommand_low v hd]
      exact ⟨rfl, (modLd_effect ..).2⟩
    · rw [ldAt_modLd_same, writeCommand_high v hd]
      exact ⟨rfl, (modLd_effect ..).2⟩
  case doorbellSet =>
    intro off v hd h4 hoff
    obtain ⟨f, hw, hf⟩ := registerWrite_of_doorbell s p l off v hd h4 hoff
    exact gives_of_exec (exec_registerWrite hm hl _ v) hw ⟨ldAt_modLd_of_fixed hf, rfl⟩
  case rows =>
    intro v hv
    rw [exec_registerWrite hm hl, exec_registerWrite hm hl, exec_mailboxDoorbell hm, exec_cofSubmit hm hv,
      registerWrite_doorbell s p l v hv]
    exact ⟨rfl, fun ht => congrArg _ (registerWrite_go s p l v ht hv)⟩
  case base => exact fun v => gives_of_exec (exec_registerWrite hm hl _ v) (registerWrite_windowBase s p l v) (modLd_effect ..)
  case position =>
    intro v hk
    refine gives_of_exec (exec_registerWrite hm hl _ v) (registerWrite_cairnPosition s p l v hk) ?_
    rw [ldAt_modLd_same]
    exact ⟨rfl, rfl, rfl, (modLd_effect ..).2⟩
  case cfgAndHdm =>
    intro v
    refine ⟨gives_of_exec (exec_registerWrite hm hl _ v) (registerWrite_bar0 s p l v) (modLd_effect ..),
      gives_of_exec (exec_registerWrite hm hl _ v) (registerWrite_uncorrectableStatus s p l v) (modLd_effect ..), fun d e hde => ?_⟩
    refine gives_of_exec (exec_registerWrite hm hl _ v) (registerWrite_hdmSizeLow s p l v) ?_
    rw [ldAt_modLd_same, hde]
    exact ⟨rfl, (modLd_effect ..).2⟩
  case readOnly =>
    intro off v hoff
    exact gives_of_exec (exec_registerWrite hm hl _ v) (registerWrite_readOnly s p l off v (by omega)) rfl

end Sys2Proof.Machine

/-! SUPPORT. What the shared operations leave alone: `Chassis`, which no commit of records, no service of the counter tree
and no response changes, and `HostSide`, which a fill's way to the medium leaves as well. -/

namespace Sys2Proof.Machine

/-- What only a reset, a boot or a power-up changes: the main die's and Rope's state, the boot's own, the life-cycle
state, TB, and whether a recall is in progress. -/
structure Chassis where
  mainUp : Bool
  boot : Boot
  rope : Rope
  life : Life
  tb : Nat
  recalling : Bool

/-- The chassis of a state. -/
def chassis (s : State) : Chassis :=
  { mainUp := s.mainUp, boot := s.boot, rope := s.rope, life := s.keeper.life, tb := s.reck.tb, recalling := s.sad.recalling }

/-- What the way of a fill to the medium leaves alone. -/
structure HostSide where
  chassis : Chassis
  cache : Cache
  ports : Tbl Port
  sent : List Resp
  medium : Medium

/-- The host side of a state. -/
def hostSide (s : State) : HostSide :=
  { chassis := chassis s, cache := s.cache, ports := s.ports.ports, sent := s.ports.sent, medium := s.medium }

theorem chassis_of_hostSide {s t : State} (h : hostSide t = hostSide s) : chassis t = chassis s := congrArg HostSide.chassis h

/-- A state given by its fields shows its chassis among them. -/
@[simp] theorem chassis_mk (pend up health ports gate planner chans cache sealCtl tree travs way medium belay reck mctp ep sad
    cairn relay rope therm boot survey keeper freeCtr timeRef) :
    chassis ⟨pend, up, health, ports, gate, planner, chans, cache, sealCtl, tree, travs, way, medium, belay, reck, mctp, ep, sad,
      cairn, relay, rope, therm, boot, survey, keeper, freeCtr, timeRef⟩ = ⟨up, boot, rope, keeper.life, reck.tb, sad.recalling⟩ := rfl

@[simp] theorem chassis_eta (s : State) :
    (⟨s.mainUp, s.boot, s.rope, s.keeper.life, s.reck.tb, s.sad.recalling⟩ : Chassis) = chassis s := rfl

@[simp] theorem hostSide_mk (pend up health ports gate planner chans cache sealCtl tree travs way medium belay reck mctp ep sad
    cairn relay rope therm boot survey keeper freeCtr timeRef) :
    hostSide ⟨pend, up, health, ports, gate, planner, chans, cache, sealCtl, tree, travs, way, medium, belay, reck, mctp, ep, sad,
      cairn, relay, rope, therm, boot, survey, keeper, freeCtr, timeRef⟩ =
    ⟨⟨up, boot, rope, keeper.life, reck.tb, sad.recalling⟩, cache, ports.ports, ports.sent, medium⟩ := rfl

@[simp] theorem hostSide_eta (s : State) :
    (⟨chassis s, s.cache, s.ports.ports, s.ports.sent, s.medium⟩ : HostSide) = hostSide s := rfl

@[simp] theorem modLd_portsPorts (k : Nat) (f : Ld → Ld) (s : State) : (modLd k f s).ports.ports = s.ports.ports := rfl

@[simp] theorem modLd_sent (k : Nat) (f : Ld → Ld) (s : State) : (modLd k f s).ports.sent = s.ports.sent := rfl

@[simp] theorem chassis_ite (c : Prop) [Decidable c] (s t : State) :
    chassis (if c then s else t) = if c then chassis s else chassis t := apply_ite chassis c s t

@[simp] theorem hostSide_ite (c : Prop) [Decidable c] (s t : State) :
    hostSide (if c then s else t) = if c then hostSide s else hostSide t := apply_ite hostSide c s t

/-- What every step of a loop leaves alone, the loop leaves alone. -/
theorem forAll_keeps {α β : Type} (view : State → β) {f : α → State → State} (h : ∀ a t, view (f a t) = view t)
    (l : List α) (s : State) : view (forAll l f s) = view s := by
  induction l generalizing s with
  | nil => rfl
  | cons a l ih => exact (ih (f a s)).trans (h a s)

@[simp] theorem chassis_forAll {α : Type} (f : α → State → State) (h : ∀ a t, chassis (f a t) = chassis t) (l : List α) (s : State) :
    chassis (forAll l f s) = chassis s := forAll_keeps chassis h l s

@[simp] theorem hostSide_forAll {α : Type} (f : α → State → State) (h : ∀ a t, hostSide (f a t) = hostSide t) (l : List α) (s : State) :
    hostSide (forAll l f s) = hostSide s := forAll_keeps hostSide h l s

/-! ### The host side: the shared updates -/

@[simp] theorem hostSide_modChan (c : Nat) (f : Chan → Chan) (s : State) : hostSide (modChan c f s) = hostSide s := rfl
@[simp] theorem hostSide_modBank (c b : Nat) (f : Bank → Bank) (s : State) : hostSide (modBank c b f s) = hostSide s := rfl
@[simp] theorem hostSide_modLd (k : Nat) (f : Ld → Ld) (s : State) : hostSide (modLd k f s) = hostSide s := rfl
@[simp] theorem hostSide_setChg (i k : Nat) (s : State) : hostSide (setChg i k s) = hostSide s := rfl
@[simp] theorem hostSide_modTile (k : Nat) (f : Tile → Tile) (s : State) : hostSide (modTile k f s) = hostSide s := rfl
@[simp] theorem hostSide_journal (l : List JRec) (s : State) : hostSide (journal l s) = hostSide s := rfl
@[simp] theorem hostSide_dropLoc (ppa : Nat) (s : State) : hostSide (dropLoc ppa s) = hostSide s := rfl
@[simp] theorem hostSide_modImg (ks : List Nat) (f : SadImage → SadImage) (s : State) : hostSide (modImg ks f s) = hostSide s := rfl
@[simp] theorem hostSide_markRecs (ks : List Nat) (s : State) : hostSide (markRecs ks s) = hostSide s := rfl
@[simp] theorem hostSide_bump (code par n : Nat) (s : State) : hostSide (bump code par n s) = hostSide s := rfl

@[simp] theorem hostSide_emitN (b : Bool) (code inst p q r d : Nat) (s : State) :
    hostSide (emitN b code inst p q r d s) = hostSide s := by
  unfold emitN; split <;> rfl

@[simp] theorem hostSide_emit (code inst p q r d : Nat) (s : State) : hostSide (emit code inst p q r d s) = hostSide s :=
  hostSide_emitN ..

@[simp] theorem hostSide_postEvent (l : List Nat) (log : Nat) (e : EventRec) (s : State) :
    hostSide (postEvent l log e s) = hostSide s := by
  unfold postEvent; split <;> rfl

@[simp] theorem hostSide_meter (part : Nat) (f : Meter → Meter) (s : State) : hostSide (meter part f s) = hostSide s := by
  unfold meter; split <;> rfl

@[simp] theorem hostSide_newlyPoisoned (lpn : Nat) (s : State) : hostSide (newlyPoisoned lpn s) = hostSide s := by
  simp [newlyPoisoned]

/-! ### The host side: tiles and programs -/

@[simp] theorem hostSide_openTile (ch b : Nat) (r : Role) (s : State) : hostSide (openTile ch b r s) = hostSide s := by
  unfold openTile; split <;> simp

@[simp] theorem hostSide_closeTile (ch b : Nat) (r : Role) (k : Nat) (s : State) : hostSide (closeTile ch b r k s) = hostSide s := rfl

@[simp] theorem hostSide_closeIfFull (ch b : Nat) (r : Role) (k : Nat) (s : State) :
    hostSide (closeIfFull ch b r k s) = hostSide s := by
  simp [closeIfFull]

theorem hostSide_of_takeFresh {ch b n : Nat} {r : Role} {s : State} {x : Nat × State} (h : takeFresh ch b r n s = some x) :
    hostSide x.2 = hostSide s := by
  obtain ⟨k, -, rfl⟩ := Option.map_eq_some_iff.mp h
  simp

theorem hostSide_of_takeLoc {ch b n : Nat} {r : Role} {s : State} {x : Nat × State} (h : takeLoc ch b r n s = some x) :
    hostSide x.2 = hostSide s := by
  unfold takeLoc at h
  split at h
  · exact hostSide_of_takeFresh h
  · dsimp only at h
    split at h
    · exact (hostSide_of_takeFresh h).trans (hostSide_closeTile ..)
    · obtain rfl := Option.some.inj h
      simp

theorem hostSide_of_fastPlace {n : Nat} {s : State} {cs : List Nat} {x : Nat × State} (h : fastPlace n s cs = some x) :
    hostSide x.2 = hostSide s := by
  induction cs with
  | nil => simp [fastPlace] at h
  | cons c cs ih =>
    unfold fastPlace at h
    split at h
    case h_1 y hy =>
      obtain ⟨b, -, hb⟩ := Option.bind_eq_some_iff.mp hy
      obtain rfl := Option.some.inj h
      exact hostSide_of_takeLoc hb
    case h_2 => exact ih h

@[simp] theorem hostSide_modProg (w : MWork) (f : MProg → MProg) (s : State) : hostSide (modProg w f s) = hostSide s := rfl

@[simp] theorem hostSide_putProg (w : MWork) (ppa after : Nat) (s : State) : hostSide (putProg w ppa after s) = hostSide s := by
  unfold putProg; split
  · rfl
  · simp [planSeq]

/-- A program of the counter tree is asked for without a trace on the host side. -/
@[simp] theorem hostSide_askSys_tree (l q c space lpn n : Nat) (body : SysBody) (s : State) :
    hostSide (askSys (.tree l q c) space lpn n body s) = hostSide s := by
  simp only [askSys, askProg, sealSys, placeProg]
  split
  case h_1 ppa t ht => simpa using hostSide_of_fastPlace ht
  case h_2 => simp

/-! ### The host side: the counter tree -/

@[simp] theorem hostSide_modLeaf (i : Nat) (f : Leaf → Leaf) (s : State) : hostSide (modLeaf i f s) = hostSide s := rfl
@[simp] theorem hostSide_modNode (l i : Nat) (f : Node → Node) (s : State) : hostSide (modNode l i f s) = hostSide s := rfl

@[simp] theorem hostSide_markDirty (k : Nat) (s : State) : hostSide (markDirty k s) = hostSide s := by simp [markDirty]

@[simp] theorem hostSide_dirtyLeaf (i : Nat) (f : Leaf → Leaf) (s : State) : hostSide (dirtyLeaf i f s) = hostSide s := by
  simp [dirtyLeaf]

@[simp] theorem hostSide_bumpParent (l i : Nat) (s : State) : hostSide (bumpParent l i s) = hostSide s := by
  simp [bumpParent]

@[simp] theorem hostSide_loseNode (l i : Nat) (s : State) : hostSide (loseNode l i s) = hostSide s := by simp [loseNode]

@[simp] theorem hostSide_useNode (l i : Nat) (s : State) : hostSide (useNode l i s) = hostSide s := by simp [useNode]

@[simp] theorem hostSide_loadLine (l i : Nat) (x : BitVec 512) (s : State) : hostSide (loadLine l i x s) = hostSide s := by
  simp [loadLine]

@[simp] theorem hostSide_loadNew (l i : Nat) (s : State) : hostSide (loadNew l i s) = hostSide s := by simp [loadNew]

@[simp] theorem hostSide_cleanNode (l i : Nat) (s : State) : hostSide (cleanNode l i s) = hostSide s := by simp [cleanNode]

@[simp] theorem hostSide_bringSibling (l i : Nat) (s : State) : hostSide (bringSibling l i s) = hostSide s := by
  unfold bringSibling
  split
  · rfl
  · split
    · simp
    · split
      · simp
      · split <;> simp

@[simp] theorem hostSide_writeParcel (l q : Nat) (s : State) : hostSide (writeParcel l q s) = hostSide s := by
  simp [writeParcel]

@[simp] theorem hostSide_evictNode (fuel l i : Nat) (s : State) : hostSide (evictNode fuel l i s) = hostSide s := by
  induction fuel generalizing l i s with
  | zero => rfl
  | succ fuel ih =>
    unfold evictNode
    split
    case isTrue => rfl
    case isFalse =>
      dsimp only
      generalize hchildren : (if l = 1 then s else _) = s1
      generalize hwritten : (if nodeDirty s1 l i then _ else s1) = s2
      have h1 : hostSide s1 = hostSide s := by simp [← hchildren, ih]
      have h2 : hostSide s2 = hostSide s := by simp [← hwritten, h1]
      simp [h2]

@[simp] theorem hostSide_makeRoom (l i : Nat) (s : State) : hostSide (makeRoom l i s) = hostSide s := by
  unfold makeRoom
  dsimp only
  split
  · rfl
  · split <;> simp

@[simp] theorem hostSide_chargeCopy (l i c : Nat) (s : State) : hostSide (chargeCopy l i c s) = hostSide s := by
  unfold chargeCopy; split <;> simp

@[simp] theorem hostSide_repairCopy (l q c : Nat) (s : State) : hostSide (repairCopy l q c s) = hostSide s := by
  unfold repairCopy; split <;> simp

@[simp] theorem hostSide_fetchNode (errs : List NodeErr) (l i : Nat) (s : State) : hostSide (fetchNode errs l i s) = hostSide s := by
  unfold fetchNode
  split
  case isTrue => simp
  case isFalse =>
    dsimp only
    split
    case h_1 => simp
    case h_2 =>
      split
      · simp
      · split
        · simp
        · split <;> simp

/-- R224: the fetch of a parcel's path. -/
@[simp] theorem hostSide_fetchPath (errs : List NodeErr) (lpn : Nat) (s : State) : hostSide (fetchPath errs lpn s) = hostSide s := by
  simp [fetchPath]

/-! ### The host side: reads on their way to a bank -/

@[simp] theorem hostSide_spendRead (part ch : Nat) (s : State) : hostSide (spendRead part ch s) = hostSide s := by
  simp [spendRead]

@[simp] theorem hostSide_enqueueRead (r : RdItem) (s : State) : hostSide (enqueueRead r s) = hostSide s := by
  simp [enqueueRead]

end Sys2Proof.Machine

/-! SUPPORT. CXL.mem requests past the Tollgate (R36 to R38, R71, R73, R95, R166 to R174): what the checks leave of a request
that meets none of them, what a tag and a response change, what a fill's start leaves alone, and how a write lands. -/

namespace Sys2Proof.Machine

/-! ### Past the Tollgate -/

/-- The request as the Tollgate hands it to the cache: with its parcel, its sector and its partition (R95, R96). -/
def accepted (op : MemOp) (q : MemReq) (w : WrData) (leg : Nat) (s : State) : Req :=
  { reqOf op q w s with
    lpn := lpnOf leg q.dpa.toNat, sector := sectorOf q.dpa.toNat, part := (ldAt s (ldKey q.port q.ld)).map.part }

/-- R71: a request with the port, the LD and the tag of a message, which holds a tag of its LD's own. -/
structure OfMessage (q : MemReq) (r : Req) : Prop where
  port : r.port = q.port
  ld : r.ld = q.ld
  tag : r.tag = q.tag
  kind : r.tagKind = .reserved

@[simp] theorem lpn_accepted (op : MemOp) (q : MemReq) (w : WrData) (leg : Nat) (s : State) :
    (accepted op q w leg s).lpn = lpnOf leg q.dpa.toNat := rfl
@[simp] theorem sector_accepted (op : MemOp) (q : MemReq) (w : WrData) (leg : Nat) (s : State) :
    (accepted op q w leg s).sector = sectorOf q.dpa.toNat := rfl
@[simp] theorem op_accepted (op : MemOp) (q : MemReq) (w : WrData) (leg : Nat) (s : State) : (accepted op q w leg s).op = op := rfl
@[simp] theorem wr_accepted (op : MemOp) (q : MemReq) (w : WrData) (leg : Nat) (s : State) : (accepted op q w leg s).wr = w := rfl
@[simp] theorem health_accepted (op : MemOp) (q : MemReq) (w : WrData) (leg : Nat) (s : State) :
    (accepted op q w leg s).health = s.health.st := rfl

theorem ofMessage_accepted (op : MemOp) (q : MemReq) (w : WrData) (leg : Nat) (s : State) : OfMessage q (accepted op q w leg s) :=
  ⟨rfl, rfl, rfl, rfl⟩

theorem sameTag_comm (a b : Req) : sameTag a b = sameTag b a := by
  rw [sameTag, sameTag, BEq.comm (a := a.ld), BEq.comm (a := a.tag)]

/-- R71: no request on the port holds the message's tag. -/
theorem sameTag_false_of_passes {op : MemOp} {q : MemReq} {w : WrData} {leg : Nat} {s : State} (h : Passes op q w leg s)
    {x r : Req} (hx : x ∈ (port s q.port).reqs ++ (port s q.port).oldReqs) (hld : r.ld = q.ld) (htag : r.tag = q.tag) :
    sameTag r x = false := by
  obtain ⟨-, -, -, -, -, -, -, -, -, -, -, -, hfree, -⟩ := h
  rw [sameTag_comm]
  simpa only [sameTag, hld, htag, Bool.and_eq_false_iff, beq_eq_false_iff_ne] using hfree x hx

/-- R75: a message that passes violates nothing. -/
theorem violationOf_of_passes {op : MemOp} {q : MemReq} {w : WrData} {leg : Nat} {s : State} (h : Passes op q w leg s) :
    violationOf q.link (reqOf op q w s) s = 0 := by
  have htags : ((port s q.port).reqs ++ (port s q.port).oldReqs).any (sameTag (reqOf op q w s)) = false := by
    simpa only [List.any_eq_false, Bool.not_eq_true] using fun x hx => sameTag_false_of_passes h hx rfl rfl
  obtain ⟨-, -, -, -, hlink, -, -, -, hcredit, hconf, -, -, -, hingress, -⟩ := h
  have hwait : ((port s q.port).ingress).any (sameTag (reqOf op q w s)) = false := by
    rw [List.any_eq_false]
    intro x hx
    have := hingress x hx
    simp only [sameTag, reqOf, Bool.and_eq_true, beq_iff_eq, not_and]
    exact fun hld => absurd hld.symm this
  rw [List.any_append, Bool.or_eq_false_iff] at htags
  have hport : (reqOf op q w s).port = q.port := rfl
  have hop : (reqOf op q w s).op = op := rfl
  have hld : (reqOf op q w s).ld = q.ld := rfl
  simp only [violationOf, hport, hop, hld, hlink, hconf, List.any_append, htags.1, htags.2, hwait, if_neg hcredit]
  simp

/-- R95 steps 1 to 6: none of the checks holds a message that passes. -/
theorem tenantReq_of_passes {op : MemOp} {q : MemReq} {w : WrData} {leg : Nat} {s : State} (e : ReadEnv) (h : Passes op q w leg s) :
    tenantReq e (reqOf op q w s) s = acceptReq e (accepted op q w leg s) s := by
  obtain ⟨-, -, -, -, -, hform, hpoison, hbe, -, -, -, hfrozen, -, -, hop, hout, hrange, -⟩ := h
  have hthawed : ¬ (ldFrozen s (reqOf op q w s).port (reqOf op q w s).ld = true) := by simp [reqOf, hfrozen]
  have hwhole : ¬ ((reqOf op q w s).malformed ≠ 0) := by simpa [reqOf, hform] using hbe
  have hallowed : ¬ ((!opAllowed (ldAt s (ldKey q.port q.ld)).map (reqOf op q w s)) = true) := by
    simp only [opAllowed, reqOf, hop, hpoison, Bool.not_false, Bool.true_or, Bool.and_self, Bool.not_true,
      Bool.false_eq_true, not_false_eq_true]
  have hclean : (!(reqOf op q w s).wr.poison) = true := by simp [reqOf, hpoison]
  have hleg : (rangePos (ldAt s (ldKey q.port q.ld)).map.ranges ((reqOf op q w s).dpa.toNat / gib)).bind
      (fun pos => legAt s.sad.img.runs (ldAt s (ldKey q.port q.ld)).map.part pos) = some leg := hrange
  have hkey : ldKey (reqOf op q w s).port (reqOf op q w s).ld = ldKey q.port q.ld := rfl
  unfold tenantReq
  rw [if_neg hthawed, if_neg hwhole, hkey, if_neg hallowed, if_neg (Nat.not_le.mpr hout), hleg]
  exact if_pos (Or.inl hclean)

/-- R95, R96: a message that passes every check is accepted. -/
theorem arrive_of_passes {op : MemOp} {q : MemReq} {w : WrData} {leg : Nat} {s : State} (e : ReadEnv) (h : Passes op q w leg s) :
    arrive q e (reqOf op q w s) s = acceptReq e (accepted op q w leg s) s := by
  have hviol := violationOf_of_passes h
  rw [← tenantReq_of_passes e h]
  obtain ⟨-, hup, hstep, hinterim, -, -, -, -, -, -, htenant, -, -, hingress, -⟩ := h
  have hbehind : behind s (reqOf op q w s) = false := by
    rw [behind, List.any_eq_false]
    intro x hx
    simpa [reqOf] using hingress x hx
  have hport : (reqOf op q w s).port = q.port := rfl
  have hld : (reqOf op q w s).ld = q.ld := rfl
  simp [arrive, tollgate, hviol, hport, hld, hup, hstep, hbehind, htenant, hinterim]

/-- A message that passes every check, while the main die runs. -/
theorem whenMain_arrive_of_passes {op : MemOp} {q : MemReq} {w : WrData} {leg : Nat} {s : State} (e : ReadEnv)
    (h : Passes op q w leg s) :
    whenMain (fun s => arrive q e (reqOf op q w s) s) s = acceptReq e (accepted op q w leg s) s := by
  rw [whenMain, if_pos h.1]
  exact arrive_of_passes e h

/-! ### Tags and responses: what they leave alone -/

/-- What tags, responses and poison lists leave alone. -/
structure Interior where
  chassis : Chassis
  cache : Cache
  medium : Medium
  way : Way
  sealCtl : Seal

/-- The interior of a state. -/
def interior (s : State) : Interior :=
  { chassis := chassis s, cache := s.cache, medium := s.medium, way := s.way, sealCtl := s.sealCtl }

@[simp] theorem interior_ite (c : Prop) [Decidable c] (s t : State) :
    interior (if c then s else t) = if c then interior s else interior t := apply_ite interior c s t

@[simp] theorem interior_modPort (p : Nat) (f : Port → Port) (s : State) : interior (modPort p f s) = interior s := rfl
@[simp] theorem interior_modLd (k : Nat) (f : Ld → Ld) (s : State) : interior (modLd k f s) = interior s := rfl
@[simp] theorem interior_histAdd (key ns : Nat) (s : State) : interior (histAdd key ns s) = interior s := rfl
@[simp] theorem interior_cairnSample (id bin : Nat) (s : State) : interior (cairnSample id bin s) = interior s := rfl

@[simp] theorem interior_meter (part : Nat) (f : Meter → Meter) (s : State) : interior (meter part f s) = interior s := by
  unfold meter; split <;> rfl

@[simp] theorem interior_extremeHi (i : Nat) (v : Int) (s : State) : interior (extremeHi i v s) = interior s := by
  unfold extremeHi; split
  · split <;> rfl
  · rfl

@[simp] theorem interior_meterWrite (r : Req) (s : State) : interior (meterWrite r s) = interior s := by simp [meterWrite]

@[simp] theorem interior_meterRead (r : Req) (lat : Nat) (s : State) : interior (meterRead r lat s) = interior s := by
  simp [meterRead]

@[simp] theorem interior_takeTag (r : Req) (s : State) : interior (takeTag r s) = interior s := by simp [takeTag]

@[simp] theorem interior_freeTag (r : Req) (s : State) : interior (freeTag r s) = interior s := by simp [freeTag]

@[simp] theorem interior_sendResp (n : Nat) (r : Req) (k : RespKind) (s : State) : interior (sendResp n r k s) = interior s :=
  show interior (modPort r.port (useCredit k) (meterRead r (n - r.stamp) (meterWrite r (freeTag r s)))) = interior s by simp

@[simp] theorem interior_finish (r : Req) (k : RespKind) (s : State) : interior (finish r k s) = interior s := by simp [finish]

@[simp] theorem interior_unlist (lpn : Nat) (s : State) : interior (unlist lpn s) = interior s := by
  refine forAll_keeps interior (fun p t => ?_) _ s
  rfl

/-! ### Tags and responses: what they change -/

@[simp] theorem ports_meterWrite (r : Req) (s : State) : (meterWrite r s).ports = s.ports := by
  unfold meterWrite; split <;> simp

@[simp] theorem ports_extremeHi (i : Nat) (v : Int) (s : State) : (extremeHi i v s).ports = s.ports := by
  unfold extremeHi; split
  · split <;> rfl
  · rfl

@[simp] theorem ports_meterRead (r : Req) (lat : Nat) (s : State) : (meterRead r lat s).ports = s.ports := by
  unfold meterRead; split <;> simp

@[simp] theorem sent_takeTag (r : Req) (s : State) : (takeTag r s).ports.sent = s.ports.sent := by
  unfold takeTag; dsimp only; split <;> rfl

@[simp] theorem sent_freeTag (r : Req) (s : State) : (freeTag r s).ports.sent = s.ports.sent := by
  unfold freeTag; dsimp only; split <;> rfl

theorem port_takeTag (r : Req) (s : State) :
    port (takeTag r s) r.port = { port s r.port with reqs := (port s r.port).reqs ++ [r] } := by
  unfold takeTag; dsimp only; split <;> simp

theorem port_eq_of_ports {s t : State} (h : t.ports.ports = s.ports.ports) (p : Nat) : port t p = port s p := by
  simp only [port, h]

theorem reqs_oldDone (p : Port) (old : List Req) : (oldDone p old).reqs = p.reqs := by unfold oldDone; split <;> rfl

theorem reqs_useCredit (k : RespKind) (p : Port) : (useCredit k p).reqs = p.reqs := by unfold useCredit; split <;> rfl

/-- R71: the requests of a port once one of them has its tag free again. -/
theorem reqs_freeTag (r : Req) (s : State) :
    (port (freeTag r s) r.port).reqs = (port s r.port).reqs.filter (fun x => !(sameTag x r && x.tagKind == r.tagKind)) := by
  unfold freeTag; dsimp only; split <;> simp [reqs_oldDone]

theorem reqs_sendResp (n : Nat) (r : Req) (k : RespKind) (s : State) :
    (port (sendResp n r k s) r.port).reqs = (port s r.port).reqs.filter (fun x => !(sameTag x r && x.tagKind == r.tagKind)) := by
  rw [← reqs_freeTag]
  have hsent : port (sendResp n r k s) r.port =
      port (modPort r.port (useCredit k) (meterRead r (n - r.stamp) (meterWrite r (freeTag r s)))) r.port := rfl
  rw [hsent, port_modPort_same, reqs_useCredit]
  exact congrArg Port.reqs (port_eq_of_ports (by simp) _)

/-- R71: a response takes its place as the newest. -/
theorem sent_sendResp (n : Nat) (r : Req) (k : RespKind) (s : State) :
    (sendResp n r k s).ports.sent =
      { port := r.port, ld := r.ld, tag := r.tag, op := r.op, kind := k, sent := tbNow s } :: s.ports.sent := by
  have hbefore : (modPort r.port (useCredit k) (meterRead r (n - r.stamp) (meterWrite r (freeTag r s)))).ports.sent = s.ports.sent := by
    simp [modPort]
  exact congrArg (_ :: ·) hbefore

/-- R71, R73: a request with a tag of its own, on a port that has the credit, is answered at once. -/
theorem finish_sends {r : Req} {k : RespKind} {s : State} (htag : r.tagKind = .reserved)
    (hold : ∀ x ∈ (port s r.port).oldReqs, sameTag r x = false) (hcredit : s2mFree (port s r.port) k = true) :
    finish r k s = sendResp (tbNow s) r k s := by
  have hnew : (port s r.port).oldReqs.any (sameTag r) = false := by
    simpa only [List.any_eq_false, Bool.not_eq_true] using hold
  simp [finish, htag, hnew, hcredit]

/-- What a completion at once does to the ports: the newest response answers the request, whose tag is free again. -/
theorem finish_effect {op : MemOp} {q : MemReq} {w : WrData} {leg : Nat} {k : RespKind} {s u : State} {r r0 : Req}
    (h : Passes op q w leg s) (hr : OfMessage q r) (hop : r.op = op) (hr0 : OfMessage q r0)
    (hports : u.ports.ports = (takeTag r0 s).ports.ports) (hsent : u.ports.sent = s.ports.sent) (htb : tbNow u = tbNow s)
    (hcredit : s2mFree (port s q.port) k = true) :
    Answered op q k s (finish r k u) ∧ (port (finish r k u) q.port).reqs = (port s q.port).reqs := by
  have hport : port u r.port = { port s q.port with reqs := (port s q.port).reqs ++ [r0] } := by
    rw [hr.port, port_eq_of_ports hports, ← hr0.port, port_takeTag]
  have hnone : ∀ x ∈ (port s q.port).reqs ++ (port s q.port).oldReqs, sameTag r x = false :=
    fun x hx => sameTag_false_of_passes h hx hr.ld hr.tag
  have hsends : finish r k u = sendResp (tbNow u) r k u := by
    refine finish_sends hr.kind ?_ ?_ <;> rw [hport]
    · exact fun x hx => hnone x (List.mem_append_right _ hx)
    · exact hcredit
  refine ⟨?answered, ?reqs⟩
  case answered =>
    rw [Answered, hsends, sent_sendResp, hr.port, hr.ld, hr.tag, hop, htb, hsent]
  case reqs =>
    have hkeep : (port s q.port).reqs.filter (fun x => !(sameTag x r && x.tagKind == r.tagKind)) = (port s q.port).reqs :=
      List.filter_eq_self.mpr fun x hx => by simp [sameTag_comm x, hnone x (List.mem_append_left _ hx)]
    have hmine : sameTag r0 r = true := by simp [sameTag, hr.ld, hr.tag, hr0.ld, hr0.tag]
    rw [hsends, ← hr.port, reqs_sendResp, hport]
    dsimp only
    rw [List.filter_append, hr.port, hkeep]
    simp [hmine, hr.kind, hr0.kind]

/-- A state differs from another in its ports alone. -/
def OnlyPorts (s t : State) : Prop := t = { s with ports := t.ports }

theorem OnlyPorts.trans {s t u : State} (h : OnlyPorts s t) (h' : OnlyPorts t u) : OnlyPorts s u := by
  rw [OnlyPorts] at *
  rw [h', h]

theorem OnlyPorts.cache {s t : State} (h : OnlyPorts s t) : t.cache = s.cache := by rw [show t = _ from h]

theorem onlyPorts_takeTag (r : Req) (s : State) : OnlyPorts s (takeTag r s) := by
  unfold takeTag OnlyPorts; dsimp only; split <;> rfl

theorem onlyPorts_freeTag (r : Req) (s : State) : OnlyPorts s (freeTag r s) := by
  unfold freeTag OnlyPorts; dsimp only; split <;> rfl

/-- R371: the response of a request that is neither a read nor a write is counted nowhere. -/
theorem onlyPorts_sendResp {r : Req} (hread : r.op.isRead = false) (hwrite : r.op.isWrite = false) (n : Nat) (k : RespKind) (s : State) :
    OnlyPorts s (sendResp n r k s) := by
  have hw : meterWrite r (freeTag r s) = freeTag r s := by simp [meterWrite, hwrite]
  have hr : meterRead r (n - r.stamp) (freeTag r s) = freeTag r s := by simp [meterRead, hread]
  refine (onlyPorts_freeTag r s).trans ?_
  rw [sendResp, hw, hr]
  rfl

theorem onlyPorts_finish {r : Req} (hread : r.op.isRead = false) (hwrite : r.op.isWrite = false) (k : RespKind) (s : State) :
    OnlyPorts s (finish r k s) := by
  have hw : meterWrite r (freeTag r s) = freeTag r s := by simp [meterWrite, hwrite]
  unfold finish
  split
  · rfl
  · split
    · rw [hw, ite_self]; exact onlyPorts_freeTag r s
    · split
      · exact onlyPorts_sendResp hread hwrite ..
      · rfl

/-! ### What the Tollgate hands on -/

section Accepted

variable {q : MemReq} {w : WrData} {leg : Nat} {s : State}

theorem keyed_of_passes {op : MemOp} (h : Passes op q w leg s) : keyed s (accepted op q w leg s).part = true := by
  obtain ⟨-, -, -, -, -, -, -, -, -, -, -, -, -, -, -, -, -, hkeyed⟩ := h
  exact hkeyed

theorem clean_of_passes {op : MemOp} (h : Passes op q w leg s) : w.poison = false := by
  obtain ⟨-, -, -, -, -, -, hclean, -⟩ := h
  exact hclean

theorem acceptReq_read (e : ReadEnv) (h : Passes .rd q w leg s) :
    acceptReq e (accepted .rd q w leg s) s = access e (accepted .rd q w leg s) (takeTag (accepted .rd q w leg s) s) := by
  rw [acceptReq, keyed_of_passes h]; rfl

theorem acceptReq_specRead (e : ReadEnv) (h : Passes .specRd q w leg s) :
    acceptReq e (accepted .specRd q w leg s) s = access e { accepted .specRd q w leg s with tagKind := .none } s := by
  rw [acceptReq, keyed_of_passes h]; rfl

theorem acceptReq_invalidate {op : MemOp} (e : ReadEnv) (h : Passes op q w leg s) (hop : op = .inv ∨ op = .invNt ∨ op = .clnEvct) :
    acceptReq e (accepted op q w leg s) s = finish (accepted op q w leg s) .cmp (takeTag (accepted op q w leg s) s) := by
  rw [acceptReq, keyed_of_passes h]
  rcases hop with rfl | rfl | rfl <;> rfl

/-- R44: outside READ_ONLY a write goes to the cache. -/
theorem acceptReq_write {op : MemOp} (e : ReadEnv) (h : Passes op q w leg s) (hop : op = .wr ∨ op = .wrPtl) (hhealth : s.health.st ≠ 5) :
    acceptReq e (accepted op q w leg s) s = access e (accepted op q w leg s) (takeTag (accepted op q w leg s) s) := by
  have hstate : ¬ (accepted op q w leg s).health = 5 := hhealth
  rw [acceptReq, keyed_of_passes h]
  rcases hop with rfl | rfl <;> exact if_neg hstate

end Accepted

/-! ### Invalidates and clean-evicts (R73, R170) -/

/-- R73, R170: an invalidate or a clean-evict completes, and changes the ports alone. -/
theorem acceptReq_invalidates {op : MemOp} {q : MemReq} {leg : Nat} {s : State} (e : ReadEnv) (h : Passes op q noData leg s)
    (hop : op = .inv ∨ op = .invNt ∨ op = .clnEvct) (hcredit : 0 < (port s q.port).ndrCredits) :
    let t := acceptReq e (accepted op q noData leg s) s
    Answered op q .cmp s t ∧ t.cache = s.cache ∧ (port t q.port).reqs = (port s q.port).reqs ∧ t = { s with ports := t.ports } := by
  have hread : op.isRead = false := by rcases hop with rfl | rfl | rfl <;> rfl
  have hwrite : op.isWrite = false := by rcases hop with rfl | rfl | rfl <;> rfl
  let r := accepted op q noData leg s
  rw [acceptReq_invalidate e h hop]
  have honly : OnlyPorts s (finish r .cmp (takeTag r s)) := (onlyPorts_takeTag r s).trans (onlyPorts_finish hread hwrite ..)
  have hmsg := ofMessage_accepted op q noData leg s
  obtain ⟨hanswer, hreqs⟩ := finish_effect (k := .cmp) (u := takeTag r s) h hmsg rfl hmsg rfl (sent_takeTag r s)
    (by rw [onlyPorts_takeTag r s]; rfl) (by simpa [s2mFree, hasData] using hcredit)
  exact ⟨hanswer, honly.cache, hreqs, honly⟩

/-! ### Fills -/

theorem fillReady_keeps (lpn : Nat) (st : FillSt) (s : State) :
    fillReady lpn st s = { s with cache := { s.cache with fills := (fillReady lpn st s).cache.fills } } := by
  unfold fillReady; split <;> rfl

/-- The data of a fill leaves its entry's other fields as they are. -/
theorem tget_fillReady {lpn : Nat} {f : Fill} {s : State} (st : FillSt) (h : tget s.cache.fills lpn = some f) :
    tget (fillReady lpn st s).cache.fills lpn = some { f with st := st } := by
  simp [fillReady, thas, h, modFill, tgetD]

/-- R166, R234, R298: a fill's data comes at once, or its read is on its way; the host side shows nothing else. -/
theorem resolveFill_cases (it : RdItem) (errs : List NodeErr) (s : State) :
    ∃ u, hostSide u = hostSide s ∧ (resolveFill it errs s = u ∨ ∃ st, resolveFill it errs s = fillReady it.lpn st u) := by
  unfold resolveFill
  split
  case h_1 => exact ⟨s, rfl, .inr ⟨_, rfl⟩⟩
  case h_2 =>
    split
    case isTrue => exact ⟨_, by simp, .inl rfl⟩
    case isFalse =>
      split
      case h_1 => exact ⟨s, rfl, .inr ⟨_, rfl⟩⟩
      case h_2 => exact ⟨s, rfl, .inr ⟨_, rfl⟩⟩
      case h_3 =>
        split
        · exact ⟨s, rfl, .inr ⟨_, rfl⟩⟩
        · dsimp only
          split
          · exact ⟨_, hostSide_fetchPath .., .inr ⟨_, rfl⟩⟩
          · split
            · exact ⟨_, by simp, .inr ⟨_, rfl⟩⟩
            · exact ⟨_, by simp, .inl rfl⟩

/-- What the start of a fill leaves: all lines, the ports, the responses and the medium; the fill's entry but its data. -/
structure FillStarts (lpn : Nat) (s t : State) : Prop where
  lines : t.cache.lines = s.cache.lines
  ports : t.ports.ports = s.ports.ports
  sent : t.ports.sent = s.ports.sent
  medium : t.medium = s.medium
  entry : ∀ f, tget s.cache.fills lpn = some f → ∃ st, tget t.cache.fills lpn = some { f with st := st }

theorem resolveFill_starts (it : RdItem) (errs : List NodeErr) (s : State) : FillStarts it.lpn s (resolveFill it errs s) := by
  obtain ⟨u, hu, ht⟩ := resolveFill_cases it errs s
  have hcache : u.cache = s.cache := congrArg HostSide.cache hu
  have hlines : u.cache.lines = s.cache.lines := congrArg Cache.lines hcache
  have hports : u.ports.ports = s.ports.ports := congrArg HostSide.ports hu
  have hsent : u.ports.sent = s.ports.sent := congrArg HostSide.sent hu
  have hmedium : u.medium = s.medium := congrArg HostSide.medium hu
  rcases ht with ht | ⟨st, ht⟩ <;> rw [ht]
  case inl => exact ⟨hlines, hports, hsent, hmedium, fun f hf => ⟨f.st, by rw [hcache]; exact hf⟩⟩
  case inr =>
    have hentry : ∀ f, tget s.cache.fills it.lpn = some f →
        ∃ st', tget (fillReady it.lpn st u).cache.fills it.lpn = some { f with st := st' } :=
      fun f hf => ⟨st, tget_fillReady st (by rw [hcache]; exact hf)⟩
    refine ⟨?_, ?_, ?_, ?_, hentry⟩ <;> rw [fillReady_keeps]
    · exact hlines
    · exact hports
    · exact hsent
    · exact hmedium

/-- A state differs from another in its cache alone. -/
def OnlyCache (s t : State) : Prop := t = { s with cache := t.cache }

theorem OnlyCache.trans {s t u : State} (h : OnlyCache s t) (h' : OnlyCache t u) : OnlyCache s u := by
  rw [OnlyCache] at *
  rw [h', h]

theorem OnlyCache.ports {s t : State} (h : OnlyCache s t) : t.ports = s.ports := by rw [show t = _ from h]
theorem OnlyCache.sent {s t : State} (h : OnlyCache s t) : t.ports.sent = s.ports.sent := congrArg Ports.sent h.ports
theorem OnlyCache.way {s t : State} (h : OnlyCache s t) : t.way = s.way := by rw [show t = _ from h]
theorem OnlyCache.sealCtl {s t : State} (h : OnlyCache s t) : t.sealCtl = s.sealCtl := by rw [show t = _ from h]
theorem OnlyCache.tbNow {s t : State} (h : OnlyCache s t) : tbNow t = tbNow s := by rw [show t = _ from h]; rfl
theorem OnlyCache.medium {s t : State} (h : OnlyCache s t) : t.medium = s.medium := by rw [show t = _ from h]

theorem onlyCache_evAgain (d : EvDue) (f : EvDue → EvDue) (s : State) : OnlyCache s (evAgain d f s) := rfl

/-- R167: the choice of a way leaves all but the lines chosen for eviction. -/
theorem onlyCache_allotWay (lpn : Nat) (evict : Bool) (s : State) : OnlyCache s (allotWay lpn evict s).2 := by
  unfold allotWay
  dsimp only
  split
  · rfl
  · split
    · rfl
    · split
      · split <;> rfl
      · rfl

@[simp] theorem tget_modFill (lpn : Nat) (f : Fill → Fill) (s : State) :
    tget (modFill lpn f s).cache.fills lpn = some (f (tgetD s.cache.fills lpn {})) := tget_tmod_same ..

/-- R166, R167: the way that a new fill takes: that of a line that is present, else one that is free. -/
def fillWay (r : Req) (s : State) : State :=
  match findWay s r.lpn with
  | some k => modLine k (fun l => { l with st := .filling }) s
  | none => match allotWay r.lpn true s with
    | (some k, t) => putLine k { lpn := r.lpn, part := r.part, st := .filling } t
    | (none, t) => t

/-- R166: a miss of a parcel without a fill starts one while the slice has an entry. -/
theorem missFill_new {r : Req} {s : State} (errs : List NodeErr) (hnone : tget s.cache.fills r.lpn = none) (hroom : fillsIn s r.lpn < 512) :
    missFill r errs s =
      resolveFill (itemOf r) errs (modFill r.lpn (fun _ => { waiters := [r], part := r.part }) (fillWay r s)) := by
  unfold missFill
  rw [hnone]
  exact if_neg (Nat.not_le.mpr hroom)

theorem onlyCache_fillWay (r : Req) (s : State) : OnlyCache s (fillWay r s) := by
  unfold fillWay
  split
  · rfl
  · have hway := onlyCache_allotWay r.lpn true s
    split <;> rename_i ht <;> rw [ht] at hway
    · exact hway.trans rfl
    · exact hway

theorem data_fillWay {r : Req} {s : State} {k : Nat} (h : findWay s r.lpn = some k) :
    (lineAt (fillWay r s) k).data = (lineAt s k).data := by
  simp only [fillWay, h, lineAt_modLine_same]

/-- R166, R167: a request waits in its parcel's fill, which returns to its line; the ports, the responses and the medium stay. -/
structure JoinsFill (r : Req) (s t : State) : Prop where
  entry : ∃ f, tget t.cache.fills r.lpn = some f ∧ r ∈ f.waiters ∧ f.spec = false
  ports : t.ports.ports = s.ports.ports
  sent : t.ports.sent = s.ports.sent
  medium : t.medium = s.medium
  data : ∀ k, findWay s r.lpn = some k → (lineAt t k).data = (lineAt s k).data

/-- R166: a miss joins its parcel's fill, or starts one. -/
theorem missFill_joins {r : Req} {s : State} (errs : List NodeErr)
    (hroom : thas s.cache.fills r.lpn = true ∨ fillsIn s r.lpn < 512) : JoinsFill r s (missFill r errs s) := by
  cases hfill : tget s.cache.fills r.lpn with
  | some f =>
    have hjoin : missFill r errs s = modFill r.lpn (fun f => { f with waiters := f.waiters ++ [r], spec := false }) s := by
      simp only [missFill, hfill]
    rw [hjoin]
    exact ⟨⟨_, tget_modFill .., by simp, rfl⟩, rfl, rfl, rfl, fun _ _ => rfl⟩
  | none =>
    have hfree : fillsIn s r.lpn < 512 := hroom.resolve_left (by simp [thas, hfill])
    rw [missFill_new errs hfill hfree]
    have honly := onlyCache_fillWay r s
    obtain ⟨hlines, hports, hsent, hmedium, hentry⟩ := resolveFill_starts (itemOf r) errs
      (modFill r.lpn (fun _ => { waiters := [r], part := r.part }) (fillWay r s))
    obtain ⟨st, hst⟩ := hentry _ (tget_modFill ..)
    refine ⟨⟨_, hst, List.mem_singleton_self r, rfl⟩, ?_, ?_, ?_, ?_⟩
    · exact hports.trans (congrArg Ports.ports honly.ports)
    · exact hsent.trans (congrArg Ports.sent honly.ports)
    · exact hmedium.trans honly.medium
    · intro k hk
      rw [← data_fillWay hk, lineAt, lineAt, hlines]
      rfl

/-! ### The cache after a tag has been taken -/

@[simp] theorem cache_takeTag (r : Req) (s : State) : (takeTag r s).cache = s.cache := congrArg Interior.cache (interior_takeTag r s)

section TakeTag

variable (r : Req) (s : State)

@[simp] theorem isRetiring_takeTag (z : Nat) : isRetiring (takeTag r s) z = isRetiring s z := by simp [isRetiring]
@[simp] theorem findWay_takeTag (lpn : Nat) : findWay (takeTag r s) lpn = findWay s lpn := by simp [findWay]
@[simp] theorem lineAt_takeTag (k : Nat) : lineAt (takeTag r s) k = lineAt s k := by simp [lineAt]
@[simp] theorem fillsIn_takeTag (lpn : Nat) : fillsIn (takeTag r s) lpn = fillsIn s lpn := by rw [onlyPorts_takeTag r s]; rfl
@[simp] theorem writesFreely_takeTag (k : Nat) : WritesFreely k (takeTag r s) ↔ WritesFreely k s := by
  rw [onlyPorts_takeTag r s]; rfl

end TakeTag

/-! ### The access to a slice -/

@[simp] theorem lineAt_putLine_same (k : Nat) (l : Line) (s : State) : lineAt (putLine k l s) k = l :=
  lineAt_modLine_same k (fun _ => l) s

/-- R201: a read of a parcel that the cache does not hold, outside a retiring slice. -/
theorem access_readMiss {r : Req} {s : State} (e : ReadEnv) (hslice : isRetiring s (hashSlice r.lpn) = false)
    (hmiss : findWay s r.lpn = none) (hop : r.op.isRead = true) : access e r s = missFill r e.nodes s := by
  have hsame : ¬ (s.belay.step ≠ 0 ∧ s.belay.step = 0) := fun h => h.1 h.2
  simp [access, hslice, hmiss, hop, readAccess]

/-- R201: a speculative read of a parcel that the cache does not hold, outside a retiring slice. -/
theorem access_specMiss {r : Req} {s : State} (e : ReadEnv) (hslice : isRetiring s (hashSlice r.lpn) = false)
    (hmiss : findWay s r.lpn = none) (hop : r.op = .specRd) : access e r s = specAccess r e s := by
  simp [access, hslice, hmiss, hop, MemOp.isRead, MemOp.isWrite]

/-- R165, R199, R201: a write that meets its line, with a sound tag, outside a retiring slice. -/
theorem access_writeHit {r : Req} {s : State} {e : ReadEnv} {k : Nat} (hslice : isRetiring s (hashSlice r.lpn) = false)
    (hhit : findWay s r.lpn = some k) (htag : e.tagErr = .none) (hread : r.op.isRead = false) (hwrite : r.op.isWrite = true) :
    access e r s = writeAccess r e.nodes s := by
  have hsound : tagCheck k .none s = s := by unfold tagCheck; split <;> simp_all
  simp [access, hslice, hhit, htag, hsound, hread, hwrite]

/-- R170: a speculative read of a parcel without a line and without a fill starts one, in an INVALID way. -/
theorem specAccess_starts {r : Req} {s : State} {k : Nat} (e : ReadEnv) (hmiss : findWay s r.lpn = none)
    (hnone : thas s.cache.fills r.lpn = false) (hroom : fillsIn s r.lpn < 256)
    (hway : (setWays s r.lpn).find? (fun w => (lineAt s w).st = .invalid) = some k) :
    specAccess r e s = resolveFill { itemOf r with specStage := some s.planner.stage } e.nodes
      (modFill r.lpn (fun _ => { spec := true, part := r.part, specStage := some s.planner.stage })
        (putLine k { lpn := r.lpn, part := r.part, st := .filling } s)) := by
  have hallot : allotWay r.lpn false s = (some k, s) := by simp only [allotWay, hway]
  have hstart : ¬ ((findWay s r.lpn).isSome = true ∨ thas s.cache.fills r.lpn = true ∨ 256 ≤ fillsIn s r.lpn) := by
    simp [hmiss, hnone, hroom]
  rw [specAccess, if_neg hstart, hallot]

/-- R170: a speculative read of a parcel with a fill, or without room for one, does nothing. -/
theorem specAccess_nothing {r : Req} {s : State} (e : ReadEnv) (h : thas s.cache.fills r.lpn = true ∨ 256 ≤ fillsIn s r.lpn) :
    specAccess r e s = s := if_pos (.inr h)

/-- Settles O6: the Tollgate hands the read on with its tag taken, and the miss joins its parcel's fill or starts one. That a fill
takes the lowest-numbered INVALID way of its set is the model's choice (log 85). -/
theorem readMiss : Obligations.ReadMiss := by
  unfold Obligations.ReadMiss
  refine ⟨?read, ?spec, ?joined⟩
  case read =>
    intro s q e leg h hslice hmiss hroom
    let r := accepted .rd q noData leg s
    have hjoins : JoinsFill r (takeTag r s) (missFill r e.nodes (takeTag r s)) :=
      missFill_joins e.nodes (by simpa [r] using hroom)
    obtain ⟨⟨f, hf, hr, hspec⟩, hports, hsent, hmedium, -⟩ := hjoins
    refine gives_of_exec rfl ((whenMain_arrive_of_passes e h).trans ((acceptReq_read e h).trans
      (access_readMiss e (by simpa using hslice) (by simpa using hmiss) rfl))) ?_
    refine ⟨f, r, hf, hr, rfl, rfl, rfl, rfl, ?_, hspec, hsent.trans (sent_takeTag r s), ?_⟩
    · rw [port_eq_of_ports hports]
      exact (congrArg (r ∈ Port.reqs ·) (port_takeTag r s)).mpr (List.mem_append_right _ (List.mem_singleton_self r))
    · exact hmedium.trans (congrArg Interior.medium (interior_takeTag r s))
  case spec =>
    intro s q e leg k h hslice hmiss hnone hroom hway
    let r := { accepted .specRd q noData leg s with tagKind := .none }
    let u := modFill r.lpn (fun _ => { spec := true, part := r.part, specStage := some s.planner.stage })
      (putLine k { lpn := r.lpn, part := r.part, st := .filling } s)
    obtain ⟨hlines, hports, hsent, -, hentry⟩ :=
      resolveFill_starts { itemOf r with specStage := some s.planner.stage } e.nodes u
    obtain ⟨st, hst⟩ := hentry _ (tget_modFill ..)
    have hline : tgetD u.cache.lines k {} = { lpn := r.lpn, part := r.part, st := .filling } := lineAt_putLine_same k _ s
    rw [← hlines] at hline
    refine gives_of_exec rfl ((whenMain_arrive_of_passes e h).trans ((acceptReq_specRead e h).trans
      ((access_specMiss e hslice hmiss rfl).trans (specAccess_starts e hmiss hnone hroom hway)))) ?_
    exact ⟨_, hst, rfl, rfl, congrArg Line.st hline, congrArg Line.lpn hline, congrArg Port.reqs (port_eq_of_ports hports _), hsent⟩
  case joined =>
    intro s q e leg h hslice hmiss hroom
    exact gives_of_exec rfl ((whenMain_arrive_of_passes e h).trans ((acceptReq_specRead e h).trans
      ((access_specMiss e hslice hmiss rfl).trans (specAccess_nothing e hroom)))) rfl

/-! ### A write in its line (R171 to R174) -/

/-- R44, R183, R187: a write freely accepted, of a sector that it may write, lands in its line. -/
theorem writeAccess_lands {r : Req} {s : State} {k : Nat} (errs : List NodeErr) (hhit : findWay s r.lpn = some k)
    (hst : (lineAt s k).st = .clean ∨ (lineAt s k).st = .dirty) (hhealth : r.health = s.health.st) (hfree : WritesFreely k s)
    (hsector : r.op = .wrPtl → (lineAt s k).valid.getLsbD r.sector = true) :
    writeAccess r errs s = landWrite r k s := by
  obtain ⟨-, hhold, hspent, -, -, hcount⟩ := hfree
  have hstay : (lineAt s k).st ≠ .evicting := by rcases hst with h | h <;> simp [h]
  have hkept : writeLost s r.health = false := by simp [writeLost, hhealth, hhold, hspent]
  have hready : ¬ (r.op = .wrPtl ∧ (!r.wr.poison) = true ∧ (!(lineAt s k).poison) = true ∧
      (!(lineAt s k).valid.getLsbD r.sector) = true) := fun h => by simp [hsector h.1] at h
  have hbudget : ¬ (newlyDirty s r.lpn = true ∧ budgetFull s r.health = true) := by
    rcases hcount with hcounted | hroom
    · simp [newlyDirty, hhit, hcounted]
    · simp [budgetFull, Nat.not_le.mpr hroom]
  simp only [writeAccess, hhit, if_neg hstay, hkept, if_neg hready, if_neg hbudget, Bool.false_eq_true, if_false]

/-- R172: a partial write of a sector that is not VALID, freely accepted, waits in a fill. -/
theorem writeAccess_fills {r : Req} {s : State} {k : Nat} (errs : List NodeErr) (hhit : findWay s r.lpn = some k)
    (hst : (lineAt s k).st = .clean ∨ (lineAt s k).st = .dirty) (hhealth : r.health = s.health.st) (hfree : WritesFreely k s)
    (hop : r.op = .wrPtl) (hclean : r.wr.poison = false) (hline : (lineAt s k).poison = false)
    (hsector : (lineAt s k).valid.getLsbD r.sector = false) :
    writeAccess r errs s = missFill r errs s := by
  obtain ⟨-, hhold, hspent, -, -, -⟩ := hfree
  have hstay : (lineAt s k).st ≠ .evicting := by rcases hst with h | h <;> simp [h]
  have hkept : writeLost s r.health = false := by simp [writeLost, hhealth, hhold, hspent]
  simp [writeAccess, hhit, hstay, hkept, hop, hclean, hline, hsector]

theorem onlyCache_setPressure (k : Nat) (s : State) : OnlyCache s (setPressure k s) := by
  unfold setPressure; dsimp only
  split
  · split <;> rfl
  · rfl

@[simp] theorem lines_setPressure (k : Nat) (s : State) : (setPressure k s).cache.lines = s.cache.lines := by
  unfold setPressure; dsimp only
  split
  · split <;> rfl
  · rfl

theorem onlyCache_overtake (r : Req) (s : State) : OnlyCache s (overtake r s) := by unfold overtake; split <;> rfl

@[simp] theorem lines_overtake (r : Req) (s : State) : (overtake r s).cache.lines = s.cache.lines := by
  unfold overtake; split <;> rfl

@[simp] theorem interior_afterWrite (k : Nat) (s : State) : interior (afterWrite k s) = interior s := by simp [afterWrite]

@[simp] theorem hostSide_unlist (lpn : Nat) (s : State) : hostSide (unlist lpn s) = hostSide s := by
  refine forAll_keeps hostSide (fun p t => ?_) _ s
  rfl

@[simp] theorem hostSide_afterWrite (k : Nat) (s : State) : hostSide (afterWrite k s) = hostSide s := by simp [afterWrite]

/-- A state in which a write stands in its line, and which has not yet answered it. -/
structure WriteStands (r : Req) (k : Nat) (s u : State) : Prop where
  line : ∃ n, lineAt u k = { lineWrite r (lineAt s k) with partialSince := n }
  others : ∀ j, j ≠ k → lineAt u j = lineAt s j
  ports : u.ports.ports = s.ports.ports
  sent : u.ports.sent = s.ports.sent
  tbNow : tbNow u = tbNow s
  medium : u.medium = s.medium
  way : u.way = s.way
  sealCtl : u.sealCtl = s.sealCtl

/-- R171, R187: a write that is not written through stands in its line and completes. -/
theorem landWrite_stands {r : Req} {s : State} {k : Nat} (hnot : through s r.health = false) :
    ∃ u, landWrite r k s = finish { r with effected := true } .cmp u ∧ WriteStands r k s u := by
  let f := fun (l : Line) => { lineWrite r l with partialSince := if l.dirty = 0 then s.planner.stage else l.partialSince }
  let v := touch k (modLine k f s)
  have hplace : OnlyCache s v := rfl
  have hafter : interior (afterWrite k v) = interior v := interior_afterWrite k v
  have hhost : hostSide (afterWrite k v) = hostSide v := hostSide_afterWrite k v
  have hrest : OnlyCache (afterWrite k v) (setPressure k (overtake r (afterWrite k v))) :=
    (onlyCache_overtake r _).trans (onlyCache_setPressure k _)
  have hlines : (setPressure k (overtake r (afterWrite k v))).cache.lines = v.cache.lines := by
    rw [lines_setPressure, lines_overtake]
    exact congrArg (Cache.lines ∘ Interior.cache) hafter
  refine ⟨setPressure k (overtake r (afterWrite k v)), ?eq, ?line, ?others, ?ports, ?sent, ?tb, ?medium, ?way, ?sealCtl⟩
  case eq =>
    simp only [landWrite, hnot, Bool.false_eq_true, if_false]
    rfl
  case line =>
    rw [lineAt, hlines]
    exact ⟨_, lineAt_modLine_same k f s⟩
  case others =>
    intro j hj
    rw [lineAt, hlines]
    exact lineAt_modLine_ne f s hj
  case ports => exact (congrArg Ports.ports hrest.ports).trans (congrArg HostSide.ports hhost)
  case sent => exact hrest.sent.trans (congrArg HostSide.sent hhost)
  case tb => exact hrest.tbNow.trans (congrArg (Chassis.tb ∘ Interior.chassis) hafter)
  case medium => exact hrest.medium.trans (congrArg Interior.medium hafter)
  case way => exact hrest.way.trans (congrArg Interior.way hafter)
  case sealCtl => exact hrest.sealCtl.trans (congrArg Interior.sealCtl hafter)

/-- R171: the line after a whole-sector write. -/
theorem lineWrite_whole {r : Req} {l : Line} (hop : r.op = .wr) (hclean : r.wr.poison = false) (hst : l.st = .clean ∨ l.st = .dirty)
    (hline : l.poison = false) :
    lineWrite r l = { l with
      maint := false, dir := some (l.lpn, l.part), st := .dirty, valid := l.valid ||| bit1 r.sector, dirty := l.dirty ||| bit1 r.sector
      data := l.data.set (r.sector % 4) r.wr.data (Nat.mod_lt _ (by decide)) } := by
  rcases hst with h | h <;> simp [lineWrite, inDir, hop, hclean, h, hline]

/-- R172: the line after a partial write of a VALID sector. -/
theorem lineWrite_partial {r : Req} {l : Line} (hop : r.op = .wrPtl) (hclean : r.wr.poison = false) (hst : l.st = .clean ∨ l.st = .dirty) :
    lineWrite r l = { l with
      maint := false, dir := some (l.lpn, l.part), st := .dirty, dirty := l.dirty ||| bit1 r.sector
      data := l.data.set (r.sector % 4) (mergeBytes (l.data[r.sector % 4]'(Nat.mod_lt _ (by decide))) r.wr.data r.wr.be)
        (Nat.mod_lt _ (by decide)) } := by
  rcases hst with h | h <;> simp [lineWrite, inDir, hop, hclean, h]

/-- The slice that serves a write which meets its line. -/
theorem acceptReq_writeHit {op : MemOp} {q : MemReq} {w : WrData} {e : ReadEnv} {leg k : Nat} {s : State}
    (hop : op = .wr ∨ op = .wrPtl) (h : Hits op q w leg k s) (htag : e.tagErr = .none) (hfree : WritesFreely k s) :
    acceptReq e (accepted op q w leg s) s =
      writeAccess (accepted op q w leg s) e.nodes (takeTag (accepted op q w leg s) s) := by
  obtain ⟨hpass, -, hslice, hhit, -⟩ := h
  obtain ⟨-, -, -, hwritable, -⟩ := hfree
  have hread : op.isRead = false := by rcases hop with rfl | rfl <;> rfl
  have hwrite : op.isWrite = true := by rcases hop with rfl | rfl <;> rfl
  exact (acceptReq_write e hpass hop hwritable).trans
    (access_writeHit (by simpa using hslice) (by simpa using hhit) htag hread hwrite)

/-- A write has stood in its line and been answered; no other line, and nothing of the medium, the Waybill or the Seal engine, moved. -/
structure WriteCompletes (op : MemOp) (q : MemReq) (r : Req) (k : Nat) (s t : State) : Prop where
  answered : Answered op q .cmp s t
  line : ∃ n, lineAt t k = { lineWrite r (lineAt s k) with partialSince := n }
  others : ∀ j, j ≠ k → lineAt t j = lineAt s j
  reqs : (port t q.port).reqs = (port s q.port).reqs
  medium : t.medium = s.medium
  way : t.way = s.way
  sealCtl : t.sealCtl = s.sealCtl

/-- R37, R171, R172: a write that hits and is freely accepted stands in its line, and completes at once. -/
theorem acceptReq_completes {op : MemOp} {q : MemReq} {w : WrData} {e : ReadEnv} {leg k : Nat} {s : State}
    (hop : op = .wr ∨ op = .wrPtl) (h : Hits op q w leg k s) (htag : e.tagErr = .none) (hfree : WritesFreely k s)
    (hsector : op = .wrPtl → (lineAt s k).valid.getLsbD (sectorOf q.dpa.toNat) = true) :
    WriteCompletes op q (accepted op q w leg s) k s (acceptReq e (accepted op q w leg s) s) := by
  rw [acceptReq_writeHit hop h htag hfree]
  obtain ⟨hpass, hcredit, -, hhit, hst, -⟩ := h
  have hread : op.isRead = false := by rcases hop with rfl | rfl <;> rfl
  let r := accepted op q w leg s
  have htaken := interior_takeTag r s
  have hhealth : r.health = (takeTag r s).health.st := by rw [onlyPorts_takeTag r s]; rfl
  have hnot : through (takeTag r s) r.health = false := by
    obtain ⟨hthrough, -, -, -, hlimit, -⟩ := (writesFreely_takeTag r s k).mpr hfree
    simp [through, hhealth, hthrough, hlimit]
  obtain ⟨u, hland, hstands⟩ := landWrite_stands (k := k) hnot
  rw [writeAccess_lands e.nodes (by simpa [r] using hhit) (by simpa using hst) hhealth (by simpa using hfree)
    (by simpa [r] using hsector), hland]
  have hdone : interior (finish { r with effected := true } .cmp u) = interior u := interior_finish ..
  have hlines : ∀ j, lineAt (finish { r with effected := true } .cmp u) j = lineAt u j :=
    fun j => congrArg (fun x => tgetD (Cache.lines (Interior.cache x)) j {}) hdone
  obtain ⟨hanswer, hreqs⟩ := finish_effect (k := .cmp) (r := { r with effected := true }) hpass ⟨rfl, rfl, rfl, rfl⟩ rfl
    (ofMessage_accepted op q w leg s) hstands.ports (hstands.sent.trans (sent_takeTag r s))
    (hstands.tbNow.trans (congrArg (Chassis.tb ∘ Interior.chassis) htaken)) (by simpa [s2mFree, hasData, hread] using hcredit)
  refine ⟨hanswer, ?_, fun j hj => ?_, hreqs, ?_, ?_, ?_⟩
  · rw [hlines, ← lineAt_takeTag r s]; exact hstands.line
  · rw [hlines, hstands.others j hj, lineAt_takeTag]
  · exact (congrArg Interior.medium hdone).trans (hstands.medium.trans (congrArg Interior.medium htaken))
  · exact (congrArg Interior.way hdone).trans (hstands.way.trans (congrArg Interior.way htaken))
  · exact (congrArg Interior.sealCtl hdone).trans (hstands.sealCtl.trans (congrArg Interior.sealCtl htaken))

/-- Settles O7: a write that hits stands in its line and completes, one of a sector that is not VALID joins its parcel's fill, and
an invalidate or a clean-evict is a tag taken and answered. -/
theorem writesAndInvalidates : Obligations.WritesAndInvalidates := by
  unfold Obligations.WritesAndInvalidates
  refine ⟨⟨?whole, ?partly, ?fill⟩, ?inv, ?invNt, ?clnEvct⟩
  case whole =>
    intro s q w e leg k h htag hfree
    obtain ⟨hanswer, ⟨n, hline⟩, hothers, hreqs, hmedium, hway, hseal⟩ :=
      acceptReq_completes (.inl rfl) h htag hfree (fun hop => nomatch hop)
    obtain ⟨hpass, -, -, -, hst, hclean⟩ := h
    rw [lineWrite_whole rfl (clean_of_passes hpass) hst hclean] at hline
    refine gives_of_exec rfl (whenMain_arrive_of_passes e hpass) ?_
    rw [hline]
    exact ⟨hanswer, rfl, rfl, rfl, rfl, hclean, hothers, hreqs, hmedium, hway, hseal⟩
  case partly =>
    intro s q w e leg k h htag hfree hvalid
    obtain ⟨hanswer, ⟨n, hline⟩, hothers, -, hmedium, hway, hseal⟩ :=
      acceptReq_completes (.inr rfl) h htag hfree (fun _ => hvalid)
    obtain ⟨hpass, -, -, -, hst, -⟩ := h
    rw [lineWrite_partial rfl (clean_of_passes hpass) hst] at hline
    refine gives_of_exec rfl (whenMain_arrive_of_passes e hpass) ?_
    rw [hline]
    exact ⟨hanswer, rfl, rfl, rfl, rfl, hothers, hmedium, hway, hseal⟩
  case fill =>
    intro s q w e leg k h htag hfree hvalid hroom
    have haccess := acceptReq_writeHit (.inr rfl) h htag hfree
    obtain ⟨hpass, -, -, hhit, hst, hclean⟩ := h
    let r := accepted .wrPtl q w leg s
    have hmiss : writeAccess r e.nodes (takeTag r s) = missFill r e.nodes (takeTag r s) :=
      writeAccess_fills e.nodes (by simpa [r] using hhit) (by simpa using hst) (by rw [onlyPorts_takeTag r s]; rfl)
        (by simpa using hfree) rfl (clean_of_passes hpass) (by simpa using hclean) (by simpa [r] using hvalid)
    obtain ⟨⟨f, hf, hr, -⟩, -, hsent, -, hdata⟩ : JoinsFill r (takeTag r s) (missFill r e.nodes (takeTag r s)) :=
      missFill_joins e.nodes (by simpa [r] using hroom)
    refine gives_of_exec rfl ((whenMain_arrive_of_passes e hpass).trans (haccess.trans hmiss)) ?_
    refine ⟨f, r, hf, hr, rfl, rfl, rfl, ?_, hsent.trans (sent_takeTag r s)⟩
    rw [hdata k (by simpa [r] using hhit), lineAt_takeTag]
  case inv =>
    exact fun s q leg h hcredit => gives_of_exec rfl (whenMain_arrive_of_passes {} h) (acceptReq_invalidates {} h (.inl rfl) hcredit)
  case invNt =>
    exact fun s q leg h hcredit => gives_of_exec rfl (whenMain_arrive_of_passes {} h) (acceptReq_invalidates {} h (.inr (.inl rfl)) hcredit)
  case clnEvct =>
    exact fun s q leg h hcredit => gives_of_exec rfl (whenMain_arrive_of_passes {} h) (acceptReq_invalidates {} h (.inr (.inr rfl)) hcredit)

end Sys2Proof.Machine

/-! SUPPORT. What a commit of records lets go on (R85, R86, R246, R307, R401, R463) leaves the chassis of the machine alone: no
commit resets, powers or boots anything, and none changes the life-cycle state or TB. -/

namespace Sys2Proof.Machine

/-! ### The shared updates -/

theorem chassis_of_interior {s t : State} (h : interior t = interior s) : chassis t = chassis s := congrArg Interior.chassis h

@[simp] theorem chassis_modChan (c : Nat) (f : Chan → Chan) (s : State) : chassis (modChan c f s) = chassis s := rfl
@[simp] theorem chassis_modLd (k : Nat) (f : Ld → Ld) (s : State) : chassis (modLd k f s) = chassis s := rfl
@[simp] theorem chassis_setChg (i k : Nat) (s : State) : chassis (setChg i k s) = chassis s := rfl
@[simp] theorem chassis_modTile (k : Nat) (f : Tile → Tile) (s : State) : chassis (modTile k f s) = chassis s := rfl
@[simp] theorem chassis_journal (l : List JRec) (s : State) : chassis (journal l s) = chassis s := rfl
@[simp] theorem chassis_dropLoc (ppa : Nat) (s : State) : chassis (dropLoc ppa s) = chassis s := rfl
@[simp] theorem chassis_modImg (ks : List Nat) (f : SadImage → SadImage) (s : State) : chassis (modImg ks f s) = chassis s := rfl
@[simp] theorem chassis_markRecs (ks : List Nat) (s : State) : chassis (markRecs ks s) = chassis s := rfl
@[simp] theorem chassis_modSlot (part : Nat) (f : KeySlot → KeySlot) (s : State) : chassis (modSlot part f s) = chassis s := rfl
@[simp] theorem chassis_dropProgs (hit : MWork → Bool) (s : State) : chassis (dropProgs hit s) = chassis s := rfl
@[simp] theorem chassis_drawn (s : State) : chassis (drawn s) = chassis s := rfl

@[simp] theorem recalling_modImg (ks : List Nat) (f : SadImage → SadImage) (s : State) :
    (modImg ks f s).sad.recalling = s.sad.recalling := rfl

@[simp] theorem chassis_emitN (b : Bool) (code inst p q r d : Nat) (s : State) : chassis (emitN b code inst p q r d s) = chassis s :=
  chassis_of_hostSide (hostSide_emitN ..)

@[simp] theorem chassis_emit (code inst p q r d : Nat) (s : State) : chassis (emit code inst p q r d s) = chassis s :=
  chassis_emitN ..

@[simp] theorem chassis_postEvent (l : List Nat) (log : Nat) (e : EventRec) (s : State) : chassis (postEvent l log e s) = chassis s :=
  chassis_of_hostSide (hostSide_postEvent ..)

@[simp] theorem chassis_meter (part : Nat) (f : Meter → Meter) (s : State) : chassis (meter part f s) = chassis s :=
  chassis_of_hostSide (hostSide_meter ..)

@[simp] theorem tb_meter (part : Nat) (f : Meter → Meter) (s : State) : (meter part f s).reck.tb = s.reck.tb :=
  congrArg Chassis.tb (chassis_meter part f s)

@[simp] theorem chassis_modCtx (p : Path) (f : Mailbox → Mailbox) (s : State) : chassis (modCtx p f s) = chassis s := by
  cases p <;> rfl

@[simp] theorem chassis_modTrav (part : Nat) (f : Trav → Trav) (s : State) : chassis (modTrav part f s) = chassis s := by
  unfold modTrav; split <;> rfl

@[simp] theorem chassis_dropOld (lpn : Nat) (s : State) : chassis (dropOld lpn s) = chassis s := by
  unfold dropOld; split <;> rfl

@[simp] theorem chassis_finish (r : Req) (k : RespKind) (s : State) : chassis (finish r k s) = chassis s :=
  chassis_of_interior (interior_finish ..)

/-! ### Legs and partitions (R85, R86, R248) -/

@[simp] theorem chassis_clearLatch (s : State) : chassis (clearLatch s) = chassis s := rfl

@[simp] theorem chassis_clearFlushLatch (s : State) : chassis (clearFlushLatch s) = chassis s := by
  unfold clearFlushLatch; split <;> rfl

@[simp] theorem chassis_dropWaiting (hit : Nat → Bool) (s : State) : chassis (dropWaiting hit s) = chassis s := by
  simp [dropWaiting]

@[simp] theorem chassis_dropLegs (legs : List Nat) (s : State) : chassis (dropLegs legs s) = chassis s := by simp [dropLegs]

@[simp] theorem chassis_dropLegMap (leg : Nat) (s : State) : chassis (dropLegMap leg s) = chassis s := by simp [dropLegMap]

@[simp] theorem chassis_advanceDrops (s : State) : chassis (advanceDrops s) = chassis s := by simp [advanceDrops]

@[simp] theorem chassis_finishFreeing (s : State) : chassis (finishFreeing s) = chassis s := by simp [finishFreeing]

@[simp] theorem chassis_endTraverse (part cause : Nat) (s : State) : chassis (endTraverse part cause s) = chassis s := by
  unfold endTraverse
  dsimp only
  split
  · split <;> simp
  · simp

@[simp] theorem chassis_setRuns (runs : Tbl LegRun) (s : State) : chassis (setRuns runs s) = chassis s := rfl

@[simp] theorem chassis_emptyPositions (part : Nat) (l : List Nat) (s : State) : chassis (emptyPositions part l s) = chassis s := rfl

@[simp] theorem chassis_zeroSlot (part : Nat) (s : State) : chassis (zeroSlot part s) = chassis s := rfl

@[simp] theorem chassis_eraseLegs (part : Nat) (s : State) : chassis (eraseLegs part s) = chassis s := rfl

@[simp] theorem chassis_freePart (part : Nat) (s : State) : chassis (freePart part s) = chassis s := by simp [freePart]

@[simp] theorem chassis_advanceErase (part : Nat) (back : Bool) (s : State) : chassis (advanceErase part back s) = chassis s := by
  simp [advanceErase]

@[simp] theorem chassis_advanceDeparting (s : State) : chassis (advanceDeparting s) = chassis s := by simp [advanceDeparting]

/-! ### Background commands (R85, R86, R289) -/

@[simp] theorem chassis_endBg (p : Path) (rc detail : Nat) (s : State) : chassis (endBg p rc detail s) = chassis s := by
  unfold endBg; split <;> simp

@[simp] theorem chassis_adopted (c : Nat) (s : State) : chassis (adopted c s) = chassis s := by simp [adopted]

@[simp] theorem chassis_finishJob (p : Path) (s : State) : chassis (finishJob p s) = chassis s := by
  unfold finishJob; split <;> simp

/-! ### Checkpoints and the Summit epoch (R235, R307) -/

@[simp] theorem chassis_roundCommitted (s : State) : chassis (roundCommitted s) = chassis s := by
  unfold roundCommitted
  split
  · rfl
  · simp [dropPage, chassis_forAll dropLoc (fun _ _ => rfl)]

@[simp] theorem chassis_reportLost (l i : Nat) (s : State) : chassis (reportLost l i s) = chassis s := by simp [reportLost]

@[simp] theorem chassis_modLost (l i : Nat) (f : LostNode → LostNode) (s : State) : chassis (modLost l i f s) = chassis s := rfl

@[simp] theorem chassis_forgetNodes (l i : Nat) (s : State) : chassis (forgetNodes l i s) = chassis s := rfl

@[simp] theorem chassis_bringSibling (l i : Nat) (s : State) : chassis (bringSibling l i s) = chassis s :=
  chassis_of_hostSide (hostSide_bringSibling ..)

@[simp] theorem chassis_bumpParent (l i : Nat) (s : State) : chassis (bumpParent l i s) = chassis s :=
  chassis_of_hostSide (hostSide_bumpParent ..)

@[simp] theorem chassis_useNode (l i : Nat) (s : State) : chassis (useNode l i s) = chassis s :=
  chassis_of_hostSide (hostSide_useNode ..)

@[simp] theorem hostSide_nodeChanged (l i : Nat) (s : State) : hostSide (nodeChanged l i s) = hostSide s := by simp [nodeChanged]

@[simp] theorem chassis_nodeChanged (l i : Nat) (s : State) : chassis (nodeChanged l i s) = chassis s :=
  chassis_of_hostSide (hostSide_nodeChanged ..)

@[simp] theorem chassis_replaceNode (l i e : Nat) (s : State) : chassis (replaceNode l i e s) = chassis s := by simp [replaceNode]

@[simp] theorem chassis_epochCommitted (s : State) : chassis (epochCommitted s) = chassis s := by simp [epochCommitted]

/-! ### Traverses (R241, R245, R246) -/

@[simp] theorem chassis_marksCommitted (s : State) : chassis (marksCommitted s) = chassis s := by
  refine chassis_forAll _ (fun p t => ?_) _ s
  split
  · rfl
  · split <;> simp

@[simp] theorem chassis_finishStep (part : Nat) (t : Trav) (s : State) : chassis (finishStep part t s) = chassis s := by
  simp [finishStep]

@[simp] theorem chassis_advanceFinish (s : State) : chassis (advanceFinish s) = chassis s := by simp [advanceFinish]

@[simp] theorem chassis_startTraverse (i : Nat) (s : State) : chassis (startTraverse i s) = chassis s := by
  unfold startTraverse
  split
  · rfl
  · split <;> simp

/-! ### Waiting commands (R401) -/

@[simp] theorem chassis_complete (op : Nat) (p : Path) (n : Nat) (r : Reply) (s : State) : chassis (complete op p n r s) = chassis s := by
  simp [complete]

@[simp] theorem chassis_lateRecord (p : Path) (w : WaitCmd) (s : State) : chassis (lateRecord p w s) = chassis s := by
  simp [lateRecord]

@[simp] theorem chassis_setShares (part : Nat) (sh : Nat × Nat) (s : State) : chassis (setShares part sh s) = chassis s := rfl

@[simp] theorem chassis_applyDone (d : OnDone) (s : State) : chassis (applyDone d s) = chassis s := by
  cases d <;> simp [applyDone]

@[simp] theorem chassis_completeWaiting (s : State) : chassis (completeWaiting s) = chassis s := by
  refine chassis_forAll _ (fun p t => ?_) _ s
  split <;> simp

/-! ### A commit -/

@[simp] theorem chassis_startGroup (s : State) : chassis (startGroup s) = chassis s := rfl

@[simp] theorem chassis_finishStore (s : State) : chassis (finishStore s) = chassis s := by
  unfold finishStore; split <;> rfl

/-- R401, R463: what a commit lets go on. -/
@[simp] theorem chassis_afterCommit (s : State) : chassis (afterCommit s) = chassis s := by simp [afterCommit]

/-- R463: a commit at once. -/
@[simp] theorem chassis_commitNow (s : State) : chassis (commitNow s) = chassis s := by simp [commitNow]

end Sys2Proof.Machine

/-! SUPPORT. The boot (R23, R369, R466, R529, R530, R532, R592): what a release of main-die reset makes of the machine before the
loader runs, and what the loader's checks end in: Synet, or bivouac mode. -/

namespace Sys2Proof.Machine

/-! ### Updates that a boot makes -/

@[simp] theorem chassis_modBoot (f : Boot → Boot) (s : State) : chassis (modBoot f s) = { chassis s with boot := f s.boot } := rfl

@[simp] theorem chassis_setReset (i : Nat) (s : State) : chassis (setReset i s) = chassis s := rfl

@[simp] theorem chassis_bootPlanner (s : State) : chassis (bootPlanner s) = chassis s := rfl

@[simp] theorem chassis_countBoot (dirty : Bool) (s : State) : chassis (countBoot dirty s) = chassis s := rfl

@[simp] theorem boot_modBoot (f : Boot → Boot) (s : State) : (modBoot f s).boot = f s.boot := rfl

@[simp] theorem boot_countBoot (dirty : Bool) (s : State) : (countBoot dirty s).boot = s.boot := rfl

@[simp] theorem chassis_loadPart (part : Nat) (s : State) : chassis (loadPart part s) = chassis s := by simp [loadPart]

@[simp] theorem chassis_loadKeys (s : State) : chassis (loadKeys s) = chassis s := by simp [loadKeys, loadSystem]

@[simp] theorem chassis_reloadKeys (s : State) : chassis (reloadKeys s) = chassis s := by
  unfold reloadKeys
  split
  · rfl
  · simp

@[simp] theorem chassis_recoverUnclean (s : State) : chassis (recoverUnclean s) = chassis s := by simp [recoverUnclean]

@[simp] theorem chassis_migrate (s : State) : chassis (migrate s) = chassis s := by simp [migrate]

@[simp] theorem chassis_bootReckoner (s : State) :
    chassis (bootReckoner s) = { chassis s with boot := { s.boot with lastMinute := recalledMinute s } } := rfl

/-- R289, R320: a boot's channels: of the boot's own state, only whether it is a first start is written. -/
theorem chassis_bootChans (s : State) : ∃ first, chassis (bootChans s) = { chassis s with boot := { s.boot with firstStart := first } } :=
  ⟨s.sad.img.modules.isEmpty && !s.boot.lostRecs.any (fun k => k / 65536 == 12),
    chassis_forAll _ (fun _ _ => by rfl) ids32 (modBoot _ s)⟩

/-- R530 step 3: the start of the recovery. -/
theorem chassis_startRecovery (dirty : Bool) (s : State) : ∃ minute first, chassis (startRecovery dirty s) =
    { chassis s with boot := { s.boot with lastMinute := minute, firstStart := first, recovering := true } } := by
  obtain ⟨first, hchans⟩ := chassis_bootChans (bootPlanner (bootReckoner s))
  refine ⟨recalledMinute s, first, ?_⟩
  let u := if dirty then recoverUnclean (reloadKeys (bootChans (bootPlanner (bootReckoner s))))
    else reloadKeys (bootChans (bootPlanner (bootReckoner s)))
  have hu : chassis u = chassis (bootChans (bootPlanner (bootReckoner s))) := by simp [u]
  have hboot : u.boot = { s.boot with lastMinute := recalledMinute s, firstStart := first } :=
    (congrArg Chassis.boot hu).trans (congrArg Chassis.boot hchans)
  have hstart : chassis (startRecovery dirty s) = { chassis u with boot := { u.boot with recovering := true } } := rfl
  rw [hstart, hboot, hu, hchans]
  simp

/-! ### The loader's outcomes -/

/-- What the loader's checks end in, by the cause that they found (0: none): Synet, with the versions of the image's header and its
recovery still to be made, or bivouac mode. -/
structure Loaded (c : Nat) (s t : State) : Prop where
  kept : chassis t = { chassis s with boot := t.boot }
  flash : t.boot.flash = s.boot.flash
  secCounter : t.boot.secCounter = s.boot.secCounter
  cause : t.boot.cause = c
  running : t.boot.running = true ↔ c = 0
  dark : c ≠ 0 → t.health.st = 6
  starts : c = 0 → t.boot.recovering = true ∧ t.boot.version = fld (headerOf s) 8 4 ∧ t.boot.secVersion = fld (headerOf s) 12 4

/-- What neither the chassis nor the health state shows does not touch the outcome. -/
theorem Loaded.of_same {c : Nat} {s s' t t' : State} (h : Loaded c s t) (hs : chassis s = { chassis s' with boot := s.boot })
    (hflash : s.boot.flash = s'.boot.flash) (hsec : s.boot.secCounter = s'.boot.secCounter)
    (hchassis : chassis t' = chassis t) (hhealth : t'.health = t.health) : Loaded c s' t' := by
  have hboot : t'.boot = t.boot := congrArg Chassis.boot hchassis
  have hheader : headerOf s = headerOf s' := by rw [headerOf, headerOf, hflash]
  obtain ⟨hkept, hf, hc, hcause, hrunning, hdark, hstarts⟩ := h
  refine ⟨?_, ?_, ?_, ?_, ?_, ?_, ?_⟩
  · rw [hchassis, hkept, hs, hboot]
  · rw [hboot, hf, hflash]
  · rw [hboot, hc, hsec]
  · rw [hboot, hcause]
  · rw [hboot, hrunning]
  · rw [hhealth]; exact hdark
  · rw [hboot, ← hheader]; exact hstarts

/-- R530: Synet starts from a verified image. -/
theorem loaded_synetStart (us : Nat) (s : State) : Loaded 0 s (synetStart us s) := by
  let h := headerOf s
  let s1 := countBoot (unclean s) (modBoot (fun b => { b with
    wasDirty := unclean s, alarmed := s.keeper.alarmOut, emptyLogs := decide (0 < s.keeper.newPors)
    running := true, version := fld h 8 4, secVersion := fld h 12 4, cause := 0, pairing := pairingOf h, step1 := true
    pendingVersion := none }) s)
  let s2 := emit 0x1501 0xFF (fld h 8 4) (fld h 12 4) us s1.sad.img.boot.boots s1
  let s3 := if pairingOf h = 7 then s2
    else emit 0x1508 0xFF (pairingOf h).toNat (compVersion h 1) (compVersion h 2) (compVersion h 3) s2
  have h3 : chassis (migrate s3) = chassis s1 := by simp [s3, s2]
  obtain ⟨minute, first, hstart⟩ := chassis_startRecovery (unclean s) (migrate s3)
  obtain ⟨hend, hboot⟩ : chassis (synetStart us s) = { chassis s1 with boot :=
        { s1.boot with lastMinute := minute, firstStart := first, recovering := true } } ∧
      (synetStart us s).boot = { s1.boot with lastMinute := minute, firstStart := first, recovering := true } := by
    have hcommit : chassis (synetStart us s) = _ := (chassis_commitNow _).trans hstart
    rw [h3, show (migrate s3).boot = s1.boot from congrArg Chassis.boot h3] at hcommit
    exact ⟨hcommit, congrArg Chassis.boot hcommit⟩
  exact {
    kept := by rw [hend, hboot]; rfl
    flash := by rw [hboot]; rfl
    secCounter := by rw [hboot]; rfl
    cause := by rw [hboot]; rfl
    running := iff_of_true (by rw [hboot]; rfl) rfl
    dark := fun hc => absurd rfl hc
    starts := fun _ => by
      rw [hboot]
      refine ⟨rfl, ?_, ?_⟩ <;> simp only [s1, h, boot_countBoot, boot_modBoot] }

/-! ### Bivouac mode -/

/-- What the evaluation of the health state leaves: the chassis, and the state of the conditions that it was given. -/
theorem chassis_evalHealth (c : BitVec 12) (s : State) : chassis (evalHealth c s) = chassis s := by
  have hset (i : Nat) : ∀ k u, chassis (setChg i k u) = chassis u := fun _ _ => rfl
  have hrec (old new : Nat) (c changed : BitVec 12) (u : State) : chassis (healthRecord old new c changed u) = chassis u := by
    simp [healthRecord]
  have hact : ∀ p u, chassis (activateLds p u) = chassis u := fun p u => by
    unfold activateLds
    split
    · exact chassis_forAll _ (fun _ _ => by rfl) _ u
    · rfl
  simp only [evalHealth]
  split
  · rfl
  · simp only [chassis_ite, chassis_forAll _ hact, chassis_forAll _ (hset 0), hrec, ite_self]
    rfl

theorem st_evalHealth (c : BitVec 12) (s : State) : (evalHealth c s).health.st = stateOf c := by
  have hact : ∀ p u, (activateLds p u).health = u.health := fun p u => by
    unfold activateLds
    split
    · exact forAll_keeps State.health (fun _ _ => by rfl) _ u
    · rfl
  have hset : ∀ k u, (setChg 0 k u).health = u.health := fun _ _ => rfl
  have hrec (old new : Nat) (c changed : BitVec 12) (u : State) : (healthRecord old new c changed u).health = u.health := by
    simp only [healthRecord]
    split <;> simp
  simp only [evalHealth]
  split
  case isTrue h => exact h.1.symm
  case isFalse =>
    simp only [apply_ite State.health, forAll_keeps State.health hact, forAll_keeps State.health hset, hrec, ite_self]

/-- R23: outside Synet, with a cause of bivouac mode, the health state is BIVOUAC. -/
theorem stateOf_condBits_of_bivouac {s : State} (hrunning : s.boot.running = false) (hcause : s.boot.cause ≠ 0) :
    stateOf (condBits s) = 6 := by
  have hbit : (condBits s).getLsbD 11 = true := by simp [condBits, hrunning, hcause, bit1]
  simp [stateOf, hbit]

theorem loaded_bivouac {c : Nat} (hc : c ≠ 0) (n : Nat) (s : State) : Loaded c s (bivouac c n s) := by
  let known := c ≠ 9 ∧ c ≠ 4 ∧ headerWhole (headerOf s) = true ∧ headerSigned (headerOf s) = true
  let v := if known then fld (headerOf s) 8 4 else 0
  let sec := if known then fld (headerOf s) 12 4 else 0
  let s1 := modBoot (fun b => { b with running := false, version := 0, secVersion := 0, cause := c, attempts := n }) s
  let s2 := postEvent (mgmtTarget s1) 3 (evOf 0x1502 c v sec n) (emit 0x1502 0xFF c v sec n s1)
  have hend : chassis (bivouac c n s) = chassis s1 := (chassis_evalHealth (condBits s2) s2).trans (by simp [s2])
  have hboot : (bivouac c n s).boot = s1.boot := congrArg Chassis.boot hend
  have hboot2 : s2.boot = s1.boot := by simp [s2]
  have hst : (bivouac c n s).health.st = stateOf (condBits s2) := st_evalHealth (condBits s2) s2
  exact {
    kept := by rw [hend, hboot]; rfl
    flash := by rw [hboot]; rfl
    secCounter := by rw [hboot]; rfl
    cause := by rw [hboot]; rfl
    running := by rw [hboot]; exact iff_of_false (by simp [s1]) hc
    dark := fun _ => hst.trans (stateOf_condBits_of_bivouac (by rw [hboot2]; rfl) (by rw [hboot2]; exact hc))
    starts := fun h0 => absurd h0 hc }

/-- R532: the loader's checks decide between Synet and bivouac mode. -/
theorem loaded_loadImage (hdrFails bodyFails us : Nat) (s : State) :
    Loaded (checkImage s (s.boot.readAttempts + hdrFails) bodyFails) s (loadImage hdrFails bodyFails us s) := by
  simp only [loadImage]
  split
  case isTrue h =>
    rw [h]
    let u := modBoot (fun b => { b with attempts := headerReads s hdrFails }) s
    have hu : chassis u = { chassis s with boot := u.boot } := rfl
    exact (loaded_synetStart us u).of_same hu rfl rfl rfl rfl
  case isFalse h => exact loaded_bivouac h _ s

theorem Loaded.not_running {c : Nat} {s t : State} (h : Loaded c s t) (ht : t.boot.running = false) : t.health.st = 6 :=
  h.dark fun hc => by simp [h.running.mpr hc] at ht

/-! ### Before the loader -/

@[simp] theorem chassis_forceConfig (s : State) : chassis (forceConfig s) = chassis s := by
  unfold forceConfig
  split <;> rfl

@[simp] theorem chassis_bootPorts (s : State) : chassis (bootPorts s) = chassis s := chassis_forceConfig s

@[simp] theorem chassis_bootFreezes (s : State) : chassis (bootFreezes s) = chassis s := rfl

@[simp] theorem chassis_mergeLatch (s : State) : chassis (mergeLatch s) = chassis s := by
  simp only [mergeLatch]
  split <;> simp

@[simp] theorem chassis_mergeFlush (s : State) : chassis (mergeFlush s) = chassis s := by
  simp only [mergeFlush]
  split <;> rfl

@[simp] theorem chassis_recallRecords (r : Recalled) (us : Nat) (s : State) : chassis (recallRecords r us s) = chassis s := by
  simp only [recallRecords, chassis_emit]
  have hmembers : ∀ (ts : List Taken) (u : State), chassis (forAll ts (fun t u =>
      let u1 := if t.tie then emit 0x1002 0xFF (t.key / 65536) (t.key % 65536) (match t.copy with | some c => c.seq | none => 0) 0 u else u
      if t.gone then emit 0x1003 0xFF (t.key / 65536) (t.key % 65536) 0 0 u1 else u1) u) = chassis u :=
    fun ts => chassis_forAll _ (fun t u => by simp) ts
  split
  · rw [chassis_emit]; exact hmembers r.taken s
  · exact hmembers r.taken s

/-- R466: the recall ends; what it recalls stands outside the chassis. -/
theorem chassis_recallNow (bad : List (Nat × Nat × Bool × Bool)) (us : Nat) (s : State) :
    chassis (recallNow bad us s) = { chassis s with recalling := false } := by
  let s1 := recallRecords (recallSlots s.sad.slots bad) us s
  have h1 : chassis s1 = chassis s := chassis_recallRecords _ us s
  have hend : chassis (recallNow bad us s) = { chassis s1 with recalling := false } :=
    (chassis_mergeFlush _).trans (chassis_mergeLatch _)
  rw [hend, h1]

/-- What a release of main-die reset makes of the machine before the loader's checks (R529). -/
def beforeLoader (b : BootEnv) (s : State) : State := bootFreezes (bootPorts (commitNow (bootRecall b (leaveReset b s))))

/-- TB after a release of main-die reset (R369): the last value, and the time since when the keeper knows it. -/
def releaseTb (b : BootEnv) (s : State) : Nat := s.keeper.lastTb + (if s.keeper.tbKnown then max s.keeper.since b.keeperNs else 0)

theorem chassis_beforeLoader (b : BootEnv) (s : State) : chassis (beforeLoader b s) =
    { chassis s with mainUp := true, recalling := false, boot := (beforeLoader b s).boot, tb := releaseTb b s } := by
  let u := recallNow b.crcFails b.recallUs (leaveReset b s)
  have htb : (leaveReset b s).reck.tb = releaseTb b s := by
    simp only [leaveReset, releaseTb]
    split <;> rfl
  have hu : chassis u = { chassis s with
      mainUp := true, recalling := false, boot := (leaveReset b s).boot, tb := releaseTb b s } := by
    rw [chassis_recallNow, ← htb]; rfl
  have hend : chassis (beforeLoader b s) = chassis (bootRecall b (leaveReset b s)) := by simp [beforeLoader]
  have hrecall : chassis (bootRecall b (leaveReset b s)) =
      { chassis u with boot := (bootRecall b (leaveReset b s)).boot } := rfl
  rw [hend, hrecall, hu, show (beforeLoader b s).boot = _ from congrArg Chassis.boot hend]
  rfl

/-- The flash, the security counter and the header reads that failed stay until the loader runs. -/
theorem boot_beforeLoader (b : BootEnv) (s : State) : (beforeLoader b s).boot.flash = s.boot.flash ∧
    (beforeLoader b s).boot.secCounter = s.boot.secCounter ∧ (beforeLoader b s).boot.readAttempts = s.boot.readAttempts := by
  let u := recallNow b.crcFails b.recallUs (leaveReset b s)
  have hu : u.boot = (leaveReset b s).boot := congrArg Chassis.boot (chassis_recallNow _ _ _)
  have hend : (beforeLoader b s).boot = (bootRecall b (leaveReset b s)).boot :=
    congrArg Chassis.boot (show chassis (beforeLoader b s) = chassis (bootRecall b (leaveReset b s)) by simp [beforeLoader])
  obtain ⟨lost, hlost⟩ : ∃ lost, (bootRecall b (leaveReset b s)).boot = { u.boot with lostRecs := lost } := ⟨_, rfl⟩
  rw [hend, hlost, hu]
  exact ⟨rfl, rfl, rfl⟩

/-- R529 to R532: what a release of main-die reset ends in, by the cause that the loader finds. -/
structure Released (b : BootEnv) (c : Nat) (s t : State) : Prop where
  kept : chassis t = { chassis s with mainUp := true, recalling := false, boot := t.boot, tb := releaseTb b s }
  flash : t.boot.flash = s.boot.flash
  secCounter : t.boot.secCounter = s.boot.secCounter
  cause : t.boot.cause = c
  running : t.boot.running = true ↔ c = 0
  dark : t.boot.running = false → t.health.st = 6
  starts : c = 0 → t.boot.recovering = true ∧ t.boot.version = fld (headerOf s) 8 4 ∧ t.boot.secVersion = fld (headerOf s) 12 4

/-- The cause that the loader of a release of main-die reset finds. -/
def releaseCause (b : BootEnv) (s : State) : Nat :=
  if s.keeper.life = .scrapped then 9 else checkImage s (s.boot.readAttempts + b.headerReadFails) b.bodyReadFails

theorem headerOf_congr {s t : State} (h : t.boot.flash = s.boot.flash) : headerOf t = headerOf s := by rw [headerOf, headerOf, h]

theorem checkImage_congr {s t : State} (hflash : t.boot.flash = s.boot.flash) (hsec : t.boot.secCounter = s.boot.secCounter)
    (hdr body : Nat) : checkImage t hdr body = checkImage s hdr body := by
  simp only [checkImage, headerOf_congr hflash, hsec, bodyOf, hflash]

/-- What the loader makes of the machine before it, seen from before the release. -/
theorem Loaded.released {c : Nat} {b : BootEnv} {s t : State} (h : Loaded c (beforeLoader b s) t) : Released b c s t := by
  obtain ⟨hflash, hsec, -⟩ := boot_beforeLoader b s
  exact {
    kept := by rw [h.kept, chassis_beforeLoader]
    flash := h.flash.trans hflash
    secCounter := h.secCounter.trans hsec
    cause := h.cause
    running := h.running
    dark := h.not_running
    starts := headerOf_congr hflash ▸ h.starts }

/-- Record 0x1601 changes neither the chassis nor the health state. -/
theorem Released.resetRecord {c : Nat} {b : BootEnv} {s t : State} (found : Nat) (h : Released b c s t) :
    Released b c s (resetRecord found t) := by
  have hchassis : chassis (Machine.resetRecord found t) = chassis t := chassis_emit ..
  have hboot : (Machine.resetRecord found t).boot = t.boot := congrArg Chassis.boot hchassis
  have hhealth : (Machine.resetRecord found t).health = t.health := emit_health ..
  obtain ⟨hkept, hflash, hsec, hcause, hrunning, hdark, hstarts⟩ := h
  exact ⟨by rw [hchassis, hboot, hkept], hboot ▸ hflash, hboot ▸ hsec, hboot ▸ hcause, hboot ▸ hrunning,
    by rw [hboot, hhealth]; exact hdark, hboot ▸ hstarts⟩

theorem released_mainDieResetRelease {s : State} (b : BootEnv) (hmain : s.mainUp = false) (hkeeper : s.keeper.stopped = false)
    (hrope : s.rope.st = .on) (href : s.timeRef = true) (hbref : b.timeRef = true) :
    Released b (releaseCause b s) s (mainDieResetRelease b s) := by
  have hlife : (beforeLoader b s).keeper.life = s.keeper.life := congrArg Chassis.life (chassis_beforeLoader b s)
  obtain ⟨hflash, hsec, hreads⟩ := boot_beforeLoader b s
  have hrelease : mainDieResetRelease b s = resetRecord (beforeLoader b s).sad.img.flush.state
      (if (beforeLoader b s).keeper.life = .scrapped then bivouac 9 0 (beforeLoader b s)
        else loadImage b.headerReadFails b.bodyReadFails b.loaderUs (beforeLoader b s)) :=
    if_neg (by simp [hmain, hkeeper, hrope, href, hbref])
  rw [hrelease, hlife, releaseCause]
  refine Released.resetRecord _ ?_
  split
  · exact (loaded_bivouac (by decide) 0 _).released
  · have hload := loaded_loadImage b.headerReadFails b.bodyReadFails b.loaderUs (beforeLoader b s)
    rw [hreads, checkImage_congr hflash hsec] at hload
    exact hload.released

/-! ### The loader's checks in their order (R530, R532) -/

theorem releaseCause_of_scrapped {b : BootEnv} {s : State} (h : s.keeper.life = .scrapped) : releaseCause b s = 9 := if_pos h

theorem releaseCause_of_reads {b : BootEnv} {s : State} (h : s.keeper.life ≠ .scrapped)
    (hreads : 3 ≤ s.boot.readAttempts + b.headerReadFails) : releaseCause b s = 8 := (if_neg h).trans (if_pos hreads)

theorem releaseCause_of_header {b : BootEnv} {s : State} (h : s.keeper.life ≠ .scrapped)
    (hreads : s.boot.readAttempts + b.headerReadFails < 3) : releaseCause b s =
      imageCause (headerOf s) (fun _ => bodyOf s (headerOf s)) s.boot.secCounter b.bodyReadFails :=
  (if_neg h).trans (if_neg (by omega))

/-- The checks of an image whose header is whole, signed, laid out for this loader, for this product and for this unit. -/
theorem imageCause_of_listed {h : List Byte} (body : Unit → List Byte) (counter fails : Nat) (hwhole : headerWhole h = true)
    (hsigned : headerSigned h = true) (hlayout : layoutOk h = true) (hproduct : fld h 6 2 = 0x1280) (hunit : unitListed h = true) :
    imageCause h body counter fails = if fld h 12 4 < counter then 6 else if (0 : Byte) ∉ bytesAt h 80 16 then 7
      else if 3 ≤ fails then 8 else if sha384 (body ()) ≠ bytesAt h 32 48 then 3 else 0 := by
  simp [imageCause, hwhole, hsigned, hlayout, hproduct, hunit, dieStepping]

/-- R530, R532: the cause of a boot, check by check. -/
theorem releaseCause_checks {b : BootEnv} {s : State} (hlife : s.keeper.life ≠ .scrapped)
    (hreads : s.boot.readAttempts + b.headerReadFails < 3) :
    (headerWhole (headerOf s) = false → releaseCause b s = 1) ∧
    (headerWhole (headerOf s) = true → headerSigned (headerOf s) = false → releaseCause b s = 4) ∧
    (headerWhole (headerOf s) = true → headerSigned (headerOf s) = true →
      (layoutOk (headerOf s) = false → releaseCause b s = 1) ∧
      (layoutOk (headerOf s) = true → fld (headerOf s) 6 2 ≠ 0x1280 → releaseCause b s = 2) ∧
      (layoutOk (headerOf s) = true → fld (headerOf s) 6 2 = 0x1280 →
        (unitListed (headerOf s) = false → releaseCause b s = 5) ∧
        (unitListed (headerOf s) = true → fld (headerOf s) 12 4 < s.boot.secCounter → releaseCause b s = 6) ∧
        (unitListed (headerOf s) = true → s.boot.secCounter ≤ fld (headerOf s) 12 4 →
          ((0 : Byte) ∉ bytesAt (headerOf s) 80 16 → releaseCause b s = 7) ∧
          ((0 : Byte) ∈ bytesAt (headerOf s) 80 16 →
            (3 ≤ b.bodyReadFails → releaseCause b s = 8) ∧
            (b.bodyReadFails < 3 → sha384 (bodyOf s (headerOf s)) ≠ bytesAt (headerOf s) 32 48 → releaseCause b s = 3) ∧
            (b.bodyReadFails < 3 → sha384 (bodyOf s (headerOf s)) = bytesAt (headerOf s) 32 48 → releaseCause b s = 0))))) := by
  rw [releaseCause_of_header hlife hreads]
  refine ⟨fun hwhole => ?_, fun hwhole hsigned => ?_, fun hwhole hsigned => ⟨fun hlayout => ?_, fun hlayout hproduct => ?_,
    fun hlayout hproduct => ⟨fun hunit => ?_, fun hunit hcounter => ?_, fun hunit hcounter => ?_⟩⟩⟩
  · simp [imageCause, hwhole]
  · simp [imageCause, hwhole, hsigned]
  · simp [imageCause, hwhole, hsigned, hlayout]
  · simp [imageCause, hwhole, hsigned, hlayout, hproduct]
  · simp [imageCause, hwhole, hsigned, hlayout, hproduct, hunit]
  · rw [imageCause_of_listed _ _ _ hwhole hsigned hlayout hproduct hunit, if_pos hcounter]
  · rw [imageCause_of_listed _ _ _ hwhole hsigned hlayout hproduct hunit, if_neg (by omega)]
    refine ⟨fun hstep => if_pos hstep, fun hstep => ?_⟩
    rw [if_neg (not_not.mpr hstep)]
    refine ⟨fun hfails => if_pos hfails, fun hfails hbody => ?_, fun hfails hbody => ?_⟩
    · rw [if_neg (by omega), if_pos hbody]
    · rw [if_neg (by omega), if_neg (not_not.mpr hbody)]

/-! ### The loader's watchdog (R533, R545) -/

/-- In bivouac mode the loader runs again, from its header on, and with its reads counted afresh. -/
theorem rerunLoader_keeps (hdr : Nat) (s : State) : (rerunLoader hdr s).mainUp = s.mainUp ∧
    (rerunLoader hdr s).boot.flash = s.boot.flash ∧ (rerunLoader hdr s).boot.secCounter = s.boot.secCounter := by
  unfold rerunLoader
  split
  · exact ⟨rfl, rfl, rfl⟩
  · have hload := loaded_loadImage hdr 0 (freeVal s 0x1501) (modBoot (fun b => { b with readAttempts := 0 }) (drawn s))
    exact ⟨congrArg Chassis.mainUp hload.kept, hload.flash, hload.secCounter⟩

/-- R532 cause 1: a header that is not whole ends a rerun of the loader in bivouac mode. -/
theorem rerunLoader_of_broken {s : State} (hlife : s.keeper.life ≠ .scrapped) (hheader : headerWhole (headerOf s) = false) :
    (rerunLoader 1 s).boot.running = false ∧ (rerunLoader 1 s).boot.cause = 1 := by
  let u := modBoot (fun b => { b with readAttempts := 0 }) (drawn s)
  have hcause : checkImage u (u.boot.readAttempts + 1) 0 = 1 := by
    have hu : headerWhole (headerOf u) = false := hheader
    simp [u, checkImage, imageCause, hu]
  have hload := loaded_loadImage 1 0 (freeVal s 0x1501) u
  rw [hcause] at hload
  have hrerun : rerunLoader 1 s = loadImage 1 0 (freeVal s 0x1501) u := if_neg hlife
  rw [hrerun]
  exact ⟨by simpa using hload.running, hload.cause⟩

end Sys2Proof.Machine

/-! SUPPORT. Watchdogs, fatal faults and alarms (R545, R546, R553, R554): what the start of a flush, a reset of the main die and
an alarm write, and what they leave. -/

namespace Sys2Proof.Machine

/-! ### The start of a flush -/

/-- What the start of a flush leaves alone. -/
structure Vault where
  mainUp : Bool
  keeper : Keeper
  medium : Medium
  sad : Saddle

/-- The vault of a state. -/
def vault (s : State) : Vault := { mainUp := s.mainUp, keeper := s.keeper, medium := s.medium, sad := s.sad }

theorem vault_emit (code inst a b c d : Nat) (s : State) : vault (emit code inst a b c d s) = vault s := by simp [vault]

theorem vault_failTest (cause : Nat) (s : State) : vault (failTest cause s) = vault s := by
  unfold failTest
  split
  · rfl
  · exact vault_emit ..

theorem vault_meterWrite (r : Req) (s : State) : vault (meterWrite r s) = vault s := by
  unfold meterWrite
  split
  · simp [vault]
  · rfl

theorem vault_dropRequests (s : State) : vault (dropRequests s) = vault s :=
  forAll_keeps vault vault_meterWrite s.cache.throughWait s

/-- R347: a flush that starts: its step and its cause, the vault as it was. -/
structure FlushBegun (cause : Nat) (s t : State) : Prop where
  step : t.belay.step = 1
  cause : t.belay.cause = cause
  kept : vault t = vault s

theorem startFlush_begins (cause : Nat) {s : State} (hmain : s.mainUp = true) (hrunning : s.boot.running = true)
    (hstep : s.belay.step = 0) : FlushBegun cause s (startFlush cause s) := by
  have hstart : startFlush cause s = beginFlush cause s := by simp [startFlush, hmain, hrunning]
  rw [hstart, beginFlush, if_neg (not_not.mpr hstep)]
  exact ⟨rfl, rfl, (vault_dropRequests _).trans ((vault_emit ..).trans ((vault_emit ..).trans (vault_failTest cause s)))⟩

/-- R544: a reset whose cause i enters RESET_INFO starts a flush of cause 6. -/
structure ResetFlush (i : Nat) (s t : State) : Prop where
  step : t.belay.step = 1
  cause : t.belay.cause = 6
  mainUp : t.mainUp = true
  resetInfo : t.keeper.resetInfo = s.keeper.resetInfo ||| bit1 i
  lastCause : t.keeper.lastCause = i
  medium : t.medium = s.medium
  sad : t.sad = s.sad

theorem startFlush_setReset_emit (i code inst a b c d : Nat) {s : State} (hmain : s.mainUp = true)
    (hrunning : s.boot.running = true) (hstep : s.belay.step = 0) :
    ResetFlush i s (startFlush 6 (setReset i (emit code inst a b c d s))) := by
  let u := setReset i (emit code inst a b c d s)
  have humain : u.mainUp = true := by simp [u, setReset, hmain]
  have hurunning : u.boot.running = true := by simp [u, setReset, hrunning]
  have hustep : u.belay.step = 0 := by simp [u, setReset, hstep]
  obtain ⟨hbegun, hcause, hkept⟩ := startFlush_begins 6 humain hurunning hustep
  have hkeeper : (startFlush 6 u).keeper = u.keeper := congrArg Vault.keeper hkept
  exact {
    step := hbegun
    cause := hcause
    mainUp := (congrArg Vault.mainUp hkept).trans humain
    resetInfo := by rw [hkeeper]; simp [u, setReset]
    lastCause := by rw [hkeeper]; rfl
    medium := (congrArg Vault.medium hkept).trans (emit_medium ..)
    sad := (congrArg Vault.sad hkept).trans (emit_sad ..) }

/-! ### A reset of the main die -/

/-- What a reset of the main die takes into the keeper's hands before it resets the rest (R532). -/
def resetSaves (s : State) : State := finishStore (drainAll (discardStaging 2 (endUnlock 2 s)))

theorem vault_endUnlock (cause : Nat) (s : State) : vault (endUnlock cause s) = vault s := by
  unfold endUnlock
  split
  · exact vault_emit ..
  · rfl

theorem vault_discardStaging (cause : Nat) (s : State) : vault (discardStaging cause s) = vault s := by
  unfold discardStaging
  split
  · rfl
  · exact vault_emit ..

theorem vault_drainAll (s : State) : vault (drainAll s) = vault s := forAll_keeps vault (fun _ _ => by rfl) _ _

theorem keeper_medium_finishStore (s : State) : (finishStore s).keeper = s.keeper ∧ (finishStore s).medium = s.medium := by
  unfold finishStore
  split <;> exact ⟨rfl, rfl⟩

theorem keeper_medium_resetSaves (s : State) : (resetSaves s).keeper = s.keeper ∧ (resetSaves s).medium = s.medium := by
  have hkept : vault (drainAll (discardStaging 2 (endUnlock 2 s))) = vault s :=
    (vault_drainAll _).trans ((vault_discardStaging ..).trans (vault_endUnlock ..))
  obtain ⟨hkeeper, hmedium⟩ := keeper_medium_finishStore (drainAll (discardStaging 2 (endUnlock 2 s)))
  exact ⟨hkeeper.trans (congrArg Vault.keeper hkept), hmedium.trans (congrArg Vault.medium hkept)⟩

/-- R503: a reset of the main die. -/
structure MainReset (s t : State) : Prop where
  mainUp : t.mainUp = false
  step : t.belay.step = 0
  keeper : t.keeper = s.keeper
  cells : t.medium.cells = s.medium.cells
  sys : t.medium.sys = s.medium.sys

theorem restart_resets (s : State) : MainReset s (restart s) := by
  obtain ⟨hkeeper, hmedium⟩ := keeper_medium_resetSaves s
  have hcells : (restart s).medium.cells = (resetSaves s).medium.cells := rfl
  have hsys : (restart s).medium.sys = (resetSaves s).medium.sys := rfl
  exact ⟨rfl, rfl, hkeeper, by rw [hcells, hmedium], by rw [hsys, hmedium]⟩

/-! ### Fatal faults -/

theorem fatalFault_flushes {cause : Nat} (v1 v2 core : Nat) {s : State} (hcause : cause ≠ 4) (hmain : s.mainUp = true)
    (hrunning : s.boot.running = true) (hstep : s.belay.step = 0) : ResetFlush 5 s (fatalFault cause v1 v2 core s) := by
  simp only [fatalFault, if_neg hcause]
  exact startFlush_setReset_emit 5 _ _ _ _ _ _ hmain hrunning hstep

/-- R546: a fatal fault of cause 4 resets the main die at once. -/
theorem fatalFault_resets (v1 v2 core : Nat) (s : State) :
    MainReset (setReset 5 (emit 0x1603 0xFF 4 v1 v2 core s)) (fatalFault 4 v1 v2 core s) := restart_resets _

theorem exec_fatalFault {cause : Nat} (v1 v2 core : Nat) {s : State} (hmain : s.mainUp = true) (hlow : 2 ≤ cause) (hhigh : cause ≤ 5) :
    exec (.fatalFault cause v1 v2 core) s = .next (fatalFault cause v1 v2 core s) := by
  have hexec : exec (.fatalFault cause v1 v2 core) s = execFatalFault cause v1 v2 core s := rfl
  rw [hexec, execFatalFault, whenMain, if_pos hmain, if_pos ⟨by omega, hhigh⟩, if_neg (by omega)]

theorem exec_fatalFault_of_none {cause : Nat} (v1 v2 core : Nat) {s : State} (hcause : cause = 0 ∨ 5 < cause) :
    exec (.fatalFault cause v1 v2 core) s = .next s := by
  have hexec : exec (.fatalFault cause v1 v2 core) s = execFatalFault cause v1 v2 core s := rfl
  rw [hexec, execFatalFault, whenMain, if_neg (by omega : ¬(1 ≤ cause ∧ cause ≤ 5)), ite_self]

/-! ### Alarms -/

/-- The keeper's part of an alarm (R553, R554): ALARM_OUT_N, and record 0x1801 to staging. -/
def alarmRaised (src det rd : Nat) (s : State) : State :=
  stageRec 0x1801 0xFF src det rd 0 { s with keeper := { s.keeper with alarmOut := true, alarmSource := src, alarmDetector := det } }

theorem exec_alarm (src det rd : Nat) {s : State} (hkeeper : s.keeper.stopped = false)
    (harmed : src = 1 ∨ src = 3 ∨ src = 4 ∨ src = 2 ∧ s.mainUp = true ∧ s.rope.st = .on) :
    exec (.alarm src det rd) s = .next (whenMain (alarmMain src det rd) (alarmRaised src det rd s)) := by
  have hexec : exec (.alarm src det rd) s = execAlarm src det rd s := rfl
  have harm : alarmArmed s src = true := by
    rcases harmed with rfl | rfl | rfl | ⟨rfl, hmain, hrope⟩
    case inr.inr.inr => simp [alarmArmed, hmain, hrope]
    all_goals rfl
  rw [hexec, execAlarm, whenKeeper, hkeeper, if_neg (by decide), alarm, if_pos harm]
  rfl

/-- R472, R554: the record of an alarm stands in staging while there is room. -/
theorem alarmRaised_staged {src : Nat} (det rd : Nat) {s : State} (hsrc : src ≤ 4) (hroom : s.cairn.staging.length < 256) :
    ∃ r ∈ (alarmRaised src det rd s).cairn.staging, r.code = 0x1801 ∧ r.p1 = src ∧ r.p2 = det % 4294967296 := by
  let u : State := { s with keeper := { s.keeper with alarmOut := true, alarmSource := src, alarmDetector := det } }
  let r := mkRec u 0x1801 0xFF src det rd 0 false
  have hstaged : (alarmRaised src det rd s).cairn.staging = s.cairn.staging ++ [r] :=
    congrArg Cairn.staging (if_pos hroom : stagePut r s.cairn = _)
  exact ⟨r, by simp [hstaged], rfl, Nat.mod_eq_of_lt (by omega), rfl⟩

/-- What an alarm's records and events do not touch on the main die. -/
structure AlarmSide where
  vault : Vault
  cairn : Cairn
  boot : Boot
  gate : Gate
  cache : Cache
  sealCtl : Seal
  ports : Ports

/-- The alarm side of a state. -/
def alarmSide (s : State) : AlarmSide :=
  { vault := vault s, cairn := s.cairn, boot := s.boot, gate := s.gate, cache := s.cache, sealCtl := s.sealCtl, ports := s.ports }

/-- R481: a record of a code that has a Relay queue goes there while the main die is out of reset. -/
theorem cairn_emit_of_queue {code inst q : Nat} (a b c d : Nat) {s : State} (hmain : s.mainUp = true)
    (hq : queueOf code inst = some q) : (emit code inst a b c d s).cairn = s.cairn := by
  simp [emit, emitN, hmain, hq]

theorem alarmSide_emit_of_queue {code inst q : Nat} (a b c d : Nat) {s : State} (hmain : s.mainUp = true)
    (hq : queueOf code inst = some q) : alarmSide (emit code inst a b c d s) = alarmSide s := by
  simp [alarmSide, vault_emit, cairn_emit_of_queue a b c d hmain hq]

theorem alarmSide_postEvent (l : List Nat) (log : Nat) (e : EventRec) (s : State) :
    alarmSide (postEvent l log e s) = alarmSide s := by simp [alarmSide, vault]

/-- R449: an alarm at one LD: its Coffer page, and the change that its registers show. -/
def alarmLd (now : Nat) (l : Ld) : Ld := raiseChg 16 now { l with cof := alarmPage now l.cof }

/-- R449, R554: the keys that an alarm erases, and the Coffer pages that it stops. -/
def alarmErased (s : State) : State :=
  { s with
    sealCtl := { s.sealCtl with slots := [], sysKeys := [], kwk := none, zeroed := true }
    ports := { s.ports with lds := tmap s.ports.lds (fun _ => alarmLd (nowTb s)) } }

theorem alarmMain_erases (src det rd : Nat) {s : State} (hmain : s.mainUp = true) :
    alarmSide (alarmMain src det rd s) = alarmSide (alarmErased s) := by
  let s0 := emit 0x0606 0xFF src (dirtyParts s).length 0 0 (alarmErased s)
  let s1 := if keyPages s + runPages s = 0 then s0 else emit 0x0E03 0xFF src (keyPages s) (runPages s) 0 s0
  have hmain0 : s0.mainUp = true := (emit_mainUp ..).trans hmain
  have h0 : alarmSide s0 = alarmSide (alarmErased s) := alarmSide_emit_of_queue (q := 4) _ _ _ _ hmain rfl
  have h1 : alarmSide s1 = alarmSide s0 := by
    simp only [s1]
    split
    · rfl
    · exact alarmSide_emit_of_queue (q := 1) _ _ _ _ hmain0 rfl
  have hend : alarmMain src det rd s =
      if s.boot.running then postEvent (mgmtTarget s1) 3 (evOf 0x1801 src det rd 0) s1 else s1 := rfl
  rw [hend, ← h0, ← h1]
  split
  · exact alarmSide_postEvent ..
  · rfl

/-- An alarm leaves what stands outside the keys and the ports as its keeper's part made it. -/
theorem alarm_keeps (src det rd : Nat) (s : State) :
    vault (whenMain (alarmMain src det rd) s) = vault s ∧ (whenMain (alarmMain src det rd) s).cairn = s.cairn ∧
    (whenMain (alarmMain src det rd) s).boot = s.boot ∧ (whenMain (alarmMain src det rd) s).gate = s.gate ∧
    (whenMain (alarmMain src det rd) s).cache = s.cache := by
  unfold whenMain
  split
  case isTrue hmain =>
    have hside := alarmMain_erases src det rd hmain
    exact ⟨congrArg AlarmSide.vault hside, congrArg AlarmSide.cairn hside, congrArg AlarmSide.boot hside,
      congrArg AlarmSide.gate hside, congrArg AlarmSide.cache hside⟩
  case isFalse => exact ⟨rfl, rfl, rfl, rfl, rfl⟩

theorem tget_lds_alarmErased (s : State) (k : Nat) : tget (alarmErased s).ports.lds k =
    (tget s.ports.lds k).map (alarmLd (nowTb s)) := tget_tmap s.ports.lds (fun _ => alarmLd (nowTb s)) k

/-- R449: no Coffer page keeps a key. -/
theorem keys_alarmErased (s : State) (k : Nat) : (ldAt (alarmErased s) k).cof.keys = [] := by
  rw [ldAt, tgetD, tget_lds_alarmErased]
  cases tget s.ports.lds k <;> rfl

/-- R447: a descriptor that runs is marked as one whose keys are lost. -/
theorem run_alarmErased {s : State} {k : Nat} {r : CofRun} (hk : tget s.ports.lds k ≠ none) (hr : (ldAt s k).cof.run = some r) :
    (ldAt (alarmErased s) k).cof.run = some { r with lost := true } := by
  obtain ⟨l, hl⟩ := Option.ne_none_iff_exists'.mp hk
  have hrun : l.cof.run = some r := by simpa [ldAt, tgetD, hl] using hr
  rw [ldAt, tgetD, tget_lds_alarmErased, hl]
  exact congrArg (Option.map _) hrun

/-! ### The obligation -/

/-- Settles O53. The boot rests on the model's own choices where the rules leave one: TB at a boot (log 63), a recall that ends
inside the release (log 68), and the loader's watchdog and the stepping A0 (log 76). -/
theorem bootAndAlarms : Obligations.BootAndAlarms := by
  unfold Obligations.BootAndAlarms
  refine ⟨fun s b hmain hkeeper hrope href hbref => ?release, fun s b hno => ?refused, fun s => ⟨fun hmain hrope => ?early,
    fun hmain hrunning => ?idle, fun hmain hrunning => ?rerun⟩, fun s core pr hmain hrunning hstep => ?watchdog,
    fun s cause v1 v2 core hmain hrunning hstep => ⟨fun hcause => ?flush, fun hcause => ?reset, fun hcause => ?none⟩,
    fun s src det rd hkeeper harmed => ?alarm⟩
  case release =>
    have hr := released_mainDieResetRelease b hmain hkeeper hrope href hbref
    obtain ⟨hkept, hflash, hsec, hcause, hrunning, hdark, hstarts⟩ := hr
    refine gives_of_exec (c := .mainDieResetRelease b) rfl rfl ⟨congrArg Chassis.mainUp hkept, congrArg Chassis.recalling hkept,
      hflash, hsec, congrArg Chassis.life hkept, congrArg Chassis.rope hkept, congrArg Chassis.tb hkept, ?_, hdark,
      fun hlife => hcause.trans (releaseCause_of_scrapped hlife), fun hlife hreads => hcause.trans (releaseCause_of_reads hlife hreads),
      fun hlife hreads => ?_⟩
    · rw [hrunning, hcause]
    · obtain ⟨hwhole, hsigned, hchecks⟩ := releaseCause_checks hlife hreads
      rw [hcause]
      refine ⟨hwhole, hsigned, fun h1 h2 => ?_⟩
      obtain ⟨hlayout, hproduct, hunits⟩ := hchecks h1 h2
      refine ⟨hlayout, hproduct, fun h3 h4 => ?_⟩
      obtain ⟨hunit, hcounter, hsteps⟩ := hunits h3 h4
      refine ⟨hunit, hcounter, fun h5 h6 => ?_⟩
      obtain ⟨hstep, hbody⟩ := hsteps h5 h6
      refine ⟨hstep, fun h7 => ?_⟩
      obtain ⟨hreadFails, hhash, hverified⟩ := hbody h7
      exact ⟨hreadFails, hhash, fun h8 h9 => ⟨hrunning.mpr (hverified h8 h9), hstarts (hverified h8 h9)⟩⟩
  case refused =>
    refine gives_of_exec (c := .mainDieResetRelease b) rfl (if_pos ?_) rfl
    simpa [or_comm, or_assoc, or_left_comm] using hno
  case early =>
    exact gives_of_exec (c := .loaderWatchdogExpiry) rfl (by rw [if_neg (by simp [hmain]), if_pos hrope]; rfl) rfl
  case idle =>
    exact gives_of_exec (c := .loaderWatchdogExpiry) rfl (by rw [if_pos hmain, if_pos hrunning]) rfl
  case rerun =>
    obtain ⟨hup, hflash, hsec⟩ := rerunLoader_keeps 1 s
    exact gives_of_exec (c := .loaderWatchdogExpiry) (u := rerunLoader 1 s) rfl (by rw [if_pos hmain, if_neg (by simp [hrunning])])
      ⟨hup.trans hmain, hflash, hsec, rerunLoader_of_broken⟩
  case watchdog =>
    obtain ⟨hbegun, hcause, hup, hinfo, hlast, hmedium, hsad⟩ :=
      startFlush_setReset_emit 4 0x1602 0xFF core pr 0 0 hmain hrunning hstep
    refine gives_of_exec (c := .watchdogExpiry core pr) rfl ?_ ⟨hbegun, hcause, hup, hinfo, hlast, hmedium, hsad⟩
    rw [whenMain, if_pos hmain, if_pos hrunning]
    exact if_pos hstep
  case flush =>
    obtain ⟨hbegun, hcause6, hup, hinfo, hlast, hmedium, hsad⟩ :=
      fatalFault_flushes v1 v2 core (by omega : cause ≠ 4) hmain hrunning hstep
    exact gives_of_exec (exec_fatalFault v1 v2 core hmain (by omega) (by omega)) rfl
      ⟨hbegun, hcause6, hup, hinfo, hlast, hmedium, hsad⟩
  case reset =>
    subst hcause
    obtain ⟨hup, hbelay, hk, hcells, hsys⟩ := fatalFault_resets v1 v2 core s
    refine gives_of_exec (exec_fatalFault v1 v2 core hmain (by omega) (by omega)) rfl ⟨hup, hbelay, ?_,
      hcells.trans (congrArg Medium.cells (emit_medium ..)), hsys.trans (congrArg Medium.sys (emit_medium ..))⟩
    rw [hk]
    simp [setReset, bit1]
  case none => exact gives_of_exec (exec_fatalFault_of_none v1 v2 core hcause) rfl rfl
  case alarm =>
    let u := alarmRaised src det rd s
    let t := whenMain (alarmMain src det rd) u
    obtain ⟨hvault, hcairn, hboot, hgate, hcache⟩ := alarm_keeps src det rd u
    refine gives_of_exec (u := t) (exec_alarm src det rd hkeeper harmed) rfl ⟨congrArg Vault.keeper hvault, fun hroom => ?_,
      fun hmain => ?_, congrArg Vault.sad hvault, congrArg Vault.medium hvault, hboot, hgate, hcache⟩
    · rw [show t.cairn = u.cairn from hcairn]
      exact alarmRaised_staged det rd (by omega) hroom
    · have hside : alarmSide t = alarmSide (alarmErased u) := by
        rw [show t = alarmMain src det rd u from if_pos hmain]
        exact alarmMain_erases src det rd hmain
      have hld (k : Nat) : ldAt t k = ldAt (alarmErased u) k := 
        congrArg (fun p : Ports => tgetD p.lds k {}) (congrArg AlarmSide.ports hside)
      have hseal : t.sealCtl = (alarmErased u).sealCtl := congrArg AlarmSide.sealCtl hside
      refine ⟨by rw [hseal]; rfl, by rw [hseal]; rfl, fun k => .inl ?_, fun k r hk hr => ⟨{ r with lost := true }, ?_, rfl⟩⟩
      · rw [hld, keys_alarmErased]
      · rw [hld, run_alarmErased (s := u) hk hr]

end Sys2Proof.Machine

/-! SUPPORT. What a command that is admitted comes to, by what its effect answers: a payload, a rejection, a wait for the commit
of records. Each is said once for every command; the statements about single commands cite these. -/

namespace Sys2Proof.Machine

/-! ### Contexts and Cairn's records: what else stays -/

theorem Gives.imp {c : Instr} {s : State} {P Q : State → Prop} (h : Gives c s P) (hPQ : ∀ t, P t → Q t) : Gives c s Q := by
  obtain ⟨t, hexec, ht⟩ := h
  exact ⟨t, hexec, hPQ t ht⟩

theorem OnlyCtx.trans {p : Path} {s t u : State} (h : OnlyCtx p s t) (h' : OnlyCtx p t u) : OnlyCtx p s u := by
  obtain ⟨hrest, hld, hother, hmctp⟩ := h
  obtain ⟨hrest', hld', hother', hmctp'⟩ := h'
  refine ⟨?_, fun k => ?_, fun k hk => (hother' k hk).trans (hother k hk), fun hp => (hmctp' hp).trans (hmctp hp)⟩
  · rw [hrest']
    conv_lhs => rw [hrest]
  · rw [← hld k, ← hld' k]

theorem OnlyCtx.log {p : Path} {s t : State} (h : OnlyCtx p s t) : OnlyCtxLog p s t := ⟨s.relay, s.cairn, h⟩

theorem OnlyCtx.then_log {p : Path} {s t u : State} (h : OnlyCtx p s t) (h' : OnlyCtxLog p t u) : OnlyCtxLog p s u := by
  obtain ⟨r, c, h'⟩ := h'
  obtain ⟨hrest, hld, hother, hmctp⟩ := h
  have hlogs : OnlyCtx p { s with relay := r, cairn := c } { t with relay := r, cairn := c } :=
    ⟨by rw [hrest], hld, hother, hmctp⟩
  exact ⟨r, c, hlogs.trans h'⟩

/-- A change of one context leaves everything else alone. -/
theorem onlyCtx_modCtx (p : Path) (f : Mailbox → Mailbox) (s : State) : OnlyCtx p s (modCtx p f s) := by
  refine ⟨?_, fun k => ?_, fun k hk => ?_, fun hp => ?_⟩
  · cases p <;> rfl
  · rw [ldAt_modCtx]; split <;> rfl
  · rw [ldAt_modCtx, if_neg hk]
  · cases p with
    | mctp => exact absurd rfl hp
    | ld q l => rfl

theorem onlyCtx_takeIn (op : Nat) (p : Path) (i : List Byte) (s : State) : OnlyCtx p s (takeIn op p i s) := onlyCtx_modCtx ..

/-- A record sent to Cairn stands in its queue or in staging, and nowhere else. -/
theorem emit_eq (code inst a b c d : Nat) (s : State) :
    emit code inst a b c d s = { s with relay := (emit code inst a b c d s).relay, cairn := (emit code inst a b c d s).cairn } := by
  unfold emit emitN; split <;> rfl

theorem onlyCtxLog_of_logs {p : Path} {s u : State} (f : Mailbox → Mailbox) (h : u = { s with relay := u.relay, cairn := u.cairn }) :
    OnlyCtxLog p s (modCtx p f u) :=
  ⟨u.relay, u.cairn, h ▸ onlyCtx_modCtx p f u⟩

theorem logs_ite (b : Prop) [Decidable b] {s u : State} (h : u = { s with relay := u.relay, cairn := u.cairn }) :
    (if b then u else s) = { s with relay := (if b then u else s).relay, cairn := (if b then u else s).cairn } := by
  split
  · exact h
  · rfl

/-- R400, R403: a completion changes its context, and may leave a record of the command. -/
theorem onlyCtxLog_complete (op : Nat) (p : Path) (n : Nat) (r : Reply) (s : State) : OnlyCtxLog p s (complete op p n r s) := by
  unfold complete
  cases cmdInfo op with
  | none => exact (onlyCtx_modCtx ..).log
  | some x => exact onlyCtxLog_of_logs _ (logs_ite _ (emit_eq ..))

/-- R403: a command that changes no Saddlebag record leaves no record. -/
theorem onlyCtx_complete {op : Nat} (hs : ∀ x, cmdInfo op = some x → x.saddle = false) (p : Path) (n : Nat) (r : Reply) (s : State) :
    OnlyCtx p s (complete op p n r s) := by
  unfold complete
  cases h : cmdInfo op with
  | none => exact onlyCtx_modCtx ..
  | some x =>
    simp only [hs x h, Bool.false_and, Bool.false_eq_true, if_false]
    exact onlyCtx_modCtx ..

/-! ### What an admitted command answers -/

section Answers

variable {x : Instr} {c : Cmd} {p : Path} {i : List Byte} {s u : State} {r : Reply}

/-- An admitted command has its effect on the state in which it was taken, and settles there. -/
theorem gives_settled {P : State → Prop} (hx : exec x s = runCmd c p i s) (h : Admitted c p i s)
    (hb : c.body p i (takeIn c.op p i s) = (r, u)) (hup : u.mainUp = true) (hP : P (settle c.op p i r u)) : Gives x s P := by
  have hmain : s.mainUp = true := h.1.1
  refine gives_of_exec hx ?_ hP
  rw [whenMain, if_pos hmain, takeCmd_admitted c p i s h (by rw [hb]; exact hup), hb]

theorem mainUp_takeIn (h : Admitted c p i s) : (takeIn c.op p i s).mainUp = true :=
  (congrArg State.mainUp (onlyCtx_takeIn c.op p i s).1).trans h.1.1

/-- A command that answers a payload at once. -/
theorem gives_payload {out : List Byte} (hx : exec x s = runCmd c p i s) (h : Admitted c p i s)
    (hb : c.body p i (takeIn c.op p i s) = ({ out := out }, u)) (hup : u.mainUp = true) :
    Gives x s (fun t => Succeeded p out t ∧ OnlyCtxLog p u t) :=
  gives_settled hx h hb hup ⟨succeeded_complete .., onlyCtxLog_complete ..⟩

/-- A command that answers a payload at once and leaves no record. -/
theorem gives_payload_unlogged {out : List Byte} (hs : ∀ x, cmdInfo c.op = some x → x.saddle = false) (hx : exec x s = runCmd c p i s)
    (h : Admitted c p i s) (hb : c.body p i (takeIn c.op p i s) = ({ out := out }, u)) (hup : u.mainUp = true) :
    Gives x s (fun t => Succeeded p out t ∧ OnlyCtx p u t) :=
  gives_settled hx h hb hup ⟨succeeded_complete .., onlyCtx_complete hs ..⟩

/-- A command that answers a payload from what it reads. -/
theorem reads_payload {out : List Byte} (hs : ∀ x, cmdInfo c.op = some x → x.saddle = false) (hx : exec x s = runCmd c p i s)
    (h : Admitted c p i s) (hb : c.body p i (takeIn c.op p i s) = ({ out := out }, takeIn c.op p i s)) : Reads x p s out :=
  gives_of_exec hx rfl (reads_of_body c p i s out h hs hb)

/-- A command that is turned away by its own checks leaves at most a record. -/
theorem gives_turned {rc d o : Nat} (hx : exec x s = runCmd c p i s) (h : Admitted c p i s)
    (hb : c.body p i (takeIn c.op p i s) = (rej rc d o, takeIn c.op p i s)) :
    Gives x s (fun t => Turned p rc d o t ∧ OnlyCtxLog p s t) :=
  gives_settled hx h hb (mainUp_takeIn h) ⟨turned_complete .., (onlyCtx_takeIn ..).then_log (onlyCtxLog_complete ..)⟩

/-- A command that is turned away by its own checks, and leaves no record. -/
theorem gives_turned_unlogged {rc d o : Nat} (hs : ∀ x, cmdInfo c.op = some x → x.saddle = false) (hx : exec x s = runCmd c p i s)
    (h : Admitted c p i s) (hb : c.body p i (takeIn c.op p i s) = (rej rc d o, takeIn c.op p i s)) :
    Gives x s (fun t => Turned p rc d o t ∧ OnlyCtx p s t) :=
  gives_settled hx h hb (mainUp_takeIn h) ⟨turned_complete .., (onlyCtx_takeIn ..).trans (onlyCtx_complete hs ..)⟩

/-- R401: a command whose completion waits for the commit of the records that it has changed. -/
theorem gives_awaits {out : List Byte} {recs : List Nat} {done : OnDone} (hx : exec x s = runCmd c p i s) (h : Admitted c p i s)
    (hb : c.body p i (takeIn c.op p i s) = ({ out := out, recs := recs, done := done }, u)) (hup : u.mainUp = true)
    (hrecs : recs ≠ []) (hdirty : ∀ k ∈ recs, k ∈ u.sad.dirty) :
    Gives x s (fun t => Awaits p c.op recs done t ∧ OnlyCtx p u t) := by
  refine gives_settled hx h hb hup ?_
  have hwaits : settle c.op p i { out := out, recs := recs, done := done } u = modCtx p (fun m => { m with
      wait := some { opcode := c.op, first4 := fld i 0 4, recs := recs, out := out, done := done, since := tbNow u } }) u := by
    simp [settle, hrecs]
  rw [hwaits]
  have honly := onlyCtx_modCtx p (fun m => { m with
      wait := some { opcode := c.op, first4 := fld i 0 4, recs := recs, out := out, done := done, since := tbNow u } }) u
  refine ⟨⟨⟨_, congrArg Mailbox.wait (ctx_modCtx_same ..), rfl, rfl, rfl⟩, ?_⟩, honly⟩
  rwa [modCtx_sad]

end Answers

/-! ### What a context shows nowhere else -/

section Projections

variable {p : Path} {s t : State}

theorem OnlyCtx.sad (h : OnlyCtx p s t) : t.sad = s.sad := by rw [h.1]
theorem OnlyCtx.gate (h : OnlyCtx p s t) : t.gate = s.gate := by rw [h.1]

theorem OnlyCtx.map (h : OnlyCtx p s t) (k : Nat) : (ldAt t k).map = (ldAt s k).map := by
  obtain ⟨-, hld, -⟩ := h
  rw [← hld k]

theorem OnlyCtxLog.rest (h : OnlyCtxLog p s t) :
    t = { s with mctp := t.mctp, ports := { s.ports with lds := t.ports.lds }, relay := t.relay, cairn := t.cairn } := by
  obtain ⟨r, c, hrest, -⟩ := h
  rw [hrest]

theorem OnlyCtxLog.sad (h : OnlyCtxLog p s t) : t.sad = s.sad := by rw [h.rest]
theorem OnlyCtxLog.gate (h : OnlyCtxLog p s t) : t.gate = s.gate := by rw [h.rest]
theorem OnlyCtxLog.keeper (h : OnlyCtxLog p s t) : t.keeper = s.keeper := by rw [h.rest]
theorem OnlyCtxLog.cache (h : OnlyCtxLog p s t) : t.cache = s.cache := by rw [h.rest]
theorem OnlyCtxLog.medium (h : OnlyCtxLog p s t) : t.medium = s.medium := by rw [h.rest]

theorem OnlyCtxLog.ld (h : OnlyCtxLog p s t) (k : Nat) : { ldAt t k with mbox := (ldAt s k).mbox } = ldAt s k := by
  obtain ⟨r, c, -, hld, -⟩ := h
  exact hld k

end Projections

end Sys2Proof.Machine

/-! SUPPORT. SET_LD_MAP, SET_CONTRACT and THAW (R14, R72, R88, R89, R98, R100, R116 to R118, R459): the block of an LD's ranges, the
records that a map's change marks, and what the end of a freeze changes. -/

namespace Sys2Proof.Machine

/-! ### What the taking of a command leaves to the effect -/

section TakeIn

variable (op : Nat) (p : Path) (i : List Byte) (s : State)

@[simp] theorem sad_takeIn : (takeIn op p i s).sad = s.sad := by cases p <;> rfl
@[simp] theorem gate_takeIn : (takeIn op p i s).gate = s.gate := by cases p <;> rfl
@[simp] theorem tbNow_takeIn : tbNow (takeIn op p i s) = tbNow s := by cases p <;> rfl
@[simp] theorem isActive_takeIn (part : Nat) : isActive (takeIn op p i s) part = isActive s part := by cases p <;> rfl
@[simp] theorem ldsOn_takeIn (q : Nat) : ldsOn (takeIn op p i s) q = ldsOn s q := by cases p <;> rfl
@[simp] theorem mgmtLdOf_takeIn : mgmtLdOf (takeIn op p i s) = mgmtLdOf s := mgmtKey_takeIn ..
@[simp] theorem ldOperand_takeIn (j : List Byte) : ldOperand (takeIn op p i s) j = ldOperand s j := by simp [ldOperand]
@[simp] theorem ldMapBad_takeIn (k : Nat) (j : List Byte) : ldMapBad (takeIn op p i s) k j = ldMapBad s k j := by simp [ldMapBad]
@[simp] theorem rangeTotal_takeIn (k : Nat) : rangeTotal (takeIn op p i s) k = rangeTotal s k := by simp [rangeTotal]
@[simp] theorem retrigger_takeIn (m : Nat) : retrigger (takeIn op p i s) m = retrigger s m := by simp [retrigger]

@[simp] theorem pendingOut_takeIn (k : Nat) : (ldAt (takeIn op p i s) k).pendingOut = (ldAt s k).pendingOut := by rw [ldAt_takeIn]

@[simp] theorem contractSum_takeIn (k : Nat) : contractSum (takeIn op p i s) k = contractSum s k := by simp [contractSum]

end TakeIn

/-! ### Records that a change marks -/

@[simp] theorem mem_dirty_markRecs (ks : List Nat) (s : State) (k : Nat) :
    k ∈ (markRecs ks s).sad.dirty ↔ k ∈ ks ∨ k ∈ s.sad.dirty := by
  by_cases h : k ∈ s.sad.dirty <;> simp [markRecs, h]

@[simp] theorem mem_dirty_modImg (ks : List Nat) (f : SadImage → SadImage) (s : State) (k : Nat) :
    k ∈ (modImg ks f s).sad.dirty ↔ k ∈ ks ∨ k ∈ s.sad.dirty := mem_dirty_markRecs ..

@[simp] theorem img_markRecs (ks : List Nat) (s : State) : (markRecs ks s).sad.img = s.sad.img := rfl
@[simp] theorem img_modImg (ks : List Nat) (f : SadImage → SadImage) (s : State) : (modImg ks f s).sad.img = f s.sad.img := rfl

/-! ### The blocks of the ranges (R459) -/

theorem tget_append {α : Type} (l r : Tbl α) (k : Nat) : tget (l ++ r) k = (tget l k).or (tget r k) := by
  induction l with
  | nil => rfl
  | cons e l ih =>
    obtain ⟨k', v⟩ := e
    by_cases h : k = k' <;> simp [tget, h, ih]

/-- A map in another block. -/
def atBlock (a : Nat) (m : LdMap) : LdMap := { m with first := a }

/-- R459: packed into one sequence, every map stands as it was, in some block. -/
theorem tget_packRanges (t : Tbl LdMap) (k : Nat) : ∃ a, tget (packRanges t) k = (tget t k).map (atBlock a) := by
  have hfold : ∀ (n : Nat) (done : Tbl LdMap), ∃ a, tget (t.foldl (fun (a : Nat × Tbl LdMap) p =>
      (a.1 + p.2.ranges.length, a.2 ++ [(p.1, { p.2 with first := a.1 })])) (n, done)).2 k =
        (tget done k).or ((tget t k).map (atBlock a)) := by
    induction t with
    | nil => exact fun n done => ⟨0, by simp⟩
    | cons e t ih =>
      obtain ⟨k', m⟩ := e
      intro n done
      obtain ⟨a, ha⟩ := ih (n + m.ranges.length) (done ++ [(k', atBlock n m)])
      rw [tget_append] at ha
      by_cases hk : k = k'
      · exact ⟨n, ha.trans (by simp [tget, hk])⟩
      · exact ⟨a, ha.trans (by simp [tget, hk])⟩
  exact hfold 0 []

/-- R459: an LD_MAP record holds the map that it takes, in some block; the others hold theirs. -/
theorem tget_withMap (inst : Nat) (m : LdMap) (g : SadImage) (k : Nat) :
    ∃ a, tget (withMap inst m g).ldMaps k = (if k = inst then some (atBlock a m) else (tget g.ldMaps k).map (atBlock a)) ∨
      k ≠ inst ∧ tget (withMap inst m g).ldMaps k = tget g.ldMaps k := by
  unfold withMap
  split
  case h_1 a _ =>
    by_cases hk : k = inst
    · exact ⟨a, .inl (by simp [hk, atBlock])⟩
    · exact ⟨a, .inr ⟨hk, tget_tset_ne _ _ hk⟩⟩
  case h_2 =>
    obtain ⟨a, ha⟩ := tget_packRanges (tset g.ldMaps inst m) k
    refine ⟨a, .inl (ha.trans ?_)⟩
    by_cases hk : k = inst <;> simp [hk]

theorem tget_withMap_same (inst : Nat) (m : LdMap) (g : SadImage) :
    ∃ b, tget (withMap inst m g).ldMaps inst = some b ∧ { b with first := m.first } = m := by
  obtain ⟨a, h | ⟨h, -⟩⟩ := tget_withMap inst m g inst
  · exact ⟨_, h.trans (if_pos rfl), rfl⟩
  · exact absurd rfl h

theorem tget_withMap_ne {inst k : Nat} (m : LdMap) (g : SadImage) (hk : k ≠ inst) :
    (tget (withMap inst m g).ldMaps k).map (fun b => { b with first := 0 }) = (tget g.ldMaps k).map (fun b => { b with first := 0 }) := by
  obtain ⟨a, h | ⟨-, h⟩⟩ := tget_withMap inst m g k
  · rw [h, if_neg hk, Option.map_map]
    rfl
  · rw [h]

/-! ### SET_LD_MAP (R88, R89) -/

/-- The state of a SET_LD_MAP that is carried out: the working SRAM holds the map, and its records are dirty. -/
def ldMapStored (inst : Nat) (m : LdMap) (s : State) : State := markRecs [rk 5 inst] (setMaps (withMap inst m) s)

/-- The records that a SET_LD_MAP waits for. -/
def ldMapRecs (inst : Nat) (m : LdMap) (s : State) : List Nat :=
  rk 5 inst :: mapRecs s.sad.img (withMap inst m s.sad.img)

theorem ldMapRecs_dirty (inst : Nat) (m : LdMap) (s : State) : ∀ k ∈ ldMapRecs inst m s, k ∈ (ldMapStored inst m s).sad.dirty := by
  intro k hk
  rcases List.mem_cons.mp hk with rfl | hk
  · simp [ldMapStored]
  · simp [ldMapStored, setMaps, hk]

theorem body_setLdMap_stored {p : Path} {i : List Byte} {s : State} {k : Nat} (hop : ldOperand s i = .ok k) (htyp : fld i 2 1 < 3)
    (hdyn : fld i 3 1 < 2) (hpart : fld i 4 2 < 1024) (hn : fld i 8 1 ≤ 64) (hgood : ldMapBad s k i = none)
    (hroom : rangeTotal s (ldInst k) + (ldMapOf (tgetD s.sad.img.ldMaps (ldInst k) {}) i).ranges.length ≤ 4096) :
    cmdSetLdMap.body p i s =
      ({ out := [], recs := ldMapRecs (ldInst k) (ldMapOf (tgetD s.sad.img.ldMaps (ldInst k) {}) i) s,
         done := .ldMap k (ldMapOf (tgetD s.sad.img.ldMaps (ldInst k) {}) i) },
       ldMapStored (ldInst k) (ldMapOf (tgetD s.sad.img.ldMaps (ldInst k) {}) i) s) := by
  simp only [cmdSetLdMap, hop, hgood]
  rw [if_neg (by omega), if_neg (by omega), if_neg (by omega), if_neg (by omega), if_neg (by omega)]
  rfl

theorem body_setLdMap_bad {p : Path} {i : List Byte} {s : State} {k o : Nat} (hop : ldOperand s i = .ok k) (htyp : fld i 2 1 < 3)
    (hdyn : fld i 3 1 < 2) (hpart : fld i 4 2 < 1024) (hn : fld i 8 1 ≤ 64) (hbad : ldMapBad s k i = some o) :
    cmdSetLdMap.body p i s = (rej 2 0x0285 o, s) := by
  simp only [cmdSetLdMap, hop, hbad]
  rw [if_neg (by omega), if_neg (by omega), if_neg (by omega), if_neg (by omega)]

/-! ### SET_CONTRACT (R72, R98, R100) -/

/-- The map record of a SET_CONTRACT input. -/
def contractOf (old : LdMap) (i : List Byte) : LdMap :=
  { old with outstanding := fld i 2 2, opcodes := BitVec.ofNat 7 (fld i 4 1), poisonLimit := fld i 6 2 }

/-- The state of a SET_CONTRACT that is carried out. -/
def contractStored (inst : Nat) (m : LdMap) (s : State) : State :=
  modImg [rk 5 inst] (fun g => { g with ldMaps := tset g.ldMaps inst m }) s

theorem body_setContract {p : Path} {i : List Byte} {s : State} {k : Nat} (hop : ldOperand s i = .ok k) (hmask : fld i 4 1 < 128) :
    cmdSetContract.body p i s =
      if mgmtLdOf s = some k then (rej 2 0x0D83 1, s)
      else if fld i 2 2 < 1 ∨ 2016 < fld i 2 2 then (rej 2 0x0D83 2, s)
      else if 2016 < contractSum s k + fld i 2 2 then (rej 2 0x0286 2, s)
      else ({ out := [], recs := [rk 5 (ldInst k)], done := .contract k (contractOf (tgetD s.sad.img.ldMaps (ldInst k) {}) i) },
        contractStored (ldInst k) (contractOf (tgetD s.sad.img.ldMaps (ldInst k) {}) i) s) := by
  simp only [cmdSetContract, hop]
  rw [if_neg (by omega)]
  rfl


/-! ### THAW (R14, R116 to R118) -/

/-- What the change flags, the records and the events of a THAW leave alone. -/
structure ThawSide where
  mainUp : Bool
  gate : Gate
  latch : List Freeze
  sad : Saddle
  cache : Cache
  medium : Medium
  links : Tbl Port
  tb : Nat

/-- The thaw side of a state. -/
def thawSide (s : State) : ThawSide :=
  { mainUp := s.mainUp, gate := s.gate, latch := s.keeper.latch, sad := s.sad, cache := s.cache, medium := s.medium,
    links := s.ports.ports, tb := s.reck.tb }

theorem thawSide_setChg (i k : Nat) (s : State) : thawSide (setChg i k s) = thawSide s := rfl
theorem thawSide_modLd (k : Nat) (f : Ld → Ld) (s : State) : thawSide (modLd k f s) = thawSide s := rfl

theorem thawSide_emitN (b : Bool) (code inst p q r d : Nat) (s : State) : thawSide (emitN b code inst p q r d s) = thawSide s := by
  simp [thawSide]

theorem thawSide_postEvent (l : List Nat) (log : Nat) (e : EventRec) (s : State) : thawSide (postEvent l log e s) = thawSide s := by
  simp [thawSide]

/-- A gate without a master's flag. -/
def Gate.without (m : Nat) (g : Gate) : Gate :=
  { g with freezes := g.freezes.filter (fun f => f.master != m), again := g.again.filter (fun f => f.master != m) }

theorem mem_freezes_without {m : Nat} {g : Gate} {f : Freeze} : f ∈ (g.without m).freezes ↔ f ∈ g.freezes ∧ f.master ≠ m := by
  simp [Gate.without]

theorem thawSide_thawMaster (m path dur : Nat) (s : State) : thawSide (thawMaster m path dur s) =
    { thawSide s with gate := s.gate.without m, latch := s.keeper.latch.filter (fun f => f.master != m) } := by
  refine (forAll_keeps thawSide (thawSide_setChg 1) _ _).trans ?_
  split
  · exact (forAll_keeps thawSide (fun k => thawSide_modLd k _) _ _).trans (thawSide_emitN ..)
  · exact thawSide_emitN ..

/-- The Saddlebag once a THAW has dropped the master's record, if it held one. -/
def thawSad (m : Nat) (s : State) : Saddle := if thas s.sad.img.freezes (freezeSlot m) then (dropFreezeRec m s).sad else s.sad

/-- The state of a THAW once the flag is gone and its record is dropped. -/
def unfrozen (m path dur : Nat) (s : State) : State :=
  if thas s.sad.img.freezes (freezeSlot m) then dropFreezeRec m (thawMaster m path dur s) else thawMaster m path dur s

theorem thawSide_unfrozen (m path dur : Nat) (s : State) : thawSide (unfrozen m path dur s) = { thawSide s with
    gate := s.gate.without m, latch := s.keeper.latch.filter (fun f => f.master != m), sad := thawSad m s } := by
  have hthaw := thawSide_thawMaster m path dur s
  have hsad : (thawMaster m path dur s).sad = s.sad := congrArg ThawSide.sad hthaw
  unfold unfrozen thawSad
  split
  · have hdrop : thawSide (dropFreezeRec m (thawMaster m path dur s)) =
        { thawSide (thawMaster m path dur s) with sad := (dropFreezeRec m (thawMaster m path dur s)).sad } := rfl
    have hrec : (dropFreezeRec m (thawMaster m path dur s)).sad = (dropFreezeRec m s).sad := by
      simp only [dropFreezeRec, modImg, markRecs, hsad]
    rw [hdrop, hthaw, hrec]
  · exact hthaw

/-- R107: what a trigger notes of a master. -/
def freezeOf (m code : Nat) (addr : BitVec 64) (detail : Nat) (s : State) : Freeze :=
  { master := m, code := code, addr := addr, detail := p32 detail, tb := tbNow s }

/-- R106: a trigger of a master without a flag sets it. -/
theorem thawSide_freeze {m : Nat} (code : Nat) (addr : BitVec 64) (detail : Nat) {s : State} (h : isFrozen s m = false) :
    thawSide (freeze m code addr detail s) = { thawSide s with
      gate := { s.gate with freezes := s.gate.freezes ++ [freezeOf m code addr detail s] }
      latch := s.keeper.latch ++ [freezeOf m code addr detail s] } := by
  unfold freeze
  dsimp only
  rw [if_neg (by simp [h])]
  refine (forAll_keeps thawSide (thawSide_setChg 1) _ _).trans ?_
  rw [thawSide_postEvent, thawSide_postEvent]
  exact thawSide_emitN ..

theorem poisonCnt_setChg (i k j : Nat) (s : State) : (ldAt (setChg i k s) j).poisonCnt = (ldAt s j).poisonCnt := by
  rw [setChg, ldAt_modLd]
  split
  · rename_i h
    rw [h]
    rfl
  · rfl

/-- An operation that does its whole work at once, at each LD of a list. -/
theorem ldAt_forAll_modLd {f : Ld → Ld} (hf : ∀ l, f (f l) = f l) (ks : List Nat) (s : State) (k : Nat) :
    ldAt (forAll ks (modLd · f) s) k = if k ∈ ks then f (ldAt s k) else ldAt s k := by
  induction ks generalizing s with
  | nil => rfl
  | cons j ks ih =>
    refine (ih (modLd j f s)).trans ?_
    rw [ldAt_modLd]
    by_cases hj : k = j <;> by_cases hk : k ∈ ks <;> simp [hj, hk, hf]

/-- R118: the poisoned-write count of an LD restarts with its THAW. -/
theorem poisonCnt_thawMaster {m k : Nat} (path dur : Nat) (s : State) (hm : m / 268435456 = 1) (hk : k ∈ masterLds s m) :
    (ldAt (thawMaster m path dur s) k).poisonCnt = 0 := by
  refine (forAll_keeps (fun t => (ldAt t k).poisonCnt) (f := setChg 1) (fun j => poisonCnt_setChg 1 j k) _ _).trans ?_
  dsimp only
  rw [if_pos hm, ldAt_forAll_modLd (f := fun l => { l with poisonCnt := 0 }) (fun _ => rfl), if_pos hk]

/-- The state of a THAW before requests that waited go on: a trigger of the same cycle (R117) has frozen the master again. -/
def refrozen (m path dur : Nat) (s : State) : State :=
  match retrigger s m with
  | some g => freeze m g.code g.addr g.detail (unfrozen m path dur s)
  | none => unfrozen m path dur s

theorem drainIngress_of_empty {p : Nat} {s : State} (h : (port s p).ingress = []) :
    drainIngress p s = modPort p (fun x => { x with ingress := [] }) s := by
  rw [drainIngress, h]
  rfl

/-- R119: with no request waiting on its port, a THAW ends there. -/
theorem thawNow_of_empty {m path : Nat} {f : Freeze} {s : State} (h : ∀ q, (port (refrozen m path (tbNow s - f.tb) s) q).ingress = []) :
    (thawNow m path f s).2 = refrozen m path (tbNow s - f.tb) s ∨
    ∃ q, (thawNow m path f s).2 = modPort q (fun x => { x with ingress := [] }) (refrozen m path (tbNow s - f.tb) s) := by
  by_cases hm : 1 ≤ m / 268435456 ∧ m / 268435456 ≤ 3
  · refine .inr ⟨m / 256 % 32, Eq.trans ?_ (drainIngress_of_empty (h _))⟩
    simp only [thawNow, if_pos hm]
    rfl
  · refine .inl ?_
    simp only [thawNow, if_neg hm]
    rfl

section ThawNow

variable {m path : Nat} {f : Freeze} {s : State}

/-- The end of a THAW shows in the ports alone. -/
theorem thawSide_thawNow {v : ThawSide} (h : ∀ q, (port s q).ingress = []) (hv : thawSide (refrozen m path (tbNow s - f.tb) s) = v)
    (hlinks : v.links = s.ports.ports) :
    thawSide (thawNow m path f s).2 = { v with links := (thawNow m path f s).2.ports.ports } ∧
    ∀ k, ldAt (thawNow m path f s).2 k = ldAt (refrozen m path (tbNow s - f.tb) s) k := by
  have hports : (refrozen m path (tbNow s - f.tb) s).ports.ports = s.ports.ports := (congrArg ThawSide.links hv).trans hlinks
  have hempty : ∀ q, (port (refrozen m path (tbNow s - f.tb) s) q).ingress = [] := fun q => by
    rw [port_eq_of_ports hports]
    exact h q
  subst hv
  rcases thawNow_of_empty hempty with ht | ⟨q, ht⟩ <;> rw [ht] <;> exact ⟨rfl, fun k => rfl⟩

/-- R116: a THAW ends the freeze of its master and no other. -/
theorem thawSide_thawNow_once (h : ∀ q, (port s q).ingress = []) (hagain : retrigger s m = none) :
    thawSide (thawNow m path f s).2 = { thawSide s with
      gate := s.gate.without m, latch := s.keeper.latch.filter (fun f => f.master != m), sad := thawSad m s,
      links := (thawNow m path f s).2.ports.ports } ∧
    (m / 268435456 = 1 → ∀ k ∈ masterLds s m, (ldAt (thawNow m path f s).2 k).poisonCnt = 0) := by
  have href : refrozen m path (tbNow s - f.tb) s = unfrozen m path (tbNow s - f.tb) s := by simp only [refrozen, hagain]
  obtain ⟨hside, hld⟩ := thawSide_thawNow h ((congrArg thawSide href).trans (thawSide_unfrozen ..)) rfl
  refine ⟨hside, fun hm k hk => ?_⟩
  rw [hld, href, ← poisonCnt_thawMaster path (tbNow s - f.tb) s hm hk]
  unfold unfrozen
  split <;> rfl

/-- R117: a trigger of the same cycle freezes the master again. -/
theorem thawSide_thawNow_again {g : Freeze} (h : ∀ q, (port s q).ingress = []) (hagain : retrigger s m = some g) :
    ∃ e : Freeze, e.master = m ∧ e.code = g.code ∧ e.tb = tbNow s ∧
    thawSide (thawNow m path f s).2 = { thawSide s with
      gate := { s.gate.without m with freezes := (s.gate.without m).freezes ++ [e] }
      latch := s.keeper.latch.filter (fun f => f.master != m) ++ [e], sad := thawSad m s,
      links := (thawNow m path f s).2.ports.ports } := by
  let u := unfrozen m path (tbNow s - f.tb) s
  have hu : thawSide u = _ := thawSide_unfrozen m path (tbNow s - f.tb) s
  have hgate : u.gate = s.gate.without m := congrArg ThawSide.gate hu
  have hlatch : u.keeper.latch = s.keeper.latch.filter (fun f => f.master != m) := congrArg ThawSide.latch hu
  have hfree : isFrozen u m = false := by simp [isFrozen, hgate, Gate.without]
  have href : refrozen m path (tbNow s - f.tb) s = freeze m g.code g.addr g.detail u := by simp only [refrozen, hagain]; rfl
  obtain ⟨hside, -⟩ := thawSide_thawNow h ((congrArg thawSide href).trans (thawSide_freeze g.code g.addr g.detail hfree))
    (congrArg ThawSide.links hu)
  refine ⟨freezeOf m g.code g.addr g.detail u, rfl, rfl, ?_, ?_⟩
  · exact congrArg ThawSide.tb hu
  · rw [hside, hu, hgate, hlatch]

end ThawNow

/-! ### What a THAW answers -/

/-- The answer of a THAW: whether its master is frozen again, and how long the freeze lasted. -/
def thawOut (again : Bool) (dur : Nat) : List Byte := toLe 4 (if again then 1 else 0) ++ toLe 8 dur

theorem thawOut_fields (again : Bool) (dur : Nat) : (thawOut again dur).length = 12 ∧
    fld (thawOut again dur) 0 4 = (if again then 1 else 0) ∧ fld (thawOut again dur) 4 8 = dur % 2 ^ 64 := by
  refine ⟨by simp [thawOut], ?_, ?_⟩
  · rw [thawOut, fld_append_lt _ _ _ _ (by simp), fld_toLe]
    cases again <;> rfl
  · rw [thawOut, fld_append_ge _ _ _ _ (by simp), length_toLe, fld_toLe]
    rfl

/-- R14, R116: a THAW by what it meets. -/
theorem body_thaw (p : Path) (i : List Byte) (s : State) : cmdThaw.body p i s =
    if masterRsvd (fld i 0 4) then (rej 2 0x0D84 0, s) else
    match s.gate.freezes.find? (fun f => f.master = fld i 0 4) with
    | none => ({ out := zeros 12 }, s)
    | some f =>
      if f.tb = tbNow s then ({ out := toLe 4 1 ++ zeros 8 }, s)
      else thawNow (fld i 0 4) (if pathRole s p = 2 then 2 else 1) f s := rfl

section BodyThaw

variable {p : Path} {i : List Byte} {s : State} {f : Freeze}

theorem body_thaw_of_frozen (hrsvd : masterRsvd (fld i 0 4) = false)
    (hfind : s.gate.freezes.find? (fun f => f.master = fld i 0 4) = some f) (htb : f.tb ≠ tbNow s) : cmdThaw.body p i s =
      ({ out := thawOut (retrigger s (fld i 0 4)).isSome (tbNow s - f.tb)
         recs := if thas s.sad.img.freezes (freezeSlot (fld i 0 4)) then [rk 9 (freezeSlot (fld i 0 4) / 64)] else [] },
       (thawNow (fld i 0 4) (if pathRole s p = 2 then 2 else 1) f s).2) := by
  rw [body_thaw, hrsvd, hfind]
  exact if_neg htb

theorem body_thaw_of_new (hrsvd : masterRsvd (fld i 0 4) = false)
    (hfind : s.gate.freezes.find? (fun f => f.master = fld i 0 4) = some f) (htb : f.tb = tbNow s) :
    cmdThaw.body p i s = ({ out := toLe 4 1 ++ zeros 8 }, s) := by
  rw [body_thaw, hrsvd, hfind]
  exact if_pos htb

theorem body_thaw_of_free (hrsvd : masterRsvd (fld i 0 4) = false)
    (hfind : s.gate.freezes.find? (fun f => f.master = fld i 0 4) = none) : cmdThaw.body p i s = ({ out := zeros 12 }, s) := by
  rw [body_thaw, hrsvd, hfind]
  rfl

end BodyThaw

@[simp] theorem keeper_takeIn (op : Nat) (p : Path) (i : List Byte) (s : State) : (takeIn op p i s).keeper = s.keeper := by cases p <;> rfl
@[simp] theorem cache_takeIn (op : Nat) (p : Path) (i : List Byte) (s : State) : (takeIn op p i s).cache = s.cache := by cases p <;> rfl
@[simp] theorem medium_takeIn (op : Nat) (p : Path) (i : List Byte) (s : State) : (takeIn op p i s).medium = s.medium := by cases p <;> rfl
@[simp] theorem masterLds_takeIn_of_ld {m : Nat} (hm : m / 268435456 = 1) (op : Nat) (p : Path) (i : List Byte) (s : State) :
    masterLds (takeIn op p i s) m = masterLds s m := by simp [masterLds, hm]

section GivesThaw

variable {p : Path} {i : List Byte} {s : State} {f : Freeze} (h : Admitted cmdThaw p i s) (hrsvd : masterRsvd (fld i 0 4) = false)
  (hfind : s.gate.freezes.find? (fun f => f.master = fld i 0 4) = some f) (htb : f.tb ≠ tbNow s) (hempty : ∀ q, (port s q).ingress = [])

include h hrsvd hfind htb hempty

/-- R116, R118: a THAW whose master has no record, and no trigger of the cycle, completes at once. -/
theorem gives_thaw_once (hagain : retrigger s (fld i 0 4) = none) (hrec : thas s.sad.img.freezes (freezeSlot (fld i 0 4)) = false) :
    Gives (.thaw p i) s (fun t => Succeeded p (thawOut false (tbNow s - f.tb)) t ∧
      (∀ g, g ∈ t.gate.freezes ↔ g ∈ s.gate.freezes ∧ g.master ≠ fld i 0 4) ∧
      (∀ g, g ∈ t.keeper.latch ↔ g ∈ s.keeper.latch ∧ g.master ≠ fld i 0 4) ∧
      (fld i 0 4 / 268435456 = 1 → ∀ k ∈ masterLds s (fld i 0 4), (ldAt t k).poisonCnt = 0) ∧ t.sad = s.sad ∧ t.cache = s.cache ∧
      t.medium = s.medium) := by
  have hbody := body_thaw_of_frozen (p := p) (s := takeIn cmdThaw.op p i s) hrsvd (by simpa using hfind) (by simpa using htb)
  obtain ⟨hside, hcount⟩ := thawSide_thawNow_once (f := f) (m := fld i 0 4) (s := takeIn cmdThaw.op p i s)
    (path := if pathRole (takeIn cmdThaw.op p i s) p = 2 then 2 else 1) (by simpa using hempty) (by simpa using hagain)
  refine (gives_payload rfl h (by simpa [hagain, hrec] using hbody) ((congrArg ThawSide.mainUp hside).trans (mainUp_takeIn h))).imp
    fun t ⟨hdone, honly⟩ => ⟨hdone, fun g => ?_, fun g => ?_, fun hm k hk => ?_, ?_, ?_, ?_⟩
  · have hgate := honly.gate.trans (congrArg ThawSide.gate hside)
    simpa [hgate] using mem_freezes_without
  · have hlatch := (congrArg Keeper.latch honly.keeper).trans (congrArg ThawSide.latch hside)
    simp [hlatch]
  · have hzero := hcount hm k (by rwa [masterLds_takeIn_of_ld hm])
    rw [← honly.ld k] at hzero
    exact hzero
  · have hsad := honly.sad.trans (congrArg ThawSide.sad hside)
    simp [hsad, thawSad, hrec]
  · exact (honly.cache.trans (congrArg ThawSide.cache hside)).trans (cache_takeIn ..)
  · exact (honly.medium.trans (congrArg ThawSide.medium hside)).trans (medium_takeIn ..)

/-- R401: a THAW whose master has a record waits for the commit that drops it. -/
theorem gives_thaw_record (hagain : retrigger s (fld i 0 4) = none) (hrec : thas s.sad.img.freezes (freezeSlot (fld i 0 4)) = true) :
    Gives (.thaw p i) s (fun t => Awaits p 0xC10A [rk 9 (freezeSlot (fld i 0 4) / 64)] .none t ∧
      tget t.sad.img.freezes (freezeSlot (fld i 0 4)) = none ∧
      (∀ x, x ≠ freezeSlot (fld i 0 4) → tget t.sad.img.freezes x = tget s.sad.img.freezes x) ∧
      (∀ g, g ∈ t.gate.freezes ↔ g ∈ s.gate.freezes ∧ g.master ≠ fld i 0 4)) := by
  have hbody := body_thaw_of_frozen (p := p) (s := takeIn cmdThaw.op p i s) hrsvd (by simpa using hfind) (by simpa using htb)
  obtain ⟨hside, -⟩ := thawSide_thawNow_once (f := f) (m := fld i 0 4) (s := takeIn cmdThaw.op p i s)
    (path := if pathRole (takeIn cmdThaw.op p i s) p = 2 then 2 else 1) (by simpa using hempty) (by simpa using hagain)
  have hsad := (congrArg ThawSide.sad hside).trans (if_pos (by simpa using hrec))
  rw [sad_takeIn, if_pos hrec] at hbody
  refine (gives_awaits rfl h hbody ((congrArg ThawSide.mainUp hside).trans (mainUp_takeIn h)) (List.cons_ne_nil _ _)
    (fun x hx => ?_)).imp fun t ⟨hwaits, honly⟩ => ⟨hwaits, ?_, fun x hx => ?_, fun g => ?_⟩
  · exact (congrArg (x ∈ ·) (congrArg Saddle.dirty hsad)).mpr ((mem_dirty_modImg ..).mpr (.inl hx))
  · rw [honly.sad.trans hsad, dropFreezeRec, img_modImg]
    exact tget_tdel_same ..
  · rw [honly.sad.trans hsad, dropFreezeRec, img_modImg, sad_takeIn]
    exact tget_tdel_ne _ hx
  · have hgate := honly.gate.trans (congrArg ThawSide.gate hside)
    simpa [hgate] using mem_freezes_without

/-- R117: a THAW with a trigger of its cycle leaves its master frozen by that trigger. -/
theorem gives_thaw_again {g : Freeze} (hagain : retrigger s (fld i 0 4) = some g)
    (hrec : thas s.sad.img.freezes (freezeSlot (fld i 0 4)) = false) :
    Gives (.thaw p i) s (fun t => Succeeded p (thawOut true (tbNow s - f.tb)) t ∧ FrozenWith (fld i 0 4) g.code t ∧
      (∀ g ∈ t.gate.freezes, g.master = fld i 0 4 → g.tb = tbNow s) ∧ t.sad = s.sad ∧ t.cache = s.cache) := by
  have hbody := body_thaw_of_frozen (p := p) (s := takeIn cmdThaw.op p i s) hrsvd (by simpa using hfind) (by simpa using htb)
  obtain ⟨e, hmaster, hcode, hnow, hside⟩ := thawSide_thawNow_again (f := f) (m := fld i 0 4) (s := takeIn cmdThaw.op p i s)
    (path := if pathRole (takeIn cmdThaw.op p i s) p = 2 then 2 else 1) (by simpa using hempty) (by simpa using hagain)
  have hfreezes := congrArg (fun v => v.gate.freezes) hside
  refine (gives_payload rfl h (by simpa [hagain, hrec] using hbody) ((congrArg ThawSide.mainUp hside).trans (mainUp_takeIn h))).imp
    fun t ⟨hdone, honly⟩ => ⟨hdone, ⟨e, ?_, hmaster, hcode⟩, fun x hx hxm => ?_, ?_, ?_⟩
  · rw [honly.gate]
    exact hfreezes ▸ List.mem_append_right _ List.mem_cons_self
  · rw [honly.gate] at hx
    rcases List.mem_append.mp (hfreezes ▸ hx) with hold | hnew
    · exact absurd hxm (mem_freezes_without.mp hold).2
    · rw [List.mem_singleton.mp hnew, hnow]
      exact tbNow_takeIn ..
  · have hsad := honly.sad.trans (congrArg ThawSide.sad hside)
    simp [hsad, thawSad, hrec]
  · exact (honly.cache.trans (congrArg ThawSide.cache hside)).trans (cache_takeIn ..)

end GivesThaw

/-- Settles O39. That a map's ranges take the block where they are, or the lowest that is free, is the model's choice (log 87). -/
theorem mapAndThawCommands : Obligations.MapAndThawCommands := by
  unfold Obligations.MapAndThawCommands
  refine ⟨⟨fun s p i k h hop htyp hdyn hpart hn => ⟨fun hgood hroom => ?map, fun o hbad => ?badMap⟩,
    fun s p i k h hop hmask => ⟨fun hmgmt => ?mgmt, fun hmgmt hlow hhigh hsum => ?contract, fun hmgmt hlow hhigh hsum => ?overSum⟩⟩,
    fun s p i f h hrsvd hfind htb hagain hempty => ⟨fun hrec => ?thaw, fun hrec => ?thawRecord⟩,
    fun s p i f g h hrsvd hfind htb hagain hempty hrec => ?again, fun s p i f h hrsvd hfind htb => ?sameCycle,
    fun s p i h => ⟨fun hrsvd hfind => ?thawed, fun hrsvd => ?reserved⟩⟩
  case map =>
    let m := ldMapOf (tgetD s.sad.img.ldMaps (ldInst k) {}) i
    let v := takeIn cmdSetLdMap.op p i s
    have hbody := body_setLdMap_stored (p := p) (s := v) ((ldOperand_takeIn ..).trans hop) htyp hdyn hpart hn
      ((ldMapBad_takeIn ..).trans hgood) (by simpa [v] using hroom)
    rw [sad_takeIn] at hbody
    refine (gives_awaits rfl h hbody (mainUp_takeIn h) (List.cons_ne_nil _ _) (ldMapRecs_dirty _ _ _)).imp fun t ⟨hwaits, honly⟩ => ?_
    have himg : t.sad.img.ldMaps = (withMap (ldInst k) m s.sad.img).ldMaps := by
      rw [honly.sad, ldMapStored, img_markRecs, setMaps, img_modImg, sad_takeIn]
    have htype : (m.typ = .tenant ↔ fld i 2 1 = 1) ∧ (m.typ = .management ↔ fld i 2 1 = 2) := by
      simp only [m, ldMapOf]
      split
      · simp_all
      · split <;> simp_all
    refine ⟨m, _, hwaits, List.mem_cons_self, ?_, htype.1, htype.2, rfl, fun ht => if_pos ht, ?_, ?_, rfl, fun x hx => ?_, fun j => ?_⟩
    · rw [himg]
      exact tget_withMap_same ..
    · intro hd
      simp [m, ldMapOf, hd]
    · intro hd
      simp [m, ldMapOf, hd]
    · rw [himg]
      exact tget_withMap_ne m _ hx
    · exact (honly.map j).trans (map_takeIn ..)
  case badMap =>
    exact gives_turned rfl h (body_setLdMap_bad ((ldOperand_takeIn ..).trans hop) htyp hdyn hpart hn ((ldMapBad_takeIn ..).trans hbad))
  case mgmt =>
    refine gives_turned rfl h ?_
    rw [body_setContract ((ldOperand_takeIn ..).trans hop) hmask, if_pos (by simpa using hmgmt)]
  case overSum =>
    refine gives_turned rfl h ?_
    rw [body_setContract ((ldOperand_takeIn ..).trans hop) hmask, if_neg (by simpa using hmgmt), if_neg (by omega),
      if_pos (by simpa using hsum)]
  case contract =>
    have hbody := body_setContract (p := p) ((ldOperand_takeIn cmdSetContract.op p i s i).trans hop) hmask
    rw [if_neg (by simpa using hmgmt), if_neg (by omega), if_neg (by simpa using hsum)] at hbody
    refine (gives_awaits rfl h hbody (mainUp_takeIn h) (List.cons_ne_nil _ _) (fun x hx => ?_)).imp fun t ⟨hwaits, honly⟩ => ?_
    · exact (mem_dirty_modImg ..).mpr (.inl hx)
    · refine ⟨_, hwaits, ?_, ?_, fun j => (honly.map j).trans (map_takeIn ..)⟩
      · rw [honly.sad, contractStored, img_modImg]
        exact tget_tset_same ..
      · rw [sad_takeIn]
        rfl
  case thaw =>
    obtain ⟨hlen, hfree, hlasted⟩ := thawOut_fields false (tbNow s - f.tb)
    exact ⟨_, hlen, hfree, hlasted, gives_thaw_once h hrsvd hfind htb hempty hagain hrec⟩
  case thawRecord => exact gives_thaw_record h hrsvd hfind htb hempty hagain hrec
  case again =>
    obtain ⟨hlen, hfrozen, hlasted⟩ := thawOut_fields true (tbNow s - f.tb)
    exact ⟨_, hlen, hfrozen, hlasted, gives_thaw_again h hrsvd hfind htb hempty hagain hrec⟩
  case sameCycle =>
    exact (gives_payload rfl h (body_thaw_of_new hrsvd (by simpa using hfind) (by simpa using htb)) (mainUp_takeIn h)).imp
      fun t ⟨hdone, honly⟩ => ⟨hdone, (onlyCtx_takeIn ..).then_log honly⟩
  case thawed =>
    exact (gives_payload rfl h (body_thaw_of_free hrsvd (by simpa using hfind)) (mainUp_takeIn h)).imp
      fun t ⟨hdone, honly⟩ => ⟨hdone, (onlyCtx_takeIn ..).then_log honly⟩
  case reserved => exact gives_turned rfl h ((body_thaw ..).trans (if_pos hrsvd))

end Sys2Proof.Machine

/-! SUPPORT. Withheld S2M credits and held responses (R73, R74, R120), old requests (R156), and the Tollgate's timed events (R93,
R98, R100, R111). -/

namespace Sys2Proof.Machine

/-- An event of the main die that runs has its effect. -/
theorem gives_whenMain {c : Instr} {f : State → State} {s : State} {P : State → Prop} (hx : exec c s = .next (whenMain f s))
    (hmain : s.mainUp = true) (hP : P (f s)) : Gives c s P :=
  gives_of_exec hx (if_pos hmain) hP

/-! ### What a response changes of its port, and what it leaves alone -/

/-- R71, R76: a tag that gets free changes requests and M2S credits of its port alone. -/
theorem port_freeTag (r : Req) (s : State) : ∃ reqs old req rwd, port (freeTag r s) r.port =
    { port s r.port with reqs := reqs, oldReqs := old, reqCredits := req, rwdCredits := rwd } := by
  unfold freeTag
  dsimp only
  rw [apply_ite (port · r.port), port_modLd, ite_self, port_modPort_same]
  unfold oldDone
  split <;> exact ⟨_, _, _, _, rfl⟩

/-- R73: a response uses its credit, and its request's tag is free. -/
theorem port_sendResp (n : Nat) (r : Req) (k : RespKind) (s : State) : ∃ reqs old req rwd, port (sendResp n r k s) r.port =
    useCredit k { port s r.port with reqs := reqs, oldReqs := old, reqCredits := req, rwdCredits := rwd } := by
  obtain ⟨reqs, old, req, rwd, hfree⟩ := port_freeTag r s
  refine ⟨reqs, old, req, rwd, ?_⟩
  have hsent : port (sendResp n r k s) r.port =
      port (modPort r.port (useCredit k) (meterRead r (n - r.stamp) (meterWrite r (freeTag r s)))) r.port := rfl
  rw [hsent, port_modPort_same, port_eq_of_ports (s := freeTag r s) (by simp), hfree]

theorem gate_extremeHi (i : Nat) (v : Int) (s : State) : (extremeHi i v s).gate = s.gate := by
  unfold extremeHi
  split
  · split <;> rfl
  · rfl

theorem gate_sendResp (n : Nat) (r : Req) (k : RespKind) (s : State) : (sendResp n r k s).gate = s.gate := by
  have hfree : (freeTag r s).gate = s.gate := by rw [show freeTag r s = _ from onlyPorts_freeTag r s]
  have hwrite : ∀ t, (meterWrite r t).gate = t.gate := fun t => by
    unfold meterWrite
    split
    · simp
    · rfl
  have hread : ∀ lat t, (meterRead r lat t).gate = t.gate := fun lat t => by
    unfold meterRead
    split
    · simp [gate_extremeHi]
    · rfl
  have hsent : (sendResp n r k s).gate = (meterRead r (n - r.stamp) (meterWrite r (freeTag r s))).gate := rfl
  rw [hsent, hread, hwrite, hfree]

theorem port_emit (code inst a b c d : Nat) (s : State) (q : Nat) : port (emit code inst a b c d s) q = port s q :=
  port_eq_of_ports (by simp) q

theorem port_endWithheld (p : Nat) (s : State) :
    ∃ b, port (endWithheld p s) p = { port s p with withheldSince := none, withheldRec := b } := by
  unfold endWithheld
  split
  · rename_i h
    exact ⟨(port s p).withheldRec, h ▸ rfl⟩
  · refine ⟨false, ?_⟩
    split
    · exact (port_emit ..).trans (port_modPort_same ..)
    · exact port_modPort_same ..

/-- R74: what the end of an episode leaves alone. -/
theorem endWithheld_keeps (p : Nat) (s : State) : interior (endWithheld p s) = interior s ∧
    (endWithheld p s).gate = s.gate ∧ (endWithheld p s).ports.sent = s.ports.sent := by
  unfold endWithheld
  split
  · exact ⟨rfl, rfl, rfl⟩
  · split
    · simp [interior, modPort]
    · exact ⟨rfl, rfl, rfl⟩

/-- R120: one held response is in order. -/
theorem roundRobin_single {h : Nat × Req × RespKind} (hld : h.2.1.ld < 17) : roundRobin [h] = [h] := by
  have hone : ∀ l, ([h].filter (fun x => x.2.1.ld == l))[0]? = if h.2.1.ld = l then some h else none := fun l => by
    by_cases hl : h.2.1.ld = l <;> simp [hl]
  have hrange : ∀ n, (List.range n).filterMap (fun l => if h.2.1.ld = l then some h else none) = if h.2.1.ld < n then [h] else [] := by
    intro n
    induction n with
    | zero => rfl
    | succ n ih =>
      rw [List.range_succ, List.filterMap_append, ih]
      rcases lt_trichotomy h.2.1.ld n with hlt | heq | hgt
      · simp [hlt, hlt.ne, Nat.lt_succ_of_lt hlt]
      · simp [heq]
      · simp [hgt.ne', Nat.not_lt_of_gt hgt, Nat.not_lt_of_ge (Nat.succ_le_of_lt hgt)]
  simp only [roundRobin, List.length_singleton, List.range_one, List.flatMap_cons, List.flatMap_nil, List.append_nil, hone]
  rw [hrange, if_pos hld]

/-- The state of a credit return before held responses go. -/
def creditsBack (p ndr drs : Nat) (s : State) : State :=
  modPort p (fun x => { x with held := [], ndrCredits := x.ndrCredits + ndr, drsCredits := x.drsCredits + drs }) (endWithheld p s)

theorem port_creditsBack (p ndr drs : Nat) (s : State) : ∃ b, port (creditsBack p ndr drs s) p = { port s p with
    withheldSince := none, withheldRec := b, held := [], ndrCredits := (port s p).ndrCredits + ndr
    drsCredits := (port s p).drsCredits + drs } := by
  obtain ⟨b, hb⟩ := port_endWithheld p s
  exact ⟨b, by rw [creditsBack, port_modPort_same, hb]⟩

/-- R73: the credits are back, and the held responses go in round-robin order. -/
theorem gives_s2mCreditReturn {p ndr drs : Nat} {s : State} {P : State → Prop} (hmain : s.mainUp = true) (hup : (port s p).up = true)
    (hempty : (port (forAll (roundRobin (port s p).held) sendHeld (creditsBack p ndr drs s)) p).ingress = [])
    (hP : P (modPort p (fun x => { x with ingress := [] })
      (forAll (roundRobin (port s p).held) sendHeld (creditsBack p ndr drs s)))) :
    Gives (.s2mCreditReturn ⟨p, ndr, drs⟩) s P := by
  refine gives_whenMain rfl hmain ?_
  rw [← drainIngress_of_empty hempty] at hP
  simpa [hup, creditsBack] using hP

/-! ### Old requests (R156) -/

theorem emit_modPort (code inst a b c d p : Nat) (f : Port → Port) (s : State) :
    emit code inst a b c d (modPort p f s) = modPort p f (emit code inst a b c d s) := by
  unfold emit emitN
  rw [show (modPort p f s).mainUp = s.mainUp from rfl]
  generalize (if s.mainUp then queueOf code inst else none) = q
  cases q <;> rfl

/-- A change of a port depends on that port alone. -/
theorem modPort_congr {p : Nat} {f g : Port → Port} {s : State} (h : f (port s p) = g (port s p)) : modPort p f s = modPort p g s := by
  simp only [modPort, tmod]
  rw [show f (tgetD s.ports.ports p {}) = g (tgetD s.ports.ports p {}) from h]

/-- R156: whether a request with a tag has waited 25 ms and has no record yet. -/
def overAge (l tag now : Nat) (r : Req) : Bool := r.ld == l && r.tag == tag && !r.aged && decide (r.stamp + 25000000 ≤ now)

/-- R156: the requests of a port once those with a tag that have waited 25 ms have their record. -/
def markAged (l tag now : Nat) (reqs : List Req) : List Req :=
  reqs.map (fun y => if overAge l tag now y then { y with aged := true } else y)

theorem aged_of_mem_markAged {l tag now : Nat} {reqs : List Req} {y : Req} (hy : y ∈ markAged l tag now reqs) (hl : y.ld = l)
    (ht : y.tag = tag) (hdue : y.stamp + 25000000 ≤ now) : y.aged = true := by
  obtain ⟨x, -, hx⟩ := List.mem_map.mp hy
  split at hx
  · rw [← hx]
  · rename_i hnot
    subst hx
    cases haged : x.aged with
    | true => rfl
    | false => exact absurd (by simp [overAge, hl, ht, haged, hdue]) hnot

theorem exec_requestAge25ms {p l tag : Nat} {r : Req} {s : State} (hmain : s.mainUp = true)
    (hfind : (port s p).reqs.find? (overAge l tag (tbNow s)) = some r) (hheld : (port s p).held = []) :
    exec (.requestAge25ms p l tag) s = .next (emit 0x0404 0xFF (ldMaster p l) r.op.number tag ((tbNow s - r.stamp) / 1000)
      (modPort p (fun x => { x with reqs := markAged l tag (tbNow s) x.reqs }) s)) := by
  refine congrArg _ ((if_pos hmain).trans ?_)
  change (match (port s p).reqs.find? (overAge l tag (tbNow s)) with | none => _ | some r => _) = _
  rw [hfind, hheld]
  rfl

theorem ldAt_tmap_of_thas {k : Nat} {s : State} (f : Nat → Ld → Ld) (hk : thas s.ports.lds k = true) :
    ldAt { s with ports := { s.ports with lds := tmap s.ports.lds f } } k = f k (ldAt s k) := by
  obtain ⟨l, hl⟩ := Option.isSome_iff_exists.mp hk
  simp [ldAt, tgetD, tget_tmap, hl]

theorem ldAt_tmap_of_not_thas {k : Nat} {s : State} (f : Nat → Ld → Ld) (hk : thas s.ports.lds k = false) :
    ldAt { s with ports := { s.ports with lds := tmap s.ports.lds f } } k = ldAt s k := by
  have hnone : tget s.ports.lds k = none := Option.not_isSome_iff_eq_none.mp (Bool.eq_false_iff.mp hk)
  simp [ldAt, tgetD, tget_tmap, hnone]

/-- Settles O12. That a replay is counted and not reported through AER (log 3), and that a freeze takes the slot of its master
(log 53), is the model's choice. -/
theorem portAndTollgateTimers : Obligations.PortAndTollgateTimers := by
  unfold Obligations.PortAndTollgateTimers
  refine ⟨⟨fun s p t0 hmain hup hsince hrec hdue => ?withheld, fun s p ndr drs r0 r k hmain hup hin hheld hport hld hcredit => ?held,
    fun s p ndr drs hmain hup hin hheld => ?noneHeld, fun s p l tag r hmain hfind hheld => ?aged, fun s p n hmain hup => ?replay⟩,
    fun s p l n hmain hpend hlow => ?lowered, fun s hmain => ?window, fun s p l leg hmain => ?grace, fun s f hmain hf hnew => ?freezes⟩
  case withheld =>
    have hnow : withheldDue s p = true := by simp [withheldDue, hsince, hup, hrec, hdue]
    refine gives_of_exec rfl ((if_pos hmain).trans (if_pos hnow)) ⟨?_, fun q hq => ?_, ?_⟩
    · exact (port_emit ..).trans (port_modPort_same ..)
    · exact (port_emit ..).trans (port_modPort_ne _ _ hq)
    · rw [emit_modPort]
      conv_lhs => rw [emit_eq]
      simp [modPort]
  case held =>
    obtain ⟨b, hback⟩ := port_creditsBack p ndr drs s
    obtain ⟨hinterior, hgate, hsent⟩ := endWithheld_keeps p s
    have hfree : s2mFree (port (creditsBack p ndr drs s) r.port) k = true := by
      rw [hport, hback]
      cases k <;> simpa [s2mFree, hasData] using hcredit
    have hsends : forAll (roundRobin (port s p).held) sendHeld (creditsBack p ndr drs s) = sendResp r0 r k (creditsBack p ndr drs s) := by
      rw [hheld, roundRobin_single hld]
      exact if_pos hfree
    obtain ⟨reqs, old, req, rwd, hresp⟩ := port_sendResp r0 r k (creditsBack p ndr drs s)
    rw [hport, hback] at hresp
    refine gives_s2mCreditReturn hmain hup ?_ ?_
    · rw [hsends, hresp]
      cases k <;> exact hin
    · rw [hsends, port_modPort_same, hresp]
      refine ⟨?_, ?_, ?_, ?_, ?_, ?_, ?_⟩
      · cases k <;> rfl
      · cases k <;> rfl
      · cases k <;> rfl
      · cases k <;> rfl
      · have hnow : tbNow (creditsBack p ndr drs s) = tbNow s := congrArg (fun i => i.chassis.tb) hinterior
        refine (sent_sendResp ..).trans ?_
        rw [hnow, hport]
        exact congrArg _ hsent
      · exact (congrArg Interior.cache (interior_sendResp ..)).trans (congrArg Interior.cache hinterior)
      · exact (gate_sendResp r0 r k _).trans hgate
  case noneHeld =>
    obtain ⟨b, hback⟩ := port_creditsBack p ndr drs s
    obtain ⟨-, -, hsent⟩ := endWithheld_keeps p s
    have hnone : forAll (roundRobin (port s p).held) sendHeld (creditsBack p ndr drs s) = creditsBack p ndr drs s := by
      rw [hheld]
      rfl
    refine gives_s2mCreditReturn hmain hup ?_ ?_ <;> rw [hnone]
    · rw [hback]
      exact hin
    · rw [port_modPort_same, hback]
      exact ⟨rfl, rfl, hsent⟩
  case aged =>
    have hreqs : (port (emit 0x0404 0xFF (ldMaster p l) r.op.number tag ((tbNow s - r.stamp) / 1000)
        (modPort p (fun x => { x with reqs := markAged l tag (tbNow s) x.reqs }) s)) p).reqs =
        markAged l tag (tbNow s) (port s p).reqs := by rw [port_emit, port_modPort_same]
    refine gives_of_exec (exec_requestAge25ms hmain hfind hheld) rfl ⟨?_, fun y hy => ?_, ?_⟩
    · rw [hreqs, emit_modPort]
      exact modPort_congr (by rw [port_emit])
    · exact aged_of_mem_markAged (hreqs ▸ hy)
    · rw [hreqs, markAged, List.length_map]
  case replay => exact gives_of_exec rfl ((if_pos hmain).trans (if_pos hup)) rfl
  case lowered =>
    refine gives_whenMain rfl hmain ?_
    rw [hpend]
    dsimp only
    rw [if_pos hlow]
    exact ⟨ldAt_modLd_same .., fun k hk => ldAt_modLd_ne _ _ hk, rfl⟩
  case window =>
    exact gives_of_exec rfl (if_pos hmain) ⟨fun k hk => ldAt_tmap_of_thas _ hk, fun k hk => ldAt_tmap_of_not_thas _ hk, rfl⟩
  case grace =>
    refine gives_of_exec rfl (if_pos hmain) ⟨fun g => ?_, fun k hk => ldAt_modLd_ne _ _ hk, rfl⟩
    rw [ldAt_modLd_same]
    simp
  case freezes =>
    have hcommit : freezeCommit s =
        modImg [rk 9 (freezeSlot f.master / 64)] (fun m => { m with freezes := tset m.freezes (freezeSlot f.master) f }) s := by
      simp [freezeCommit, hf, hnew]
    refine gives_whenMain rfl hmain ?_
    rw [hcommit, img_modImg]
    exact ⟨tget_tset_same .., (mem_dirty_modImg ..).mpr (.inl List.mem_cons_self), fun i hi => tget_tset_ne _ _ hi, rfl⟩

end Sys2Proof.Machine

/-! SUPPORT. Link training (R56 to R60, R66, R73, R77 to R79): what a port trains to, what a lost link leaves of its port. -/

namespace Sys2Proof.Machine

/-! ### A port that trains -/

/-- R56 to R58, R73: a port without requests of an old link, trained with a partner. -/
def trainedPort (e : PortEnt) (w : Nat) (x : Partner) (y : Port) : Port :=
  { y with up := true, gen := min e.maxGen x.gen, width := min w x.width, cxl := min e.maxCxl x.cxl
           flit256 := min e.maxGen x.gen == 6, ent := e, fails := 0, reqCredits := 256, rwdCredits := 256
           ndrCredits := x.ndr, drsCredits := x.drs }

/-- R77: the records of a training. -/
def logTraining (p : Nat) (e : PortEnt) (w : Nat) (x : Partner) (s : State) : State :=
  let (gen, width, cxl) := trained e w x
  let s1 := emit 0x0101 p p (Config.free 0x0101 (gen * 64 + width)) (Config.free 0x10101 cxl)
    (Config.free 0x20101 (if gen = 6 then 1 else 0)) s
  if gen < e.maxGen ∨ width < w then emitOpen 0x010A p s1 else s1

/-- A state without its ports and the places in which records stand. -/
def unlinked (s : State) : State := { s with ports := {}, relay := {}, cairn := {}, freeCtr := 0 }

theorem unlinked_emit (code inst a b c d : Nat) (s : State) : unlinked (emit code inst a b c d s) = unlinked s := by
  rw [emit_eq]
  rfl

theorem unlinked_emitOpen (code inst : Nat) (s : State) : unlinked (emitOpen code inst s) = unlinked s := unlinked_emit ..

theorem eq_of_unlinked {s u : State} (h : unlinked u = unlinked s) :
    u = { s with ports := u.ports, relay := u.relay, cairn := u.cairn, freeCtr := u.freeCtr } :=
  congrArg (fun v => { v with ports := u.ports, relay := u.relay, cairn := u.cairn, freeCtr := u.freeCtr }) h

theorem unlinked_logTraining (p : Nat) (e : PortEnt) (w : Nat) (x : Partner) (s : State) :
    unlinked (logTraining p e w x s) = unlinked s := by
  unfold logTraining
  dsimp only
  split
  · exact (unlinked_emitOpen ..).trans (unlinked_emit ..)
  · exact unlinked_emit ..

theorem ports_logTraining (p : Nat) (e : PortEnt) (w : Nat) (x : Partner) (s : State) :
    (logTraining p e w x s).ports = s.ports := by
  unfold logTraining
  dsimp only
  split
  · exact (emit_ports ..).trans (emit_ports ..)
  · exact emit_ports ..

/-- R55: MGMT_PORT at a training. -/
theorem mgmtAtTraining_frame (p : Nat) (s : State) :
    mgmtAtTraining p s = { s with ports := { s.ports with mgmt := (mgmtAtTraining p s).ports.mgmt } } := by
  unfold mgmtAtTraining
  split
  · split <;> rfl
  · split <;> rfl

/-- The state of a training before the LDs' memory becomes active. -/
def linkTrained (p w : Nat) (x : Partner) (s : State) : State :=
  logTraining p (tgetD (governing s).ports p {}) w x
    (modPort p (trainedPort (tgetD (governing s).ports p {}) w x) (mgmtAtTraining p s))

theorem linkUp_of_trains {p g m i : Nat} {x : Partner} {s : State} (hgroup : groupOf s p = some (g, m, i))
    (hdown : (port s p).up = false) (hstay : (port s p).stayDown = false) (hretry : (port s p).retryDue = false)
    (hperst : s.ports.perst.getLsbD g = false) (hsurvey : s.survey.instr ≠ 0)
    (hgen : 4 ≤ min (tgetD (governing s).ports p {}).maxGen x.gen) (hold : (port s p).oldReqs = []) :
    linkUp p x s = activateLds p (linkTrained p (modeWidth m i) x s) := by
  unfold linkUp
  rw [hgroup]
  dsimp only [trained]
  rw [if_neg (by simp [hdown, hstay, hretry, hperst, hsurvey]; omega), hold]
  rfl

theorem unlinked_linkTrained (p w : Nat) (x : Partner) (s : State) : unlinked (linkTrained p w x s) = unlinked s := by
  rw [linkTrained, unlinked_logTraining, mgmtAtTraining_frame]
  rfl

theorem port_linkTrained (p w : Nat) (x : Partner) (s : State) :
    port (linkTrained p w x s) p = trainedPort (tgetD (governing s).ports p {}) w x (port s p) := by
  rw [linkTrained, port_eq_of_ports (congrArg Ports.ports (ports_logTraining ..)), port_modPort_same, mgmtAtTraining_frame]
  rfl

theorem mayActivate_linkTrained (p w : Nat) (x : Partner) (s : State) : mayActivate (linkTrained p w x s) = mayActivate s := by
  rw [eq_of_unlinked (unlinked_linkTrained p w x s)]
  rfl

/-! ### Memory_Active (R66, R79) -/

/-- A state without its LDs. -/
def ldless (s : State) : State := { s with ports := { s.ports with lds := [] } }

theorem eq_of_ldless {s u : State} (h : ldless u = ldless s) : u = { s with ports := { s.ports with lds := u.ports.lds } } :=
  congrArg (fun v => { v with ports := { v.ports with lds := u.ports.lds } }) h

theorem activateLds_frame (p : Nat) (s : State) :
    activateLds p s = { s with ports := { s.ports with lds := (activateLds p s).ports.lds } } := by
  refine eq_of_ldless ?_
  unfold activateLds
  split
  · exact forAll_keeps ldless (f := (modLd · _)) (fun k u => rfl) _ s
  · rfl

theorem memActive_activateLds {p l : Nat} {s : State} (hmay : mayActivate s = true) (hup : (port s p).up = true) (hl : l ≤ 16)
    (hconf : ldConfigured (activateLds p s) p l = true) : (ldAt (activateLds p s) (ldKey p l)).memActive = true := by
  rw [activateLds_frame] at hconf
  have hmem : ldKey p l ∈ configuredLds s p :=
    List.mem_map_of_mem (List.mem_filter.mpr ⟨List.mem_range.mpr (Nat.lt_succ_of_le hl), hconf⟩)
  rw [activateLds, if_pos ⟨hmay, hup⟩, ldAt_forAll_modLd (f := fun l => { l with memActive := true }) (fun _ => rfl), if_pos hmem]

/-! ### A link that is lost -/

theorem up_oldDone (p : Port) (old : List Req) : (oldDone p old).up = p.up := by unfold oldDone; split <;> rfl

theorem up_dropLink (p : Nat) (s : State) : (port (dropLink p s) p).up = false := by
  rw [dropLink, port_modPort_same, up_oldDone]

theorem portsPorts_resetPortLds (p : Nat) (s : State) : (resetPortLds p s).ports.ports = s.ports.ports := by
  refine forAll_keeps (fun u => u.ports.ports) (fun k u => ?_) _ s
  change (stopCoffer k u).ports.ports = u.ports.ports
  unfold stopCoffer
  split
  · rfl
  · simp

theorem up_loseLink (p cause : Nat) (s : State) : (port (loseLink p cause s) p).up = false := by
  change (port (resetPortLds p (dropLink p (emit 0x0102 p p cause (lossCounts p s).1 (lossCounts p s).2 s))) p).up = false
  rw [port_eq_of_ports (portsPorts_resetPortLds ..)]
  exact up_dropLink ..

theorem port_setReset (i q : Nat) (s : State) : port (setReset i s) q = port s q := rfl

/-- The state in which a failed training is counted: an up link is lost first. -/
def beforeFailure (p : Nat) (s : State) : State := if (port s p).up then setReset 9 (loseLink p 1 s) else s

theorem up_beforeFailure (p : Nat) (s : State) : (port (beforeFailure p s) p).up = false := by
  unfold beforeFailure
  split
  · rw [port_setReset]
    exact up_loseLink ..
  · rename_i h
    exact Bool.eq_false_iff.mpr h

/-- R547: a link loss shows in RESET_INFO. -/
theorem resetInfo_setReset_linkLost (s : State) : (setReset 9 s).keeper.resetInfo.getLsbD 9 = true := by
  change (s.keeper.resetInfo ||| bit1 9).getLsbD 9 = true
  rw [BitVec.getLsbD_or]
  exact Bool.or_eq_true_iff.mpr (.inr (by decide))

/-- Settles O13. That a training takes the S2M credits that the host grants from its operand is the model's choice (log 50). -/
theorem training : Obligations.Training := by
  unfold Obligations.Training
  refine ⟨fun s p g m i x hmain hgroup hdown hstay hretry hperst hsurvey hgen hold => ?up,
    fun s p rate hmain hgroup hstay => ?failure, fun s p hmain => ?retry⟩
  case up =>
    have hport : port (activateLds p (linkTrained p (modeWidth m i) x s)) p =
        trainedPort (tgetD (governing s).ports p {}) (modeWidth m i) x (port s p) := by
      rw [activateLds_frame]
      exact port_linkTrained ..
    refine gives_of_exec rfl ((if_pos hmain).trans (linkUp_of_trains hgroup hdown hstay hretry hperst hsurvey hgen hold)) ?_
    rw [hport]
    refine ⟨rfl, rfl, rfl, rfl, beq_iff_eq, rfl, rfl, rfl, rfl, rfl, fun hrecall hhealth l hl hconf => ?_, ?_⟩
    · refine memActive_activateLds ?_ (by rw [port_linkTrained]; rfl) hl hconf
      rw [mayActivate_linkTrained]
      simp [mayActivate, hrecall, hhealth]
    · refine eq_of_unlinked (Eq.trans ?_ (unlinked_linkTrained p (modeWidth m i) x s))
      rw [activateLds_frame]
      rfl
  case failure =>
    have hgo : ¬((groupOf s p).isNone = true ∨ (port s p).stayDown = true) := by simp [hstay, Option.isSome_iff_ne_none.mp hgroup]
    refine gives_of_exec rfl ((if_pos hmain).trans (if_neg hgo)) ?_
    rw [port_modPort_same, port_emit]
    refine ⟨up_beforeFailure p s, rfl, ?_, ?_, rfl, fun hup => ?_⟩
    · simp
    · simp; omega
    · have hkeeper : (emit 0x0104 p p rate ((port s p).fails + 1) 0 (beforeFailure p s)).keeper = (setReset 9 (loseLink p 1 s)).keeper := by
        rw [emit_keeper, beforeFailure, if_pos hup]
      exact ⟨(congrArg (·.resetInfo.getLsbD 9) hkeeper).trans (resetInfo_setReset_linkLost _), congrArg (·.lastCause) hkeeper⟩
  case retry =>
    refine gives_of_exec rfl (if_pos hmain) ⟨?_, fun q hq => port_modPort_ne _ _ hq, rfl⟩
    rw [port_modPort_same]
    by_cases hdue : (port s p).retryTb + 100000000 ≤ tbNow s
    · simp [hdue, Nat.not_lt.mpr hdue]
    · simp [hdue, Nat.lt_of_not_le hdue]

end Sys2Proof.Machine

/-! SUPPORT. What the standard reads answer (R62, R65, R67, R68, R92, R399, R407, R408, R410, R537): the fields of their payloads. -/

namespace Sys2Proof.Machine

/-! ### Fields of a payload -/

@[simp] theorem fld_cons_succ (b : Byte) (l : List Byte) (k n : Nat) : fld (b :: l) (k + 1) n = fld l k n := by
  simp [fld, bytesAt]

@[simp] theorem fld_cons_zero_one (b : Byte) (l : List Byte) : fld (b :: l) 0 1 = b.toNat := by
  simp [fld, bytesAt, leVal]

@[simp] theorem bytesAt_cons_succ (b : Byte) (l : List Byte) (k n : Nat) : bytesAt (b :: l) (k + 1) n = bytesAt l k n := by
  simp [bytesAt]

/-- Bytes that are zero read as zero. -/
theorem fld_zeros (k off n : Nat) : fld (zeros k) off n = 0 := by
  have hzero : ∀ m, leVal (List.replicate m 0) = 0 := fun m => by
    induction m with
    | zero => rfl
    | succ m ih => rw [List.replicate_succ, leVal, ih]; rfl
  simp only [fld, bytesAt, zeros, List.drop_replicate, List.take_replicate, hzero]

theorem bytesAt_toLeI (n : Nat) (x : Int) : bytesAt (toLeI n x) 0 n = toLeI n x := bytesAt_self _ n (length_toLeI n x)

/-! ### What a read meets in a state -/

section TakeIn

variable (op : Nat) (p : Path) (i : List Byte) (s : State)

theorem logs_takeIn (k : Nat) : (ldAt (takeIn op p i s) k).logs = (ldAt s k).logs := by rw [ldAt_takeIn]

theorem logNamed_takeIn (q : Path) (log : Nat) : logNamed (takeIn op p i s) q log = logNamed s q log := by
  simp [logNamed]

theorem celOf_takeIn (q : Path) : celOf (takeIn op p i s) q = celOf s q := by simp [celOf]

theorem shutdown_takeIn (k : Nat) : (ldAt (takeIn op p i s) k).shutdown = (ldAt s k).shutdown := by rw [ldAt_takeIn]

/-- The alert thresholds of an LD are not part of its context. -/
theorem alerts_takeIn (k : Nat) : (ldAt (takeIn op p i s) k).alertValid = (ldAt s k).alertValid ∧
    (ldAt (takeIn op p i s) k).alertLife = (ldAt s k).alertLife ∧ (ldAt (takeIn op p i s) k).alertTemp = (ldAt s k).alertTemp ∧
    (ldAt (takeIn op p i s) k).alertUnder = (ldAt s k).alertUnder := by
  rw [ldAt_takeIn]
  exact ⟨rfl, rfl, rfl, rfl⟩

theorem tenantLd_takeIn (k : Nat) : tenantLd (takeIn op p i s) k = tenantLd s k := by simp [tenantLd]

theorem ldLegs_takeIn (k : Nat) : ldLegs (takeIn op p i s) k = ldLegs s k := by simp [ldLegs, tenantLd_takeIn]

theorem pathLegs_takeIn (q : Path) : pathLegs (takeIn op p i s) q = pathLegs s q := by
  simp [pathLegs, ldLegs_takeIn]

end TakeIn

/-- R403: a command that is not among those that change a Saddlebag record. -/
theorem noSaddle {op : Nat} (h : (cmdInfo op).all (fun x => !x.saddle) = true) : ∀ x, cmdInfo op = some x → x.saddle = false := by
  intro x hx
  simpa [hx] using h

/-- A command without input answers what it reads. -/
theorem reads_of_noInput {c : Instr} {op : Nat} {f : Path → State → List Byte} {p : Path} {i : List Byte} {s : State}
    (hs : ∀ x, cmdInfo op = some x → x.saddle = false) (hx : exec c s = runCmd (noInput op f) p i s) (h : Admitted (noInput op f) p i s) :
    Reads c p s (f p (takeIn op p i s)) :=
  reads_payload hs hx h rfl

/-! ### Event records (R68) -/

theorem length_uuidOf (log : Nat) (e : EventRec) : (uuidOf log e).length = 16 := by
  unfold uuidOf
  split
  · rfl
  · split
    · rfl
    · exact length_padTo ..

theorem length_eventData (log : Nat) (e : EventRec) : (eventData log e).length = 80 := by
  unfold eventData
  split
  · simp
  · split
    · simp [dcData]
    · simp

theorem length_eventBytes (log : Nat) (e : EventRec) : (eventBytes log e).length = 128 := by
  simp [eventBytes, length_uuidOf, length_eventData]

/-- The payload of GET_EVENT_RECORDS. -/
def eventsOut (log : Nat) (g : EventLog) : List Byte :=
  [if g.overflow then 1 else 0, 0] ++ toLe 2 (min 65535 g.dropped) ++ toLe 8 g.firstTs ++ toLe 8 g.lastTs ++
    toLe 2 g.recs.length ++ zeros 10 ++ g.recs.flatMap (eventBytes log)

theorem eventsOut_fields (log : Nat) (g : EventLog) :
    fld (eventsOut log g) 0 1 = (if g.overflow then 1 else 0) ∧ fld (eventsOut log g) 2 2 = min 65535 g.dropped ∧
    fld (eventsOut log g) 20 2 = g.recs.length % 65536 ∧ (eventsOut log g).length = 32 + 128 * g.recs.length ∧
    ∀ j e, g.recs[j]? = some e → bytesAt (eventsOut log g) (32 + 128 * j) 128 = eventBytes log e := by
  unfold eventsOut
  refine ⟨?_, ?_, ?_, ?_, fun j e he => ?_⟩
  · simp
    split <;> rfl
  · simp [fld_append_lt, fld_toLe]
  · simp [fld_append_ge, fld_append_lt, fld_toLe]
  · simp [length_flatMap_const _ 128 (length_eventBytes log)]
    omega
  · rw [bytesAt_append_ge _ _ _ _ (by simp)]
    simpa using bytesAt_flatMap _ 128 (length_eventBytes log) g.recs j e he

theorem body_getEventRecords {p : Path} {i : List Byte} {s : State} {k : Nat} (hk : pathLd s p = some k) (hlog : fld i 0 1 < 4) :
    cmdGetEventRecords.body p i s = ({ out := eventsOut (fld i 0 1) ((ldAt s k).logs.getD (fld i 0 1) {}) }, s) := by
  have hnamed : logNamed s p (fld i 0 1) = true := by simp [logNamed, hlog]
  simp only [cmdGetEventRecords, hk, hnamed]
  rfl

/-! ### The Command Effects Log (R407) -/

/-- The entries of the Command Effects Log of a path. -/
def celCmds (s : State) (p : Path) : List CmdInfo := cmdTable.filter (fun c => c.frm.getLsbD (pathRole s p))

/-- An entry of the Command Effects Log. -/
def celEntry (c : CmdInfo) : List Byte := toLe 2 c.op ++ toLe 2 ((Config.free 0x0401 c.op) % 64 + (if c.bg then 64 else 0))

theorem celOf_eq (s : State) (p : Path) : celOf s p = (celCmds s p).flatMap celEntry := rfl

theorem length_celEntry (c : CmdInfo) : (celEntry c).length = 4 := by simp [celEntry]

theorem length_celOf (s : State) (p : Path) : (celOf s p).length = 4 * (celCmds s p).length := by
  rw [celOf_eq, length_flatMap_const _ 4 length_celEntry]

theorem op_lt_of_mem_celCmds {s : State} {p : Path} {c : CmdInfo} (h : c ∈ celCmds s p) : c.op < 65536 := by
  have hall : ∀ c ∈ cmdTable, c.op < 65536 := by decide
  exact hall c (List.mem_of_mem_filter h)

theorem length_celOf_lt (s : State) (p : Path) : (celOf s p).length < 256 ^ 4 := by
  have hlen : (celCmds s p).length ≤ cmdTable.length := List.length_filter_le ..
  have htable : cmdTable.length < 1000 := by decide
  rw [length_celOf]
  omega

/-- The opcode of an entry of the Command Effects Log, read from its start. -/
theorem fld_celOf {s : State} {p : Path} {j n : Nat} {c : CmdInfo} (hj : (celCmds s p)[j]? = some c) (hn : 4 * j + 4 ≤ n) :
    fld (bytesAt (celOf s p) 0 n) (4 * j) 2 = c.op := by
  have hentry := bytesAt_flatMap _ 4 length_celEntry (celCmds s p) j c hj
  have hfield : fld (bytesAt (celOf s p) 0 n) (4 * j) 2 = fld (bytesAt (celOf s p) (4 * j) 4) 0 2 := by
    simp only [fld, bytesAt, List.drop_zero, List.drop_take, List.take_take]
    congr 2
    omega
  rw [hfield, celOf_eq, hentry, celEntry, fld_append_lt _ _ _ _ (by simp), fld_toLe]
  exact Nat.mod_eq_of_lt (op_lt_of_mem_celCmds (List.mem_of_getElem? hj))

/-! ### The other standard reads -/

theorem body_getLog {p : Path} {i : List Byte} {s : State} (huuid : bytesAt i 0 16 = celUuid)
    (hrange : fld i 16 4 + fld i 20 4 ≤ (celOf s p).length) :
    cmdGetLog.body p i s = ({ out := bytesAt (celOf s p) (fld i 16 4) (fld i 20 4) }, s) := by
  simp [cmdGetLog, huuid, hrange]

/-- Settles O29. The layouts that the manual leaves to the CXL Specification are the model's choice (log 10). -/
theorem standardReads : Obligations.StandardReads := by
  unfold Obligations.StandardReads
  refine ⟨fun s p i h => ?identify, fun s p i h => ?bgStatus, fun s p i k h hk hlog => ?events, fun s p i h => ?policy,
    fun s p i h => ?timestamp, fun s p i h => ?logs, fun s p i h huuid hrange => ?log, fun s p i h => ?device,
    fun s p i h => ?partition, fun s p i k h hk => ?shutdown, fun s p i k h hk => ?alerts⟩
  case identify =>
    refine ⟨_, reads_of_noInput (noSaddle (by decide)) rfl h, ?_⟩
    simp [fld_append_ge, fld_append_lt, fld_toLe]
  case bgStatus =>
    refine ⟨_, reads_of_noInput (noSaddle (by decide)) rfl h, ?_⟩
    simp [fld_append_ge, fld_append_lt, fld_toLe, takeIn]
  case events =>
    have hread := reads_payload (x := .getEventRecords p i) (noSaddle (by decide)) rfl h (body_getEventRecords ((pathLd_takeIn ..).trans hk) hlog)
    rw [logs_takeIn] at hread
    exact ⟨_, hread, eventsOut_fields ..⟩
  case policy =>
    have hread := reads_of_noInput (c := .getEventInterruptPolicy p i) (noSaddle (by decide)) rfl h
    rwa [logNamed_takeIn] at hread
  case timestamp =>
    refine ⟨_, reads_of_noInput (noSaddle (by decide)) rfl h, length_toLe .., ?_⟩
    simp [fld_toLe]
  case logs =>
    have hlen := length_celOf_lt s p
    refine ⟨_, reads_of_noInput (noSaddle (by decide)) rfl h, ?_⟩
    rw [celOf_takeIn]
    have huuid : celUuid.length = 16 := rfl
    refine ⟨by simp [huuid], by simp [fld_append_lt, fld_toLe], ?_, ?_⟩
    · rw [bytesAt_append_lt _ _ _ _ (by simp [huuid]), bytesAt_append_ge _ _ _ _ (by simp)]
      rfl
    · rw [fld_append_ge _ _ _ _ (by simp [huuid])]
      simp only [List.length_append, length_toLe, length_zeros, huuid, Nat.reduceAdd, Nat.sub_self, fld_toLe]
      rw [Nat.mod_eq_of_lt hlen, length_celOf]
      rfl
  case log =>
    rw [show (cmdTable.filter (fun c => c.frm.getLsbD (pathRole s p))) = celCmds s p from rfl, ← length_celOf] at hrange
    have hread := reads_payload (x := .getLog p i) (noSaddle (by decide)) rfl h (body_getLog huuid ((celOf_takeIn ..).symm ▸ hrange))
    rw [celOf_takeIn] at hread
    refine ⟨_, hread, ?_, fun j c hstart hj hn => ?_⟩
    · simp only [bytesAt, List.length_take, List.length_drop]
      omega
    · rw [hstart]
      exact fld_celOf hj hn
  case device =>
    refine ⟨_, reads_of_noInput (noSaddle (by decide)) rfl h, ?_⟩
    simp [pathLegs_takeIn, fld_append_ge, fld_append_lt, fld_toLe, fld_zeros]
  case partition =>
    refine ⟨_, reads_of_noInput (noSaddle (by decide)) rfl h, ?_⟩
    simp [pathLegs_takeIn, fld_append_ge, fld_append_lt, fld_toLe, fld_zeros]
  case shutdown =>
    have hread := reads_of_noInput (c := .getShutdownState p i) (noSaddle (by decide)) rfl h
    simpa [hk, toLe, shutdown_takeIn] using hread
  case alerts =>
    have hread := reads_of_noInput (c := .getAlertConfiguration p i) (noSaddle (by decide)) rfl h
    obtain ⟨hvalid, hlife, htemp, hunder⟩ := alerts_takeIn 0x4201 p i s k
    simp only [pathLd_takeIn, hk, hvalid, hlife, htemp, hunder] at hread
    refine ⟨_, hread, ?_⟩
    simp [fld_append_ge, fld_append_lt, fld_toLe, bytesAt_append_ge, bytesAt_append_lt, bytesAt_toLeI]

end Sys2Proof.Machine

/-! SUPPORT. What health, firmware, poison and capacity reads answer (R62, R92, R407, R408, R410, R537): the fields of their
payloads. -/

namespace Sys2Proof.Machine

/-! ### Fields and the states that reads meet -/

theorem leVal_lt (l : List Byte) : leVal l < 256 ^ l.length := by
  induction l with
  | nil => exact Nat.one_pos
  | cons b l ih =>
    have hb := b.isLt
    rw [leVal, List.length_cons, Nat.pow_succ]
    omega

theorem fld_one_lt (l : List Byte) (off : Nat) : fld l off 1 < 256 :=
  (leVal_lt _).trans_le (Nat.pow_le_pow_right (by decide) (List.length_take_le ..))

/-- A field of a record within a payload. -/
theorem fld_of_bytesAt {l b : List Byte} {off n : Nat} (h : bytesAt l off n = b) {k m : Nat} (hk : k + m ≤ n) :
    fld l (off + k) m = fld b k m := by
  rw [← h]
  simp only [fld, bytesAt, List.drop_take, List.drop_drop, List.take_take]
  rw [Nat.min_eq_left (by omega)]

section TakeIn

variable (op : Nat) (p : Path) (i : List Byte) (s : State)

theorem health_takeIn : (takeIn op p i s).health = s.health := by cases p <;> rfl
theorem boot_takeIn : (takeIn op p i s).boot = s.boot := by cases p <;> rfl
theorem healthStatus_takeIn : healthStatus (takeIn op p i s) = healthStatus s := by cases p <;> rfl
theorem lifeUsed_takeIn : lifeUsed (takeIn op p i s) = lifeUsed s := by cases p <;> rfl
theorem tempC_takeIn : tempC (takeIn op p i s) = tempC s := by cases p <;> rfl
theorem mediaStatus_takeIn : mediaStatus (takeIn op p i s) = mediaStatus s := by cases p <;> rfl
theorem portMld_takeIn (q : Nat) : portMld (takeIn op p i s) q = portMld s q := by cases p <;> rfl
theorem dcLd_takeIn (k : Nat) : dcLd (takeIn op p i s) k = dcLd s k := by simp [dcLd, tenantLd_takeIn]

theorem poisonEnts_takeIn (k : Nat) : poisonEnts (ldAt (takeIn op p i s) k) = poisonEnts (ldAt s k) := by
  rw [poisonEnts, ldAt_takeIn]
  rfl

theorem poisonIn_takeIn (k lo hi : Nat) : poisonIn (ldAt (takeIn op p i s) k) lo hi = poisonIn (ldAt s k) lo hi := by
  rw [poisonIn, poisonEnts_takeIn]
  rfl

end TakeIn

/-! ### Health (R410) -/

/-- Three bits of a status byte. -/
theorem threeBits (a b c : Prop) [Decidable a] [Decidable b] [Decidable c] {n : Nat}
    (hn : n = (if a then 1 else 0) + (if b then 2 else 0) + (if c then 4 else 0)) :
    n < 8 ∧ (n % 2 = 1 ↔ a) ∧ (n / 2 % 2 = 1 ↔ b) ∧ (n / 4 % 2 = 1 ↔ c) := by
  subst hn
  by_cases ha : a <;> by_cases hb : b <;> by_cases hc : c <;> simp [ha, hb, hc]

theorem healthStatus_bits (s : State) : healthStatus s < 8 ∧ (healthStatus s % 2 = 1 ↔ s.health.st = 1) ∧
    (healthStatus s / 2 % 2 = 1 ↔ s.therm.fH < 1024 ∨ ∃ c ∈ serving s, (chan s c).fW < 1024) ∧
    (healthStatus s / 4 % 2 = 1 ↔ s.health.st = 4) := by
  have hbits := threeBits (s.health.st = 1) (s.therm.fH < 1024 ∨ (serving s).any (fun c => decide ((chan s c).fW < 1024)))
    (s.health.st = 4) (n := healthStatus s) rfl
  simpa only [List.any_eq_true, decide_eq_true_eq] using hbits

theorem mediaStatus_eq (s : State) : mediaStatus s =
    if s.health.st = 6 then 1 else if s.health.st = 3 ∨ s.health.st = 4 ∨ s.health.st = 5 then 2 else 0 := by
  unfold mediaStatus
  congr 2
  exact propext (by omega)

theorem lifeUsed_le (s : State) : lifeUsed s ≤ 100 := Nat.min_le_left ..

/-! ### Firmware (R537) -/

theorem length_versionText (v : Nat) : (versionText v).length = 16 := length_padTo ..

/-! ### Poison (R408) -/

/-- An entry of the poison list's payload. -/
def poisonEntry (e : PoisonEnt) : List Byte := toLe 8 (e.dpa / 64 * 64 + poisonSource e) ++ toLe 4 (e.len / 64) ++ zeros 4

theorem length_poisonEntry (e : PoisonEnt) : (poisonEntry e).length = 16 := by simp [poisonEntry]

/-- The payload of GET_POISON_LIST. -/
def poisonOut (all es : List PoisonEnt) : List Byte :=
  [if 256 < all.length then 2 else 0, 0] ++ openBytes 8 0x4300 0 ++ toLe 2 (min 256 es.length) ++ zeros 20 ++
    (es.take 256).flatMap poisonEntry

theorem poisonOut_fields (all es : List PoisonEnt) :
    fld (poisonOut all es) 10 2 = min 256 es.length ∧ (poisonOut all es).length = 32 + 16 * min 256 es.length ∧
    (fld (poisonOut all es) 0 1 = 2 ↔ 256 < all.length) ∧
    ∀ j e, j < 256 → es[j]? = some e → fld (poisonOut all es) (32 + 16 * j) 8 = (e.dpa / 64 * 64 + poisonSource e) % 2 ^ 64 ∧
      fld (poisonOut all es) (40 + 16 * j) 4 = e.len / 64 % 2 ^ 32 := by
  unfold poisonOut
  refine ⟨?_, ?_, ?_, fun j e hj he => ?_⟩
  · simp [fld_append_ge, fld_append_lt, fld_toLe]
  · simp [length_flatMap_const _ 16 length_poisonEntry]
    omega
  · by_cases hmore : 256 < all.length <;> simp [hmore]
  · have hentry : bytesAt ([if 256 < all.length then 2 else 0, 0] ++ openBytes 8 0x4300 0 ++ toLe 2 (min 256 es.length) ++
        zeros 20 ++ (es.take 256).flatMap poisonEntry) (32 + 16 * j) 16 = poisonEntry e := by
      rw [bytesAt_append_ge _ _ _ _ (by simp)]
      simpa using bytesAt_flatMap _ 16 length_poisonEntry (es.take 256) j e (by rw [List.getElem?_take_of_lt hj, he])
    refine ⟨(fld_of_bytesAt hentry (k := 0) (by omega)).trans ?_, ?_⟩
    · simp [poisonEntry, fld_append_lt, fld_toLe]
    · rw [show 40 + 16 * j = 32 + 16 * j + 8 by omega, fld_of_bytesAt hentry (by omega)]
      simp [poisonEntry, fld_append_ge, fld_append_lt, fld_toLe]

theorem body_getPoisonList {p : Path} {i : List Byte} {s : State} {k : Nat} (hk : pathLd s p = some k) :
    cmdGetPoisonList.body p i s = ({ out := poisonOut (poisonEnts (ldAt s k)) (poisonIn (ldAt s k) (fld i 0 8) (fld i 0 8 + 64 * fld i 8 8)) }, s) := by
  simp only [cmdGetPoisonList, hk, decide_eq_true_eq]
  rfl

/-! ### LDs (R407) -/

theorem body_getLdInfo {p : Path} {i : List Byte} {s : State} (hmld : portMld s (fld i 0 1) = true) : cmdGetLdInfo.body p i s =
    ({ out := openBytes 8 0x5400 0 ++ toLe 2 (ldsOn s (fld i 0 1)) ++ openBytes 1 0x5400 1 }, s) := by
  simp [cmdGetLdInfo, hmld]

/-- The payload of GET_LD_ALLOCATIONS. -/
def allocOut (lds start n : Nat) (legs : Nat → Nat) : List Byte :=
  toLe 1 lds ++ [2] ++ toLe 1 start ++ toLe 1 n ++ (List.range n).flatMap (fun j => toLe 8 (legs j) ++ zeros 8)

theorem allocOut_fields {lds start n : Nat} (legs : Nat → Nat) (hlds : lds < 256) (hstart : start < 256) (hn : n < 256) :
    fld (allocOut lds start n legs) 0 1 = lds ∧ fld (allocOut lds start n legs) 2 1 = start ∧ fld (allocOut lds start n legs) 3 1 = n ∧
    (allocOut lds start n legs).length = 4 + 16 * n ∧
    ∀ j, j < n → fld (allocOut lds start n legs) (4 + 16 * j) 8 = legs j % 2 ^ 64 := by
  have hlen : ∀ j, (toLe 8 (legs j) ++ zeros 8).length = 16 := fun j => by simp
  unfold allocOut
  refine ⟨?_, ?_, ?_, ?_, fun j hj => ?_⟩
  · simpa [fld_append_lt, fld_toLe] using hlds
  · simpa [fld_append_ge, fld_append_lt, fld_toLe] using hstart
  · simpa [fld_append_ge, fld_append_lt, fld_toLe] using hn
  · simp [length_flatMap_const _ 16 hlen]
    omega
  · have hentry := bytesAt_flatMap _ 16 hlen (List.range n) j j (by simp [hj])
    rw [fld_append_ge _ _ _ _ (by simp)]
    simpa [fld_append_lt, fld_toLe] using fld_of_bytesAt hentry (k := 0) (m := 8) (by omega)

theorem body_getLdAllocations {p : Path} {i : List Byte} {s : State} (hmld : portMld s (fld i 0 1) = true) :
    cmdGetLdAllocations.body p i s =
      ({ out := allocOut (ldsOn s (fld i 0 1)) (fld i 1 1) (min (ldsOn s (fld i 0 1) - fld i 1 1) (fld i 2 1))
          (fun j => ldLegs s (ldKey (fld i 0 1) (fld i 1 1 + j))) }, s) := by
  simp only [cmdGetLdAllocations, hmld]
  rfl

/-! ### Dynamic capacity (R92) -/

/-- A dynamic capacity command on the DYNAMIC LD of its path has its effect there. -/
theorem body_dcCmd {op : Nat} {len : List Byte → Bool} {f : Nat → List Byte → State → (Reply × State)} {p : Path} {i : List Byte}
    {s : State} {k : Nat} (hk : pathLd s p = some k) (hdc : dcLd s k = true) : (dcCmd op len f).body p i s = f k i s := by
  simp [dcCmd, hk, hdc]

/-- An extent of the payload of GET_DYNAMIC_CAPACITY_EXTENT_LIST. -/
def extentEntry (r : Range) : List Byte := toLe 8 (r.dpaLeg * gib) ++ toLe 8 (r.count * gib) ++ zeros 24

theorem length_extentEntry (r : Range) : (extentEntry r).length = 40 := by simp [extentEntry]

/-- The payload of GET_DYNAMIC_CAPACITY_EXTENT_LIST. -/
def extentsOut (sel : List Range) (total gen : Nat) : List Byte :=
  toLe 4 sel.length ++ toLe 4 total ++ toLe 4 gen ++ zeros 4 ++ sel.flatMap extentEntry

theorem extentsOut_fields (sel : List Range) (total gen : Nat) :
    fld (extentsOut sel total gen) 0 4 = sel.length % 2 ^ 32 ∧ fld (extentsOut sel total gen) 4 4 = total % 2 ^ 32 ∧
    (extentsOut sel total gen).length = 16 + 40 * sel.length ∧
    ∀ j r, sel[j]? = some r → fld (extentsOut sel total gen) (16 + 40 * j) 8 = r.dpaLeg * gib % 2 ^ 64 ∧
      fld (extentsOut sel total gen) (24 + 40 * j) 8 = r.count * gib % 2 ^ 64 := by
  unfold extentsOut
  refine ⟨?_, ?_, ?_, fun j r hr => ?_⟩
  · simp [fld_append_lt, fld_toLe]
  · simp [fld_append_ge, fld_append_lt, fld_toLe]
  · simp [length_flatMap_const _ 40 length_extentEntry]
    omega
  · have hentry : bytesAt (toLe 4 sel.length ++ toLe 4 total ++ toLe 4 gen ++ zeros 4 ++ sel.flatMap extentEntry) (16 + 40 * j) 40 =
        extentEntry r := by
      rw [bytesAt_append_ge _ _ _ _ (by simp)]
      simpa using bytesAt_flatMap _ 40 length_extentEntry sel j r hr
    refine ⟨(fld_of_bytesAt hentry (k := 0) (by omega)).trans ?_, ?_⟩
    · simp [extentEntry, fld_append_lt, fld_toLe]
    · rw [show 24 + 40 * j = 16 + 40 * j + 8 by omega, fld_of_bytesAt hentry (by omega)]
      simp [extentEntry, fld_append_ge, fld_append_lt, fld_toLe]

/-- The payload of GET_DYNAMIC_CAPACITY_CONFIGURATION for its one region. -/
def regionOut (legs ranges : Nat) : List Byte :=
  [1] ++ toLe 1 1 ++ zeros 6 ++ (toLe 8 0 ++ toLe 8 (4 * legs) ++ toLe 8 (legs * gib) ++ toLe 8 gib ++ openBytes 5 0x4800 0 ++ zeros 3) ++
    toLe 4 64 ++ toLe 4 (64 - ranges) ++ zeros 8

theorem regionOut_fields (legs ranges : Nat) :
    fld (regionOut legs ranges) 0 1 = 1 ∧ fld (regionOut legs ranges) 1 1 = 1 ∧ fld (regionOut legs ranges) 8 8 = 0 ∧
    fld (regionOut legs ranges) 24 8 = legs * gib % 2 ^ 64 ∧ fld (regionOut legs ranges) 32 8 = gib ∧
    fld (regionOut legs ranges) 48 4 = 64 ∧ fld (regionOut legs ranges) 52 4 = 64 - ranges := by
  unfold regionOut
  refine ⟨?_, ?_, ?_, ?_, ?_, ?_, ?_⟩
  · simp
  · simp [fld_append_lt, fld_toLe]
  · simp [fld_append_ge, fld_append_lt, fld_toLe]
  · simp [fld_append_ge, fld_append_lt, fld_toLe]
  · simp [fld_append_ge, fld_append_lt, fld_toLe]
    decide
  · simp [fld_append_ge, fld_append_lt, fld_toLe]
  · simp [fld_append_ge, fld_append_lt, fld_toLe]
    omega

/-- Settles O30. The layouts that the manual leaves to the CXL Specification (log 10), that injected parcels are listed and the
source codes (log 41) are the model's choice. -/
theorem healthAndCapacityReads : Obligations.HealthAndCapacityReads := by
  unfold Obligations.HealthAndCapacityReads
  refine ⟨fun s p i h => ?health, fun s p i h => ?firmware, fun s p i k h hk => ?poison, fun s p i h hmld => ?ldInfo,
    fun s p i h hmld hlds => ?allocations, fun s p i k h hk hdc hcount hstart => ?config, fun s p i k h hk hdc => ?extents⟩
  case health =>
    obtain ⟨hlt, hok, hperf, hread⟩ := healthStatus_bits s
    have hused := lifeUsed_le s
    refine ⟨_, reads_of_noInput (noSaddle (by decide)) rfl h, by simp, ?_⟩
    simp only [healthStatus_takeIn, lifeUsed_takeIn, tempC_takeIn, mediaStatus_takeIn, sad_takeIn, cache_takeIn, health_takeIn]
    refine ⟨?_, ?_, ?_, ?_, ?_, fun t ht => ?_, ?_, ?_, ?_⟩
    · simpa [Nat.mod_eq_of_lt (hlt.trans (by decide : 8 < 256))] using hok
    · simpa [Nat.mod_eq_of_lt (hlt.trans (by decide : 8 < 256))] using hperf
    · simpa [Nat.mod_eq_of_lt (hlt.trans (by decide : 8 < 256))] using hread
    · rw [← mediaStatus_eq]
      have hmedia : mediaStatus s < 256 := by
        unfold mediaStatus
        split <;> [decide; (split <;> decide)]
      simpa using hmedia
    · simpa using hused.trans_lt (by decide)
    · simp [bytesAt_append_lt, bytesAt_toLeI, tempC, ht]
    · simp [fld_append_ge, fld_append_lt, fld_toLe]
    · simp [fld_append_ge, fld_append_lt, fld_toLe]
    · simp [fld_append_ge, fld_toLe]
  case firmware =>
    refine ⟨_, reads_of_noInput (noSaddle (by decide)) rfl h, ?_⟩
    rw [boot_takeIn]
    refine ⟨?_, ?_, ?_, fun v hv => ?_⟩
    · cases s.boot.pendingVersion <;> simp [length_versionText]
    · simp [fld_append_lt, fld_toLe]
    · simp [bytesAt_append_ge, bytesAt_append_lt, length_versionText, bytesAt_self]
    · simp [hv, bytesAt_append_ge, bytesAt_append_lt, length_versionText, bytesAt_self]
  case poison =>
    have hread := reads_payload (x := .getPoisonList p i) (noSaddle (by decide)) rfl h (body_getPoisonList ((pathLd_takeIn ..).trans hk))
    rw [poisonEnts_takeIn, poisonIn_takeIn] at hread
    exact ⟨_, hread, poisonOut_fields ..⟩
  case ldInfo =>
    have hread := reads_payload (x := .getLdInfo p i) (noSaddle (by decide)) rfl h (body_getLdInfo ((portMld_takeIn ..).trans hmld))
    rw [ldsOn_takeIn] at hread
    refine ⟨_, hread, by simp, ?_⟩
    simp [fld_append_ge, fld_append_lt, fld_toLe]
  case allocations =>
    have hread := reads_payload (x := .getLdAllocations p i) (noSaddle (by decide)) rfl h
      (body_getLdAllocations ((portMld_takeIn ..).trans hmld))
    simp only [ldsOn_takeIn, ldLegs_takeIn] at hread
    have hn : min (ldsOn s (fld i 0 1) - fld i 1 1) (fld i 2 1) < 256 := (Nat.min_le_right ..).trans_lt (fld_one_lt ..)
    exact ⟨_, hread, allocOut_fields _ hlds (fld_one_lt ..) hn⟩
  case config =>
    have hbody : cmdGetDcConfig.body p i (takeIn cmdGetDcConfig.op p i s) =
        ({ out := regionOut (dpaLegs (ldAt s k).map) (ldAt s k).map.ranges.length }, takeIn cmdGetDcConfig.op p i s) := by
      refine (body_dcCmd ((pathLd_takeIn ..).trans hk) ((dcLd_takeIn ..).trans hdc)).trans ?_
      have hone : (if fld i 1 1 = 0 ∧ fld i 0 1 ≠ 0 then 1 else 0) = 1 := if_pos ⟨hstart, hcount⟩
      simp only [map_takeIn, hone]
      rfl
    exact ⟨_, reads_payload (noSaddle (by decide)) rfl h hbody, regionOut_fields ..⟩
  case extents =>
    have hbody : cmdGetDcExtents.body p i (takeIn cmdGetDcExtents.op p i s) =
        ({ out := extentsOut (((ldAt s k).map.ranges.drop (fld i 4 4)).take (fld i 0 4)) (ldAt s k).map.ranges.length
            (ldAt (takeIn cmdGetDcExtents.op p i s) k).extGen }, takeIn cmdGetDcExtents.op p i s) := by
      refine (body_dcCmd ((pathLd_takeIn ..).trans hk) ((dcLd_takeIn ..).trans hdc)).trans ?_
      simp only [map_takeIn]
      rfl
    exact ⟨_, reads_payload (noSaddle (by decide)) rfl h hbody, extentsOut_fields ..⟩

end Sys2Proof.Machine

/-! SUPPORT. The standard commands that change something (R62, R63, R67, R68, R174, R356, R407 to R409): the record of one LD, and
the writes that Inject Poison and Clear Poison make. -/

namespace Sys2Proof.Machine

/-! ### A command that changes one LD -/

theorem OnlyCtx.others {p : Path} {s t : State} (h : OnlyCtx p s t) {k : Nat} (hk : pathKey p ≠ some k) : ldAt t k = ldAt s k := by
  obtain ⟨-, -, hother, -⟩ := h
  exact hother k hk

section ChangesLd

variable {x : Instr} {c : Cmd} {p : Path} {i : List Byte} {s : State} {k : Nat} {f : Ld → Ld}

/-- What a command that changes one LD gives: that LD changes so, beside the command's context, and nothing else does. -/
structure LdChanged (p : Path) (k : Nat) (f : Ld → Ld) (s t : State) : Prop where
  succeeded : Succeeded p [] t
  ld : ∃ m m', { ldAt t k with mbox := m } = f { ldAt s k with mbox := m' }
  others : ∀ j, j ≠ k → pathKey p ≠ some j → ldAt t j = ldAt s j
  frame : t = { s with mctp := t.mctp, ports := { s.ports with lds := t.ports.lds } }

theorem gives_modLd (hs : ∀ x, cmdInfo c.op = some x → x.saddle = false) (hx : exec x s = runCmd c p i s) (h : Admitted c p i s)
    (hb : c.body p i (takeIn c.op p i s) = ({}, modLd k f (takeIn c.op p i s))) : Gives x s (LdChanged p k f s) := by
  refine (gives_payload_unlogged hs hx h hb (mainUp_takeIn h)).imp fun t ⟨hdone, honly⟩ => ⟨hdone, ?_, fun j hj hp => ?_, ?_⟩
  · refine ⟨_, (ldAt (takeIn c.op p i s) k).mbox, (honly.log.ld k).trans ?_⟩
    rw [ldAt_modLd_same]
    exact congrArg f (ldAt_takeIn ..)
  · rw [honly.others hp, ldAt_modLd_ne _ _ hj, (onlyCtx_takeIn ..).others hp]
  · exact honly.1.trans (by cases p <;> rfl)

end ChangesLd

/-! ### Event logs (R68) -/

theorem logOf_modLog_same {log : Nat} (hlog : log < 5) (f : EventLog → EventLog) (l : Ld) : logOf (modLog log f l) log = f (logOf l log) := by
  simp [logOf, modLog, List.getD_eq_getElem?_getD, hlog]

theorem logOf_modLog_ne {log j : Nat} (hj : j < 5) (hne : j ≠ log) (f : EventLog → EventLog) (l : Ld) :
    logOf (modLog log f l) j = logOf l j := by
  simp [logOf, modLog, List.getD_eq_getElem?_getD, hj, hne]

theorem clearLog_none (l : EventLog) : clearLog (fun _ => false) l = { nextHandle := l.nextHandle } := by
  simp [clearLog]

theorem recs_clearLog (keep : EventRec → Bool) (l : EventLog) : (clearLog keep l).recs = l.recs.filter keep := by
  unfold clearLog
  split
  · rename_i h
    exact (List.isEmpty_iff.mp h).symm
  · rfl

theorem clearLog_of_keeps {keep : EventRec → Bool} {l : EventLog} (h : l.recs.filter keep ≠ []) :
    clearLog keep l = { l with recs := l.recs.filter keep } := by
  rw [clearLog, if_neg (by simpa using h)]

/-- R68: a log left empty has lost its overflow and drop count. -/
theorem clearLog_of_empty {keep : EventRec → Bool} {l : EventLog} (h : l.recs.filter keep = []) :
    (clearLog keep l).overflow = false ∧ (clearLog keep l).dropped = 0 := by
  simp [clearLog, h]

section ClearEvents

variable {p : Path} {i : List Byte} {s : State} {k : Nat}

theorem body_clearEventRecords_all (hk : pathLd s p = some k) (hlog : fld i 0 1 < 4) (hall : fld i 1 1 = 1) :
    cmdClearEventRecords.body p i s = ({}, modLd k (modLog (fld i 0 1) (clearLog (fun _ => false))) s) := by
  have hnamed : logNamed s p (fld i 0 1) = true := by simp [logNamed, hlog]
  simp [cmdClearEventRecords, hk, hnamed, hall]

/-- The handles that a Clear Event Records names. -/
def clearHandles (i : List Byte) : List Nat := (List.range (fld i 2 1)).map (fun n => fld i (6 + 2 * n) 2)

/-- R68: a record stays when no handle names it. -/
theorem keeps_clearHandles (i : List Byte) : (fun e : EventRec => !(clearHandles i).contains e.handle) =
    fun e => (List.range (fld i 2 1)).all (fun n => fld i (6 + 2 * n) 2 != e.handle) := by
  funext e
  rw [Bool.eq_iff_iff]
  simp [clearHandles]

theorem body_clearEventRecords_named (hk : pathLd s p = some k) (hlog : fld i 0 1 < 4) (hnone : fld i 1 1 = 0)
    (hknown : ∀ n, n < fld i 2 1 → ∃ e ∈ (logOf (ldAt s k) (fld i 0 1)).recs, e.handle = fld i (6 + 2 * n) 2) :
    cmdClearEventRecords.body p i s =
      ({}, modLd k (modLog (fld i 0 1) (clearLog (fun e => !(clearHandles i).contains e.handle))) s) := by
  have hnamed : logNamed s p (fld i 0 1) = true := by simp [logNamed, hlog]
  have hfound : (clearHandles i).findIdx? (fun h => !((logOf (ldAt s k) (fld i 0 1)).recs.map (·.handle)).contains h) = none := by
    simp only [List.findIdx?_eq_none_iff, clearHandles, List.mem_map, List.mem_range, forall_exists_index, and_imp]
    rintro _ n hn rfl
    obtain ⟨e, he, heq⟩ := hknown n hn
    simpa using ⟨e, he, heq⟩
  unfold clearHandles at hfound ⊢
  simp only [cmdClearEventRecords, hk, hnamed, hnone, hfound]
  rfl

end ClearEvents

/-! ### Interrupt policies and alerts (R67, R407) -/

theorem body_setEventInterruptPolicy_none {p : Path} {i : List Byte} {s : State} (h : ∀ b ∈ i, b &&& 3 = 0) :
    cmdSetEventInterruptPolicy.body p i s = ({}, s) := by
  have hfind : i.findIdx? (fun b => b &&& 3 != 0) = none := by simpa using h
  simp only [cmdSetEventInterruptPolicy, hfind]

theorem body_setEventInterruptPolicy_first {p : Path} {i : List Byte} {s : State} {n : Nat} {b : Byte} (hb : i[n]? = some b)
    (hbad : b &&& 3 ≠ 0) (hfirst : ∀ j c, j < n → i[j]? = some c → c &&& 3 = 0) :
    cmdSetEventInterruptPolicy.body p i s = (rej 2 0x0D83 n, s) := by
  obtain ⟨hn, rfl⟩ := List.getElem?_eq_some_iff.mp hb
  have hfind : i.findIdx? (fun b => b &&& 3 != 0) = some n := by
    refine List.findIdx?_eq_some_iff_getElem.mpr ⟨hn, by simpa using hbad, fun j hj => ?_⟩
    simpa using hfirst j _ hj (List.getElem?_eq_getElem (hj.trans hn))
  simp only [cmdSetEventInterruptPolicy, hfind]

theorem body_setAlertConfiguration {p : Path} {i : List Byte} {s : State} {k : Nat} (hk : pathLd s p = some k) (hnames : fld i 0 1 < 8)
    (henables : fld i 1 1 < 8) : cmdSetAlertConfiguration.body p i s = ({}, modLd k (setAlerts i) s) := by
  simp [cmdSetAlertConfiguration, hk, Nat.not_le.mpr hnames, Nat.not_le.mpr henables]

theorem alertValid_setAlerts (i : List Byte) (l : Ld) {b : Nat} (hb : b < 8) : (setAlerts i l).alertValid.getLsbD b =
    if (BitVec.ofNat 8 (fld i 0 1)).getLsbD b then (BitVec.ofNat 8 (fld i 1 1)).getLsbD b else l.alertValid.getLsbD b := by
  simp only [setAlerts, BitVec.getLsbD_or, BitVec.getLsbD_and, BitVec.getLsbD_not, hb, decide_true, Bool.true_and]
  cases (BitVec.ofNat 8 (fld i 0 1)).getLsbD b <;> simp

theorem body_setShutdownState {p : Path} {i : List Byte} {s : State} {k : Nat} (hk : pathLd s p = some k) :
    cmdSetShutdownState.body p i s = ({}, modLd k (fun l => { l with shutdown := fld i 0 1 }) s) := by
  simp [cmdSetShutdownState, hk]

/-! ### Writes that commands make (R408) -/

/-- What a write of a command leaves of a state: everything but the ports and the cache's queues. -/
def stored (s : State) : State := { s with cache := { lines := s.cache.lines, online := s.cache.online }, ports := {} }

/-- What such a write leaves of a state beside the lines. -/
def besideLines (s : State) : State := { s with cache := { online := s.cache.online }, ports := {} }

section Stored

variable {s t : State}

theorem lines_of_stored (h : stored t = stored s) : t.cache.lines = s.cache.lines := by
  have hlines := congrArg (fun v : State => v.cache.lines) h
  exact hlines

theorem lineAt_of_stored (h : stored t = stored s) (j : Nat) : lineAt t j = lineAt s j := by
  rw [lineAt, lines_of_stored h, lineAt]

theorem findWay_of_stored (h : stored t = stored s) (lpn : Nat) : findWay t lpn = findWay s lpn := by
  rw [findWay, lines_of_stored h, findWay]

theorem besideLines_of_stored (h : stored t = stored s) : besideLines t = besideLines s := by
  have hrest := congrArg (fun v : State => { v with cache := { online := v.cache.online } }) h
  exact hrest

theorem besideLines_modLine (w : Nat) (f : Line → Line) (s : State) : besideLines (modLine w f s) = besideLines s := rfl

end Stored

/-- R171: the line of a write that lands. -/
def landedLine (r : Req) (s : State) (l : Line) : Line :=
  { lineWrite r l with partialSince := if l.dirty = 0 then s.planner.stage else l.partialSince }

theorem stored_afterWrite (k : Nat) (s : State) : stored (afterWrite k s) = stored s := by
  unfold afterWrite
  dsimp only
  split
  · refine forAll_keeps stored (fun q u => ?_) _ s
    rfl
  · rfl

theorem stored_overtake (r : Req) (s : State) : stored (overtake r s) = stored s := by
  unfold overtake
  split <;> rfl

theorem stored_setPressure (k : Nat) (s : State) : stored (setPressure k s) = stored s := by
  unfold setPressure
  dsimp only
  split
  · split <;> rfl
  · rfl

/-- R174, R187: a write of a command, written through or not, changes its line; it has no response. -/
theorem stored_landWrite {r : Req} {k : Nat} {s : State} (hkind : r.tagKind = .none) :
    stored (landWrite r k s) = stored (modLine k (landedLine r s) s) := by
  have hplace : ∀ u, stored (overtake r (afterWrite k u)) = stored u := fun u => (stored_overtake ..).trans (stored_afterWrite ..)
  unfold landWrite
  dsimp only
  split
  · refine (stored_setPressure ..).trans ?_
    exact hplace (touch k (modLine k (landedLine r s) s))
  · rw [finish, if_pos hkind]
    exact (stored_setPressure ..).trans (hplace (touch k (modLine k (landedLine r s) s)))

/-- The first entry that passes a test stays the first once its value changes to another that passes. -/
theorem find?_tset {α : Type} {P : Nat × α → Bool} {t : Tbl α} {w : Nat} (hfind : (t.find? P).map (·.1) = some w) {v : α}
    (hv : P (w, v) = true) : (tset t w v).find? P = some (w, v) := by
  induction t with
  | nil => simp at hfind
  | cons e t ih =>
    obtain ⟨k, u⟩ := e
    rw [tset]
    by_cases hlt : w < k
    · rw [if_pos hlt, List.find?_cons_of_pos hv]
    · rw [if_neg hlt]
      by_cases heq : w = k
      · rw [if_pos heq, List.find?_cons_of_pos (heq ▸ hv), heq]
      · have hnot : ¬ P (k, u) = true := fun hp => heq (by simpa [List.find?_cons_of_pos hp, eq_comm] using hfind)
        rw [List.find?_cons_of_neg hnot] at hfind
        rw [if_neg heq, List.find?_cons_of_neg hnot, ih hfind]

/-- A way still holds its parcel after a change of its line that leaves the parcel there. -/
theorem findWay_modLine {w lpn : Nat} {f : Line → Line} {s : State} (h : findWay s lpn = some w) (hst : (f (lineAt s w)).st ≠ .invalid)
    (hlpn : (f (lineAt s w)).lpn = lpn) : findWay (modLine w f s) lpn = some w := by
  have hfind := find?_tset (v := f (lineAt s w)) h (by simp [hst, hlpn])
  exact congrArg (Option.map (·.1)) hfind

/-! ### Inject Poison -/

theorem rangeLpn_takeIn (op : Nat) (p : Path) (i : List Byte) (s : State) (part : Nat) (ld : Option Nat) (a : Nat) :
    rangeLpn (takeIn op p i s) part ld a = rangeLpn s part ld a := by
  cases ld <;> simp [rangeLpn]

theorem injectedOf_takeIn (op : Nat) (p : Path) (i : List Byte) (s : State) (k : Nat) :
    injectedOf (ldAt (takeIn op p i s) k) = injectedOf (ldAt s k) := by
  rw [injectedOf, ldAt_takeIn]
  rfl

theorem writesFreely_takeIn (op : Nat) (p : Path) (i : List Byte) (s : State) (w : Nat) :
    WritesFreely w (takeIn op p i s) ↔ WritesFreely w s := by cases p <;> exact Iff.rfl

theorem lineAt_takeIn (op : Nat) (p : Path) (i : List Byte) (s : State) (w : Nat) : lineAt (takeIn op p i s) w = lineAt s w := by
  rw [lineAt, cache_takeIn, lineAt]

theorem findWay_takeIn (op : Nat) (p : Path) (i : List Byte) (s : State) (lpn : Nat) :
    findWay (takeIn op p i s) lpn = findWay s lpn := by
  rw [findWay, cache_takeIn, findWay]

/-- An entry of the poison list for an injected parcel. -/
def injectedEnt (d : Nat) : PoisonEnt := { dpa := d, len := 256, injected := true }

section Inject

variable {p : Path} {i : List Byte} {s : State} {k lpn : Nat}

theorem body_injectPoison_unmapped (hk : pathLd s p = some k) (hmap : rangeLpn s 0 (some k) (fld i 0 8 / 256 * 256) = none) :
    cmdInjectPoison.body p i s = (rej 0xF 0 0, s) := by
  simp [cmdInjectPoison, hk, hmap]

theorem body_injectPoison_denied (hk : pathLd s p = some k) (hmap : rangeLpn s 0 (some k) (fld i 0 8 / 256 * 256) = some lpn)
    (hright : (ldAt s k).map.opcodes.getLsbD 2 = false ∨ (ldAt s k).map.opcodes.getLsbD 6 = false) :
    cmdInjectPoison.body p i s = (rej 2 0x0289, s) := by
  have hdenied : (!((ldAt s k).map.opcodes.getLsbD 2 && (ldAt s k).map.opcodes.getLsbD 6)) = true := by
    rcases hright with h | h <;> rw [h]
    · rfl
    · rw [Bool.and_false, Bool.not_false]
  simp only [cmdInjectPoison, hk, hmap, hdenied, if_true]

theorem body_injectPoison_full (hk : pathLd s p = some k) (hmap : rangeLpn s 0 (some k) (fld i 0 8 / 256 * 256) = some lpn)
    (hwrite : (ldAt s k).map.opcodes.getLsbD 2 = true) (hinject : (ldAt s k).map.opcodes.getLsbD 6 = true)
    (hfull : 8 ≤ (injectedOf (ldAt s k)).length) (hnew : fld i 0 8 / 256 * 256 ∉ injectedOf (ldAt s k)) :
    cmdInjectPoison.body p i s = (rej 0x10 0, s) := by
  simp [cmdInjectPoison, hk, hmap, hwrite, hinject, hfull, hnew]

theorem body_injectPoison (hk : pathLd s p = some k) (hmap : rangeLpn s 0 (some k) (fld i 0 8 / 256 * 256) = some lpn)
    (hwrite : (ldAt s k).map.opcodes.getLsbD 2 = true) (hinject : (ldAt s k).map.opcodes.getLsbD 6 = true)
    (hroom : (injectedOf (ldAt s k)).length < 8) (hnew : fld i 0 8 / 256 * 256 ∉ injectedOf (ldAt s k)) :
    cmdInjectPoison.body p i s = ({}, modLd k (fun l => { l with poisonList := l.poisonList ++ [injectedEnt (fld i 0 8 / 256 * 256)] })
      (writeAccess (cmdWrite k lpn 0 { data := 0, poison := true } s) [] s)) := by
  simp [cmdInjectPoison, hk, hmap, hwrite, hinject, Nat.not_le.mpr hroom, hnew, injectedEnt]

end Inject

/-- R174: the line of a poisoned write. -/
theorem lineWrite_poison {r : Req} {l : Line} (hpoison : r.wr.poison = true) (hst : l.st = .clean ∨ l.st = .dirty) :
    lineWrite r l = { l with maint := false, dir := some (l.lpn, l.part), st := .dirty, poison := true, valid := 0, dirty := 15 } := by
  rcases hst with h | h <;> simp [lineWrite, inDir, hpoison, h]

theorem lineAt_of_onlyCtx {p : Path} {s t : State} (h : OnlyCtx p s t) (j : Nat) : lineAt t j = lineAt s j := by
  rw [lineAt, h.log.cache, lineAt]

theorem lineAt_meter (part : Nat) (f : Meter → Meter) (s : State) (j : Nat) : lineAt (meter part f s) j = lineAt s j := by
  rw [lineAt, meter_cache, lineAt]

theorem OnlyCtx.way {p : Path} {s t : State} (h : OnlyCtx p s t) : t.way = s.way := by rw [h.1]

theorem way_takeIn (op : Nat) (p : Path) (i : List Byte) (s : State) : (takeIn op p i s).way = s.way := by cases p <;> rfl

/-! ### Clear Poison -/

section Clear

variable {p : Path} {i : List Byte} {s : State} {k lpn : Nat}

theorem body_clearPoison_unmapped (hk : pathLd s p = some k) (hmap : rangeLpn s 0 (some k) (fld i 0 8) = none) :
    cmdClearPoison.body p i s = (rej 0xF 0 0, s) := by
  simp only [cmdClearPoison, hk, hmap]

/-- The write of a sector that a Clear Poison of a poisoned parcel makes. -/
def clearWrite (k lpn sector : Nat) (d : Sector) (s : State) (j : Nat) : Req :=
  cmdWrite k lpn j { data := if j = sector then d else 0 } s

/-- The cache and the LDs after the four writes of a Clear Poison. -/
def clearedBy (k lpn sector : Nat) (d : Sector) (s : State) : State :=
  forAll (List.range 4) (fun j u => writeAccess (clearWrite k lpn sector d s j) [] u) s

theorem body_clearPoison (hk : pathLd s p = some k) (hmap : rangeLpn s 0 (some k) (fld i 0 8) = some lpn)
    (hwrite : (ldAt s k).map.opcodes.getLsbD 2 = true) (hpoison : isPoisoned s lpn = true) :
    cmdClearPoison.body p i s =
      ({}, meter (ldAt s k).map.part (fun m => { m with writeBytes := m.writeBytes + 64, writeOps := m.writeOps + 1 })
        (clearedBy k lpn (sectorOf (fld i 0 8)) (BitVec.ofNat 512 (fld i 8 64)) s)) := by
  simp only [cmdClearPoison, hk, hmap, hwrite, clearWrites, hpoison, if_true]
  rfl

end Clear

/-- What the first sectors of a line are, each written: a bit for each of the first j. -/
def firstSectors (j : Nat) : BitVec 4 := BitVec.ofNat 4 (2 ^ j - 1)

theorem firstSectors_succ {j : Nat} (hj : j < 4) : firstSectors j ||| bit1 j = firstSectors (j + 1) ∧
    ((firstSectors (j + 1) != 15) = decide (j + 1 < 4)) := by
  have hall : ∀ j : Fin 4, firstSectors j ||| bit1 j = firstSectors (j + 1) ∧
      ((firstSectors (j + 1) != 15) = decide (j.val + 1 < 4)) := by decide
  exact hall ⟨j, hj⟩

/-- A poisoned line in which a Clear Poison has written the first j sectors, in a state that otherwise stands as it was. -/
structure Clearing (v : Nat → Sector) (w lpn j : Nat) (s u : State) : Prop where
  hit : findWay u lpn = some w
  st : (lineAt u w).st = .dirty
  lpn : (lineAt u w).lpn = lpn
  kept : (lineAt u w).dropOnFill = false
  dirty : (lineAt u w).dirty = 15
  valid : (lineAt u w).valid = firstSectors j
  poison : (lineAt u w).poison = decide (j < 4)
  data : ∀ n : Fin 4, n.val < j → (lineAt u w).data[n] = v n
  others : ∀ m, m ≠ w → lineAt u m = lineAt s m
  rest : besideLines u = besideLines s

/-- R174, R184: a write to a line that counts already lands in it. -/
theorem writeAccess_counted {r : Req} {k : Nat} {s : State} (errs : List NodeErr) (hhit : findWay s r.lpn = some k) (hop : r.op = .wr)
    (hst : (lineAt s k).st = .dirty) (hkept : (lineAt s k).dropOnFill = false) (hhold : r.health ≠ 3) (hspent : r.health ≠ 4) :
    writeAccess r errs s = landWrite r k s := by
  have hcounts : lineCounts (lineAt s k) = true := by simp [lineCounts, hkept, hst]
  simp [writeAccess, hhit, hst, writeLost, hhold, hspent, hop, newlyDirty, hcounts]

/-- The line after the write of a whole sector to a DIRTY line. -/
theorem lineWrite_sector {r : Req} {l : Line} {j : Nat} (hop : r.op = .wr) (hclean : r.wr.poison = false) (hst : l.st = .dirty)
    (hj : j < 4) (hsector : r.sector = j) : lineWrite r l = { l with
      maint := false, dir := some (l.lpn, l.part), st := .dirty, data := l.data.set j r.wr.data, valid := l.valid ||| bit1 j
      dirty := l.dirty ||| bit1 j, poison := l.poison && (l.valid ||| bit1 j) != 15 } := by
  subst hsector
  simp [lineWrite, inDir, hop, hclean, hst, Nat.mod_eq_of_lt hj]

/-- R408: one more sector of a poisoned parcel is written. -/
theorem Clearing.next {v : Nat → Sector} {w lpn j : Nat} {s u : State} (h : Clearing v w lpn j s u) (hj : j < 4) {r : Req}
    (hop : r.op = .wr) (hlpn : r.lpn = lpn) (hsector : r.sector = j) (hclean : r.wr.poison = false) (hdata : r.wr.data = v j)
    (hkind : r.tagKind = .none) (hhold : r.health ≠ 3) (hspent : r.health ≠ 4) : Clearing v w lpn (j + 1) s (writeAccess r [] u) := by
  obtain ⟨hhit, hst, hline, hkept, hdirty, hvalid, hpoison, hdone, hothers, hrest⟩ := h
  rw [writeAccess_counted [] (hlpn ▸ hhit) hop hst hkept hhold hspent]
  have hstored := stored_landWrite (k := w) (s := u) hkind
  have hnew : lineAt (landWrite r w u) w = landedLine r u (lineAt u w) := by
    rw [lineAt_of_stored hstored, lineAt_modLine_same]
  have hwrite := lineWrite_sector hop hclean hst hj hsector
  obtain ⟨hnext, hlast⟩ := firstSectors_succ hj
  have hfields : landedLine r u (lineAt u w) = { lineAt u w with
      maint := false, dir := some ((lineAt u w).lpn, (lineAt u w).part), data := (lineAt u w).data.set j r.wr.data
      valid := firstSectors (j + 1), poison := decide (j + 1 < 4) } := by
    have hfull : (15 : BitVec 4) ||| bit1 j = 15 := BitVec.allOnes_or
    simp only [landedLine, hwrite, hdirty, hvalid, hpoison, hnext, hlast, hst, hfull]
    simp [hj]
  refine ⟨?_, ?_, ?_, ?_, ?_, ?_, ?_, fun n hn => ?_, fun m hm => ?_, ?_⟩
  · rw [findWay_of_stored hstored]
    exact findWay_modLine hhit (by rw [hfields, hst]; decide) (by rw [hfields, hline])
  · rw [hnew, hfields]; exact hst
  · rw [hnew, hfields]; exact hline
  · rw [hnew, hfields]; exact hkept
  · rw [hnew, hfields]; exact hdirty
  · rw [hnew, hfields]
  · rw [hnew, hfields]
  · rw [hnew, hfields]
    rcases Nat.lt_or_eq_of_le (Nat.le_of_lt_succ hn) with hlt | heq
    · simpa [Vector.getElem_set, hlt.ne'] using hdone n hlt
    · simp [heq, hdata]
  · rw [lineAt_of_stored hstored, lineAt_modLine_ne _ _ hm, hothers m hm]
  · exact (besideLines_of_stored hstored).trans hrest

/-- R408: a Clear Poison of a poisoned line writes its four sectors. -/
theorem clearing_clearedBy {k lpn sector w : Nat} (d : Sector) {s : State} (hhit : findWay s lpn = some w) (hst : (lineAt s w).st = .dirty)
    (hpoison : (lineAt s w).poison = true) (hvalid : (lineAt s w).valid = 0) (hdirty : (lineAt s w).dirty = 15)
    (hline : (lineAt s w).lpn = lpn) (hkept : (lineAt s w).dropOnFill = false) (hhold : s.health.st ≠ 3) (hspent : s.health.st ≠ 4) :
    Clearing (fun j => if j = sector then d else 0) w lpn 4 s (clearedBy k lpn sector d s) := by
  have hstart : Clearing (fun j => if j = sector then d else 0) w lpn 0 s s :=
    ⟨hhit, hst, hline, hkept, hdirty, hvalid, hpoison, fun n hn => absurd hn (Nat.not_lt_zero _), fun m _ => rfl, rfl⟩
  have hstep : ∀ j u, j < 4 → Clearing (fun j => if j = sector then d else 0) w lpn j s u →
      Clearing (fun j => if j = sector then d else 0) w lpn (j + 1) s (writeAccess (clearWrite k lpn sector d s j) [] u) :=
    fun j u hj h => h.next hj rfl rfl rfl rfl rfl rfl hhold hspent
  exact hstep 3 _ (by decide) (hstep 2 _ (by decide) (hstep 1 _ (by decide) (hstep 0 _ (by decide) hstart)))

theorem isPoisoned_of_line {s : State} {lpn w : Nat} (hhit : findWay s lpn = some w) (hpoison : (lineAt s w).poison = true) :
    isPoisoned s lpn = true := by
  simp [isPoisoned, hhit, hpoison]

/-- Settles O33. The layouts that the manual leaves to the CXL Specification (log 10), and that an injected parcel is listed (log 41),
are the model's choice. -/
theorem standardChanges : Obligations.StandardChanges := by
  unfold Obligations.StandardChanges
  refine ⟨⟨fun s p i k h hk hlog hall => ?clearAll, fun s p i k h hk hlog hnone hknown => ?clearNamed,
      fun s p i h => ⟨fun hnone => ?noInterrupts, fun n b hb hbad hfirst => ?interrupts⟩,
      fun s p i k h hk hnames henables => ?alerts, fun s p i k h hk => ?shutdown⟩,
    fun s p i k lpn w h hk hmap hwrite hinject hroom hnew hhit hst hfree => ?inject,
    fun s p i k lpn h hk hmap => ⟨fun hright => ?denied, fun hwrite hinject hfull hnew => ?full⟩,
    fun s p i k lpn w h hk hmap hwrite hhit hst hpoison hvalid hdirty hline hkept hhold hspent _ => ?clear,
    fun s p i k hk => ⟨fun h hmap => ?injectUnmapped, fun h hmap => ?clearUnmapped⟩⟩
  case clearAll =>
    refine (gives_modLd (noSaddle (by decide)) rfl h (body_clearEventRecords_all ((pathLd_takeIn ..).trans hk) hlog hall)).imp
      fun t ⟨hdone, ⟨m, m', hld⟩, hothers, hframe⟩ => ⟨hdone, ?_, fun j hj hne => ?_, congrArg Ld.logsChanged hld, hothers, hframe⟩
    · have hlogs := congrArg (logOf · (fld i 0 1)) hld
      exact (hlogs.trans (logOf_modLog_same (by omega) ..)).trans (clearLog_none _)
    · exact (congrArg (logOf · j) hld).trans (logOf_modLog_ne hj hne ..)
  case clearNamed =>
    have hbody := body_clearEventRecords_named (s := takeIn cmdClearEventRecords.op p i s) ((pathLd_takeIn ..).trans hk) hlog hnone
      (by simpa [logOf, logs_takeIn] using hknown)
    refine (gives_modLd (noSaddle (by decide)) rfl h hbody).imp fun t ⟨hdone, ⟨m, m', hld⟩, hothers, _⟩ => ⟨hdone, ?_, hothers⟩
    have hlog : logOf (ldAt t k) (fld i 0 1) = clearLog (fun e => !(clearHandles i).contains e.handle) (logOf (ldAt s k) (fld i 0 1)) :=
      (congrArg (logOf · (fld i 0 1)) hld).trans (logOf_modLog_same (by omega) ..)
    rw [hlog, keeps_clearHandles]
    exact ⟨recs_clearLog .., clearLog_of_keeps, clearLog_of_empty⟩
  case noInterrupts =>
    exact (gives_payload_unlogged (noSaddle (by decide)) rfl h (body_setEventInterruptPolicy_none hnone) (mainUp_takeIn h)).imp
      fun t ⟨hdone, honly⟩ => ⟨hdone, (onlyCtx_takeIn ..).trans honly⟩
  case interrupts =>
    exact gives_turned_unlogged (noSaddle (by decide)) rfl h (body_setEventInterruptPolicy_first hb hbad hfirst)
  case alerts =>
    refine (gives_modLd (noSaddle (by decide)) rfl h (body_setAlertConfiguration ((pathLd_takeIn ..).trans hk) hnames henables)).imp
      fun t ⟨hdone, ⟨m, m', hld⟩, hothers, _⟩ => ⟨hdone, congrArg Ld.alertLife hld, congrArg Ld.alertTemp hld,
        congrArg Ld.alertUnder hld, fun b hb => ?_, (congrArg Ld.map hld :), (congrArg Ld.logs hld :), hothers⟩
    exact (congrArg (·.alertValid.getLsbD b) hld).trans (alertValid_setAlerts i _ hb)
  case shutdown =>
    refine (gives_modLd (noSaddle (by decide)) rfl h (body_setShutdownState ((pathLd_takeIn ..).trans hk))).imp
      fun t ⟨hdone, ⟨m, m', hld⟩, hothers, hframe⟩ => ⟨hdone, congrArg Ld.shutdown hld, ?_, hothers, hframe⟩
    rw [hframe]
  case inject =>
    let v := takeIn cmdInjectPoison.op p i s
    let r := cmdWrite k lpn 0 { data := 0, poison := true } v
    have hlineAt : ∀ j, lineAt v j = lineAt s j := lineAt_takeIn _ p i s
    have hst' : (lineAt v w).st = .clean ∨ (lineAt v w).st = .dirty := by rwa [hlineAt]
    have hbody := body_injectPoison (s := v) ((pathLd_takeIn ..).trans hk) ((rangeLpn_takeIn ..).trans hmap) (by rwa [map_takeIn])
      (by rwa [map_takeIn]) (by rwa [injectedOf_takeIn]) (by rwa [injectedOf_takeIn])
    rw [show writeAccess (cmdWrite k lpn 0 { data := 0, poison := true } v) [] v = landWrite r w v from writeAccess_lands []
      ((findWay_takeIn ..).trans hhit) hst' rfl ((writesFreely_takeIn ..).mpr hfree) (fun hop => nomatch hop)] at hbody
    have hstored := stored_landWrite (r := r) (k := w) (s := v) rfl
    have hbeside : besideLines (landWrite r w v) = besideLines v := (besideLines_of_stored hstored).trans (besideLines_modLine ..)
    refine (gives_payload_unlogged (noSaddle (by decide)) rfl h hbody ((congrArg State.mainUp hbeside).trans (mainUp_takeIn h))).imp
      fun t ⟨hdone, honly⟩ => ?_
    have hlines : ∀ j, lineAt t j = lineAt (modLine w (landedLine r v) v) j := fun j =>
      (lineAt_of_onlyCtx honly j).trans (lineAt_of_stored hstored j)
    have hline : lineAt t w = landedLine r v (lineAt v w) := (hlines w).trans (lineAt_modLine_same ..)
    rw [landedLine, lineWrite_poison rfl hst'] at hline
    have hlist : (ldAt t k).poisonList = _ := (congrArg Ld.poisonList (honly.log.ld k)).trans (congrArg Ld.poisonList (ldAt_modLd_same ..))
    refine ⟨hdone, congrArg Line.poison hline, congrArg Line.valid hline, congrArg Line.dirty hline, congrArg Line.st hline,
      fun j hj => ?_, ?_, ?_, ?_⟩
    · rw [hlines, lineAt_modLine_ne _ _ hj, hlineAt]
    · rw [hlist]
      exact List.mem_append_right _ List.mem_cons_self
    · exact honly.log.medium.trans ((congrArg State.medium hbeside).trans (medium_takeIn ..))
    · exact honly.way.trans ((congrArg State.way hbeside).trans (way_takeIn ..))
  case denied =>
    refine gives_turned_unlogged (noSaddle (by decide)) rfl h (body_injectPoison_denied ((pathLd_takeIn ..).trans hk)
      ((rangeLpn_takeIn ..).trans hmap) ?_)
    simpa only [map_takeIn] using hright
  case full =>
    refine gives_turned_unlogged (noSaddle (by decide)) rfl h (body_injectPoison_full ((pathLd_takeIn ..).trans hk)
      ((rangeLpn_takeIn ..).trans hmap) ?_ ?_ ?_ ?_)
    · rwa [map_takeIn]
    · rwa [map_takeIn]
    · rwa [injectedOf_takeIn]
    · rwa [injectedOf_takeIn]
  case clear =>
    let v := takeIn cmdClearPoison.op p i s
    have hlineAt : lineAt v w = lineAt s w := lineAt_takeIn ..
    have hbody := body_clearPoison (s := v) ((pathLd_takeIn ..).trans hk) ((rangeLpn_takeIn ..).trans hmap)
      (by rwa [map_takeIn]) (isPoisoned_of_line ((findWay_takeIn ..).trans hhit) (hlineAt ▸ hpoison))
    have hclearing := clearing_clearedBy (k := k) (sector := sectorOf (fld i 0 8)) (s := v) (BitVec.ofNat 512 (fld i 8 64))
      ((findWay_takeIn ..).trans hhit) (hlineAt ▸ hst) (hlineAt ▸ hpoison) (hlineAt ▸ hvalid) (hlineAt ▸ hdirty) (hlineAt ▸ hline)
      (hlineAt ▸ hkept) (by rwa [health_takeIn]) (by rwa [health_takeIn])
    refine (gives_payload_unlogged (noSaddle (by decide)) rfl h hbody ?_).imp fun t ⟨hdone, honly⟩ => ?_
    · rw [meter_mainUp]
      exact (congrArg State.mainUp hclearing.rest).trans (mainUp_takeIn h)
    · have hlines : ∀ j, lineAt t j = _ := fun j => (lineAt_of_onlyCtx honly j).trans (lineAt_meter ..)
      refine ⟨hdone, ?_, ?_, ?_, fun j => ?_, fun j hj => ?_, ?_⟩
      · rw [hlines]; exact hclearing.poison
      · rw [hlines]; exact hclearing.valid
      · rw [hlines]; exact hclearing.dirty
      · rw [hlines]; exact hclearing.data j j.isLt
      · rw [hlines]; exact (hclearing.others j hj).trans (lineAt_takeIn ..)
      · rw [honly.log.medium, meter_medium]
        exact (congrArg State.medium hclearing.rest).trans (medium_takeIn ..)
  case injectUnmapped =>
    exact gives_turned_unlogged (noSaddle (by decide)) rfl h
      (body_injectPoison_unmapped ((pathLd_takeIn ..).trans hk) ((rangeLpn_takeIn ..).trans hmap))
  case clearUnmapped =>
    exact gives_turned_unlogged (noSaddle (by decide)) rfl h
      (body_clearPoison_unmapped ((pathLd_takeIn ..).trans hk) ((rangeLpn_takeIn ..).trans hmap))

end Sys2Proof.Machine

/-! SUPPORT. Why a CXL Reset does not leave every port's link up: it lets the requests of other LDs that wait on the port go on
(R119), and a write among them can be lost with the journal tail at its budget (R327, R329), which powers the main die down at once
where its boot has not run (R348, R532). -/

namespace Sys2Proof.Machine

/-! ### A power-down (R348, R532, R543) -/

/-- R543: a power-down leaves no port with a link. -/
theorem up_powerDown (cause fl : Nat) (s : State) (q : Nat) : (port (powerDown cause fl s) q).up = false := rfl

theorem startFlush_of_not_booted {cause : Nat} {s : State} (hmain : s.mainUp = true) (hboot : s.boot.running = false) (hcause : cause ≠ 6) :
    startFlush cause s = powerDown 1 cause s := by
  simp [startFlush, hmain, hboot, hcause]

/-- R327, R329: in WRITE_HOLD, with the tail at its budget, a lost write starts a flush. -/
theorem lostMark_of_full (lpn part : Nat) {s : State} (hfull : journalBudget s ≤ tailRecords s) : lostMark lpn part 3 s =
    (false, startFlush 3 (emit 0x0806 0xFF (tailRecords s) part (lpn % 4294967296) (lpn / 4294967296) s)) :=
  if_pos ⟨rfl, hfull⟩

/-- R44, R188: a lost write of a parcel that the cache does not hold, in WRITE_HOLD with the tail at its budget, where the boot has
not run: the main die powers down. -/
theorem up_writeAccess_of_full {r : Req} {s : State} (errs : List NodeErr) (hmain : s.mainUp = true) (hboot : s.boot.running = false)
    (hhealth : r.health = 3) (hmiss : findWay s r.lpn = none) (hlost : writeLost s 3 = true)
    (hfull : journalBudget s ≤ tailRecords s) (q : Nat) : (port (writeAccess r errs s) q).up = false := by
  let u := countLost 3 r.part s
  have hmark := lostMark_of_full r.lpn r.part (s := u) hfull
  have hdown : writeAccess r errs s = powerDown 1 3
      (emit 0x0806 0xFF (tailRecords u) r.part (r.lpn % 4294967296) (r.lpn / 4294967296) u) := by
    have hlose : loseWrite r.lpn r.part 3 u = lostMark r.lpn r.part 3 u := by
      rw [loseWrite, show findWay u r.lpn = none from hmiss]
    rw [writeAccess, hmiss, hhealth]
    dsimp only
    rw [if_pos hlost, hlose, hmark]
    refine (if_neg Bool.false_ne_true).trans (startFlush_of_not_booted ?_ ?_ (by decide))
    · rw [emit_mainUp]; exact hmain
    · rw [emit_boot]; exact hboot
  rw [hdown]
  exact up_powerDown ..

/-! ### A write that waited goes on (R95, R119) -/

section Readmit

variable {r : Req} {s : State}

theorem readmit_of_first (hcredit : r.credit = false) (hfirst : behind s r = false) (hthawed : r.frozen = false) :
    readmit r s = tollgate {} { r with credit := false, health := s.health.st } s := by
  simp [readmit, returnCredit, hcredit, hfirst, hthawed]

/-- R95: a write of a tenant within its contract and its map is accepted. -/
theorem tollgate_of_contract {e : ReadEnv} {g : Nat} (htenant : tenantLd s (ldKey r.port r.ld) = true) (hinterim : interim s = false)
    (hfree : ldFrozen s r.port r.ld = false) (hform : r.malformed = 0) (hright : opAllowed (ldAt s (ldKey r.port r.ld)).map r = true)
    (hroom : (ldAt s (ldKey r.port r.ld)).outstanding < (ldAt s (ldKey r.port r.ld)).map.outstanding)
    (hmap : (rangePos (ldAt s (ldKey r.port r.ld)).map.ranges (r.dpa.toNat / gib)).bind
      (fun pos => legAt s.sad.img.runs (ldAt s (ldKey r.port r.ld)).map.part pos) = some g) (hclean : r.wr.poison = false) :
    tollgate e r s = acceptReq e { r with lpn := lpnOf g r.dpa.toNat, sector := sectorOf r.dpa.toNat
                                          part := (ldAt s (ldKey r.port r.ld)).map.part } s := by
  simp [tollgate, tenantReq, stormCheck, htenant, hinterim, hfree, hform, hright, Nat.not_le.mpr hroom, hmap, hclean]

theorem acceptReq_of_wr {e : ReadEnv} (hkey : keyed s r.part = true) (hop : r.op = .wr) (hhealth : r.health ≠ 5) :
    acceptReq e r s = access e r (takeTag r s) := by
  simp [acceptReq, hkey, hop, hhealth]

theorem access_of_missing_wr {e : ReadEnv} (hslice : isRetiring s (hashSlice r.lpn) = false) (hmiss : findWay s r.lpn = none)
    (hop : r.op = .wr) : access e r s = writeAccess r e.nodes s := by
  simp [access, hslice, hmiss, hop, MemOp.isRead, MemOp.isWrite]

end Readmit

/-! ### A CXL Reset (R78, R80) -/

/-- A CXL Reset of an LD before the requests that wait on its port go on. -/
def ldReset (p l : Nat) (s : State) : State :=
  setReset 10 (modLd (ldKey p l) (fun x => { x with decoders := [{}, {}] })
    (resetIo (ldKey p l) (dropLdReqs p l (emit 0x0109 p p l 0 0 s))))

theorem exec_cxlReset {p l : Nat} (b : Bool) {s : State} (hmain : s.mainUp = true) (hconf : ldConfigured s p l = true)
    (hup : (port s p).up = true) (hcxl : (port s p).cxl ≠ 0x11) : exec (.cxlReset p l b) s = .next (drainIngress p (ldReset p l s)) := by
  change execCxlReset p l b s = _
  rw [execCxlReset, whenMain, if_pos hmain, if_neg (by simp [hconf, hup, hcxl]), ldReset]

theorem drainIngress_of_single {p : Nat} {r : Req} {s : State} (h : (port s p).ingress = [r]) :
    drainIngress p s = readmit r (modPort p (fun x => { x with ingress := [] }) s) := by
  rw [drainIngress, h]
  rfl

/-- The requests of a port without those of an LD. -/
def withoutLd (l : Nat) (x : Port) : Port :=
  { x with reqs := x.reqs.filter (fun r => !(r.ld == l)), ingress := x.ingress.filter (fun r => !(r.ld == l))
           oldReqs := x.oldReqs ++ x.reqs.filter (fun r => r.ld == l) }

theorem dropLdReqs_of_none {p l : Nat} {s : State} (hcache : s.cache = {}) (hheld : (port s p).held = [])
    (hin : (port s p).ingress.filter (fun r => r.ld == l) = []) :
    dropLdReqs p l s = modPort p (withoutLd l) (modPort p (fun x => { x with held := x.held.filter (fun h => !(h.2.1.ld == l)) }) s) := by
  have hwrites : dropWrites p (some l) s = s := by
    rw [show s = { s with cache := {} } by rw [← hcache]]
    rfl
  have hheld' : dropHeld p (some l) s = modPort p (fun x => { x with held := x.held.filter (fun h => !(h.2.1.ld == l)) }) s := by
    unfold dropHeld
    rw [hheld]
    rfl
  unfold dropLdReqs
  dsimp only
  rw [hwrites, hheld', port_modPort_same, hin]
  rfl

theorem ldAt_emit (code inst a b c d : Nat) (s : State) (k : Nat) : ldAt (emit code inst a b c d s) k = ldAt s k := by
  rw [ldAt, emit_ports, ldAt]

theorem resetIo_of_idle {k : Nat} {s : State} (hidle : (ldAt s k).cof.run = none) : resetIo k s = modLd k ioReset s := by
  rw [resetIo, stopCoffer, hidle]

/-! ### The state in which it happens -/

/-- A write of LD 1 that waits on port 0. -/
def waitingWrite : Req := { port := 0, ld := 1, tag := 0, op := .wr, dpa := 0 }

/-- LD 1 maps a leg of partition 0. -/
def tenantOfLeg : Ld := { map := { typ := .tenant, ranges := [{ dpaLeg := 0, count := 1, pos := 0 }] } }

/-- Port 0 with that write. -/
def waitingPort : Port := { up := true, ingress := [waitingWrite] }

/-- A main die in WRITE_HOLD whose boot has not run, with that write, and with a journal tail. -/
def stalled (tail : List JRec) : State :=
  { mainUp := true, health := { st := 3 }, ports := { ports := [(0, waitingPort)], lds := [(1, tenantOfLeg)], mgmt := none }
    sad := { img := { runs := [(0, { part := 0, pos := 0, leg := 0, count := 1 })] } }, way := { tail := tail } }

/-- What the reset of LD 0 there leaves alone. -/
def aside (s : State) : State := { s with ports := { s.ports with ports := [], lds := [] }, keeper := {}, relay := {}, cairn := {} }

/-- A state in which that write goes on, LD 0 having been reset. -/
structure GoesOn (tail : List JRec) (v : State) : Prop where
  aside : aside v = aside (stalled tail)
  port : port v 0 = { waitingPort with ingress := [] }
  ld : ldAt v 1 = tenantOfLeg

theorem ldReset_stalled (tail : List JRec) : ldReset 0 0 (stalled tail) =
    setReset 10 (modLd (ldKey 0 0) (fun x => { x with decoders := [{}, {}] }) (modLd (ldKey 0 0) ioReset (modPort 0 (withoutLd 0)
      (modPort 0 (fun x => { x with held := x.held.filter (fun h => !(h.2.1.ld == 0)) }) (emit 0x0109 0 0 0 0 0 (stalled tail)))))) := by
  have hport : port (emit 0x0109 0 0 0 0 0 (stalled tail)) 0 = waitingPort := port_emit ..
  rw [ldReset, dropLdReqs_of_none ((emit_cache ..).trans rfl) (by rw [hport]; rfl) (by rw [hport]; rfl), resetIo_of_idle]
  rw [ldAt_modPort, ldAt_modPort, ldAt_emit]
  rfl

theorem port_ldReset_stalled (tail : List JRec) : port (ldReset 0 0 (stalled tail)) 0 = waitingPort := by
  rw [ldReset_stalled, port_setReset, port_modLd, port_modLd, port_modPort_same, port_modPort_same, port_emit]
  rfl

theorem goesOn_ldReset (tail : List JRec) :
    GoesOn tail (modPort 0 (fun x => { x with ingress := [] }) (ldReset 0 0 (stalled tail))) := by
  refine ⟨?_, ?_, ?_⟩
  · rw [ldReset_stalled, emit_eq]
    rfl
  · rw [port_modPort_same, port_ldReset_stalled]
  · rw [ldReset_stalled, ldAt_modPort]
    refine (ldAt_modLd_ne _ _ (by decide)).trans ((ldAt_modLd_ne _ _ (by decide)).trans ?_)
    rw [ldAt_modPort, ldAt_modPort, ldAt_emit]
    rfl

/-- The write as the Tollgate passes it on. -/
def passedWrite : Req := { waitingWrite with health := 3 }

section Going

variable {tail : List JRec} {v : State}

/-- R95, R119: the write that waited reaches its slice. -/
theorem GoesOn.reaches (h : GoesOn tail v) : readmit waitingWrite v = writeAccess passedWrite [] (takeTag passedWrite v) := by
  obtain ⟨haside, hport, hld⟩ := h
  have hhealth : v.health = { st := 3 } := congrArg State.health haside
  have hcache : v.cache = {} := congrArg State.cache haside
  have hboot : v.boot = {} := congrArg State.boot haside
  have hgate : v.gate = {} := congrArg State.gate haside
  have hseal : v.sealCtl = {} := congrArg State.sealCtl haside
  have hmgmt : v.ports.mgmt = none := congrArg (fun s : State => s.ports.mgmt) haside
  have hruns : v.sad.img.runs = [(0, { part := 0, pos := 0, leg := 0, count := 1 })] := congrArg (fun s : State => s.sad.img.runs) haside
  have htenant : tenantLd v 1 = true := by simp [tenantLd, hld, mgmtKey, hmgmt, tenantOfLeg]
  have hinterim : interim v = false := by simp [interim, hhealth, hboot]
  have hfree : ldFrozen v 0 1 = false := by simp [ldFrozen, isFrozen, hgate]
  have hbehind : behind v waitingWrite = false := by simp [behind, waitingWrite, hport]
  have hkeyed : keyed v 0 = true := by simp [keyed, hseal]
  have hkey : ldAt v (ldKey passedWrite.port passedWrite.ld) = tenantOfLeg := hld
  have hpasses : tollgate {} passedWrite v = acceptReq {} passedWrite v := by
    refine (tollgate_of_contract (r := passedWrite) (g := 0) htenant hinterim hfree rfl ?_ ?_ ?_ rfl).trans ?_ <;> rw [hkey]
    · decide
    · decide
    · rw [hruns]
      decide
    · rfl
  have htaken : (takeTag passedWrite v).cache = {} := (OnlyPorts.cache (onlyPorts_takeTag ..)).trans hcache
  calc readmit waitingWrite v
    _ = tollgate {} { waitingWrite with credit := false, health := v.health.st } v := readmit_of_first rfl hbehind rfl
    _ = tollgate {} passedWrite v := by rw [hhealth]; rfl
    _ = acceptReq {} passedWrite v := hpasses
    _ = access {} passedWrite (takeTag passedWrite v) := acceptReq_of_wr hkeyed rfl (by decide)
    _ = writeAccess passedWrite [] (takeTag passedWrite v) :=
      access_of_missing_wr (by rw [isRetiring, htaken]; rfl) (by rw [findWay, htaken]; rfl) rfl

/-- R329: with the journal tail at its budget, that write takes every link down. -/
theorem GoesOn.down (h : GoesOn tail v) (htail : 65536 ≤ tail.length) (q : Nat) : (Machine.port (readmit waitingWrite v) q).up = false := by
  rw [h.reaches]
  obtain ⟨haside, -, -⟩ := h
  have hframe : takeTag passedWrite v = { v with ports := (takeTag passedWrite v).ports } := onlyPorts_takeTag ..
  have hbelay : (takeTag passedWrite v).belay = {} := by
    rw [hframe]
    exact congrArg State.belay haside
  have hway : (takeTag passedWrite v).way = { tail := tail } := by
    rw [hframe]
    exact congrArg State.way haside
  have hcache : (takeTag passedWrite v).cache = {} := by
    rw [hframe]
    exact congrArg State.cache haside
  refine up_writeAccess_of_full [] ?_ ?_ rfl ?_ ?_ ?_ q
  · rw [hframe]
    exact congrArg State.mainUp haside
  · rw [hframe]
    exact congrArg (fun s : State => s.boot.running) haside
  · rw [findWay, hcache]
    rfl
  · simp [writeLost, dirtyLimit, hbelay]
  · simpa [journalBudget, tailRecords, hbelay, hway, sumN] using htail

end Going

/-- Refutes O15: a CXL Reset lets a write of another LD that waits on its port go on. In WRITE_HOLD, with 65,536 records in the
journal tail and the boot not run, that write takes the main die down, and the port's link with it. -/
theorem not_ldResets : ¬ Obligations.LdResets := by
  unfold Obligations.LdResets
  rintro ⟨-, hreset, -⟩
  obtain ⟨tail, htail⟩ : ∃ tail : List JRec, 65536 ≤ tail.length := ⟨List.replicate 65536 .pad, List.length_replicate.ge⟩
  have hport : port (stalled tail) 0 = waitingPort := rfl
  have hconf : ldConfigured (stalled tail) 0 0 = true := by
    rw [ldConfigured, if_neg (by decide), hport]
    decide
  have hup : (port (stalled tail) 0).up = true := by rw [hport]; rfl
  have hcxl : (port (stalled tail) 0).cxl ≠ 0x11 := by rw [hport]; decide
  have hdown : (port (drainIngress 0 (ldReset 0 0 (stalled tail))) 0).up = false := by
    rw [drainIngress_of_single (congrArg Port.ingress (port_ldReset_stalled tail))]
    exact (goesOn_ldReset tail).down htail 0
  obtain ⟨t, ht, -, -, -, -, -, hstays, -⟩ := hreset (stalled tail) 0 0 false rfl hconf hup hcxl
  rw [exec_cxlReset false rfl hconf hup hcxl] at ht
  rw [← Host.Outcome.next.inj ht, hdown] at hstays
  exact Bool.false_ne_true hstays

end Sys2Proof.Machine

/-! SUPPORT. The freezes in force (R106, R116): no operation of the machine but THAW and the start of a boot takes one off the
list. For each operation one lemma says so: `freezes_f`, that f leaves the list as it was, or `mem_freezes_f`, that what was in
the list before f is in it after. -/

namespace Sys2Proof.Machine

/-! ### Branches, loops and guards -/

@[simp] theorem freezes_ite (c : Prop) [Decidable c] (s t : State) :
    (if c then s else t).gate.freezes = if c then s.gate.freezes else t.gate.freezes := apply_ite (fun u => u.gate.freezes) c s t

@[simp] theorem freezes_ite_snd {α : Type} (c : Prop) [Decidable c] (x y : α × State) :
    (if c then x else y).2.gate.freezes = if c then x.2.gate.freezes else y.2.gate.freezes := apply_ite (fun u => u.2.gate.freezes) c x y

@[simp] theorem freezes_forAll {α : Type} {f : α → State → State} (h : ∀ a t, (f a t).gate.freezes = t.gate.freezes) (l : List α)
    (s : State) : (forAll l f s).gate.freezes = s.gate.freezes := forAll_keeps (fun t => t.gate.freezes) h l s

theorem mem_freezes_forAll {α : Type} {f : α → State → State} {x : Freeze}
    (h : ∀ a t, x ∈ t.gate.freezes → x ∈ (f a t).gate.freezes) (l : List α) {s : State} (hx : x ∈ s.gate.freezes) :
    x ∈ (forAll l f s).gate.freezes := by
  induction l generalizing s with
  | nil => exact hx
  | cons a l ih => exact ih (h a s hx)

@[simp] theorem freezes_foldl {α : Type} {f : State → α → State} (h : ∀ t a, (f t a).gate.freezes = t.gate.freezes) (l : List α)
    (s : State) : (l.foldl f s).gate.freezes = s.gate.freezes := forAll_keeps (fun t => t.gate.freezes) (fun a t => h t a) l s

@[simp] theorem freezes_whenMain {f : State → State} (h : ∀ t, (f t).gate.freezes = t.gate.freezes) (s : State) :
    (whenMain f s).gate.freezes = s.gate.freezes := by simp [whenMain, h]

/-! ### Freezes: the shared operations -/

@[simp] theorem freezes_emitOpen (code inst : Nat) (s : State) : (emitOpen code inst s).gate.freezes = s.gate.freezes := by
  simp [emitOpen]

@[simp] theorem freezes_bumpBit (code par i : Nat) (s : State) : (bumpBit code par i s).gate.freezes = s.gate.freezes := rfl
@[simp] theorem freezes_bumpCh (code ch : Nat) (s : State) : (bumpCh code ch s).gate.freezes = s.gate.freezes := rfl

/-- R106, R110: a trigger adds the freeze of its master, or finds it frozen. -/
@[simp] theorem mem_freezes_freeze {m code : Nat} {addr : BitVec 64} {detail : Nat} {s : State} {f : Freeze} (h : f ∈ s.gate.freezes) :
    f ∈ (freeze m code addr detail s).gate.freezes := by
  unfold freeze
  split
  · exact h
  · rw [freezes_forAll (fun _ _ => by simp)]
    simp [h]

@[simp] theorem freezes_extremeHi (i : Nat) (v : Int) (s : State) : (extremeHi i v s).gate.freezes = s.gate.freezes := by
  simp only [extremeHi]
  split <;> simp

@[simp] theorem freezes_extremeLo (i : Nat) (v : Int) (s : State) : (extremeLo i v s).gate.freezes = s.gate.freezes := by
  simp only [extremeLo]
  split <;> simp

@[simp] theorem freezes_meterWrite (r : Req) (s : State) : (meterWrite r s).gate.freezes = s.gate.freezes := by simp [meterWrite]

@[simp] theorem freezes_meterRead (r : Req) (lat : Nat) (s : State) : (meterRead r lat s).gate.freezes = s.gate.freezes := by
  simp [meterRead]

@[simp] theorem freezes_freeTag (r : Req) (s : State) : (freeTag r s).gate.freezes = s.gate.freezes := by simp [freeTag]

@[simp] theorem freezes_sendResp (ready : Nat) (r : Req) (k : RespKind) (s : State) :
    (sendResp ready r k s).gate.freezes = s.gate.freezes := by
  simp [sendResp]

@[simp] theorem freezes_finish (r : Req) (k : RespKind) (s : State) : (finish r k s).gate.freezes = s.gate.freezes := by
  simp [finish]

@[simp] theorem freezes_takeTag (r : Req) (s : State) : (takeTag r s).gate.freezes = s.gate.freezes := by simp [takeTag]
@[simp] theorem freezes_addCredit (r : Req) (n : Int) (s : State) : (addCredit r n s).gate.freezes = s.gate.freezes := rfl
@[simp] theorem freezes_enqueue (r : Req) (s : State) : (enqueue r s).gate.freezes = s.gate.freezes := rfl

@[simp] theorem freezes_returnCredit (r : Req) (s : State) : (returnCredit r s).gate.freezes = s.gate.freezes := by
  simp [returnCredit]

@[simp] theorem freezes_poolComplete (r : Req) (s : State) : (poolComplete r s).gate.freezes = s.gate.freezes := by
  simp [poolComplete]

@[simp] theorem freezes_ownComplete (r : Req) (s : State) : (ownComplete r s).gate.freezes = s.gate.freezes := by simp [ownComplete]
@[simp] theorem freezes_drawn (s : State) : (drawn s).gate.freezes = s.gate.freezes := rfl

/-! ### Freezes: records and their stores -/

@[simp] theorem freezes_finishStore (s : State) : (finishStore s).gate.freezes = s.gate.freezes := by
  simp only [finishStore]
  split <;> simp

/-! ### Freezes: Cairn and the event logs -/

@[simp] theorem freezes_stageRec (code inst a b c d : Nat) (s : State) :
    (stageRec code inst a b c d s).gate.freezes = s.gate.freezes := rfl

@[simp] theorem freezes_forward (r : CairnRec) (s : State) : (forward r s).gate.freezes = s.gate.freezes := rfl

@[simp] theorem freezes_drainAll (s : State) : (drainAll s).gate.freezes = s.gate.freezes :=
  freezes_forAll (f := forward) (fun _ _ => rfl) _ _

@[simp] theorem freezes_deliver (e : EventDesc) (s : State) : (deliver e s).gate.freezes = s.gate.freezes :=
  freezes_forAll (fun _ _ => by simp) _ _

@[simp] theorem freezes_deliverAll (s : State) : (deliverAll s).gate.freezes = s.gate.freezes := by simp [deliverAll]
@[simp] theorem freezes_hourRecords (s : State) : (hourRecords s).gate.freezes = s.gate.freezes := by simp [hourRecords]

@[simp] theorem freezes_closeEpoch (short : Bool) (s0 : State) : (closeEpoch short s0).gate.freezes = s0.gate.freezes := by
  simp [closeEpoch]

/-! ### Freezes: counters and keys -/

@[simp] theorem freezes_loadSystem (s : State) : (loadSystem s).gate.freezes = s.gate.freezes := rfl
@[simp] theorem freezes_markDirty (key : Nat) (s : State) : (markDirty key s).gate.freezes = s.gate.freezes := by simp [markDirty]
@[simp] theorem freezes_modLeaf (i : Nat) (f : Leaf → Leaf) (s : State) : (modLeaf i f s).gate.freezes = s.gate.freezes := rfl

@[simp] theorem freezes_modNode (level idx : Nat) (f : Node → Node) (s : State) :
    (modNode level idx f s).gate.freezes = s.gate.freezes := rfl

@[simp] theorem freezes_dirtyLeaf (i : Nat) (f : Leaf → Leaf) (s : State) : (dirtyLeaf i f s).gate.freezes = s.gate.freezes := by
  simp [dirtyLeaf]

@[simp] theorem freezes_bumpParent (level idx : Nat) (s : State) : (bumpParent level idx s).gate.freezes = s.gate.freezes := by
  simp [bumpParent]

@[simp] theorem freezes_incCounter (lpn part : Nat) (unw : BitVec 64) (s : State) :
    (incCounter lpn part unw s).gate.freezes = s.gate.freezes := by
  simp [incCounter]

@[simp] theorem freezes_setDone (lpn : Nat) (s : State) : (setDone lpn s).gate.freezes = s.gate.freezes := by
  simp only [setDone]
  split <;> simp

@[simp] theorem freezes_loseNode (level idx : Nat) (s : State) : (loseNode level idx s).gate.freezes = s.gate.freezes := by
  simp [loseNode]

/-! ### Freezes: the map, poison and tiles -/

@[simp] theorem freezes_dropLoc (ppa : Nat) (s : State) : (dropLoc ppa s).gate.freezes = s.gate.freezes := rfl
@[simp] theorem freezes_addLoc (ppa : Nat) (s : State) : (addLoc ppa s).gate.freezes = s.gate.freezes := rfl

@[simp] theorem freezes_dropOld (lpn : Nat) (s : State) : (dropOld lpn s).gate.freezes = s.gate.freezes := by
  simp only [dropOld]
  split <;> simp

@[simp] theorem freezes_journal (rs : List JRec) (s : State) : (journal rs s).gate.freezes = s.gate.freezes := rfl
@[simp] theorem freezes_baleCount (lbi : Nat) (s : State) : (baleCount lbi s).gate.freezes = s.gate.freezes := rfl

@[simp] theorem freezes_putEntry (lpn : Nat) (e : OvEntry) (s : State) : (putEntry lpn e s).gate.freezes = s.gate.freezes := by
  simp [putEntry]

@[simp] theorem freezes_setLocated (lpn ppa : Nat) (wseq : BitVec 32) (s : State) :
    (setLocated lpn ppa wseq s).gate.freezes = s.gate.freezes := by
  simp [setLocated]

@[simp] theorem freezes_putMark (lpn : Nat) (s : State) : (putMark lpn s).gate.freezes = s.gate.freezes := by simp [putMark]

@[simp] theorem freezes_poisonMark (lpn : Nat) (s : State) : (poisonMark lpn s).gate.freezes = s.gate.freezes := by
  simp [poisonMark]

@[simp] theorem freezes_newlyPoisoned (lpn : Nat) (s : State) : (newlyPoisoned lpn s).gate.freezes = s.gate.freezes := by
  simp [newlyPoisoned]

@[simp] theorem freezes_unlist (lpn : Nat) (s : State) : (unlist lpn s).gate.freezes = s.gate.freezes :=
  freezes_forAll (fun _ _ => by simp) _ _

@[simp] theorem freezes_openTile (ch b : Nat) (r : Role) (s : State) : (openTile ch b r s).gate.freezes = s.gate.freezes := by
  simp only [openTile]
  split <;> simp

@[simp] theorem freezes_closeTile (ch b : Nat) (r : Role) (k : Nat) (s : State) :
    (closeTile ch b r k s).gate.freezes = s.gate.freezes := rfl

@[simp] theorem freezes_closeIfFull (ch b : Nat) (r : Role) (k : Nat) (s : State) :
    (closeIfFull ch b r k s).gate.freezes = s.gate.freezes := by
  simp [closeIfFull]

theorem freezes_takeFresh {ch b n : Nat} {r : Role} {s : State} {x : Nat × State} (h : takeFresh ch b r n s = some x) :
    x.2.gate.freezes = s.gate.freezes := by
  obtain ⟨k, -, rfl⟩ := Option.map_eq_some_iff.mp h
  simp

theorem freezes_takeLoc {ch b n : Nat} {r : Role} {s : State} {x : Nat × State} (h : takeLoc ch b r n s = some x) :
    x.2.gate.freezes = s.gate.freezes := by
  unfold takeLoc at h
  split at h
  · exact freezes_takeFresh h
  · dsimp only at h
    split at h
    · simpa using freezes_takeFresh h
    · cases h
      simp

theorem freezes_placeHost {s : State} {x : Nat × Nat × State} (h : placeHost s = some x) : x.2.2.gate.freezes = s.gate.freezes := by
  unfold placeHost at h
  split at h
  · exact absurd h (by simp)
  · split at h
    · exact absurd h (by simp)
    · obtain ⟨r, hr, rfl⟩ := Option.map_eq_some_iff.mp h
      simpa using freezes_takeLoc hr

@[simp] theorem freezes_planSeq (c b : Nat) (p : PulseSeq) (s : State) : (planSeq c b p s).gate.freezes = s.gate.freezes := rfl

theorem freezes_takeLedgerTile {o : Option Nat} {s : State} {cs : List Nat} {x : Nat × State} (h : takeLedgerTile o s cs = some x) :
    x.2.gate.freezes = s.gate.freezes := by
  induction cs with
  | nil => simp [takeLedgerTile] at h
  | cons c cs ih =>
    unfold takeLedgerTile at h
    split at h
    · exact ih h
    · split at h
      · exact ih h
      · cases h
        simp

@[simp] theorem freezes_setChain (n k : Nat) (s : State) : (setChain n k s).gate.freezes = s.gate.freezes := rfl

@[simp] theorem freezes_replaceLedger (k : Nat) (s : State) : (replaceLedger k s).gate.freezes = s.gate.freezes := by
  refine freezes_forAll (fun p t => ?_) _ _
  dsimp only
  split
  next => rfl
  next h => simpa using freezes_takeLedgerTile h

@[simp] theorem freezes_retireTile (k cause : Nat) (s : State) : (retireTile k cause s).gate.freezes = s.gate.freezes := by
  simp [retireTile]

@[simp] theorem freezes_spareCheck (s : State) : (spareCheck s).gate.freezes = s.gate.freezes := by simp [spareCheck]

/-! ### Freezes: maintenance programs, the counter tree and the ledger -/

@[simp] theorem freezes_sealSys (space lpn n : Nat) (body : SysBody) (s : State) :
    (sealSys space lpn n body s).2.gate.freezes = s.gate.freezes := rfl

@[simp] theorem freezes_modProg (w : MWork) (f : MProg → MProg) (s : State) : (modProg w f s).gate.freezes = s.gate.freezes := rfl
@[simp] theorem freezes_dropProgs (hit : MWork → Bool) (s : State) : (dropProgs hit s).gate.freezes = s.gate.freezes := rfl

theorem freezes_fastPlace {n : Nat} {s : State} {cs : List Nat} {x : Nat × State} (h : fastPlace n s cs = some x) :
    x.2.gate.freezes = s.gate.freezes := by
  induction cs with
  | nil => simp [fastPlace] at h
  | cons c cs ih =>
    unfold fastPlace at h
    split at h
    next hr =>
      cases h
      obtain ⟨b, -, hb⟩ := Option.bind_eq_some_iff.mp hr
      exact freezes_takeLoc hb
    next => exact ih h

theorem freezes_laneTile {c : Nat} {s : State} {x : Nat × State} (h : laneTile c s = some x) : x.2.gate.freezes = s.gate.freezes := by
  unfold laneTile at h
  split at h
  · exact absurd h (by simp)
  · obtain ⟨n, -, rfl⟩ := Option.map_eq_some_iff.mp h
    simp

theorem freezes_openLane {c l : Nat} {s : State} {x : (Nat × Nat) × State} (h : openLane c l s = some x) :
    x.2.gate.freezes = s.gate.freezes := by
  unfold openLane at h
  split at h
  · cases h
    rfl
  · obtain ⟨a, ha, h⟩ := Option.bind_eq_some_iff.mp h
    obtain ⟨b, hb, rfl⟩ := Option.map_eq_some_iff.mp h
    exact (freezes_laneTile hb).trans (freezes_laneTile ha)

@[simp] theorem freezes_nextLane (c l : Nat) (s : State) : (nextLane c l s).gate.freezes = s.gate.freezes := by
  unfold nextLane
  split
  · rfl
  · dsimp only
    split
    next h => simpa using freezes_laneTile h
    next => simp

theorem freezes_laneLoc {c l : Nat} {s : State} {x : (Nat × Nat) × State} (h : laneLoc c l s = some x) :
    x.2.gate.freezes = s.gate.freezes := by
  obtain ⟨r, hr, rfl⟩ := Option.map_eq_some_iff.mp h
  refine (by simp : _ = r.2.gate.freezes).trans ((freezes_openLane hr).trans ?_)
  split
  · split <;> simp
  · rfl

@[simp] theorem freezes_putProg (w : MWork) (ppa after : Nat) (s : State) : (putProg w ppa after s).gate.freezes = s.gate.freezes := by
  simp only [putProg]
  split <;> simp

@[simp] theorem freezes_placeProg (after : Nat) (w : MWork) (s : State) : (placeProg after w s).gate.freezes = s.gate.freezes := by
  unfold placeProg
  split
  next =>
    split
    next h =>
      obtain ⟨ch, -, h⟩ := Option.bind_eq_some_iff.mp h
      simpa using freezes_laneLoc h
    next => rfl
  next => split <;> simp
  next => rfl
  next =>
    split
    next h => simpa using freezes_fastPlace h
    next => rfl
  next =>
    split
    next h => simpa using freezes_fastPlace h
    next => rfl

@[simp] theorem freezes_askProg (w : MWork) (l : Load) (s : State) : (askProg w l s).gate.freezes = s.gate.freezes := by
  simp [askProg]

@[simp] theorem freezes_askSys (w : MWork) (space lpn n : Nat) (body : SysBody) (s : State) :
    (askSys w space lpn n body s).gate.freezes = s.gate.freezes := by
  simp [askSys]

@[simp] theorem freezes_commitCopies (w : Nat → MWork) (lpn : Nat → Nat) (s : State) :
    (commitCopies w lpn s).gate.freezes = s.gate.freezes := by
  simp only [commitCopies]
  split <;> simp

@[simp] theorem freezes_useNode (level idx : Nat) (s : State) : (useNode level idx s).gate.freezes = s.gate.freezes := by
  simp [useNode]

@[simp] theorem freezes_loadLine (level idx : Nat) (x : BitVec 512) (s : State) :
    (loadLine level idx x s).gate.freezes = s.gate.freezes := by
  simp [loadLine]

@[simp] theorem freezes_loadNew (level idx : Nat) (s : State) : (loadNew level idx s).gate.freezes = s.gate.freezes := by
  simp [loadNew]

@[simp] theorem freezes_cleanNode (level idx : Nat) (s : State) : (cleanNode level idx s).gate.freezes = s.gate.freezes := by
  simp [cleanNode]

@[simp] theorem freezes_bringSibling (level idx : Nat) (s : State) : (bringSibling level idx s).gate.freezes = s.gate.freezes := by
  unfold bringSibling
  split
  · simp
  · split
    · simp
    · split
      · simp
      · split <;> simp

@[simp] theorem freezes_writeParcel (level q : Nat) (s0 : State) : (writeParcel level q s0).gate.freezes = s0.gate.freezes := by
  simp [writeParcel]

@[simp] theorem freezes_evictNode (fuel level idx : Nat) (s : State) : (evictNode fuel level idx s).gate.freezes = s.gate.freezes := by
  induction fuel generalizing level idx s with
  | zero => rfl
  | succ fuel ih =>
    have hbelow := fun l s => freezes_forAll (f := evictNode fuel (level - 1)) (fun a t => ih (level - 1) a t) l s
    simp [evictNode, hbelow]

@[simp] theorem freezes_makeRoom (level idx : Nat) (s : State) : (makeRoom level idx s).gate.freezes = s.gate.freezes := by
  unfold makeRoom
  dsimp only
  split
  · rfl
  · split <;> simp

@[simp] theorem freezes_chargeCopy (level idx copy : Nat) (s : State) : (chargeCopy level idx copy s).gate.freezes = s.gate.freezes := by
  simp only [chargeCopy]
  split <;> simp

@[simp] theorem freezes_repairCopy (level q failed : Nat) (s : State) : (repairCopy level q failed s).gate.freezes = s.gate.freezes := by
  simp only [repairCopy]
  split <;> simp

@[simp] theorem freezes_fetchNode (errs : List NodeErr) (level idx : Nat) (s0 : State) :
    (fetchNode errs level idx s0).gate.freezes = s0.gate.freezes := by
  unfold fetchNode
  dsimp only
  split
  · simp
  · split
    · simp
    · split
      · simp
      · split
        · simp
        · split <;> simp

@[simp] theorem freezes_fetchPath (errs : List NodeErr) (lpn : Nat) (s : State) :
    (fetchPath errs lpn s).gate.freezes = s.gate.freezes := by
  simp [fetchPath]

@[simp] theorem freezes_repairLog (n failed : Nat) (s : State) : (repairLog n failed s).gate.freezes = s.gate.freezes := by
  simp only [repairLog]
  split <;> simp

@[simp] theorem freezes_repairSys (lpn : Nat) (s : State) : (repairSys lpn s).gate.freezes = s.gate.freezes := by simp [repairSys]
@[simp] theorem freezes_storeSummit (s : State) : (storeSummit s).gate.freezes = s.gate.freezes := rfl

@[simp] theorem freezes_treeGoesOn (fuel : Nat) (s : State) : (treeGoesOn fuel s).gate.freezes = s.gate.freezes := by
  induction fuel generalizing s with
  | zero => rfl
  | succ fuel ih =>
    unfold treeGoesOn
    split
    · rfl
    · simp [ih]

@[simp] theorem freezes_askPage (r : Round) (k ord : Nat) (s : State) : (askPage r k ord s).gate.freezes = s.gate.freezes := by
  simp [askPage]

@[simp] theorem freezes_copyLost (src : Nat) (ppas : List Nat) (s : State) : (copyLost src ppas s).gate.freezes = s.gate.freezes := by
  unfold copyLost
  dsimp only
  split
  · simp
  · split <;> simp

@[simp] theorem freezes_pageDone (k : Nat) (s : State) : (pageDone k s).gate.freezes = s.gate.freezes := by
  simp only [pageDone]
  split <;> simp

@[simp] theorem freezes_roundGoesOn (s : State) : (roundGoesOn s).gate.freezes = s.gate.freezes := by
  unfold roundGoesOn
  dsimp only
  split
  · simp
  · split
    · simp
    · split <;> simp

@[simp] theorem freezes_askBlock (m : MinuteBank) (k : Nat) (s : State) : (askBlock m k s).gate.freezes = s.gate.freezes := by
  simp [askBlock]

@[simp] theorem freezes_dropBlock (m : Nat) (s : State) : (dropBlock m s).gate.freezes = s.gate.freezes := rfl

@[simp] theorem freezes_ledgerFeed (s : State) : (ledgerFeed s).gate.freezes = s.gate.freezes := by
  unfold ledgerFeed
  dsimp only
  split
  · simp
  · split <;> simp

@[simp] theorem freezes_copyLedger (s : State) : (copyLedger s).gate.freezes = s.gate.freezes := by
  simp only [copyLedger]
  split <;> simp

/-! ### Freezes: resets, power-down and the start of a flush -/

@[simp] theorem freezes_setReset (i : Nat) (s : State) : (setReset i s).gate.freezes = s.gate.freezes := rfl

@[simp] theorem freezes_endUnlock (cause : Nat) (s : State) : (endUnlock cause s).gate.freezes = s.gate.freezes := by
  simp [endUnlock]

@[simp] theorem freezes_discardStaging (cause : Nat) (s : State) : (discardStaging cause s).gate.freezes = s.gate.freezes := by
  simp [discardStaging]

@[simp] theorem freezes_mainReset (s : State) : (mainReset s).gate.freezes = s.gate.freezes := by simp [mainReset]

@[simp] theorem freezes_powerDown (cause fl : Nat) (s0 : State) : (powerDown cause fl s0).gate.freezes = s0.gate.freezes := by
  simp [powerDown]

@[simp] theorem freezes_restart (s : State) : (restart s).gate.freezes = s.gate.freezes := by simp [restart]
@[simp] theorem freezes_dropRequests (s : State) : (dropRequests s).gate.freezes = s.gate.freezes := by simp [dropRequests]

@[simp] theorem freezes_latchFlush (st : Nat) (s : State) : (latchFlush st s).gate.freezes = s.gate.freezes := by
  simp only [latchFlush]
  split <;> simp

@[simp] theorem freezes_failTest (cause : Nat) (s : State) : (failTest cause s).gate.freezes = s.gate.freezes := by
  simp only [failTest]
  split <;> simp

@[simp] theorem freezes_beginFlush (cause : Nat) (s : State) : (beginFlush cause s).gate.freezes = s.gate.freezes := by
  simp [beginFlush]

@[simp] theorem freezes_startFlush (cause : Nat) (s : State) : (startFlush cause s).gate.freezes = s.gate.freezes := by
  simp [startFlush]

@[simp] theorem freezes_fatalFault (cause v1 v2 core : Nat) (s : State) :
    (fatalFault cause v1 v2 core s).gate.freezes = s.gate.freezes := by
  simp [fatalFault]

/-! ### Freezes: the cache's shared operations -/

@[simp] theorem freezes_touch (k : Nat) (s : State) : (touch k s).gate.freezes = s.gate.freezes := rfl
@[simp] theorem freezes_evAgain (d : EvDue) (f : EvDue → EvDue) (s : State) : (evAgain d f s).gate.freezes = s.gate.freezes := rfl
@[simp] theorem freezes_evDue (d : EvDue) (s : State) : (evDue d s).gate.freezes = s.gate.freezes := rfl
@[simp] theorem freezes_evThrough (lpn part : Nat) (s : State) : (evThrough lpn part s).gate.freezes = s.gate.freezes := rfl

@[simp] theorem freezes_allotWay (lpn : Nat) (evict : Bool) (s : State) : (allotWay lpn evict s).2.gate.freezes = s.gate.freezes := by
  unfold allotWay
  dsimp only
  split
  · rfl
  · split
    · rfl
    · split <;> simp

theorem freezes_of_allotWay {lpn : Nat} {evict : Bool} {s t : State} {o : Option Nat} (h : allotWay lpn evict s = (o, t)) :
    t.gate.freezes = s.gate.freezes :=
  (congrArg (fun x => x.2.gate.freezes) h).symm.trans (freezes_allotWay lpn evict s)

@[simp] theorem freezes_putLine (k : Nat) (l : Line) (s : State) : (putLine k l s).gate.freezes = s.gate.freezes := rfl
@[simp] theorem freezes_dropWay (k : Nat) (s : State) : (dropWay k s).gate.freezes = s.gate.freezes := rfl
@[simp] theorem freezes_modFill (lpn : Nat) (f : Fill → Fill) (s : State) : (modFill lpn f s).gate.freezes = s.gate.freezes := rfl

@[simp] theorem freezes_spendRead (part ch : Nat) (s : State) : (spendRead part ch s).gate.freezes = s.gate.freezes := by
  simp [spendRead]

@[simp] theorem freezes_spendWrite (part ch : Nat) (s : State) : (spendWrite part ch s).gate.freezes = s.gate.freezes := by
  simp [spendWrite]

@[simp] theorem freezes_enqueueRead (r : RdItem) (s : State) : (enqueueRead r s).gate.freezes = s.gate.freezes := by
  simp [enqueueRead]

@[simp] theorem freezes_fillReady (lpn : Nat) (st : FillSt) (s : State) : (fillReady lpn st s).gate.freezes = s.gate.freezes := by
  simp [fillReady]

@[simp] theorem freezes_resolveFill (it : RdItem) (errs : List NodeErr) (s : State) :
    (resolveFill it errs s).gate.freezes = s.gate.freezes := by
  unfold resolveFill
  dsimp only
  split
  · simp
  · split
    · simp
    · split <;> simp

@[simp] theorem freezes_missFill (r : Req) (errs : List NodeErr) (s : State) : (missFill r errs s).gate.freezes = s.gate.freezes := by
  unfold missFill
  split
  · simp
  · split
    · rfl
    · simp only [freezes_resolveFill, freezes_modFill]
      split
      · simp
      · split
        next h => simpa using freezes_of_allotWay h
        next h => exact freezes_of_allotWay h

@[simp] theorem freezes_completionFill (lpn part : Nat) (errs : List NodeErr) (s : State) :
    (completionFill lpn part errs s).gate.freezes = s.gate.freezes := by
  unfold completionFill
  dsimp only
  split
  · simp
  · split
    · simp
    · split <;> simp

@[simp] theorem freezes_retireSlice (z : Nat) (s : State) : (retireSlice z s).gate.freezes = s.gate.freezes :=
  (freezes_forAll (fun _ _ => by simp) _ _).trans rfl

@[simp] theorem freezes_parityCount (z : Nat) (s : State) : (parityCount z s).gate.freezes = s.gate.freezes := by simp [parityCount]

@[simp] theorem freezes_dirtyParity (k : Nat) (sectors : BitVec 4) (s : State) :
    (dirtyParity k sectors s).gate.freezes = s.gate.freezes := by
  simp [dirtyParity]

@[simp] theorem freezes_cleanParity (k : Nat) (sectors : BitVec 4) (s : State) :
    (cleanParity k sectors s).gate.freezes = s.gate.freezes := rfl

@[simp] theorem freezes_parityCheck (k : Nat) (bad : BitVec 4) (s : State) : (parityCheck k bad s).gate.freezes = s.gate.freezes := by
  simp [parityCheck]

@[simp] theorem freezes_tagCheck (k : Nat) (e : TagErr) (s : State) : (tagCheck k e s).gate.freezes = s.gate.freezes := by
  simp only [tagCheck]
  split <;> simp

@[simp] theorem freezes_setPressure (k : Nat) (s : State) : (setPressure k s).gate.freezes = s.gate.freezes := by
  unfold setPressure
  dsimp only
  split
  · split <;> simp
  · simp

@[simp] theorem freezes_countLost (health part : Nat) (s : State) : (countLost health part s).gate.freezes = s.gate.freezes := by
  simp [countLost]

@[simp] theorem freezes_countHold (health i : Nat) (s : State) : (countHold health i s).gate.freezes = s.gate.freezes := by
  simp [countHold]

@[simp] theorem freezes_spoilPending (lpn : Nat) (s : State) : (spoilPending lpn s).gate.freezes = s.gate.freezes := rfl

@[simp] theorem freezes_lostMark (lpn part health : Nat) (s : State) : (lostMark lpn part health s).2.gate.freezes = s.gate.freezes := by
  simp [lostMark]

@[simp] theorem freezes_loseWrite (lpn part health : Nat) (s : State) :
    (loseWrite lpn part health s).2.gate.freezes = s.gate.freezes := by
  unfold loseWrite
  dsimp only
  split
  · simp
  · split <;> simp

@[simp] theorem freezes_afterWrite (k : Nat) (s : State) : (afterWrite k s).gate.freezes = s.gate.freezes := by simp [afterWrite]
@[simp] theorem freezes_overtake (r : Req) (s : State) : (overtake r s).gate.freezes = s.gate.freezes := by simp [overtake]

@[simp] theorem freezes_landWrite (r : Req) (k : Nat) (s : State) : (landWrite r k s).gate.freezes = s.gate.freezes := by
  simp [landWrite]

@[simp] theorem freezes_waitAt (r : Req) (s : State) : (waitAt r s).gate.freezes = s.gate.freezes := rfl

@[simp] theorem freezes_matchVictim (lpn part : Nat) (old : Option Nat) (s : State) :
    (matchVictim lpn part old s).2.gate.freezes = s.gate.freezes := by
  unfold matchVictim
  split
  · simp
  · split <;> simp

@[simp] theorem freezes_budgetWait (r : Req) (s : State) : (budgetWait r s).gate.freezes = s.gate.freezes := by simp [budgetWait]

@[simp] theorem freezes_zeroWait (lpn part : Nat) (s : State) : (zeroWait lpn part s).gate.freezes = s.gate.freezes := by
  simp [zeroWait]

@[simp] theorem freezes_writeAccess (r : Req) (errs : List NodeErr) (s : State) :
    (writeAccess r errs s).gate.freezes = s.gate.freezes := by
  unfold writeAccess
  split
  · simp
  · split
    · simp
    · split
      · simp
      · split
        · simp
        · split
          next h => simpa using freezes_of_allotWay h
          next h => simpa using freezes_of_allotWay h

@[simp] theorem freezes_readAccess (r : Req) (e : ReadEnv) (s : State) : (readAccess r e s).gate.freezes = s.gate.freezes := by
  simp only [readAccess]
  split <;> simp

@[simp] theorem freezes_specAccess (r : Req) (e : ReadEnv) (s : State) : (specAccess r e s).gate.freezes = s.gate.freezes := by
  unfold specAccess
  split
  · rfl
  · split
    next h => simpa using freezes_of_allotWay h
    next => rfl

@[simp] theorem freezes_access (e : ReadEnv) (r : Req) (s : State) : (access e r s).gate.freezes = s.gate.freezes := by
  unfold access
  dsimp only
  split
  · simp
  · split <;> simp

@[simp] theorem freezes_retryWaiting (s : State) : (retryWaiting s).gate.freezes = s.gate.freezes := by simp [retryWaiting]

@[simp] theorem freezes_zeroDone (lpn part health k : Nat) (s : State) :
    (zeroDone lpn part health k s).gate.freezes = s.gate.freezes := by
  simp [zeroDone]

@[simp] theorem freezes_zeroLine (lpn part health : Nat) (s : State) :
    (zeroLine lpn part health s).2.gate.freezes = s.gate.freezes := by
  unfold zeroLine
  dsimp only
  split
  · simp
  · split
    · rfl
    · split
      · simp
      · split
        · simp
        · split
          next h => simpa using freezes_of_allotWay h
          next h => exact freezes_of_allotWay h

@[simp] theorem freezes_dropWaiting (hit : Nat → Bool) (s : State) : (dropWaiting hit s).gate.freezes = s.gate.freezes := by
  simp [dropWaiting]

@[simp] theorem freezes_dropLegs (legs : List Nat) (s : State) : (dropLegs legs s).gate.freezes = s.gate.freezes := by
  simp [dropLegs]

/-! ### Freezes: the Tollgate and CXL.mem requests -/

@[simp] theorem mem_freezes_linkViolation {code : Nat} {bare : Bool} {r : Req} {s : State} {f : Freeze} (h : f ∈ s.gate.freezes) :
    f ∈ (linkViolation code bare r s).gate.freezes := mem_freezes_freeze h

@[simp] theorem freezes_unmappedReq (opcode : Nat) (r : Req) (s : State) : (unmappedReq opcode r s).gate.freezes = s.gate.freezes := by
  simp [unmappedReq]

@[simp] theorem freezes_graceReq (r : Req) (leg : Nat) (s : State) : (graceReq r leg s).gate.freezes = s.gate.freezes := by
  simp [graceReq]

@[simp] theorem freezes_acceptReq (e : ReadEnv) (r : Req) (s : State) : (acceptReq e r s).gate.freezes = s.gate.freezes := by
  unfold acceptReq
  split
  · simp
  · split <;> simp

theorem mem_freezes_stormCheck {e : ReadEnv} {r : Req} {s : State} {f : Freeze} (h : f ∈ s.gate.freezes) :
    f ∈ (stormCheck e r s).gate.freezes := by
  unfold stormCheck
  dsimp only
  split
  · simpa using h
  · split
    · exact (freezes_poolComplete ..).symm ▸ mem_freezes_freeze h
    · simpa using h

@[simp] theorem mem_freezes_tenantReq {e : ReadEnv} {r : Req} {s : State} {f : Freeze} (h : f ∈ s.gate.freezes) :
    f ∈ (tenantReq e r s).gate.freezes := by
  unfold tenantReq
  dsimp only
  split
  · simpa using h
  · split
    · simpa using mem_freezes_freeze h
    · split
      · simpa using mem_freezes_freeze h
      · split
        · simpa using mem_freezes_freeze h
        · split
          · split
            · simpa using h
            · simpa using mem_freezes_freeze h
          · exact mem_freezes_stormCheck h

@[simp] theorem mem_freezes_tollgate {e : ReadEnv} {r : Req} {s : State} {f : Freeze} (h : f ∈ s.gate.freezes) :
    f ∈ (tollgate e r s).gate.freezes := by
  unfold tollgate
  split_ifs <;> simp [h]

@[simp] theorem mem_freezes_arrive {q : MemReq} {e : ReadEnv} {r : Req} {s : State} {f : Freeze} (h : f ∈ s.gate.freezes) :
    f ∈ (arrive q e r s).gate.freezes := by
  unfold arrive
  dsimp only
  split_ifs <;> simp [h]

@[simp] theorem mem_freezes_unclassified {r : Req} {opcode : Nat} {poison : Bool} {s : State} {f : Freeze} (h : f ∈ s.gate.freezes) :
    f ∈ (unclassified r opcode poison s).gate.freezes := by
  unfold unclassified
  dsimp only
  split_ifs <;> simp [h]

@[simp] theorem mem_freezes_readmit {r : Req} {s : State} {f : Freeze} (h : f ∈ s.gate.freezes) : f ∈ (readmit r s).gate.freezes := by
  unfold readmit
  dsimp only
  split_ifs <;> simp [h]

@[simp] theorem mem_freezes_drainIngress {p : Nat} {s : State} {f : Freeze} (h : f ∈ s.gate.freezes) :
    f ∈ (drainIngress p s).gate.freezes :=
  mem_freezes_forAll (fun _ _ => mem_freezes_readmit) _ h

/-! ### Freezes: ports and LDs -/

@[simp] theorem freezes_activateLds (p : Nat) (s : State) : (activateLds p s).gate.freezes = s.gate.freezes := by
  unfold activateLds
  split
  · exact freezes_forAll (fun _ _ => by simp) _ _
  · rfl

@[simp] theorem freezes_mgmtAtTraining (p : Nat) (s : State) : (mgmtAtTraining p s).gate.freezes = s.gate.freezes := by
  simp only [mgmtAtTraining]
  split <;> simp

@[simp] theorem freezes_linkUp (p : Nat) (x : Partner) (s : State) : (linkUp p x s).gate.freezes = s.gate.freezes := by
  simp only [linkUp]
  split <;> simp

@[simp] theorem freezes_dropWrites (p : Nat) (l : Option Nat) (s : State) : (dropWrites p l s).gate.freezes = s.gate.freezes := by
  simp [dropWrites]

@[simp] theorem freezes_dropHeld (p : Nat) (l : Option Nat) (s : State) : (dropHeld p l s).gate.freezes = s.gate.freezes := by
  simp [dropHeld]

@[simp] theorem freezes_endWithheld (p : Nat) (s : State) : (endWithheld p s).gate.freezes = s.gate.freezes := by
  simp only [endWithheld]
  split <;> simp

@[simp] theorem freezes_dropLink (p : Nat) (s : State) : (dropLink p s).gate.freezes = s.gate.freezes := by simp [dropLink]

@[simp] theorem freezes_stopCoffer (k : Nat) (s : State) : (stopCoffer k s).gate.freezes = s.gate.freezes := by
  simp only [stopCoffer]
  split <;> simp

@[simp] theorem freezes_resetIo (k : Nat) (s : State) : (resetIo k s).gate.freezes = s.gate.freezes := by simp [resetIo]

@[simp] theorem freezes_resetPortLds (p : Nat) (s : State) : (resetPortLds p s).gate.freezes = s.gate.freezes := by
  simp [resetPortLds]

@[simp] theorem freezes_loseLink (p cause : Nat) (s : State) : (loseLink p cause s).gate.freezes = s.gate.freezes := by
  simp [loseLink]

@[simp] theorem freezes_perstAssert (g : Nat) (s : State) : (perstAssert g s).gate.freezes = s.gate.freezes := by simp [perstAssert]

@[simp] theorem freezes_perstDeassert (g : Nat) (s : State) : (perstDeassert g s).gate.freezes = s.gate.freezes := by
  have hports := fun l u => freezes_forAll
    (f := (modPort · (fun x => { x with fails := 0, stayDown := false, retryDue := false }))) (fun _ _ => by simp) l u
  unfold perstDeassert
  dsimp only
  split
  · rfl
  · split
    · rfl
    · split <;> simp [hports]

@[simp] theorem freezes_dropLdReqs (p l : Nat) (s : State) : (dropLdReqs p l s).gate.freezes = s.gate.freezes := by
  simp [dropLdReqs]

@[simp] theorem freezes_sendHeld (h : Nat × Req × RespKind) (s : State) : (sendHeld h s).gate.freezes = s.gate.freezes := by
  simp [sendHeld]

@[simp] theorem freezes_freezeCommit (s : State) : (freezeCommit s).gate.freezes = s.gate.freezes := by simp [freezeCommit]

/-! ### Freezes: re-bales, sweeps and copies -/

@[simp] theorem freezes_stampSegment (ppa : Nat) (s : State) : (stampSegment ppa s).gate.freezes = s.gate.freezes := by
  simp [stampSegment]

theorem freezes_freshSegment {s : State} {fast : Bool} {cs : List Nat} {x : Nat × State} (h : freshSegment s fast cs = some x) :
    x.2.gate.freezes = s.gate.freezes := by
  induction cs with
  | nil => simp [freshSegment] at h
  | cons c cs ih =>
    unfold freshSegment at h
    split at h
    next hr =>
      cases h
      obtain ⟨b, -, hb⟩ := Option.bind_eq_some_iff.mp hr
      exact freezes_takeLoc hb
    next => exact ih h

@[simp] theorem freezes_askSegment (w : Nat → MWork) (ppa : Nat) (fast : Bool) (ls : Tbl Load) (s : State) :
    (askSegment w ppa fast ls s).gate.freezes = s.gate.freezes := by
  simp [askSegment]

@[simp] theorem freezes_companionCommit (lpn : Nat) (wseq : BitVec 32) (s : State) :
    (companionCommit lpn wseq s).gate.freezes = s.gate.freezes := by
  simp only [companionCommit]
  split <;> simp

@[simp] theorem freezes_poisonedZeros (key : KeySet) (part lpn : Nat) (inc : Bool) (s : State) :
    (poisonedZeros key part lpn inc s).2.gate.freezes = s.gate.freezes := by
  simp [poisonedZeros]

@[simp] theorem freezes_rebaleLoad (trav : Bool) (part lpn : Nat) (src : Src) (got : Option Load) (key : KeySet) (s : State) :
    (rebaleLoad trav part lpn src got key s).2.gate.freezes = s.gate.freezes := by
  unfold rebaleLoad
  dsimp only
  split
  · split
    · simp
    · split <;> simp
  · simp
  · simp

@[simp] theorem freezes_rebaleLoads (j : RebaleJob) (part lbi : Nat) (key : KeySet) (l : List (Nat × Src)) (s : State) :
    (rebaleLoads j part lbi key l s).2.gate.freezes = s.gate.freezes := by
  induction l generalizing s with
  | nil => rfl
  | cons a l ih =>
    unfold rebaleLoads
    split
    · exact ih s
    · simp [ih]

@[simp] theorem freezes_buildSegment (lbi part : Nat) (key : KeySet) (chans : List Nat) (s : State) :
    (buildSegment lbi part key chans s).gate.freezes = s.gate.freezes := by
  unfold buildSegment
  split
  · rfl
  · dsimp only
    split
    · simp
    · split
      · simp
      next h => simpa using freezes_freshSegment h

@[simp] theorem freezes_buildBale (lbi : Nat) (s : State) : (buildBale lbi s).gate.freezes = s.gate.freezes := by
  unfold buildBale
  split
  · simp
  · split <;> simp

@[simp] theorem freezes_rebaleRead (lbi i : Nat) (got : Option Load) (s : State) :
    (rebaleRead lbi i got s).gate.freezes = s.gate.freezes := by
  simp only [rebaleRead]
  split <;> simp

@[simp] theorem freezes_askReads (lbi : Nat) (s : State) : (askReads lbi s).gate.freezes = s.gate.freezes := by
  simp only [askReads]
  split <;> simp

@[simp] theorem freezes_snapBale (trav fast : Bool) (lbi : Nat) (s : State) :
    (snapBale trav fast lbi s).gate.freezes = s.gate.freezes := by
  simp [snapBale]

@[simp] theorem freezes_dropRebale (lbi : Nat) (s : State) : (dropRebale lbi s).gate.freezes = s.gate.freezes := rfl

@[simp] theorem freezes_askCopy (tile src : Nat) (fast : Bool) (at' : Option Nat) (l : Load) (s : State) :
    (askCopy tile src fast at' l s).gate.freezes = s.gate.freezes := by
  simp only [askCopy]
  split <;> simp

@[simp] theorem freezes_sweepRead (tile src : Nat) (got : Option Load) (s : State) :
    (sweepRead tile src got s).gate.freezes = s.gate.freezes := by
  unfold sweepRead
  split
  · rfl
  · rfl
  · dsimp only
    split
    · simp
    · split
      · simp
      · split
        next h => simpa using freezes_freshSegment h
        next => rfl

@[simp] theorem freezes_moveSegment (tile lbi dst : Nat) (s : State) : (moveSegment tile lbi dst s).gate.freezes = s.gate.freezes := by
  simp only [moveSegment]
  split <;> simp

@[simp] theorem freezes_sweepEntry (lpn src dst : Nat) (e : OvEntry) (s : State) :
    (sweepEntry lpn src dst e s).gate.freezes = s.gate.freezes := rfl

@[simp] theorem freezes_sweepPassed (tile src dst : Nat) (s : State) : (sweepPassed tile src dst s).gate.freezes = s.gate.freezes := by
  unfold sweepPassed
  dsimp only
  split
  · simp
  · split
    · simp
    · split
      · simp
      · split <;> simp

@[simp] theorem freezes_settleCopy (w : Nat → MWork) (lpn : Nat → Nat) (s : State) :
    (settleCopy w lpn s).gate.freezes = s.gate.freezes := by
  unfold settleCopy
  dsimp only
  split
  · simp
  · split <;> simp

@[simp] theorem freezes_copyPassed (src ppa : Nat) (s : State) : (copyPassed src ppa s).gate.freezes = s.gate.freezes := by
  simp [copyPassed]

@[simp] theorem freezes_progSettled (w : MWork) (ppa : Nat) (s : State) : (progSettled w ppa s).gate.freezes = s.gate.freezes := by
  cases w <;> simp [progSettled]

@[simp] theorem freezes_passMaint (w : MWork) (ppa : Nat) (s : State) : (passMaint w ppa s).gate.freezes = s.gate.freezes := by
  simp only [passMaint]
  split <;> simp

@[simp] theorem freezes_remake (w : MWork) (ppa after : Nat) (s : State) : (remake w ppa after s).gate.freezes = s.gate.freezes := by
  unfold remake
  dsimp only
  split
  · split <;> simp
  · simp
  · split
    · split <;> simp
    · simp
  · simp

@[simp] theorem freezes_placeWaiting (s : State) : (placeWaiting s).gate.freezes = s.gate.freezes := by simp [placeWaiting]

/-! ### Freezes: the Stage planner -/

@[simp] theorem freezes_spentCheck (s : State) : (spentCheck s).gate.freezes = s.gate.freezes := by simp [spentCheck]

@[simp] theorem freezes_healthRecord (old new : Nat) (conds changed : BitVec 12) (s : State) :
    (healthRecord old new conds changed s).gate.freezes = s.gate.freezes := by
  simp [healthRecord]

@[simp] theorem freezes_evalHealth (c : BitVec 12) (s : State) : (evalHealth c s).gate.freezes = s.gate.freezes := by
  have hflags := fun l u => freezes_forAll (f := setChg 0) (fun _ _ => by simp) l u
  simp [evalHealth, hflags]

@[simp] theorem freezes_alertCheck (s : State) : (alertCheck s).gate.freezes = s.gate.freezes := by simp [alertCheck]
@[simp] theorem freezes_healthTick (s : State) : (healthTick s).gate.freezes = s.gate.freezes := by simp [healthTick]

@[simp] theorem freezes_askJournal (p : JParcel) (s : State) : (askJournal p s).gate.freezes = s.gate.freezes := by
  simp [askJournal]

@[simp] theorem freezes_journalFill (s : State) : (journalFill s).gate.freezes = s.gate.freezes := by simp [journalFill]
@[simp] theorem freezes_planSnapshot (s : State) : (planSnapshot s).gate.freezes = s.gate.freezes := rfl
@[simp] theorem freezes_planMiss (c : Nat) (s : State) : (planMiss c s).gate.freezes = s.gate.freezes := rfl

@[simp] theorem freezes_accrueOne (s : State) (part r w c : Nat) (t : State) :
    (accrueOne s part r w c t).gate.freezes = t.gate.freezes := by simp [accrueOne]

@[simp] theorem freezes_dropCredits (s : State) : (dropCredits s).gate.freezes = s.gate.freezes := rfl

@[simp] theorem freezes_accrue (s : State) : (accrue s).gate.freezes = s.gate.freezes := by
  refine (freezes_forAll (fun p t => ?_) _ _).trans rfl
  exact freezes_forAll (fun c u => freezes_accrueOne s p.1 p.2.1 p.2.2 c u) _ _

@[simp] theorem freezes_plannerRegs (s : State) : (plannerRegs s).gate.freezes = s.gate.freezes := rfl

@[simp] theorem freezes_uncharge (part pairs : Nat) (s : State) : (uncharge part pairs s).gate.freezes = s.gate.freezes := by
  simp [uncharge]

@[simp] theorem freezes_reissue (lpn : Nat) (q : WbEntry) (fromCh : Nat) (sameCh : Bool) (s : State) :
    (reissue lpn q fromCh sameCh s).gate.freezes = s.gate.freezes := by
  unfold reissue
  dsimp only
  split
  · rfl
  next c ppa t h =>
    have hplaced : t.gate.freezes = s.gate.freezes := by
      rcases (Option.orElse_eq_some ..).mp h with hhere | ⟨-, hany⟩
      · split at hhere
        · obtain ⟨b, -, hb⟩ := Option.bind_eq_some_iff.mp hhere
          obtain ⟨r, hr, hx⟩ := Option.map_eq_some_iff.mp hb
          cases hx
          exact freezes_takeLoc hr
        · exact absurd hhere (by simp)
      · exact freezes_placeHost hany
    simpa using hplaced

@[simp] theorem freezes_programElsewhere (c b lpn ppa : Nat) (s : State) :
    (programElsewhere c b lpn ppa s).gate.freezes = s.gate.freezes := by
  simp only [programElsewhere]
  split <;> simp

@[simp] theorem freezes_endSeq (c b : Nat) (s : State) : (endSeq c b s).gate.freezes = s.gate.freezes := rfl

@[simp] theorem freezes_abandonReset (c b t g : Nat) (fast : Bool) (attempt : Nat) (s : State) :
    (abandonReset c b t g fast attempt s).gate.freezes = s.gate.freezes := by
  simp [abandonReset]

@[simp] theorem freezes_abandonSeq (c b : Nat) (s : State) : (abandonSeq c b s).gate.freezes = s.gate.freezes := by
  simp only [abandonSeq]
  split <;> simp

@[simp] theorem freezes_abandonCheck (c b w : Nat) (s : State) : (abandonCheck c b w s).gate.freezes = s.gate.freezes := by
  simp only [abandonCheck]
  split <;> simp

@[simp] theorem freezes_abandonIdle (s : State) : (abandonIdle s).gate.freezes = s.gate.freezes := by simp [abandonIdle]
@[simp] theorem freezes_replaceUnplaced (s : State) : (replaceUnplaced s).gate.freezes = s.gate.freezes := by simp [replaceUnplaced]

@[simp] theorem freezes_urgentCount (s : State) : (urgentCount s).gate.freezes = s.gate.freezes := by
  unfold urgentCount
  dsimp only
  split
  · rfl
  · rw [bumpMin_gate, freezes_forAll (fun _ _ => by simp [bumpBit])]
    rfl

@[simp] theorem freezes_stageTick (s : State) : (stageTick s).gate.freezes = s.gate.freezes := by simp [stageTick]

@[simp] theorem freezes_dropSpec (c b : Nat) (s : State) : (dropSpec c b s).gate.freezes = s.gate.freezes := by
  refine (freezes_forAll (fun r t => ?_) _ _).trans (by simp)
  dsimp only
  split
  · simp
  · rfl

@[simp] theorem freezes_promoteOne (c b : Nat) (r : RdItem) (s : State) : (promoteOne c b r s).gate.freezes = s.gate.freezes := by
  simp [promoteOne]

@[simp] theorem freezes_promote (c b : Nat) (s : State) : (promote c b s).gate.freezes = s.gate.freezes := by simp [promote]

@[simp] theorem freezes_countArrayRead (ppa : Nat) (s : State) : (countArrayRead ppa s).gate.freezes = s.gate.freezes := by
  simp [countArrayRead]

@[simp] theorem freezes_startRead (c b : Nat) (again : Bool) (r : RdItem) (s : State) :
    (startRead c b again r s).gate.freezes = s.gate.freezes := by
  unfold startRead
  dsimp only
  rw [freezes_countArrayRead]
  cases again <;> cases (withOffsets s r).cls <;> simp

@[simp] theorem freezes_startSeq (c b : Nat) (q : PulseSeq) (s : State) : (startSeq c b q s).gate.freezes = s.gate.freezes := rfl

@[simp] theorem freezes_moveForbidden (c b : Nat) (s : State) : (moveForbidden c b s).gate.freezes = s.gate.freezes := by
  unfold moveForbidden
  split
  · simp
  · split
    · split <;> simp
    · simp

@[simp] theorem freezes_emergencyAt (c b : Nat) (s : State) : (emergencyAt c b s).gate.freezes = s.gate.freezes := by
  unfold emergencyAt
  dsimp only
  split
  · simp
  · split <;> simp

@[simp] theorem freezes_startItem (c b w : Nat) (s : State) : (startItem c b w s).gate.freezes = s.gate.freezes := by
  unfold startItem
  dsimp only
  split
  · simp
  · split
    · simp
    · split
      · simp
      · split
        · simp
        · split <;> simp

@[simp] theorem freezes_windowBoundary (c b w : Nat) (s : State) : (windowBoundary c b w s).gate.freezes = s.gate.freezes := by
  simp [windowBoundary]

/-! ### Freezes: the media channels -/

@[simp] theorem freezes_poisonParcel (lpn : Nat) (s : State) : (poisonParcel lpn s).gate.freezes = s.gate.freezes := by
  simp [poisonParcel]

@[simp] theorem freezes_readGave (it : RdItem) (got : Option Load) (s : State) : (readGave it got s).gate.freezes = s.gate.freezes := by
  simp only [readGave]
  split <;> simp

@[simp] theorem freezes_lostRead (it : RdItem) (s : State) : (lostRead it s).gate.freezes = s.gate.freezes := by simp [lostRead]
@[simp] theorem freezes_readEnds (it : RdItem) (s : State) : (readEnds it s).gate.freezes = s.gate.freezes := by simp [readEnds]

@[simp] theorem freezes_freeDeep (c : Nat) (s : State) : (freeDeep c s).gate.freezes = s.gate.freezes := by
  simp only [freeDeep]
  split <;> simp

@[simp] theorem freezes_queueRetry (c b : Nat) (q : RdItem) (s : State) : (queueRetry c b q s).gate.freezes = s.gate.freezes := rfl

@[simp] theorem freezes_readFailed (c b : Nat) (it0 : RdItem) (s : State) : (readFailed c b it0 s).gate.freezes = s.gate.freezes := by
  unfold readFailed
  dsimp only
  split
  · simp
  · split <;> simp

@[simp] theorem freezes_queueRebale (lbi : Nat) (s : State) : (queueRebale lbi s).gate.freezes = s.gate.freezes := by
  simp [queueRebale]

@[simp] theorem freezes_endPending (c lpn ppa : Nat) (s : State) : (endPending c lpn ppa s).gate.freezes = s.gate.freezes := rfl
@[simp] theorem freezes_supersede (lpn : Nat) (wseq : BitVec 32) (s : State) : (supersede lpn wseq s).gate.freezes = s.gate.freezes := rfl

@[simp] theorem freezes_landProgram (c : Nat) (q : WbEntry) (s : State) : (landProgram c q s).gate.freezes = s.gate.freezes := by
  simp [landProgram]

@[simp] theorem freezes_passProgram (c b lpn ppa : Nat) (word : Codeword) (s : State) :
    (passProgram c b lpn ppa word s).gate.freezes = s.gate.freezes := by
  simp only [passProgram]
  split <;> simp

@[simp] theorem freezes_tileFailure (k : Nat) (s : State) : (tileFailure k s).gate.freezes = s.gate.freezes := by simp [tileFailure]

@[simp] theorem freezes_failProgram (c b lpn ppa : Nat) (s : State) : (failProgram c b lpn ppa s).gate.freezes = s.gate.freezes := by
  simp [failProgram]

@[simp] theorem freezes_failMaint (c b : Nat) (w : MWork) (ppa : Nat) (s : State) :
    (failMaint c b w ppa s).gate.freezes = s.gate.freezes := by
  simp [failMaint]

@[simp] theorem freezes_tileReset (t : Nat) (fast : Bool) (s : State) : (tileReset t fast s).gate.freezes = s.gate.freezes := by
  simp [tileReset]

@[simp] theorem freezes_segmentDone (c b t g : Nat) (fast : Bool) (s : State) :
    (segmentDone c b t g fast s).gate.freezes = s.gate.freezes := by
  simp [segmentDone]

@[simp] theorem freezes_segmentFail (c b t g : Nat) (fast : Bool) (attempt : Nat) (s : State) :
    (segmentFail c b t g fast attempt s).gate.freezes = s.gate.freezes := by
  simp [segmentFail]

@[simp] theorem freezes_chargeWear (part : Nat) (final : Bool) (s : State) : (chargeWear part final s).gate.freezes = s.gate.freezes := by
  simp [chargeWear]

@[simp] theorem freezes_pulseEnds (c b : Nat) (done : Bool) (s : State) : (pulseEnds c b done s).gate.freezes = s.gate.freezes := by
  simp only [pulseEnds]
  split <;> simp

@[simp] theorem freezes_failBanks (c : Nat) (hit : Nat → Bool) (s : State) : (failBanks c hit s).gate.freezes = s.gate.freezes := by
  simp [failBanks]

@[simp] theorem freezes_channelDown (c : Nat) (s : State) : (channelDown c s).gate.freezes = s.gate.freezes := by simp [channelDown]

@[simp] theorem freezes_channelFail (c cause : Nat) (s : State) : (channelFail c cause s).gate.freezes = s.gate.freezes := by
  simp [channelFail]

@[simp] theorem freezes_dieOut (c d cause : Nat) (s : State) : (dieOut c d cause s).gate.freezes = s.gate.freezes := by
  simp [dieOut]

@[simp] theorem freezes_frameLost (c b : Nat) (parity : Bool) (s : State) : (frameLost c b parity s).gate.freezes = s.gate.freezes := by
  simp only [frameLost]
  split <;> simp

@[simp] theorem freezes_bankOutcome (c : Nat) (o : BankOutcome) (s : State) : (bankOutcome c o s).gate.freezes = s.gate.freezes := by
  unfold bankOutcome
  dsimp only
  split
  · simp
  · split
    · simp
    · split
      · simp
      · simp
      · split <;> simp

@[simp] theorem freezes_statusReply (c : Nat) (r : StatusReply) (s : State) : (statusReply c r s).gate.freezes = s.gate.freezes := by
  simp [statusReply]

@[simp] theorem freezes_queueRefresh (lpn ppa : Nat) (s : State) : (queueRefresh lpn ppa s).gate.freezes = s.gate.freezes := by
  simp [queueRefresh]

@[simp] theorem freezes_reportRetry (c : Nat) (it : RdItem) (s : State) : (reportRetry c it s).gate.freezes = s.gate.freezes := by
  simp [reportRetry]

@[simp] theorem freezes_resealProgram (lpn part : Nat) (d : Option Parcel) (loc : Option Nat) (s : State) :
    (resealProgram lpn part d loc s).gate.freezes = s.gate.freezes := by
  unfold resealProgram
  split
  next h =>
    split
    · rfl
    · simpa using freezes_placeHost h
  next => rfl

@[simp] theorem freezes_unsealed (it : RdItem) (w : Codeword) (d : Option Parcel) (s : State) :
    (unsealed it w d s).gate.freezes = s.gate.freezes := by
  simp only [unsealed]
  split <;> simp

@[simp] theorem freezes_unverifiable (it : RdItem) (reason : Nat) (s : State) :
    (unverifiable it reason s).gate.freezes = s.gate.freezes := by
  simp only [unverifiable]
  split <;> simp

@[simp] theorem freezes_lostNodeRead (it : RdItem) (s : State) : (lostNodeRead it s).gate.freezes = s.gate.freezes := by
  simp only [lostNodeRead]
  split <;> simp

@[simp] theorem freezes_unsealRead (c b : Nat) (it : RdItem) (s : State) : (unsealRead c b it s).gate.freezes = s.gate.freezes := by
  unfold unsealRead
  dsimp only
  split
  · simp
  · split
    · split
      · simp
      · split <;> simp
    · simp

@[simp] theorem freezes_decodeSample (ok : Bool) (bits : Nat) (it : RdItem) (s : State) :
    (decodeSample ok bits it s).gate.freezes = s.gate.freezes := by
  simp [decodeSample]

@[simp] theorem freezes_endDeep (c : Nat) (r : RdItem) (s : State) : (endDeep c r s).gate.freezes = s.gate.freezes := by
  simp [endDeep]

@[simp] theorem freezes_codewordDecode (c b : Nat) (ok : Bool) (bits : Nat) (s : State) :
    (codewordDecode c b ok bits s).gate.freezes = s.gate.freezes := by
  simp only [codewordDecode]
  split <;> simp

@[simp] theorem freezes_deepRecoveryDeadline (c b : Nat) (s : State) : (deepRecoveryDeadline c b s).gate.freezes = s.gate.freezes := by
  simp [deepRecoveryDeadline]

@[simp] theorem freezes_markBad (c : Nat) (l : List Nat) (s : State) : (markBad c l s).gate.freezes = s.gate.freezes :=
  freezes_forAll (fun _ _ => by simp) _ _

@[simp] theorem freezes_setUnserved (c : Nat) (st : ChanSt) (s : State) : (setUnserved c st s).gate.freezes = s.gate.freezes := rfl
@[simp] theorem freezes_setModule (c : Nat) (m : ModuleRec) (s : State) : (setModule c m s).gate.freezes = s.gate.freezes := rfl

@[simp] theorem freezes_setServing (c : Nat) (b : BringUp) (rate : Nat) (s : State) :
    (setServing c b rate s).gate.freezes = s.gate.freezes := by
  simp [setServing]

@[simp] theorem freezes_trainedUp (c : Nat) (b : BringUp) (rate : Nat) (s : State) :
    (trainedUp c b rate s).gate.freezes = s.gate.freezes := by
  simp only [trainedUp]
  split <;> simp

@[simp] theorem freezes_channelBringUp (c : Nat) (b : BringUp) (s : State) : (channelBringUp c b s).gate.freezes = s.gate.freezes := by
  unfold channelBringUp
  dsimp only
  split
  · simp
  · split
    · simp
    · split
      · simp
      · split
        · simp
        · split
          · split <;> simp
          · split <;> simp

/-! ### Freezes: the cache's own events -/

@[simp] theorem freezes_answerReads (f : Fill) (s : State) : (answerReads f s).gate.freezes = s.gate.freezes := by
  unfold answerReads
  split
  · rfl
  · simp
  next d _ =>
    have hfold : ∀ (l : List Req) (a : Parcel × State), (l.foldl (fun (a : Parcel × State) r =>
        (waiterData a.1 r, if r.op.isRead then finish r (.data (a.1[r.sector % 4]'(Nat.mod_lt _ (by decide)))) a.2 else a.2))
        a).2.gate.freezes = a.2.gate.freezes := by
      intro l
      induction l with
      | nil => exact fun a => rfl
      | cons r l ih => exact fun a => (ih _).trans (by simp)
    exact hfold _ (d, s)

@[simp] theorem freezes_partialLoss (lpn part : Nat) (f : Fill) (l : Line) (s : State) :
    (partialLoss lpn part f l s).gate.freezes = s.gate.freezes := by
  simp [partialLoss]

@[simp] theorem freezes_fillEnds (lpn : Nat) (ws : List Req) (s : State) : (fillEnds lpn ws s).gate.freezes = s.gate.freezes := by
  simp [fillEnds]

@[simp] theorem freezes_offlineLine (k : Nat) (s : State) : (offlineLine k s).gate.freezes = s.gate.freezes := by simp [offlineLine]

@[simp] theorem freezes_installLine (k : Nat) (f : FillSt) (parity : BitVec 4) (s : State) :
    (installLine k f parity s).gate.freezes = s.gate.freezes := by
  simp [installLine]

@[simp] theorem freezes_dropFill (lpn : Nat) (ws : List Req) (s : State) : (dropFill lpn ws s).gate.freezes = s.gate.freezes := by
  simp only [dropFill]
  split <;> simp

@[simp] theorem freezes_fillComplete (lpn : Nat) (parity : BitVec 4) (s : State) :
    (fillComplete lpn parity s).gate.freezes = s.gate.freezes := by
  unfold fillComplete
  dsimp only
  split
  · rfl
  · split
    · rfl
    · split
      · simp
      · split
        · simp
        · split
          next h => simpa using freezes_of_allotWay h
          next h => simpa using freezes_of_allotWay h

@[simp] theorem freezes_undue (lpn : Nat) (s : State) : (undue lpn s).gate.freezes = s.gate.freezes := rfl

@[simp] theorem freezes_spendEviction (d : EvDue) (ch : Nat) (s : State) : (spendEviction d ch s).gate.freezes = s.gate.freezes := by
  simp [spendEviction]

@[simp] theorem freezes_handOver (d : EvDue) (k ch ppa : Nat) (key : KeySet) (s : State) :
    (handOver d k ch ppa key s).gate.freezes = s.gate.freezes := by
  simp [handOver]

@[simp] theorem freezes_retiredLoss (lpn k : Nat) (s : State) : (retiredLoss lpn k s).gate.freezes = s.gate.freezes := by
  simp [retiredLoss]

@[simp] theorem freezes_reserve (d : EvDue) (k : Nat) (errs : List NodeErr) (s : State) :
    (reserve d k errs s).gate.freezes = s.gate.freezes := by
  unfold reserve
  dsimp only
  split
  · simp
  · split
    · simp
    · split
      next h _ =>
        have hplaced : _ = s.gate.freezes := (freezes_placeHost h).trans (by simp)
        split
        · simpa using hplaced
        · simp
      next => simp

@[simp] theorem freezes_evictionStart (lpn : Nat) (e : ReadEnv) (s0 : State) :
    (evictionStart lpn e s0).gate.freezes = s0.gate.freezes := by
  simp only [evictionStart]
  split <;> simp

@[simp] theorem freezes_giveWay (k : Nat) (s0 : State) : (giveWay k s0).gate.freezes = s0.gate.freezes := by
  simp only [giveWay]
  split <;> simp

@[simp] theorem freezes_orderWay (p : PendEv) (k : Nat) (s : State) : (orderWay p k s).gate.freezes = s.gate.freezes := by
  simp [orderWay]

@[simp] theorem freezes_queueProgram (lpn ch ppa : Nat) (s : State) : (queueProgram lpn ch ppa s).gate.freezes = s.gate.freezes := by
  simp only [queueProgram]
  split <;> simp

@[simp] theorem freezes_evictionOrderingPoint (lpn : Nat) (s : State) : (evictionOrderingPoint lpn s).gate.freezes = s.gate.freezes := by
  unfold evictionOrderingPoint
  dsimp only
  split
  · simp
  · split
    · simp
    · split <;> simp

@[simp] theorem freezes_releaseBudget (s : State) : (releaseBudget s).gate.freezes = s.gate.freezes := by simp [releaseBudget]

@[simp] theorem freezes_chooseBack (n z : Nat) (s : State) : (chooseBack n z s).gate.freezes = s.gate.freezes := by
  induction n generalizing s with
  | zero => rfl
  | succ n ih =>
    unfold chooseBack
    split
    · rfl
    · simp [ih]

@[simp] theorem freezes_backgroundWriteback (z : Nat) (s : State) : (backgroundWriteback z s).gate.freezes = s.gate.freezes := by
  simp [backgroundWriteback]

@[simp] theorem freezes_cachePatrol (lpn : Nat) (e : ReadEnv) (s : State) : (cachePatrol lpn e s).gate.freezes = s.gate.freezes := by
  simp only [cachePatrol]
  split <;> simp

@[simp] theorem freezes_sliceRetirementEnd (z : Nat) (s : State) : (sliceRetirementEnd z s).gate.freezes = s.gate.freezes := by
  simp only [sliceRetirementEnd]
  split <;> simp

/-! ### Freezes: partitions, legs and keys -/

@[simp] theorem freezes_setRuns (runs : Tbl LegRun) (s : State) : (setRuns runs s).gate.freezes = s.gate.freezes := rfl

@[simp] theorem freezes_emptyPositions (part : Nat) (poss : List Nat) (s : State) :
    (emptyPositions part poss s).gate.freezes = s.gate.freezes := rfl

@[simp] theorem freezes_dropLegMap (leg : Nat) (s : State) : (dropLegMap leg s).gate.freezes = s.gate.freezes := by
  simp [dropLegMap]

@[simp] theorem freezes_advanceDrops (s : State) : (advanceDrops s).gate.freezes = s.gate.freezes := by simp [advanceDrops]

@[simp] theorem freezes_legsDropped (legs : List Nat) (s : State) : (legsDropped legs s).gate.freezes = s.gate.freezes := by
  simp [legsDropped]

@[simp] theorem freezes_finishFreeing (s : State) : (finishFreeing s).gate.freezes = s.gate.freezes := by simp [finishFreeing]

@[simp] theorem freezes_wrapNew (part inst : Nat) (gen : BitVec 16) (s : State) :
    (wrapNew part inst gen s).gate.freezes = s.gate.freezes := rfl

@[simp] theorem freezes_modSlot (part : Nat) (f : KeySlot → KeySlot) (s : State) : (modSlot part f s).gate.freezes = s.gate.freezes := rfl

@[simp] theorem freezes_startTraverse (inst : Nat) (s : State) : (startTraverse inst s).gate.freezes = s.gate.freezes := by
  unfold startTraverse
  dsimp only
  split
  · simp
  · split <;> simp

@[simp] theorem freezes_endTraverse (part cause : Nat) (s : State) : (endTraverse part cause s).gate.freezes = s.gate.freezes := by
  unfold endTraverse
  dsimp only
  split
  · split <;> simp
  · simp

@[simp] theorem freezes_loadPart (part : Nat) (s : State) : (loadPart part s).gate.freezes = s.gate.freezes := by simp [loadPart]
@[simp] theorem freezes_zeroSlot (part : Nat) (s : State) : (zeroSlot part s).gate.freezes = s.gate.freezes := rfl
@[simp] theorem freezes_eraseLegs (part : Nat) (s : State) : (eraseLegs part s).gate.freezes = s.gate.freezes := rfl
@[simp] theorem freezes_freePart (part : Nat) (s : State) : (freePart part s).gate.freezes = s.gate.freezes := by simp [freePart]

@[simp] theorem freezes_advanceErase (part : Nat) (back : Bool) (s : State) :
    (advanceErase part back s).gate.freezes = s.gate.freezes := by
  simp [advanceErase]

/-! ### Freezes: the mailboxes -/

@[simp] theorem freezes_complete (op : Nat) (p : Path) (first4 : Nat) (r : Reply) (s : State) :
    (complete op p first4 r s).gate.freezes = s.gate.freezes := by
  simp [complete]

@[simp] theorem freezes_endBg (p : Path) (rc detail : Nat) (s : State) : (endBg p rc detail s).gate.freezes = s.gate.freezes := by
  simp only [endBg]
  split <;> simp

@[simp] theorem freezes_modBg (p : Path) (f : Bg → Bg) (s : State) : (modBg p f s).gate.freezes = s.gate.freezes := by simp [modBg]

@[simp] theorem freezes_countRejected (op : Nat) (p : Path) (r : Reply) (s : State) :
    (countRejected op p r s).gate.freezes = s.gate.freezes := by
  simp [countRejected]

@[simp] theorem freezes_takeIn (op : Nat) (p : Path) (inp : List Byte) (s : State) :
    (takeIn op p inp s).gate.freezes = s.gate.freezes := by
  simp [takeIn]

@[simp] theorem freezes_settle (op : Nat) (p : Path) (inp : List Byte) (r : Reply) (s : State) :
    (settle op p inp r s).gate.freezes = s.gate.freezes := by
  simp only [settle]
  split <;> simp

theorem freezes_takeCmd {c : Cmd} (hbody : ∀ p i s, (c.body p i s).2.gate.freezes = s.gate.freezes) (p : Path) (i : List Byte)
    (s : State) : (takeCmd c p i s).gate.freezes = s.gate.freezes := by
  unfold takeCmd
  dsimp only
  split
  · rfl
  · split
    · cases p <;> simp
    · split <;> simp [hbody]

@[simp] theorem freezes_setShares (part : Nat) (sh : Nat × Nat) (s : State) : (setShares part sh s).gate.freezes = s.gate.freezes := rfl

@[simp] theorem freezes_applyDone (d : OnDone) (s : State) : (applyDone d s).gate.freezes = s.gate.freezes := by
  simp only [applyDone]
  split <;> simp

@[simp] theorem freezes_lateRecord (p : Path) (w : WaitCmd) (s : State) : (lateRecord p w s).gate.freezes = s.gate.freezes := by
  simp [lateRecord]

@[simp] theorem freezes_completeWaiting (s : State) : (completeWaiting s).gate.freezes = s.gate.freezes := by
  refine freezes_forAll (fun p t => ?_) _ _
  split <;> simp

@[simp] theorem freezes_failWaiting (s : State) : (failWaiting s).gate.freezes = s.gate.freezes := by
  refine freezes_forAll (fun p t => ?_) _ _
  split <;> simp

/-! ### Freezes: range operations -/

@[simp] theorem freezes_rangeBody (kind : Nat) (p : Path) (i : List Byte) (s : State) :
    (rangeBody kind p i s).2.gate.freezes = s.gate.freezes := by
  simp [rangeBody]

theorem freezes_cmdFlushRange (p : Path) (i : List Byte) (s : State) : (cmdFlushRange.body p i s).2.gate.freezes = s.gate.freezes := by
  simp [cmdFlushRange]

theorem freezes_cmdInvalidateRange (p : Path) (i : List Byte) (s : State) :
    (cmdInvalidateRange.body p i s).2.gate.freezes = s.gate.freezes := by
  simp [cmdInvalidateRange]

theorem freezes_cmdZeroRange (p : Path) (i : List Byte) (s : State) : (cmdZeroRange.body p i s).2.gate.freezes = s.gate.freezes := by
  simp [cmdZeroRange]

@[simp] theorem freezes_rangeEvict (lpn part : Nat) (keep : Bool) (s : State) :
    (rangeEvict lpn part keep s).gate.freezes = s.gate.freezes := rfl

/-- The state that a visit of a range operation leaves (R190). -/
def Visit.left : Visit → State
  | .stay _ s => s
  | .go _ s => s

@[simp] theorem freezes_rangeAct (kind lpn part : Nat) (met : Bool) (s : State) :
    (rangeAct kind lpn part met s).left.gate.freezes = s.gate.freezes := by
  unfold rangeAct
  dsimp only
  split
  · rw [apply_ite (fun v : Visit => v.left)]
    simp [Visit.left]
  · split
    · rfl
    · split
      · rfl
      · split
        · split <;> rfl
        · split <;> simp [Visit.left]

@[simp] theorem freezes_rangeOpStep (p : Path) (s : State) : (rangeOpStep p s).gate.freezes = s.gate.freezes := by
  unfold rangeOpStep
  split
  · rfl
  · split
    · split
      · rfl
      · split
        · simp
        · dsimp only
          split
          · simp
          · split
            all_goals
              next h =>
                have hvisit := (congrArg (fun v => v.left.gate.freezes) h).symm.trans (freezes_rangeAct ..)
                simpa [Visit.left] using hvisit
    · rfl

@[simp] theorem freezes_rangeOpComplete (p : Path) (s : State) : (rangeOpComplete p s).gate.freezes = s.gate.freezes := by
  unfold rangeOpComplete
  split
  · simp
  · split <;> simp

@[simp] theorem freezes_rangeOpNoProgress (p : Path) (s : State) : (rangeOpNoProgress p s).gate.freezes = s.gate.freezes := by
  unfold rangeOpNoProgress
  split
  · simp
  · split <;> simp

/-! ### Freezes: standard commands -/

theorem freezes_cmdGetEventRecords (p : Path) (i : List Byte) (s : State) :
    (cmdGetEventRecords.body p i s).2.gate.freezes = s.gate.freezes := by
  simp [cmdGetEventRecords]

theorem freezes_cmdClearEventRecords (p : Path) (i : List Byte) (s : State) :
    (cmdClearEventRecords.body p i s).2.gate.freezes = s.gate.freezes := by
  unfold cmdClearEventRecords
  dsimp only
  split
  · simp
  · split
    · simp
    · split
      · simp
      · split
        · simp
        · split <;> simp

theorem freezes_cmdSetEventInterruptPolicy (p : Path) (i : List Byte) (s : State) :
    (cmdSetEventInterruptPolicy.body p i s).2.gate.freezes = s.gate.freezes := by
  simp only [cmdSetEventInterruptPolicy]
  split <;> simp

theorem freezes_cmdGetLog (p : Path) (i : List Byte) (s : State) : (cmdGetLog.body p i s).2.gate.freezes = s.gate.freezes := by
  simp [cmdGetLog]

theorem freezes_cmdSetAlertConfiguration (p : Path) (i : List Byte) (s : State) :
    (cmdSetAlertConfiguration.body p i s).2.gate.freezes = s.gate.freezes := by
  unfold cmdSetAlertConfiguration
  dsimp only
  split
  · simp
  · split
    · simp
    · split <;> simp

theorem freezes_cmdSetShutdownState (p : Path) (i : List Byte) (s : State) :
    (cmdSetShutdownState.body p i s).2.gate.freezes = s.gate.freezes := by
  simp only [cmdSetShutdownState]
  split <;> simp

theorem freezes_cmdInjectPoison (p : Path) (i : List Byte) (s : State) :
    (cmdInjectPoison.body p i s).2.gate.freezes = s.gate.freezes := by
  unfold cmdInjectPoison
  dsimp only
  split
  · simp
  · split <;> simp

theorem freezes_cmdClearPoison (p : Path) (i : List Byte) (s : State) : (cmdClearPoison.body p i s).2.gate.freezes = s.gate.freezes := by
  unfold cmdClearPoison
  dsimp only
  split
  · simp
  · split <;> simp

theorem freezes_cmdGetLdInfo (p : Path) (i : List Byte) (s : State) : (cmdGetLdInfo.body p i s).2.gate.freezes = s.gate.freezes := by
  simp [cmdGetLdInfo]

theorem freezes_cmdGetLdAllocations (p : Path) (i : List Byte) (s : State) :
    (cmdGetLdAllocations.body p i s).2.gate.freezes = s.gate.freezes := by
  simp [cmdGetLdAllocations]

/-! ### Freezes: tenancy commands -/

theorem freezes_cmdSetPortConfig (p : Path) (i : List Byte) (s : State) :
    (cmdSetPortConfig.body p i s).2.gate.freezes = s.gate.freezes := by
  simp only [cmdSetPortConfig]
  split <;> simp

theorem freezes_cmdSetStageConfig (p : Path) (i : List Byte) (s : State) :
    (cmdSetStageConfig.body p i s).2.gate.freezes = s.gate.freezes := by
  simp [cmdSetStageConfig]

theorem freezes_cmdCreatePartition (p : Path) (i : List Byte) (s : State) :
    (cmdCreatePartition.body p i s).2.gate.freezes = s.gate.freezes := by
  simp [cmdCreatePartition]

theorem freezes_cmdDeletePartition (p : Path) (i : List Byte) (s : State) :
    (cmdDeletePartition.body p i s).2.gate.freezes = s.gate.freezes := by
  simp [cmdDeletePartition]

theorem freezes_cmdAddLegs (p : Path) (i : List Byte) (s : State) : (cmdAddLegs.body p i s).2.gate.freezes = s.gate.freezes := by
  unfold cmdAddLegs
  dsimp only
  split
  · simp
  · split
    · simp
    · split
      · simp
      · split
        · simp
        · split <;> simp

theorem freezes_cmdRemoveLegs (p : Path) (i : List Byte) (s : State) : (cmdRemoveLegs.body p i s).2.gate.freezes = s.gate.freezes := by
  unfold cmdRemoveLegs
  dsimp only
  split
  · simp
  · split
    · simp
    · split
      · simp
      · split <;> simp

theorem freezes_cmdGetPartition (p : Path) (i : List Byte) (s : State) :
    (cmdGetPartition.body p i s).2.gate.freezes = s.gate.freezes := by
  simp [cmdGetPartition]

@[simp] theorem freezes_setMaps (f : SadImage → SadImage) (s : State) : (setMaps f s).gate.freezes = s.gate.freezes := rfl

theorem freezes_cmdSetLdMap (p : Path) (i : List Byte) (s : State) : (cmdSetLdMap.body p i s).2.gate.freezes = s.gate.freezes := by
  unfold cmdSetLdMap
  dsimp only
  split
  · simp
  · split
    · simp
    · split
      · simp
      · split
        · simp
        · split
          · simp
          · split <;> simp

theorem freezes_cmdGetLdMap (p : Path) (i : List Byte) (s : State) : (cmdGetLdMap.body p i s).2.gate.freezes = s.gate.freezes := by
  simp only [cmdGetLdMap]
  split <;> simp

theorem freezes_cmdSetContract (p : Path) (i : List Byte) (s : State) : (cmdSetContract.body p i s).2.gate.freezes = s.gate.freezes := by
  simp only [cmdSetContract]
  split <;> simp

theorem freezes_cmdGetContract (p : Path) (i : List Byte) (s : State) : (cmdGetContract.body p i s).2.gate.freezes = s.gate.freezes := by
  simp only [cmdGetContract]
  split <;> simp

theorem freezes_cmdSetQos (p : Path) (i : List Byte) (s : State) : (cmdSetQos.body p i s).2.gate.freezes = s.gate.freezes := by
  simp [cmdSetQos]

theorem freezes_cmdGetFreeze (p : Path) (i : List Byte) (s : State) : (cmdGetFreeze.body p i s).2.gate.freezes = s.gate.freezes := by
  simp [cmdGetFreeze]

/-- A command of dynamic capacity, by its effect on an LD that takes part in it. -/
theorem freezes_dcCmd {op : Nat} {len : List Byte → Bool} {g : Nat → List Byte → State → Reply × State}
    (hg : ∀ k i s, (g k i s).2.gate.freezes = s.gate.freezes) (p : Path) (i : List Byte) (s : State) :
    ((dcCmd op len g).body p i s).2.gate.freezes = s.gate.freezes := by
  unfold dcCmd
  dsimp only
  split
  · split
    · exact hg ..
    · rfl
  · rfl

theorem freezes_cmdGetDcConfig (p : Path) (i : List Byte) (s : State) : (cmdGetDcConfig.body p i s).2.gate.freezes = s.gate.freezes :=
  freezes_dcCmd (fun _ _ _ => rfl) p i s

theorem freezes_cmdGetDcExtents (p : Path) (i : List Byte) (s : State) : (cmdGetDcExtents.body p i s).2.gate.freezes = s.gate.freezes :=
  freezes_dcCmd (fun _ _ _ => rfl) p i s

@[simp] theorem freezes_recRanges (k : Nat) (rs : List Range) (s : State) : (recRanges k rs s).gate.freezes = s.gate.freezes := rfl

theorem freezes_cmdAddDcResponse (p : Path) (i : List Byte) (s : State) :
    (cmdAddDcResponse.body p i s).2.gate.freezes = s.gate.freezes := by
  refine freezes_dcCmd (fun k i s => ?_) p i s
  dsimp only
  split <;> simp

theorem freezes_cmdReleaseDc (p : Path) (i : List Byte) (s : State) : (cmdReleaseDc.body p i s).2.gate.freezes = s.gate.freezes := by
  refine freezes_dcCmd (fun k i s => ?_) p i s
  dsimp only
  split <;> simp

@[simp] theorem freezes_postDc (k kind a n : Nat) (more : Bool) (s : State) :
    (postDc k kind a n more s).gate.freezes = s.gate.freezes := rfl

@[simp] theorem freezes_postExtents (k kind : Nat) (es : List (Nat × Nat)) (s : State) :
    (postExtents k kind es s).gate.freezes = s.gate.freezes := by
  induction es generalizing s with
  | nil => rfl
  | cons e es ih => simp [postExtents, ih]

@[simp] theorem freezes_initiateAdd (k : Nat) (es : List (Nat × Nat)) (s : State) :
    (initiateAdd k es s).2.gate.freezes = s.gate.freezes := by
  unfold initiateAdd
  dsimp only
  split
  · rfl
  · rfl
  · split
    · rfl
    · split <;> simp

theorem freezes_cmdInitiateDcAdd (p : Path) (i : List Byte) (s : State) :
    (cmdInitiateDcAdd.body p i s).2.gate.freezes = s.gate.freezes := by
  unfold cmdInitiateDcAdd
  dsimp only
  split
  · simp
  · split <;> simp

@[simp] theorem freezes_withdraw (k : Nat) (e : Nat × Nat) (s : State) : (withdraw k e s).gate.freezes = s.gate.freezes := rfl
@[simp] theorem freezes_forceRelease (k : Nat) (e : Nat × Nat) (s : State) : (forceRelease k e s).gate.freezes = s.gate.freezes := rfl

@[simp] theorem freezes_releaseExtent (forced : Bool) (k : Nat) (e : Nat × Nat) (s : State) :
    (releaseExtent forced k e s).gate.freezes = s.gate.freezes := by
  simp [releaseExtent]

@[simp] theorem freezes_initiateRelease (forced : Bool) (k : Nat) (es : List (Nat × Nat)) (s : State) :
    (initiateRelease forced k es s).2.gate.freezes = s.gate.freezes := by
  simp only [initiateRelease]
  split <;> simp

theorem freezes_cmdInitiateDcRelease (p : Path) (i : List Byte) (s : State) :
    (cmdInitiateDcRelease.body p i s).2.gate.freezes = s.gate.freezes := by
  unfold cmdInitiateDcRelease
  dsimp only
  split
  · simp
  · split <;> simp

/-! ### Freezes: the Drover -/

@[simp] theorem freezes_zeroFillOne (part lpn : Nat) (s : State) : (zeroFillOne part lpn s).gate.freezes = s.gate.freezes := by
  have hline : ∀ {b t}, zeroLine lpn part 0 s = (b, t) → t.gate.freezes = s.gate.freezes := fun h =>
    (congrArg (fun x => x.2.gate.freezes) h).symm.trans (freezes_zeroLine lpn part 0 s)
  unfold zeroFillOne
  split
  next h => exact hline h
  next t h =>
    refine .trans ?_ (hline h)
    simp only [bump_gate, freezes_evDue]
    split <;> simp

@[simp] theorem freezes_startRebale (trav fast : Bool) (part lbi : Nat) (s : State) :
    (startRebale trav fast part lbi s).gate.freezes = s.gate.freezes := by
  simp [startRebale]

@[simp] theorem freezes_rebale (lbi : Nat) (s : State) : (rebale lbi s).gate.freezes = s.gate.freezes := by
  simp only [rebale]
  split <;> simp

@[simp] theorem freezes_takeParcel (lpn : Nat) (w : Option Load) (s : State) : (takeParcel lpn w s).gate.freezes = s.gate.freezes := by
  simp only [takeParcel]
  split <;> simp

@[simp] theorem freezes_commitRebale (lbi dest : Nat) (j : RebaleJob) (s : State) :
    (commitRebale lbi dest j s).gate.freezes = s.gate.freezes := by
  simp only [commitRebale, freezes_journal]
  rw [freezes_forAll (fun _ _ => by simp), freezes_dropRebale]
  exact freezes_forAll (fun _ _ => by simp) _ _

@[simp] theorem freezes_modTrav (part : Nat) (f : Trav → Trav) (s : State) : (modTrav part f s).gate.freezes = s.gate.freezes := by
  simp only [modTrav]
  split <;> simp

@[simp] theorem freezes_markPast (lbi : Nat) (s : State) : (markPast lbi s).gate.freezes = s.gate.freezes := by
  simp only [markPast]
  split <;> simp

@[simp] theorem freezes_rebaleCommit (lbi : Nat) (s : State) : (rebaleCommit lbi s).gate.freezes = s.gate.freezes := by
  simp only [rebaleCommit]
  split <;> simp

@[simp] theorem freezes_coldVisit (lpn : Nat) (s : State) : (coldVisit lpn s).gate.freezes = s.gate.freezes := by
  simp only [coldVisit]
  split <;> simp

@[simp] theorem freezes_finishThrough (s : State) : (finishThrough s).gate.freezes = s.gate.freezes := by simp [finishThrough]
@[simp] theorem freezes_landPassed (s : State) : (landPassed s).gate.freezes = s.gate.freezes := by simp [landPassed]

@[simp] theorem freezes_commitParcel (p : JParcel) (s : State) : (commitParcel p s).gate.freezes = s.gate.freezes := by
  simp [commitParcel]

@[simp] theorem freezes_commitParcels (n : Nat) (s : State) : (commitParcels n s).gate.freezes = s.gate.freezes := by
  induction n generalizing s with
  | zero => rfl
  | succ n ih =>
    unfold commitParcels
    split
    · rfl
    · simp [ih]

@[simp] theorem freezes_journalCommit (s : State) : (journalCommit s).gate.freezes = s.gate.freezes := by simp [journalCommit]
@[simp] theorem freezes_roundBegin (s : State) : (roundBegin s).gate.freezes = s.gate.freezes := by simp [roundBegin]

@[simp] theorem freezes_roundEnd (s : State) : (roundEnd s).gate.freezes = s.gate.freezes := by
  simp only [roundEnd]
  split <;> simp

@[simp] theorem freezes_dropPage (p : Nat × Nat) (s : State) : (dropPage p s).gate.freezes = s.gate.freezes :=
  freezes_forAll (f := dropLoc) (fun _ _ => by simp) _ _

@[simp] theorem freezes_roundCommitted (s : State) : (roundCommitted s).gate.freezes = s.gate.freezes := by
  have hdrop := fun l u => freezes_forAll (f := dropLoc) (fun _ _ => by simp) l u
  unfold roundCommitted
  split
  · rfl
  · simp [hdrop]

@[simp] theorem freezes_releaseUpdates (s : State) : (releaseUpdates s).gate.freezes = s.gate.freezes := by simp [releaseUpdates]
@[simp] theorem freezes_releaseLookups (s0 : State) : (releaseLookups s0).gate.freezes = s0.gate.freezes := by simp [releaseLookups]

@[simp] theorem freezes_holdPage (region page : Nat) (second : Option Nat) (s : State) :
    (holdPage region page second s).gate.freezes = s.gate.freezes := by
  simp [holdPage]

@[simp] theorem freezes_ringError (slot : Nat) (both : Bool) (s : State) : (ringError slot both s).gate.freezes = s.gate.freezes := by
  simp only [ringError]
  split <;> simp

@[simp] theorem freezes_activationFails (s : State) : (activationFails s).gate.freezes = s.gate.freezes := by
  refine freezes_forAll (fun p t => ?_) _ _
  dsimp only
  split <;> simp

@[simp] theorem freezes_hbmLost (e : HbmError) (s : State) : (hbmLost e s).gate.freezes = s.gate.freezes := by simp [hbmLost]
@[simp] theorem freezes_hbmPatrol (e : HbmError) (s : State) : (hbmPatrol e s).gate.freezes = s.gate.freezes := by simp [hbmPatrol]

@[simp] theorem freezes_mapPageRebuilt (region page holdUs : Nat) (s : State) :
    (mapPageRebuilt region page holdUs s).gate.freezes = s.gate.freezes := by
  simp [mapPageRebuilt]

@[simp] theorem freezes_stripeRebuildEnd (region stripe durationMs : Nat) (s : State) :
    (stripeRebuildEnd region stripe durationMs s).gate.freezes = s.gate.freezes := by
  simp [stripeRebuildEnd]

@[simp] theorem freezes_askSweep (tile : Nat) (s : State) : (askSweep tile s).gate.freezes = s.gate.freezes := by
  simp only [askSweep]
  split <;> simp

@[simp] theorem freezes_moveEmpty (tile lbi : Nat) (b : Bale) (s : State) : (moveEmpty tile lbi b s).gate.freezes = s.gate.freezes := by
  unfold moveEmpty
  split
  · rfl
  next h =>
    have hsegment := freezes_freshSegment h
    split
    · simpa using hsegment
    · rfl

@[simp] theorem freezes_sweepOut (c k : Nat) (forb : Bool) (s : State) : (sweepOut c k forb s).gate.freezes = s.gate.freezes := by
  simp [sweepOut]

@[simp] theorem freezes_sweepTile (c : Nat) (s0 : State) : (sweepTile c s0).gate.freezes = s0.gate.freezes := by
  unfold sweepTile
  dsimp only
  split
  · simp
  · split
    · simp
    · split
      · simp
      · split
        · split <;> simp
        · simp

@[simp] theorem freezes_sweepReset (c tile : Nat) (s : State) : (sweepReset c tile s).gate.freezes = s.gate.freezes := by
  simp only [sweepReset]
  split <;> simp

@[simp] theorem freezes_driftSetTune (c die set : Nat) (delta : List Int) (s : State) :
    (driftSetTune c die set delta s).gate.freezes = s.gate.freezes := by
  have hbanks := fun (g : Nat → Bank → Bank) l u =>
    freezes_forAll (f := fun b t => modBank c (die * 16 + b) (g b) t) (fun _ _ => by simp) l u
  simp [driftSetTune, hbanks]

@[simp] theorem freezes_scrubPass (s : State) : (scrubPass s).gate.freezes = s.gate.freezes := by simp [scrubPass]

@[simp] theorem freezes_scrubRead (ppa : Nat) (ok : Bool) (bits : Nat) (s : State) :
    (scrubRead ppa ok bits s).gate.freezes = s.gate.freezes := by
  unfold scrubRead
  dsimp only
  split
  · simp
  · split <;> simp

@[simp] theorem freezes_loseEntry (p : Nat × OvEntry) (s : State) : (loseEntry p s).gate.freezes = s.gate.freezes := by
  simp [loseEntry]

@[simp] theorem freezes_loseBale (p : Nat × Bale) (s : State) : (loseBale p s).gate.freezes = s.gate.freezes := by simp [loseBale]
@[simp] theorem freezes_retireDie (c d : Nat) (s : State) : (retireDie c d s).gate.freezes = s.gate.freezes := by simp [retireDie]

@[simp] theorem freezes_mediaLoss (c : Nat) (die : Option Nat) (s : State) : (mediaLoss c die s).gate.freezes = s.gate.freezes := by
  simp only [mediaLoss]
  split <;> simp

@[simp] theorem freezes_programLog (k p : Nat) (s : State) : (programLog k p s).gate.freezes = s.gate.freezes := by
  simp [programLog]

@[simp] theorem freezes_programLogs (s : State) : (programLogs s).gate.freezes = s.gate.freezes := by simp [programLogs]
@[simp] theorem freezes_adoptLoss (c : Nat) (s : State) : (adoptLoss c s).gate.freezes = s.gate.freezes := by simp [adoptLoss]
@[simp] theorem freezes_adoptTiles (c : Nat) (s : State) : (adoptTiles c s).gate.freezes = s.gate.freezes := by simp [adoptTiles]

theorem freezes_cmdAdoptModule (p : Path) (i : List Byte) (s : State) : (cmdAdoptModule.body p i s).2.gate.freezes = s.gate.freezes := by
  simp [cmdAdoptModule]

@[simp] theorem freezes_adopted (c : Nat) (s : State) : (adopted c s).gate.freezes = s.gate.freezes := by simp [adopted]

theorem freezes_cmdSetDroverConfig (p : Path) (i : List Byte) (s : State) :
    (cmdSetDroverConfig.body p i s).2.gate.freezes = s.gate.freezes := by
  simp only [cmdSetDroverConfig]
  split <;> simp

/-! ### Freezes: the counter tree's own work and Traverses -/

@[simp] theorem freezes_resealParcel (part lpn : Nat) (s : State) : (resealParcel part lpn s).gate.freezes = s.gate.freezes := by
  unfold resealParcel
  split
  · simp
  · simp
  · split <;> simp

@[simp] theorem freezes_rollReseal (lpn : Nat) (s0 : State) : (rollReseal lpn s0).gate.freezes = s0.gate.freezes := by
  simp only [rollReseal]
  split <;> simp

@[simp] theorem freezes_counterWriteback (level idx : Nat) (s : State) :
    (counterWriteback level idx s).gate.freezes = s.gate.freezes := by
  simp [counterWriteback]

@[simp] theorem freezes_counterCheckpoint (s : State) : (counterCheckpoint s).gate.freezes = s.gate.freezes := by
  simp [counterCheckpoint]

@[simp] theorem freezes_reportLost (level idx : Nat) (s : State) : (reportLost level idx s).gate.freezes = s.gate.freezes := by
  simp [reportLost]

@[simp] theorem freezes_modLost (level idx : Nat) (f : LostNode → LostNode) (s : State) :
    (modLost level idx f s).gate.freezes = s.gate.freezes := rfl

@[simp] theorem freezes_forgetNodes (level idx : Nat) (s : State) : (forgetNodes level idx s).gate.freezes = s.gate.freezes := rfl

@[simp] theorem freezes_nodeChanged (level idx : Nat) (s : State) : (nodeChanged level idx s).gate.freezes = s.gate.freezes := by
  simp [nodeChanged]

@[simp] theorem freezes_replaceNode (level idx e : Nat) (s0 : State) : (replaceNode level idx e s0).gate.freezes = s0.gate.freezes := by
  simp [replaceNode]

@[simp] theorem freezes_retireNode (level idx : Nat) (s : State) : (retireNode level idx s).gate.freezes = s.gate.freezes := by
  simp [retireNode]

@[simp] theorem freezes_lostNodeReplace (level idx : Nat) (s : State) : (lostNodeReplace level idx s).gate.freezes = s.gate.freezes := by
  simp only [lostNodeReplace]
  split <;> simp

@[simp] theorem freezes_epochCommitted (s : State) : (epochCommitted s).gate.freezes = s.gate.freezes := by simp [epochCommitted]

@[simp] theorem freezes_travPause (part : Nat) (t : Trav) (s : State) : (travPause part t s).gate.freezes = s.gate.freezes := by
  simp [travPause]

@[simp] theorem freezes_traverseOne (part lbi : Nat) (s : State) : (traverseOne part lbi s).gate.freezes = s.gate.freezes := by
  simp only [traverseOne]
  split <;> simp

@[simp] theorem freezes_traverseStep (part : Nat) (t : Trav) (s : State) : (traverseStep part t s).gate.freezes = s.gate.freezes := by
  unfold traverseStep
  dsimp only
  split
  · simp
  · split <;> simp

@[simp] theorem freezes_traverseBale (part : Nat) (s0 : State) : (traverseBale part s0).gate.freezes = s0.gate.freezes := by
  simp only [traverseBale]
  split <;> simp

@[simp] theorem freezes_commitMarks (s : State) : (commitMarks s).gate.freezes = s.gate.freezes := by
  refine freezes_forAll (fun p t => ?_) _ _
  split <;> simp

@[simp] theorem freezes_marksCommitted (s : State) : (marksCommitted s).gate.freezes = s.gate.freezes := by
  refine freezes_forAll (fun p t => ?_) _ _
  split
  · rfl
  · split <;> simp

@[simp] theorem freezes_finishFirst (part : Nat) (t : Trav) (s : State) : (finishFirst part t s).gate.freezes = s.gate.freezes := by
  simp [finishFirst]

@[simp] theorem freezes_traverseFinish (part : Nat) (s : State) : (traverseFinish part s).gate.freezes = s.gate.freezes := by
  simp only [traverseFinish]
  split <;> simp

@[simp] theorem freezes_finishStep (part : Nat) (t : Trav) (s : State) : (finishStep part t s).gate.freezes = s.gate.freezes := by
  simp [finishStep]

@[simp] theorem freezes_advanceFinish (s : State) : (advanceFinish s).gate.freezes = s.gate.freezes := by simp [advanceFinish]

theorem freezes_cmdTraverse (p : Path) (i : List Byte) (s : State) : (cmdTraverse.body p i s).2.gate.freezes = s.gate.freezes := by
  unfold cmdTraverse
  dsimp only
  split
  · simp
  · split
    · simp
    · split
      · simp
      · split
        · simp
        · split <;> simp

theorem freezes_cmdGetTraverse (p : Path) (i : List Byte) (s : State) : (cmdGetTraverse.body p i s).2.gate.freezes = s.gate.freezes := by
  simp [cmdGetTraverse]

/-! ### Freezes: commits, recall and the keeper's supply -/

@[simp] theorem freezes_holdStore (s : State) : (holdStore s).gate.freezes = s.gate.freezes := by simp [holdStore]
@[simp] theorem freezes_startGroup (s : State) : (startGroup s).gate.freezes = s.gate.freezes := rfl
@[simp] theorem freezes_commitGroup (s : State) : (commitGroup s).gate.freezes = s.gate.freezes := by simp [commitGroup]
@[simp] theorem freezes_clearLatch (s : State) : (clearLatch s).gate.freezes = s.gate.freezes := rfl
@[simp] theorem freezes_clearFlushLatch (s : State) : (clearFlushLatch s).gate.freezes = s.gate.freezes := by simp [clearFlushLatch]

@[simp] theorem freezes_advanceDeparting (s : State) : (advanceDeparting s).gate.freezes = s.gate.freezes := by
  simp [advanceDeparting]

@[simp] theorem freezes_finishJob (p : Path) (s : State) : (finishJob p s).gate.freezes = s.gate.freezes := by
  simp only [finishJob]
  split <;> simp

@[simp] theorem freezes_afterCommit (s : State) : (afterCommit s).gate.freezes = s.gate.freezes := by simp [afterCommit]

@[simp] theorem freezes_commitGroupComplete (s : State) : (commitGroupComplete s).gate.freezes = s.gate.freezes := by
  simp [commitGroupComplete]

@[simp] theorem freezes_storeSupplyRecheck (vdd ek : Nat) (s0 : State) :
    (storeSupplyRecheck vdd ek s0).gate.freezes = s0.gate.freezes := by
  simp [storeSupplyRecheck]

@[simp] theorem freezes_recallRecords (r : Recalled) (us : Nat) (s : State) : (recallRecords r us s).gate.freezes = s.gate.freezes := by
  simp only [recallRecords]
  split <;> simp

@[simp] theorem freezes_mergeLatch (s : State) : (mergeLatch s).gate.freezes = s.gate.freezes := by simp [mergeLatch]

@[simp] theorem freezes_mergeFlush (s : State) : (mergeFlush s).gate.freezes = s.gate.freezes := by
  simp only [mergeFlush]
  split <;> simp

@[simp] theorem freezes_recallNow (bad : List (Nat × Nat × Bool × Bool)) (us : Nat) (s : State) :
    (recallNow bad us s).gate.freezes = s.gate.freezes := by
  simp [recallNow]

@[simp] theorem freezes_storeStaging (s : State) : (storeStaging s).gate.freezes = s.gate.freezes := rfl

@[simp] theorem freezes_keeperSupplyFall (vdd ek : Nat) (s0 : State) : (keeperSupplyFall vdd ek s0).gate.freezes = s0.gate.freezes := by
  simp [keeperSupplyFall]

@[simp] theorem freezes_recallSummit (s : State) : (recallSummit s).gate.freezes = s.gate.freezes := by
  simp only [recallSummit]
  split <;> simp

@[simp] theorem freezes_keeperPor (s0 : State) : (keeperPor s0).gate.freezes = s0.gate.freezes := by simp [keeperPor]

@[simp] theorem freezes_keepHoldMeasure (tUs : Nat) (s : State) : (keepHoldMeasure tUs s).gate.freezes = s.gate.freezes := by
  simp [keepHoldMeasure]

/-! ### Freezes: the Reckoner -/

@[simp] theorem freezes_modReck (f : Reck → Reck) (s : State) : (modReck f s).gate.freezes = s.gate.freezes := rfl

@[simp] theorem freezes_plainRec (t : Tbl Nat) (code : Nat) (s : State) : (plainRec t code s).gate.freezes = s.gate.freezes := by
  simp [plainRec]

@[simp] theorem freezes_mostRec (t : Tbl Nat) (code : Nat) (bitmap : Bool) (s : State) :
    (mostRec t code bitmap s).gate.freezes = s.gate.freezes := by
  simp [mostRec]

@[simp] theorem freezes_replayRecs (t : Tbl Nat) (s : State) : (replayRecs t s).gate.freezes = s.gate.freezes := by
  simp [replayRecs]

@[simp] theorem freezes_dueRec (s : State) : (dueRec s).gate.freezes = s.gate.freezes := by simp [dueRec]

@[simp] theorem freezes_shapedRecs (t : Tbl Nat) (s : State) : (shapedRecs t s).gate.freezes = s.gate.freezes := by
  simp [shapedRecs]

@[simp] theorem freezes_minuteRecs (t : Tbl Nat) (s : State) : (minuteRecs t s).gate.freezes = s.gate.freezes := by
  simp [minuteRecs]

@[simp] theorem freezes_discardedEvents (s : State) : (discardedEvents s).gate.freezes = s.gate.freezes := by simp [discardedEvents]
@[simp] theorem freezes_markFlags (s : State) : (markFlags s).gate.freezes = s.gate.freezes := rfl

@[simp] theorem freezes_swapMinute (closeTs : Nat) (flags : BitVec 8) (next : Nat) (nextFlags : BitVec 8) (s0 : State) :
    (swapMinute closeTs flags next nextFlags s0).gate.freezes = s0.gate.freezes := rfl

@[simp] theorem freezes_resetLedgerTile (k : Nat) (s : State) : (resetLedgerTile k s).gate.freezes = s.gate.freezes := by
  simp [resetLedgerTile]

@[simp] theorem freezes_resetSlots (o : Nat) (s : State) : (resetSlots o s).gate.freezes = s.gate.freezes := by simp [resetSlots]

theorem freezes_chainSlot {p : Nat} {s t : State} (h : chainSlot p s = some t) : t.gate.freezes = s.gate.freezes := by
  have hone : ∀ {k : Nat} {s t : State}, (if thas s.sad.img.ledgerChain k then some s
      else (takeLedgerTile ((tget s.sad.img.ledgerChain ((k + 8192) % 16384)).map tileCh) s (serving s)).map
        (fun r => setChain k r.1 r.2)) = some t → t.gate.freezes = s.gate.freezes := by
    intro k s t h
    split at h
    · cases h
      rfl
    · obtain ⟨r, hr, rfl⟩ := Option.map_eq_some_iff.mp h
      simpa using freezes_takeLedgerTile hr
  obtain ⟨u, hu, ht⟩ := Option.bind_eq_some_iff.mp h
  exact (hone ht).trans (hone hu)

@[simp] theorem freezes_ledgerStart (s : State) : (ledgerStart s).gate.freezes = s.gate.freezes := by
  unfold ledgerStart
  split
  · rfl
  · split
    · rfl
    · split
      · rfl
      next h => simpa using freezes_chainSlot h

@[simp] theorem freezes_sealClosing (s : State) : (sealClosing s).gate.freezes = s.gate.freezes := by
  simp only [sealClosing]
  split <;> simp

@[simp] theorem freezes_minuteBoundary (s : State) : (minuteBoundary s).gate.freezes = s.gate.freezes := by simp [minuteBoundary]

@[simp] theorem freezes_stepTb (d : Int) (cause : Nat) (s : State) : (stepTb d cause s).gate.freezes = s.gate.freezes := by
  simp [stepTb]

@[simp] theorem freezes_slewBy (d : Int) (s : State) : (slewBy d s).gate.freezes = s.gate.freezes := rfl
@[simp] theorem freezes_applyTime (d : Int) (s : State) : (applyTime d s).gate.freezes = s.gate.freezes := by simp [applyTime]
@[simp] theorem freezes_tbState (n : TbSt) (s : State) : (tbState n s).gate.freezes = s.gate.freezes := by simp [tbState]
@[simp] theorem freezes_enterHoldover (s : State) : (enterHoldover s).gate.freezes = s.gate.freezes := by simp [enterHoldover]

@[simp] theorem freezes_applyTimeCfg (s : State) : (applyTimeCfg s).gate.freezes = s.gate.freezes := by
  simp only [applyTimeCfg]
  split <;> simp

@[simp] theorem freezes_disciplineEdge (c e : Int) (first : Bool) (s : State) :
    (disciplineEdge c e first s).gate.freezes = s.gate.freezes := by
  simp only [disciplineEdge]
  split <;> simp

@[simp] theorem freezes_stateAfterEdge (e : Int) (s : State) : (stateAfterEdge e s).gate.freezes = s.gate.freezes := by
  simp only [stateAfterEdge]
  split <;> simp

@[simp] theorem freezes_ppsEdge (rising : Bool) (s0 : State) : (ppsEdge rising s0).gate.freezes = s0.gate.freezes := by
  simp [ppsEdge]

@[simp] theorem freezes_ledgerCommit (s : State) : (ledgerCommit s).gate.freezes = s.gate.freezes := by
  unfold ledgerCommit
  dsimp only
  split
  · simp
  · split
    · simp
    · split <;> simp

@[simp] theorem freezes_setTimeCfg (c : TimeCfg) (s : State) : (setTimeCfg c s).gate.freezes = s.gate.freezes := by
  simp [setTimeCfg]

theorem freezes_cmdSetTimeConfig (p : Path) (i : List Byte) (s : State) :
    (cmdSetTimeConfig.body p i s).2.gate.freezes = s.gate.freezes := by
  simp [cmdSetTimeConfig]

theorem freezes_cmdSetTimeOfDay (p : Path) (i : List Byte) (s : State) :
    (cmdSetTimeOfDay.body p i s).2.gate.freezes = s.gate.freezes := by
  simp [cmdSetTimeOfDay]

theorem freezes_cmdGetMeters (p : Path) (i : List Byte) (s : State) : (cmdGetMeters.body p i s).2.gate.freezes = s.gate.freezes := by
  simp [cmdGetMeters]

theorem freezes_cmdGetHistogram (p : Path) (i : List Byte) (s : State) :
    (cmdGetHistogram.body p i s).2.gate.freezes = s.gate.freezes := by
  simp [cmdGetHistogram]

/-! ### Freezes: the stage clock -/

@[simp] theorem freezes_accrueMeters (s : State) : (accrueMeters s).gate.freezes = s.gate.freezes := by simp [accrueMeters]
@[simp] theorem freezes_throttleCounts (s : State) : (throttleCounts s).gate.freezes = s.gate.freezes := by simp [throttleCounts]
@[simp] theorem freezes_seeConds (s : State) : (seeConds s).gate.freezes = s.gate.freezes := rfl
@[simp] theorem freezes_idleCycle (s : State) : (idleCycle s).gate.freezes = s.gate.freezes := by simp [idleCycle]

/-! ### Freezes: the recovery of the medium -/

@[simp] theorem freezes_modBoot (f : Boot → Boot) (s : State) : (modBoot f s).gate.freezes = s.gate.freezes := rfl

@[simp] theorem freezes_endLostTraverse (part : Nat) (s : State) : (endLostTraverse part s).gate.freezes = s.gate.freezes := by
  simp [endLostTraverse]

@[simp] theorem freezes_resumeTraverse (i : Nat) (r : TravRec) (s : State) : (resumeTraverse i r s).gate.freezes = s.gate.freezes := by
  simp [resumeTraverse]

@[simp] theorem freezes_bootTraverses (s : State) : (bootTraverses s).gate.freezes = s.gate.freezes := by simp [bootTraverses]
@[simp] theorem freezes_settleChan (c : Nat) (s : State) : (settleChan c s).gate.freezes = s.gate.freezes := by simp [settleChan]
@[simp] theorem freezes_recoverMap (s : State) : (recoverMap s).gate.freezes = s.gate.freezes := by simp [recoverMap]

@[simp] theorem freezes_bootNode (level idx : Nat) (s : State) : (bootNode level idx s).gate.freezes = s.gate.freezes := by
  unfold bootNode
  dsimp only
  split
  · simp
  · split
    · simp
    · split
      · simp
      · split <;> simp

@[simp] theorem freezes_bootCompanion (leaf : Nat) (s : State) : (bootCompanion leaf s).gate.freezes = s.gate.freezes := by
  simp only [bootCompanion]
  split <;> simp

@[simp] theorem freezes_recoverTree (s : State) : (recoverTree s).gate.freezes = s.gate.freezes := by simp [recoverTree]

@[simp] theorem freezes_missingMinutes (held : Tbl MinuteBank) (l : Nat) (s : State) :
    (missingMinutes held l s).gate.freezes = s.gate.freezes := by
  simp only [missingMinutes]
  split <;> simp

@[simp] theorem freezes_lateMinute (n : Nat) (s : State) : (lateMinute n s).gate.freezes = s.gate.freezes := rfl

@[simp] theorem freezes_recoverLedger (s0 : State) : (recoverLedger s0).gate.freezes = s0.gate.freezes := by
  unfold recoverLedger
  dsimp only
  split
  · split <;> simp
  · split
    · split
      · split <;> simp
      · simp
    · split
      · split <;> simp
      · simp

@[simp] theorem freezes_recoverLogs (s : State) : (recoverLogs s).gate.freezes = s.gate.freezes := rfl
@[simp] theorem freezes_rebuild (s : State) : (rebuild s).gate.freezes = s.gate.freezes := by simp [rebuild]
@[simp] theorem freezes_setRunning (s : State) : (setRunning s).gate.freezes = s.gate.freezes := rfl
@[simp] theorem freezes_commitNow (s : State) : (commitNow s).gate.freezes = s.gate.freezes := by simp [commitNow]
@[simp] theorem freezes_openService (s : State) : (openService s).gate.freezes = s.gate.freezes := by simp [openService]
@[simp] theorem freezes_recoverStep (s : State) : (recoverStep s).gate.freezes = s.gate.freezes := by simp [recoverStep]

/-! ### Freezes: Belay -/

@[simp] theorem freezes_modBelay (f : Belay → Belay) (s : State) : (modBelay f s).gate.freezes = s.gate.freezes := rfl
@[simp] theorem freezes_setScale (x : Nat) (s : State) : (setScale x s).gate.freezes = s.gate.freezes := by simp [setScale]
@[simp] theorem freezes_applyScale (e : Nat) (s : State) : (applyScale e s).gate.freezes = s.gate.freezes := by simp [applyScale]
@[simp] theorem freezes_applyThrough (e : Nat) (s : State) : (applyThrough e s).gate.freezes = s.gate.freezes := rfl

@[simp] theorem freezes_energySamples (e : Nat) (s : State) : (energySamples e s).gate.freezes = s.gate.freezes := by
  simp [energySamples]

@[simp] theorem freezes_budgetLowered (before s : State) : (budgetLowered before s).gate.freezes = s.gate.freezes := by
  simp [budgetLowered]

@[simp] theorem freezes_energyComputation (v : Nat) (s : State) : (energyComputation v s).gate.freezes = s.gate.freezes := by
  simp [energyComputation]

@[simp] theorem freezes_budgetRaise (s : State) : (budgetRaise s).gate.freezes = s.gate.freezes := by simp [budgetRaise]

@[simp] theorem freezes_testHigh (s : State) : (testHigh s).gate.freezes = s.gate.freezes := by
  simp only [testHigh]
  split <;> simp

@[simp] theorem freezes_beginTest (v : Nat) (s : State) : (beginTest v s).gate.freezes = s.gate.freezes := by simp [beginTest]

@[simp] theorem freezes_capacitanceTestStart (v : Nat) (s : State) : (capacitanceTestStart v s).gate.freezes = s.gate.freezes := by
  simp [capacitanceTestStart]

@[simp] theorem freezes_capacitanceTestPostpone (s : State) : (capacitanceTestPostpone s).gate.freezes = s.gate.freezes := by
  simp only [capacitanceTestPostpone]
  split <;> simp

@[simp] theorem freezes_warnFall (old : Option Nat) (c : Nat) (s : State) : (warnFall old c s).gate.freezes = s.gate.freezes := by
  simp only [warnFall]
  split <;> simp

@[simp] theorem freezes_capacitanceTestEnd (tUs : Nat) (s : State) : (capacitanceTestEnd tUs s).gate.freezes = s.gate.freezes := by
  simp only [capacitanceTestEnd]
  split <;> simp

@[simp] theorem freezes_pfailWins (s : State) : (pfailWins s).gate.freezes = s.gate.freezes := rfl
@[simp] theorem freezes_nextStep (s : State) : (nextStep s).gate.freezes = s.gate.freezes := by simp [nextStep]
@[simp] theorem freezes_rederive (s : State) : (rederive s).gate.freezes = s.gate.freezes := by simp [rederive]
@[simp] theorem freezes_flushTree (s : State) : (flushTree s).gate.freezes = s.gate.freezes := by simp [flushTree]
@[simp] theorem freezes_treeOut (s : State) : (treeOut s).gate.freezes = s.gate.freezes := by simp [treeOut]
@[simp] theorem freezes_flushMinutes (s : State) : (flushMinutes s).gate.freezes = s.gate.freezes := by simp [flushMinutes]
@[simp] theorem freezes_flushBooks (s : State) : (flushBooks s).gate.freezes = s.gate.freezes := by simp [flushBooks]
@[simp] theorem freezes_booksGoOn (s : State) : (booksGoOn s).gate.freezes = s.gate.freezes := by simp [booksGoOn]
@[simp] theorem freezes_flushCommit (s : State) : (flushCommit s).gate.freezes = s.gate.freezes := by simp [flushCommit]
@[simp] theorem freezes_handOver7 (v : Nat) (s : State) : (handOver7 v s).gate.freezes = s.gate.freezes := by simp [handOver7]

@[simp] theorem freezes_flushStepAdvance (v : Nat) (s : State) : (flushStepAdvance v s).gate.freezes = s.gate.freezes := by
  simp only [flushStepAdvance]
  split <;> simp

theorem freezes_cmdSetBelayConfig (p : Path) (i : List Byte) (s : State) :
    (cmdSetBelayConfig.body p i s).2.gate.freezes = s.gate.freezes := by
  simp only [cmdSetBelayConfig]
  split <;> simp

theorem freezes_cmdPreparePowerOff (p : Path) (i : List Byte) (s : State) :
    (cmdPreparePowerOff.body p i s).2.gate.freezes = s.gate.freezes := by
  simp [cmdPreparePowerOff]

/-! ### Freezes: Cairn's array and the Relay queues -/

@[simp] theorem freezes_cairnStore (s : State) : (cairnStore s).gate.freezes = s.gate.freezes := by simp [cairnStore]

@[simp] theorem freezes_autoAdvance (p l : Nat) (s : State) : (autoAdvance p l s).gate.freezes = s.gate.freezes := by
  simp [autoAdvance]

theorem freezes_cmdCairnRead (p : Path) (i : List Byte) (s : State) : (cmdCairnRead.body p i s).2.gate.freezes = s.gate.freezes := by
  simp [cmdCairnRead]

theorem freezes_cmdGetCairnHistogram (p : Path) (i : List Byte) (s : State) :
    (cmdGetCairnHistogram.body p i s).2.gate.freezes = s.gate.freezes := by
  simp [cmdGetCairnHistogram]

@[simp] theorem freezes_relayItemProduced (q : Nat) (r : CairnRec) (s : State) :
    (relayItemProduced q r s).gate.freezes = s.gate.freezes := by
  simp [relayItemProduced]

@[simp] theorem freezes_relayItemDrain (q : Nat) (s : State) : (relayItemDrain q s).gate.freezes = s.gate.freezes := by
  unfold relayItemDrain
  dsimp only
  split
  · split <;> simp
  · split
    · split <;> simp
    · split <;> simp

@[simp] theorem freezes_relayPointerMismatch (q ptr : Nat) (s : State) :
    (relayPointerMismatch q ptr s).gate.freezes = s.gate.freezes := by
  simp [relayPointerMismatch]

@[simp] theorem freezes_noticeReconcile (q : Nat) (s : State) : (noticeReconcile q s).gate.freezes = s.gate.freezes := by
  have hforward := fun l u => freezes_forAll (f := forward) (fun _ _ => rfl) l u
  simp [noticeReconcile, hforward]

/-! ### Freezes: Rope -/

@[simp] theorem freezes_modRope (f : Rope → Rope) (s : State) : (modRope f s).gate.freezes = s.gate.freezes := rfl

theorem freezes_whenKeeper {f : State → State} (h : ∀ t, (f t).gate.freezes = t.gate.freezes) (s : State) :
    (whenKeeper f s).gate.freezes = s.gate.freezes := by simp [whenKeeper, h]

@[simp] theorem freezes_lineFault (s : State) : (lineFault s).gate.freezes = s.gate.freezes := by simp [lineFault]
@[simp] theorem freezes_nextPitch (s : State) : (nextPitch s).gate.freezes = s.gate.freezes := rfl
@[simp] theorem freezes_reportRails (s : State) : (reportRails s).gate.freezes = s.gate.freezes := rfl
@[simp] theorem freezes_ropeOn (s : State) : (ropeOn s).gate.freezes = s.gate.freezes := by simp [ropeOn]

@[simp] theorem freezes_ropeLineRise (s : State) : (ropeLineRise s).gate.freezes = s.gate.freezes := by
  simp only [ropeLineRise]
  split <;> simp

@[simp] theorem freezes_pitchDriveLow (readsHigh : Bool) (s : State) : (pitchDriveLow readsHigh s).gate.freezes = s.gate.freezes := by
  simp [pitchDriveLow]

@[simp] theorem freezes_railReading (mon mv : Nat) (s : State) : (railReading mon mv s).gate.freezes = s.gate.freezes := by
  simp [railReading]

@[simp] theorem freezes_completeReadings (s : State) : (completeReadings s).gate.freezes = s.gate.freezes := by
  simp [completeReadings]

@[simp] theorem freezes_pitchComplete (pfailLow : Bool) (s : State) : (pitchComplete pfailLow s).gate.freezes = s.gate.freezes := by
  simp [pitchComplete]

@[simp] theorem freezes_ropeTimeout (s : State) : (ropeTimeout s).gate.freezes = s.gate.freezes := by simp [ropeTimeout]

@[simp] theorem freezes_pfailDuringRising (s : State) : (pfailDuringRising s).gate.freezes = s.gate.freezes := by
  simp [pfailDuringRising]

@[simp] theorem freezes_startFault (i cause mv : Nat) (s : State) : (startFault i cause mv s).gate.freezes = s.gate.freezes := by
  simp [startFault]

@[simp] theorem freezes_railFault (i mv us : Nat) (s : State) : (railFault i mv us s).gate.freezes = s.gate.freezes := by
  simp [railFault]

@[simp] theorem freezes_failChannels (l : List Nat) (s : State) : (failChannels l s).gate.freezes = s.gate.freezes := by
  simp [failChannels]

@[simp] theorem freezes_moduleRailPgFall (i : Nat) (s : State) : (moduleRailPgFall i s).gate.freezes = s.gate.freezes := by
  simp [moduleRailPgFall]

@[simp] theorem freezes_endDown (s : State) : (endDown s).gate.freezes = s.gate.freezes := by simp [endDown]
@[simp] theorem freezes_fallNext (s : State) : (fallNext s).gate.freezes = s.gate.freezes := by simp [fallNext]
@[simp] theorem freezes_railFallen (s : State) : (railFallen s).gate.freezes = s.gate.freezes := by simp [railFallen]

@[simp] theorem freezes_railFallTimeout (i mv : Nat) (s : State) : (railFallTimeout i mv s).gate.freezes = s.gate.freezes := by
  simp [railFallTimeout]

@[simp] theorem freezes_holdoffEnd (s : State) : (holdoffEnd s).gate.freezes = s.gate.freezes := by simp [holdoffEnd]

theorem freezes_cmdSetPitchTable (p : Path) (i : List Byte) (s : State) :
    (cmdSetPitchTable.body p i s).2.gate.freezes = s.gate.freezes := by
  simp only [cmdSetPitchTable]
  split <;> simp

/-! ### Freezes: the thermal monitor -/

@[simp] theorem freezes_modTherm (f : Thermal → Thermal) (s : State) : (modTherm f s).gate.freezes = s.gate.freezes := rfl

@[simp] theorem freezes_excludeSensor (t : List (Option Int)) (i : Nat) (reading med : Int) (s : State) :
    (excludeSensor t i reading med s).gate.freezes = s.gate.freezes := by
  simp [excludeSensor]

@[simp] theorem freezes_excludeStopped (t : List (Option Int)) (s : State) : (excludeStopped t s).gate.freezes = s.gate.freezes := by
  simp [excludeStopped]

@[simp] theorem freezes_excludeOutliers (t : List (Option Int)) (s : State) : (excludeOutliers t s).gate.freezes = s.gate.freezes := by
  refine freezes_foldl (fun u p => ?_) _ _
  split
  · rfl
  · split
    · rfl
    · split <;> simp

@[simp] theorem freezes_junctionSample (tj : Int) (s : State) : (junctionSample tj s).gate.freezes = s.gate.freezes := by
  simp [junctionSample]

@[simp] theorem freezes_junctionWarn (tj : Int) (s : State) : (junctionWarn tj s).gate.freezes = s.gate.freezes := by
  simp [junctionWarn]

@[simp] theorem freezes_junctionThrottle (tj : Int) (few : Bool) (s : State) :
    (junctionThrottle tj few s).gate.freezes = s.gate.freezes := by
  simp [junctionThrottle]

@[simp] theorem freezes_thermalShutdown (tj : Int) (s : State) : (thermalShutdown tj s).gate.freezes = s.gate.freezes := by
  simp [thermalShutdown]

@[simp] theorem freezes_junctionUpdate (tj : Nat × Int) (few : Bool) (s : State) :
    (junctionUpdate tj few s).gate.freezes = s.gate.freezes := by
  simp [junctionUpdate]

@[simp] theorem freezes_junctionReading (t : List (Option Int)) (hbm : List Int) (s : State) :
    (junctionReading t hbm s).gate.freezes = s.gate.freezes := by
  simp only [junctionReading]
  split <;> simp

@[simp] theorem freezes_hardwareTrip (i : Nat) (t16 : Int) (s : State) : (hardwareTrip i t16 s).gate.freezes = s.gate.freezes := by
  simp [hardwareTrip]

@[simp] theorem freezes_keeperSensorReading (t : List (Option Int)) (s : State) :
    (keeperSensorReading t s).gate.freezes = s.gate.freezes := rfl

@[simp] theorem freezes_moduleSample (t : Int) (s : State) : (moduleSample t s).gate.freezes = s.gate.freezes := by
  simp [moduleSample]

@[simp] theorem freezes_moduleWarn (c : Nat) (t : Int) (s : State) : (moduleWarn c t s).gate.freezes = s.gate.freezes := by
  simp [moduleWarn]

@[simp] theorem freezes_moduleThrottle (c : Nat) (t : Int) (s : State) : (moduleThrottle c t s).gate.freezes = s.gate.freezes := by
  simp [moduleThrottle]

@[simp] theorem freezes_writeWindow (c : Nat) (hi lo : Int) (s : State) : (writeWindow c hi lo s).gate.freezes = s.gate.freezes := by
  simp [writeWindow]

@[simp] theorem freezes_tempReply (c : Nat) (r : TempReply) (s : State) : (tempReply c r s).gate.freezes = s.gate.freezes := by
  simp only [tempReply]
  split <;> simp

@[simp] theorem freezes_moduleTempMissing (c : Nat) (s : State) : (moduleTempMissing c s).gate.freezes = s.gate.freezes := by
  simp [moduleTempMissing]

/-! ### Freezes: the loader -/

@[simp] theorem freezes_reloadBlocked (src : Nat) (s : State) : (reloadBlocked src s).gate.freezes = s.gate.freezes := rfl
@[simp] theorem freezes_loadKeys (s : State) : (loadKeys s).gate.freezes = s.gate.freezes := by simp [loadKeys]

@[simp] theorem freezes_reloadKeys (s : State) : (reloadKeys s).gate.freezes = s.gate.freezes := by
  simp only [reloadKeys]
  split <;> simp

@[simp] theorem freezes_bootReckoner (s : State) : (bootReckoner s).gate.freezes = s.gate.freezes := rfl

/-! ### Freezes: boot, update and resets -/

@[simp] theorem freezes_countBoot (dirty : Bool) (s : State) : (countBoot dirty s).gate.freezes = s.gate.freezes := rfl
@[simp] theorem freezes_recoverUnclean (s : State) : (recoverUnclean s).gate.freezes = s.gate.freezes := by simp [recoverUnclean]
@[simp] theorem freezes_migrate (s : State) : (migrate s).gate.freezes = s.gate.freezes := by simp [migrate]
@[simp] theorem freezes_bootChans (s : State) : (bootChans s).gate.freezes = s.gate.freezes := rfl
@[simp] theorem freezes_bootPlanner (s : State) : (bootPlanner s).gate.freezes = s.gate.freezes := rfl

@[simp] theorem freezes_startRecovery (dirty : Bool) (s : State) : (startRecovery dirty s).gate.freezes = s.gate.freezes := by
  simp [startRecovery]

@[simp] theorem freezes_synetStart (us : Nat) (s : State) : (synetStart us s).gate.freezes = s.gate.freezes := by simp [synetStart]

@[simp] theorem freezes_bivouac (cause attempts : Nat) (s : State) : (bivouac cause attempts s).gate.freezes = s.gate.freezes := by
  simp [bivouac]

@[simp] theorem freezes_loadImage (hdrFails bodyFails us : Nat) (s : State) :
    (loadImage hdrFails bodyFails us s).gate.freezes = s.gate.freezes := by
  simp [loadImage]

@[simp] theorem freezes_rerunLoader (hdrFails : Nat) (s : State) : (rerunLoader hdrFails s).gate.freezes = s.gate.freezes := by
  simp [rerunLoader]

@[simp] theorem freezes_outpostRefused (v1 v2 core : Nat) (s : State) : (outpostRefused v1 v2 core s).gate.freezes = s.gate.freezes := by
  simp [outpostRefused]

@[simp] theorem freezes_alarmMain (source detector reading : Nat) (s : State) :
    (alarmMain source detector reading s).gate.freezes = s.gate.freezes := by
  simp [alarmMain]

@[simp] theorem freezes_alarm (source detector reading : Nat) (s : State) :
    (alarm source detector reading s).gate.freezes = s.gate.freezes := by
  simp [alarm]

@[simp] theorem freezes_addChunk (data : List Byte) (s : State) : (addChunk data s).gate.freezes = s.gate.freezes := rfl

@[simp] theorem freezes_fwInitiate (p : Path) (off : Nat) (data : List Byte) (s : State) :
    (fwInitiate p off data s).2.gate.freezes = s.gate.freezes := by
  simp [fwInitiate]

@[simp] theorem freezes_fwEnd (p : Path) (slot off : Nat) (data : List Byte) (s : State) :
    (fwEnd p slot off data s).2.gate.freezes = s.gate.freezes := by
  simp [fwEnd]

theorem freezes_cmdTransferFw (p : Path) (i : List Byte) (s : State) : (cmdTransferFw.body p i s).2.gate.freezes = s.gate.freezes := by
  simp only [cmdTransferFw]
  split <;> simp

theorem freezes_cmdActivateFw (p : Path) (i : List Byte) (s : State) : (cmdActivateFw.body p i s).2.gate.freezes = s.gate.freezes := by
  simp [cmdActivateFw]

@[simp] theorem freezes_modFlash (f : List Host.Cell → List Host.Cell) (s : State) : (modFlash f s).gate.freezes = s.gate.freezes := rfl

@[simp] theorem freezes_writeFlash (a n : Nat) (data : List Byte) (ok : Bool) (s : State) :
    (writeFlash a n data ok s).gate.freezes = s.gate.freezes := rfl

@[simp] theorem freezes_activationDone (s : State) : (activationDone s).gate.freezes = s.gate.freezes := by
  simp only [activationDone, freezes_ite, freezes_rerunLoader, freezes_modBoot, ite_self]
  exact freezes_forAll (fun p t => by split <;> simp) _ _

@[simp] theorem freezes_bodyStep (ok : Bool) (s : State) : (bodyStep ok s).gate.freezes = s.gate.freezes := by simp [bodyStep]
@[simp] theorem freezes_headerStep (ok : Bool) (s : State) : (headerStep ok s).gate.freezes = s.gate.freezes := by simp [headerStep]

@[simp] theorem freezes_activationFlashStep (ok : Bool) (s : State) : (activationFlashStep ok s).gate.freezes = s.gate.freezes := by
  unfold activationFlashStep
  split
  · simp
  · split <;> simp

theorem freezes_cmdConfirmFw (p : Path) (i : List Byte) (s : State) : (cmdConfirmFw.body p i s).2.gate.freezes = s.gate.freezes := by
  simp [cmdConfirmFw]

theorem freezes_cmdClearResetInfo (p : Path) (i : List Byte) (s : State) :
    (cmdClearResetInfo.body p i s).2.gate.freezes = s.gate.freezes := by
  simp [cmdClearResetInfo]

@[simp] theorem freezes_warmReset (mgmt : Bool) (s : State) : (warmReset mgmt s).gate.freezes = s.gate.freezes := by
  simp [warmReset]

theorem freezes_cmdWarmReset (p : Path) (i : List Byte) (s : State) : (cmdWarmReset.body p i s).2.gate.freezes = s.gate.freezes := by
  simp [cmdWarmReset]

/-! ### Freezes: the Coffer -/

@[simp] theorem freezes_modCof (k : Nat) (f : CofPage → CofPage) (s : State) : (modCof k f s).gate.freezes = s.gate.freezes := rfl
@[simp] theorem freezes_cofEvent (i k : Nat) (s : State) : (cofEvent i k s).gate.freezes = s.gate.freezes := rfl

@[simp] theorem freezes_endCoffer (k code : Nat) (s : State) : (endCoffer k code s).gate.freezes = s.gate.freezes := by
  simp only [endCoffer]
  split <;> simp

@[simp] theorem mem_freezes_cofSubmit {q l : Nat} {s : State} {f : Freeze} (h : f ∈ s.gate.freezes) :
    f ∈ (cofSubmit q l s).gate.freezes := by
  unfold cofSubmit
  dsimp only
  split
  · exact h
  · split
    · simpa using h
    · split
      · exact (freezes_endCoffer ..).symm ▸ mem_freezes_freeze h
      · split <;> simpa using h

@[simp] theorem freezes_modKey (k slot : Nat) (f : CofKey → CofKey) (s : State) : (modKey k slot f s).gate.freezes = s.gate.freezes := rfl

@[simp] theorem freezes_keyLoad (q l slot : Nat) (v : BitVec 32) (s : State) : (keyLoad q l slot v s).gate.freezes = s.gate.freezes := by
  simp [keyLoad]

@[simp] theorem freezes_keyClear (q l slot : Nat) (s : State) : (keyClear q l slot s).gate.freezes = s.gate.freezes := by
  simp [keyClear]

@[simp] theorem freezes_cofFill (k part lpn sector : Nat) (e : ReadEnv) (s : State) :
    (cofFill k part lpn sector e s).gate.freezes = s.gate.freezes := by
  simp [cofFill]

@[simp] theorem freezes_cofRead (k part lpn : Nat) (need : BitVec 4) (e : ReadEnv) (s : State) :
    (cofRead k part lpn need e s).2.gate.freezes = s.gate.freezes := by
  unfold cofRead
  dsimp only
  split
  · simp
  · split
    · simp
    · split
      · split <;> simp
      · split <;> simp

@[simp] theorem freezes_cofLost (k part : Nat) (s : State) : (cofLost k part s).gate.freezes = s.gate.freezes := by simp [cofLost]

@[simp] theorem freezes_cofWrite (k part lpn o : Nat) (d : List Byte) (e : ReadEnv) (s0 : State) :
    (cofWrite k part lpn o d e s0).2.gate.freezes = s0.gate.freezes := by
  simp only [cofWrite]
  split <;> simp

@[simp] theorem freezes_cofZero (k part lpn o n : Nat) (e : ReadEnv) (s : State) :
    (cofZero k part lpn o n e s).2.gate.freezes = s.gate.freezes := by
  simp [cofZero]

@[simp] theorem freezes_cofEmit (k : Nat) (e : ReadEnv) (s : State) : (cofEmit k e s).gate.freezes = s.gate.freezes := by
  unfold cofEmit
  dsimp only
  split
  · simp
  · split
    · simp
    · split <;> simp

@[simp] theorem freezes_startZero (k code : Nat) (s : State) : (startZero k code s).gate.freezes = s.gate.freezes := by
  simp only [startZero]
  split <;> simp

@[simp] theorem freezes_cofZeroNext (k : Nat) (r : CofRun) (e : ReadEnv) (s : State) :
    (cofZeroNext k r e s).gate.freezes = s.gate.freezes := by
  unfold cofZeroNext
  dsimp only
  split
  · simp
  · split <;> simp

@[simp] theorem freezes_cofReadNext (k : Nat) (r : CofRun) (e : ReadEnv) (s : State) :
    (cofReadNext k r e s).gate.freezes = s.gate.freezes := by
  unfold cofReadNext
  dsimp only
  split
  · rfl
  · split
    all_goals
      next h =>
        have hread := (congrArg (fun x => x.2.gate.freezes) h).symm.trans (freezes_cofRead ..)
        simpa using hread

@[simp] theorem freezes_cofHalt (k code : Nat) (r : CofRun) (s : State) : (cofHalt k code r s).gate.freezes = s.gate.freezes := by
  simp [cofHalt]

@[simp] theorem freezes_cofParcel (k : Nat) (e : ReadEnv) (s : State) : (cofParcel k e s).gate.freezes = s.gate.freezes := by
  simp only [cofParcel]
  split <;> simp

@[simp] theorem freezes_cofferParcel (e : ReadEnv) (s : State) : (cofferParcel e s).gate.freezes = s.gate.freezes := by
  simp [cofferParcel]

@[simp] theorem freezes_countFail (code : Nat) (r : CofRun) (s : State) : (countFail code r s).gate.freezes = s.gate.freezes := rfl

@[simp] theorem freezes_passEnds (k : Nat) (r : CofRun) (s : State) : (passEnds k r s).gate.freezes = s.gate.freezes := by
  simp [passEnds]

@[simp] theorem freezes_cofferPassEnd (q l : Nat) (s : State) : (cofferPassEnd q l s).gate.freezes = s.gate.freezes := by
  simp only [cofferPassEnd]
  split <;> simp

@[simp] theorem freezes_cofferZeroingDone (q l : Nat) (s : State) : (cofferZeroingDone q l s).gate.freezes = s.gate.freezes := by
  simp only [cofferZeroingDone]
  split <;> simp

/-! ### Freezes: the Survey port -/

@[simp] theorem freezes_tap (code : Nat) (s : State) : (tap code s).gate.freezes = s.gate.freezes := rfl
@[simp] theorem freezes_tdo (l : List Byte) (s : State) : (tdo l s).gate.freezes = s.gate.freezes := rfl
@[simp] theorem freezes_portsDown (s : State) : (portsDown s).gate.freezes = s.gate.freezes := by simp [portsDown]
@[simp] theorem freezes_svChallenge (s : State) : (svChallenge s).gate.freezes = s.gate.freezes := rfl

@[simp] theorem freezes_svUnlock (token : List Byte) (s0 : State) : (svUnlock token s0).gate.freezes = s0.gate.freezes := by
  simp [svUnlock]

theorem mem_freezes_svMem {write : Bool} {access : BitVec 128} {s : State} {f : Freeze} (h : f ∈ s.gate.freezes) :
    f ∈ (svMem write access s).gate.freezes := by
  unfold svMem
  dsimp only
  split
  · exact h
  · split
    · exact h
    · split
      · simpa using mem_freezes_freeze (s := tap 0x20 s) h
      · split <;> exact h

@[simp] theorem freezes_svScan (s0 : State) : (svScan s0).gate.freezes = s0.gate.freezes := by simp [svScan]

@[simp] theorem freezes_svCairn (first count : Nat) (s0 : State) : (svCairn first count s0).gate.freezes = s0.gate.freezes := by
  simp [svCairn]

@[simp] theorem freezes_eraseForReturn (part : Nat) (s : State) : (eraseForReturn part s).gate.freezes = s.gate.freezes := by
  simp [eraseForReturn]

@[simp] theorem freezes_returnUnit (s : State) : (returnUnit s).gate.freezes = s.gate.freezes := by simp [returnUnit]

@[simp] theorem freezes_promoteEffect (target : Life) (s : State) : (promoteEffect target s).gate.freezes = s.gate.freezes := by
  simp only [promoteEffect]
  split <;> simp

@[simp] theorem freezes_svPromote (target : Nat) (token : List Byte) (s0 : State) :
    (svPromote target token s0).gate.freezes = s0.gate.freezes := by
  unfold svPromote
  dsimp only
  split
  · simp
  · split <;> simp

/-! ### Freezes: the registers -/

@[simp] theorem freezes_mctpControl (code : Nat) (data : List Byte) (s : State) :
    (mctpControl code data s).gate.freezes = s.gate.freezes := rfl

@[simp] theorem freezes_answer (n : Nat) (s : State) : (answer n s).gate.freezes = s.gate.freezes := rfl

@[simp] theorem freezes_reg64LowRead (k off : Nat) (s : State) : (reg64LowRead k off s).gate.freezes = s.gate.freezes := by
  have hanswer : (answer (readReg s k off) s).gate = s.gate := rfl
  unfold reg64LowRead
  dsimp only
  generalize answer (readReg s k off) s = u at hanswer ⊢
  split <;> simp [hanswer]

@[simp] theorem freezes_narrowAccess (k off width : Nat) (w : Option (BitVec 64)) (s : State) :
    (narrowAccess k off width w s).gate.freezes = s.gate.freezes := by
  unfold narrowAccess
  split
  · simp
  · split
    · split <;> simp
    · split <;> simp

/-! ### Every command -/

/-- A command after which every freeze that was in force is in force still (R116). -/
def KeepsFreezes (c : Instr) : Prop := ∀ s t f, exec c s = .next t → f ∈ s.gate.freezes → f ∈ t.gate.freezes

section Keeps

variable {c : Instr}

theorem KeepsFreezes.of_mem {F : State → State} (hx : ∀ s, exec c s = .next (F s))
    (h : ∀ s f, f ∈ s.gate.freezes → f ∈ (F s).gate.freezes) : KeepsFreezes c := by
  intro s t f ht hf
  rw [hx] at ht
  cases ht
  exact h s f hf

/-- A command that leaves the list of freezes as it was. -/
theorem KeepsFreezes.of_eq {F : State → State} (hx : ∀ s, exec c s = .next (F s))
    (h : ∀ s, (F s).gate.freezes = s.gate.freezes) : KeepsFreezes c :=
  .of_mem hx fun s _ hf => (h s).symm ▸ hf

/-- An event of the main die that leaves the list of freezes as it was. -/
theorem KeepsFreezes.main {F : State → State → State} (hx : ∀ s, exec c s = .next (whenMain (F s) s))
    (h : ∀ s t, (F s t).gate.freezes = t.gate.freezes) : KeepsFreezes c :=
  .of_eq hx fun s => freezes_whenMain (h s) s

/-- An event of the main die that may add a freeze. -/
theorem KeepsFreezes.main_mem {F : State → State} (hx : ∀ s, exec c s = .next (whenMain F s))
    (h : ∀ s f, f ∈ s.gate.freezes → f ∈ (F s).gate.freezes) : KeepsFreezes c := .of_mem hx fun s f hf => by
  unfold whenMain
  split
  · exact h s f hf
  · exact hf

/-- An event of the keeper that leaves the list of freezes as it was. -/
theorem KeepsFreezes.keeper {F : State → State} (hx : ∀ s, exec c s = .next (whenKeeper F s))
    (h : ∀ s, (F s).gate.freezes = s.gate.freezes) : KeepsFreezes c :=
  .of_eq hx (freezes_whenKeeper h)

/-- A command of the mailboxes whose effect leaves the list of freezes as it was. -/
theorem KeepsFreezes.cmd {x : Cmd} {p : Path} {i : List Byte} (hx : ∀ s, exec c s = runCmd x p i s)
    (h : ∀ p i s, (x.body p i s).2.gate.freezes = s.gate.freezes) : KeepsFreezes c :=
  .main hx fun _ t => freezes_takeCmd h p i t

end Keeps

/-- R116: what each command does to the freezes in force, THAW in its four forms and the boot left out. -/
theorem keepsFreezes_of_not_thaw {c : Instr} (hthaw : ∀ p i, c ≠ .thaw p i) (hboot : ∀ b, c ≠ .mainDieResetRelease b)
    (hdoorbell : ∀ p l, c ≠ .mailboxDoorbell p l) (hwrite : ∀ p l o v, c ≠ .registerWrite p l o v)
    (hmctp : ∀ o i, c ≠ .mctpRequest (.command o) i) : KeepsFreezes c := by
  cases c with
  | stageTick => exact .main (fun _ => rfl) fun _ _ => by simp
  | planSnapshot => exact .main (fun _ => rfl) fun _ => freezes_planSnapshot
  | planPublish _ => exact .main (fun _ => rfl) fun _ _ => by simp
  | planDeadline => exact .main (fun _ => rfl) fun _ _ => freezes_forAll (fun c t => freezes_planMiss c t) _ _
  | windowBoundary ch bank w => exact .main (fun _ => rfl) fun _ => freezes_windowBoundary ch bank w
  | statusReply ch r => exact .main (fun _ => rfl) fun _ => freezes_statusReply ch r
  | tempReply ch r => exact .main (fun _ => rfl) fun _ => freezes_tempReply ch r
  | moduleTempMissing ch => exact .main (fun _ => rfl) fun _ => freezes_moduleTempMissing ch
  | codewordDecode _ _ _ _ => exact .main (fun _ => rfl) fun _ _ => by simp
  | deepRecoveryDeadline ch bank => exact .main (fun _ => rfl) fun _ => freezes_deepRecoveryDeadline ch bank
  | modPresLost ch => exact .main (fun _ => rfl) fun _ => freezes_channelFail ch 1
  | alertNAsserted _ _ => exact .main (fun _ => rfl) fun _ _ => by simp
  | alertNHeld ch => exact .main (fun _ => rfl) fun _ => freezes_channelFail ch 2
  | channelBringUp ch b => exact .main (fun _ => rfl) fun _ => freezes_channelBringUp ch b
  | calZqPeriodic _ => exact .main (fun _ => rfl) fun _ _ => by simp
  | calThresholdPeriodic _ _ => exact .main (fun _ => rfl) fun _ _ => by simp
  | memRd _ _ => exact .main_mem (fun _ => rfl) fun _ _ => mem_freezes_arrive
  | memRdData _ _ => exact .main_mem (fun _ => rfl) fun _ _ => mem_freezes_arrive
  | memSpecRd _ _ => exact .main_mem (fun _ => rfl) fun _ _ => mem_freezes_arrive
  | memWr _ _ _ => exact .main_mem (fun _ => rfl) fun _ _ => mem_freezes_arrive
  | memWrPtl _ _ _ => exact .main_mem (fun _ => rfl) fun _ _ => mem_freezes_arrive
  | memInv _ => exact .main_mem (fun _ => rfl) fun _ _ => mem_freezes_arrive
  | memInvNt _ => exact .main_mem (fun _ => rfl) fun _ _ => mem_freezes_arrive
  | memClnEvct _ => exact .main_mem (fun _ => rfl) fun _ _ => mem_freezes_arrive
  | sliceRetirementEnd slice => exact .main (fun _ => rfl) fun _ => freezes_sliceRetirementEnd slice
  | cachePatrol lpn e => exact .main (fun _ => rfl) fun _ => freezes_cachePatrol lpn e
  | fillComplete _ => exact .main (fun _ => rfl) fun _ => freezes_fillComplete _ _
  | completionFill _ => exact .main (fun _ => rfl) fun _ _ => by split <;> simp
  | evictionStart lpn e => exact .main (fun _ => rfl) fun _ => freezes_evictionStart lpn e
  | evictionOrderingPoint lpn => exact .main (fun _ => rfl) fun _ => freezes_evictionOrderingPoint lpn
  | dirtyBudgetRelease => exact .main (fun _ => rfl) fun _ => freezes_releaseBudget
  | backgroundWriteback _ => exact .main (fun _ => rfl) fun _ _ => by simp
  | s2mCreditReturn _ =>
    refine .main_mem (fun _ => rfl) fun _ _ hf => ?_
    dsimp only
    split
    · exact hf
    · exact mem_freezes_drainIngress (by simpa using hf)
  | s2mCreditWithheld _ => exact .main (fun _ => rfl) fun _ _ => by simp
  | requestAge25ms _ _ _ =>
    refine .main (fun _ => rfl) fun _ _ => ?_
    dsimp only
    split <;> simp
  | linkUp port p => exact .main (fun _ => rfl) fun _ => freezes_linkUp port p
  | trainingFailure _ _ => exact .main (fun _ => rfl) fun _ _ => by simp
  | trainingRetry _ => exact .main (fun _ => rfl) fun _ _ => rfl
  | linkDown _ => exact .main (fun _ => rfl) fun _ _ => by simp
  | hotReset _ => exact .main (fun _ => rfl) fun _ _ => by simp
  | linkDisable _ => exact .main (fun _ => rfl) fun _ _ => by simp
  | perstAssert group => exact .of_eq (fun _ => rfl) (freezes_perstAssert group)
  | perstDeassert group => exact .of_eq (fun _ => rfl) (freezes_perstDeassert group)
  | flr _ _ => exact .main (fun _ => rfl) fun _ _ => by simp
  | cxlReset _ _ _ =>
    refine .main_mem (fun _ => rfl) fun _ _ hf => ?_
    split
    · exact hf
    · exact mem_freezes_drainIngress (by simpa using hf)
  | cxlioBadTlp _ _ _ => exact .main (fun _ => rfl) fun _ _ => by simp
  | gpfPhase1 _ => exact .main (fun _ => rfl) fun _ _ => by simp
  | gpfPhase2 _ _ => exact .main (fun _ => rfl) fun _ _ => by simp
  | freezeCommit => exact .main (fun _ => rfl) fun _ => freezes_freezeCommit
  | contractLowerApply _ _ => exact .main (fun _ => rfl) fun _ _ => by split <;> simp
  | poisonWindowEnd => exact .main (fun _ => rfl) fun _ _ => by simp
  | forcedReleaseGraceEnd _ _ _ => exact .main (fun _ => rfl) fun _ _ => rfl
  | rangeOpStep p => exact .main (fun _ => rfl) fun _ => freezes_rangeOpStep p
  | rangeOpNoProgress p => exact .main (fun _ => rfl) fun _ => freezes_rangeOpNoProgress p
  | rangeOpComplete p => exact .main (fun _ => rfl) fun _ => freezes_rangeOpComplete p
  | rollReseal lpn => exact .main (fun _ => rfl) fun _ => freezes_rollReseal lpn
  | counterWriteback level idx => exact .main (fun _ => rfl) fun _ => freezes_counterWriteback level idx
  | counterCheckpoint => exact .main (fun _ => rfl) fun _ => freezes_counterCheckpoint
  | lostNodeReplace level idx => exact .main (fun _ => rfl) fun _ => freezes_lostNodeReplace level idx
  | traverseBale part => exact .main (fun _ => rfl) fun _ => freezes_traverseBale part
  | traverseMarkCommit => exact .main (fun _ => rfl) fun _ => freezes_commitMarks
  | traverseFinish part => exact .main (fun _ => rfl) fun _ => freezes_traverseFinish part
  | rebale lbi => exact .main (fun _ => rfl) fun _ => freezes_rebale lbi
  | rebaleCommit lbi => exact .main (fun _ => rfl) fun _ => freezes_rebaleCommit lbi
  | coldVisit lpn => exact .main (fun _ => rfl) fun _ => freezes_coldVisit lpn
  | journalCommit => exact .main (fun _ => rfl) fun _ => freezes_journalCommit
  | checkpointRoundBegin => exact .main (fun _ => rfl) fun _ => freezes_roundBegin
  | checkpointRoundEnd => exact .main (fun _ => rfl) fun _ => freezes_roundEnd
  | hbmPatrol e => exact .main (fun _ => rfl) fun _ => freezes_hbmPatrol e
  | mapPageRebuilt region page holdUs => exact .main (fun _ => rfl) fun _ => freezes_mapPageRebuilt region page holdUs
  | stripeRebuildEnd region stripe durationMs =>
    exact .main (fun _ => rfl) fun _ => freezes_stripeRebuildEnd region stripe durationMs
  | sweepTile ch => exact .main (fun _ => rfl) fun _ => freezes_sweepTile ch
  | sweepReset ch tile => exact .main (fun _ => rfl) fun _ => freezes_sweepReset ch tile
  | thermalClockAdvance => exact .main (fun _ => rfl) fun _ _ => by simp
  | driftSetTune ch die set delta => exact .main (fun _ => rfl) fun _ => freezes_driftSetTune ch die set delta
  | scrubRead ppa ok bits => exact .main (fun _ => rfl) fun _ => freezes_scrubRead ppa ok bits
  | mediaLossHandling ch die => exact .main (fun _ => rfl) fun _ => freezes_mediaLoss ch die
  | eventLogProgram => exact .main (fun _ => rfl) fun _ _ => by simp
  | energyComputation _ => exact .main (fun _ => rfl) fun _ => freezes_energyComputation _
  | budgetRaise => exact .main (fun _ => rfl) fun _ => freezes_budgetRaise
  | writeThroughRelease => exact .main (fun _ => rfl) fun _ _ => by split <;> simp
  | capacitanceTestStart _ => exact .main (fun _ => rfl) fun _ => freezes_capacitanceTestStart _
  | capacitanceTestPostpone => exact .main (fun _ => rfl) fun _ => freezes_capacitanceTestPostpone
  | capacitanceTestEnd tUs => exact .main (fun _ => rfl) fun _ => freezes_capacitanceTestEnd tUs
  | capacitanceTestTimeout => exact .main (fun _ => rfl) fun _ _ => by split <;> simp
  | pfailNLow => exact .main (fun _ => rfl) fun _ _ => by simp
  | vTripCrossing => exact .main (fun _ => rfl) fun _ => freezes_startFlush 2
  | flushStart _ => exact .main (fun _ => rfl) fun _ _ => by simp
  | flushStepAdvance _ => exact .main (fun _ => rfl) fun _ => freezes_flushStepAdvance _
  | ppsEdge rising => exact .main (fun _ => rfl) fun _ => freezes_ppsEdge rising
  | ppsEdgeTimeout => exact .main (fun _ => rfl) fun _ _ => by simp
  | atPpsArmDrop => exact .main (fun _ => rfl) fun _ _ => by simp
  | slewEnd => exact .main (fun _ => rfl) fun _ _ => by simp
  | tbToKeeper => exact .main (fun _ => rfl) fun _ _ => by simp
  | minuteBoundary => exact .main (fun _ => rfl) fun _ => freezes_minuteBoundary
  | minuteSeal => exact .main (fun _ => rfl) fun _ _ => by simp
  | ledgerCommit => exact .main (fun _ => rfl) fun _ => freezes_ledgerCommit
  | mailboxDoorbell p l => exact absurd rfl (hdoorbell p l)
  | mctpRequest m i => 
    cases m with
    | command o => exact absurd rfl (hmctp o i)
    | control code => exact .main (fun _ => rfl) fun _ => freezes_mctpControl code i
  | mctpAssemblyTimeout _ _ _ _ => exact .main (fun _ => rfl) fun _ _ => by simp
  | backgroundProgressUpdate _ _ => exact .main (fun _ => rfl) fun _ _ => by simp
  | unsupportedOpcode _ opcode _ =>
    exact .main (fun _ => rfl) fun _ t => by simp [freezes_takeCmd (c := unlisted opcode) (fun _ _ _ => rfl)]
  | identify _ _ => exact .cmd (fun _ => rfl) fun _ _ _ => rfl
  | backgroundOperationStatus _ _ => exact .cmd (fun _ => rfl) fun _ _ _ => rfl
  | getEventRecords _ _ => exact .cmd (fun _ => rfl) freezes_cmdGetEventRecords
  | clearEventRecords _ _ => exact .cmd (fun _ => rfl) freezes_cmdClearEventRecords
  | getEventInterruptPolicy _ _ => exact .cmd (fun _ => rfl) fun _ _ _ => rfl
  | setEventInterruptPolicy _ _ => exact .cmd (fun _ => rfl) freezes_cmdSetEventInterruptPolicy
  | getFwInfo _ _ => exact .cmd (fun _ => rfl) fun _ _ _ => rfl
  | transferFw _ _ => exact .cmd (fun _ => rfl) freezes_cmdTransferFw
  | activateFw _ _ => exact .cmd (fun _ => rfl) freezes_cmdActivateFw
  | activationFlashStep compareOk => exact .main (fun _ => rfl) fun _ => freezes_activationFlashStep compareOk
  | getTimestamp _ _ => exact .cmd (fun _ => rfl) fun _ _ _ => rfl
  | setTimestamp _ _ => exact .cmd (fun _ => rfl) fun _ _ _ => rfl
  | getSupportedLogs _ _ => exact .cmd (fun _ => rfl) fun _ _ _ => rfl
  | getLog _ _ => exact .cmd (fun _ => rfl) freezes_cmdGetLog
  | identifyMemoryDevice _ _ => exact .cmd (fun _ => rfl) fun _ _ _ => rfl
  | getPartitionInfo _ _ => exact .cmd (fun _ => rfl) fun _ _ _ => rfl
  | getHealthInfo _ _ => exact .cmd (fun _ => rfl) fun _ _ _ => rfl
  | getAlertConfiguration _ _ => exact .cmd (fun _ => rfl) fun _ _ _ => rfl
  | setAlertConfiguration _ _ => exact .cmd (fun _ => rfl) freezes_cmdSetAlertConfiguration
  | getShutdownState _ _ => exact .cmd (fun _ => rfl) fun _ _ _ => rfl
  | setShutdownState _ _ => exact .cmd (fun _ => rfl) freezes_cmdSetShutdownState
  | getPoisonList _ _ => exact .cmd (fun _ => rfl) fun _ _ _ => rfl
  | injectPoison _ _ => exact .cmd (fun _ => rfl) freezes_cmdInjectPoison
  | clearPoison _ _ => exact .cmd (fun _ => rfl) freezes_cmdClearPoison
  | getDynamicCapacityConfiguration _ _ => exact .cmd (fun _ => rfl) freezes_cmdGetDcConfig
  | getDynamicCapacityExtentList _ _ => exact .cmd (fun _ => rfl) freezes_cmdGetDcExtents
  | addDynamicCapacityResponse _ _ => exact .cmd (fun _ => rfl) freezes_cmdAddDcResponse
  | releaseDynamicCapacity _ _ => exact .cmd (fun _ => rfl) freezes_cmdReleaseDc
  | getLdInfo _ _ => exact .cmd (fun _ => rfl) freezes_cmdGetLdInfo
  | getLdAllocations _ _ => exact .cmd (fun _ => rfl) freezes_cmdGetLdAllocations
  | initiateDynamicCapacityAdd _ _ => exact .cmd (fun _ => rfl) freezes_cmdInitiateDcAdd
  | initiateDynamicCapacityRelease _ _ => exact .cmd (fun _ => rfl) freezes_cmdInitiateDcRelease
  | getDeviceInfo _ _ => exact .cmd (fun _ => rfl) fun _ _ _ => rfl
  | setPortConfig _ _ => exact .cmd (fun _ => rfl) freezes_cmdSetPortConfig
  | getPortConfig _ _ => exact .cmd (fun _ => rfl) fun _ _ _ => rfl
  | setStageConfig _ _ => exact .cmd (fun _ => rfl) freezes_cmdSetStageConfig
  | getStageConfig _ _ => exact .cmd (fun _ => rfl) fun _ _ _ => rfl
  | getHealth _ _ => exact .cmd (fun _ => rfl) fun _ _ _ => rfl
  | getLastXstatus p input => exact .main (fun _ => rfl) fun _ => freezes_takeCmd (fun _ _ _ => rfl) p input
  | createPartition _ _ => exact .cmd (fun _ => rfl) freezes_cmdCreatePartition
  | deletePartition _ _ => exact .cmd (fun _ => rfl) freezes_cmdDeletePartition
  | addLegs _ _ => exact .cmd (fun _ => rfl) freezes_cmdAddLegs
  | removeLegs _ _ => exact .cmd (fun _ => rfl) freezes_cmdRemoveLegs
  | getPartition _ _ => exact .cmd (fun _ => rfl) freezes_cmdGetPartition
  | getPartitionList _ _ => exact .cmd (fun _ => rfl) fun _ _ _ => rfl
  | setLdMap _ _ => exact .cmd (fun _ => rfl) freezes_cmdSetLdMap
  | getLdMap _ _ => exact .cmd (fun _ => rfl) freezes_cmdGetLdMap
  | setContract _ _ => exact .cmd (fun _ => rfl) freezes_cmdSetContract
  | getContract _ _ => exact .cmd (fun _ => rfl) freezes_cmdGetContract
  | setQos _ _ => exact .cmd (fun _ => rfl) freezes_cmdSetQos
  | thaw p i => exact absurd rfl (hthaw p i)
  | getFreeze _ _ => exact .cmd (fun _ => rfl) freezes_cmdGetFreeze
  | getTimebase _ _ => exact .cmd (fun _ => rfl) fun _ _ _ => rfl
  | setTimeConfig _ _ => exact .cmd (fun _ => rfl) freezes_cmdSetTimeConfig
  | getTimeConfig _ _ => exact .cmd (fun _ => rfl) fun _ _ _ => rfl
  | setTimeOfDay _ _ => exact .cmd (fun _ => rfl) freezes_cmdSetTimeOfDay
  | getMeters _ _ => exact .cmd (fun _ => rfl) freezes_cmdGetMeters
  | getHistogram _ _ => exact .cmd (fun _ => rfl) freezes_cmdGetHistogram
  | flushRange _ _ => exact .cmd (fun _ => rfl) freezes_cmdFlushRange
  | invalidateRange _ _ => exact .cmd (fun _ => rfl) freezes_cmdInvalidateRange
  | zeroRange _ _ => exact .cmd (fun _ => rfl) freezes_cmdZeroRange
  | traverse _ _ => exact .cmd (fun _ => rfl) freezes_cmdTraverse
  | getTraverse _ _ => exact .cmd (fun _ => rfl) freezes_cmdGetTraverse
  | getMediaHealth _ _ => exact .cmd (fun _ => rfl) fun _ _ _ => rfl
  | adoptModule _ _ => exact .cmd (fun _ => rfl) freezes_cmdAdoptModule
  | setDroverConfig _ _ => exact .cmd (fun _ => rfl) freezes_cmdSetDroverConfig
  | getDroverConfig _ _ => exact .cmd (fun _ => rfl) fun _ _ _ => rfl
  | setBelayConfig _ _ => exact .cmd (fun _ => rfl) freezes_cmdSetBelayConfig
  | getBelayConfig _ _ => exact .cmd (fun _ => rfl) fun _ _ _ => rfl
  | preparePowerOff _ _ => exact .cmd (fun _ => rfl) freezes_cmdPreparePowerOff
  | getRopeStatus _ _ => exact .cmd (fun _ => rfl) fun _ _ _ => rfl
  | setPitchTable _ _ => exact .cmd (fun _ => rfl) freezes_cmdSetPitchTable
  | getPitchTable _ _ => exact .cmd (fun _ => rfl) fun _ _ _ => rfl
  | getThermal _ _ => exact .cmd (fun _ => rfl) fun _ _ _ => rfl
  | getCairnInfo _ _ => exact .cmd (fun _ => rfl) fun _ _ _ => rfl
  | cairnRead _ _ => exact .cmd (fun _ => rfl) freezes_cmdCairnRead
  | getCairnHistogram _ _ => exact .cmd (fun _ => rfl) freezes_cmdGetCairnHistogram
  | getBootInfo _ _ => exact .cmd (fun _ => rfl) fun _ _ _ => rfl
  | confirmFw _ _ => exact .cmd (fun _ => rfl) freezes_cmdConfirmFw
  | getResetInfo _ _ => exact .cmd (fun _ => rfl) fun _ _ _ => rfl
  | clearResetInfo _ _ => exact .cmd (fun _ => rfl) freezes_cmdClearResetInfo
  | warmReset _ _ => exact .cmd (fun _ => rfl) freezes_cmdWarmReset
  | getLifecycle _ _ => exact .cmd (fun _ => rfl) fun _ _ _ => rfl
  | cofSubmit _ _ _ =>
    refine .main_mem (fun _ => rfl) fun _ _ hf => ?_
    split
    · exact mem_freezes_cofSubmit hf
    · exact hf
  | keyLoad port ld slot value => exact .main (fun _ => rfl) fun _ => freezes_keyLoad port ld slot value
  | keyClear port ld slot => exact .main (fun _ => rfl) fun _ => freezes_keyClear port ld slot
  | cofferParcel e => exact .main (fun _ => rfl) fun _ => freezes_cofferParcel e
  | cofferPassEnd port ld => exact .main (fun _ => rfl) fun _ => freezes_cofferPassEnd port ld
  | cofferZeroingDone port ld => exact .main (fun _ => rfl) fun _ => freezes_cofferZeroingDone port ld
  | commitGroup => exact .main (fun _ => rfl) fun _ => freezes_commitGroup
  | commitGroupComplete => exact .main (fun _ => rfl) fun _ => freezes_commitGroupComplete
  | storeSupplyRecheck _ _ => exact .of_eq (fun _ => rfl) fun _ => by simp
  | storeHeldTimeout => exact .main (fun _ => rfl) fun _ _ => by split <;> simp
  | recallComplete => exact .of_eq (fun _ => rfl) fun _ => by simp
  | keeperSupplyFall _ _ => exact .of_eq (fun _ => rfl) fun _ => by simp
  | keeperPor => exact .of_eq (fun _ => rfl) freezes_keeperPor
  | keepHoldMeasure _ => exact .of_eq (fun _ => rfl) fun _ => by simp
  | keeperLinkLoss => exact .main (fun _ => rfl) fun _ _ => by simp
  | cairnRecordArrival _ => exact .of_eq (fun _ => rfl) fun _ => by simp
  | cairnStore => exact .of_eq (fun _ => rfl) freezes_cairnStore
  | cairnPointerMismatch => exact .of_eq (fun _ => rfl) fun _ => by simp
  | epochClose => exact .main (fun _ => rfl) fun _ _ => by simp
  | cairnWindowLoad _ _ => exact .main (fun _ => rfl) fun _ _ => by simp
  | cairnWindowAutoAdvance port ld => exact .main (fun _ => rfl) fun _ => freezes_autoAdvance port ld
  | relayItemProduced queue r => exact .main (fun _ => rfl) fun _ => freezes_relayItemProduced queue r
  | relayItemDrain queue => exact .main (fun _ => rfl) fun _ => freezes_relayItemDrain queue
  | relayPointerMismatch queue ptr => exact .main (fun _ => rfl) fun _ => freezes_relayPointerMismatch queue ptr
  | noticeReconcile queue => exact .main (fun _ => rfl) fun _ => freezes_noticeReconcile queue
  | ropeLineRise => exact .keeper (fun _ => rfl) freezes_ropeLineRise
  | pitchDriveLow readsHigh => exact .keeper (fun _ => rfl) (freezes_pitchDriveLow readsHigh)
  | pitchComplete pfailLow => exact .keeper (fun _ => rfl) (freezes_pitchComplete pfailLow)
  | ropeTimeout => exact .keeper (fun _ => rfl) freezes_ropeTimeout
  | pfailDuringRising => exact .keeper (fun _ => rfl) freezes_pfailDuringRising
  | startFault enable cause mv => exact .keeper (fun _ => rfl) (freezes_startFault enable cause mv)
  | railFault enable mv durationUs => exact .keeper (fun _ => rfl) (freezes_railFault enable mv durationUs)
  | moduleRailPgFall enable => exact .keeper (fun _ => rfl) (freezes_moduleRailPgFall enable)
  | railFallen => exact .keeper (fun _ => rfl) freezes_railFallen
  | railFallTimeout enable mv => exact .keeper (fun _ => rfl) (freezes_railFallTimeout enable mv)
  | holdoffEnd => exact .keeper (fun _ => rfl) freezes_holdoffEnd
  | junctionReading t hbm => exact .main (fun _ => rfl) fun _ => freezes_junctionReading t hbm
  | hardwareTrip sensor t16 => exact .main (fun _ => rfl) fun _ => freezes_hardwareTrip sensor t16
  | keeperSensorReading t => exact .keeper (fun _ => rfl) (freezes_keeperSensorReading t)
  | timeRefLoss => exact .of_eq (fun _ => rfl) fun s => freezes_whenMain (freezes_tbState .refLost) { s with timeRef := false }
  | timeRefReturn => exact .of_eq (fun _ => rfl) fun s => freezes_whenMain (fun _ => by simp) { s with timeRef := true }
  | mainDieResetRelease b => exact absurd rfl (hboot b)
  | watchdogExpiry _ _ => exact .main (fun _ => rfl) fun _ _ => by simp
  | loaderWatchdogExpiry => exact .of_eq (fun _ => rfl) fun _ => by simp
  | fatalFault _ _ _ _ => exact .main (fun _ => rfl) fun _ _ => by simp
  | alarm source detector reading => exact .keeper (fun _ => rfl) (freezes_alarm source detector reading)
  | extest => exact .main (fun _ => rfl) fun _ _ => by simp
  | idcode => exact .main (fun _ => rfl) fun _ _ => by simp
  | samplePreload => exact .main (fun _ => rfl) fun _ _ => by simp
  | svChallenge => exact .main (fun _ => rfl) fun _ => freezes_svChallenge
  | svUnlock token => exact .main (fun _ => rfl) fun _ => freezes_svUnlock token
  | svLock => exact .main (fun _ => rfl) fun _ _ => by simp
  | svStatus => exact .main (fun _ => rfl) fun _ _ => by simp
  | svMem _ _ => exact .main_mem (fun _ => rfl) fun _ _ => mem_freezes_svMem
  | svScan => exact .main (fun _ => rfl) fun _ => freezes_svScan
  | svCairn first count => exact .main (fun _ => rfl) fun _ => freezes_svCairn first count
  | svPromote target token => exact .main (fun _ => rfl) fun _ => freezes_svPromote target token
  | bypass => exact .main (fun _ => rfl) fun _ _ => by simp
  | reg64LowRead _ _ _ => exact .main (fun _ => rfl) fun _ _ => by simp
  | narrowOrMisalignedAccess _ _ _ _ _ => exact .main (fun _ => rfl) fun _ _ => by simp
  | registerWrite p l o v => exact absurd rfl (hwrite p l o v)
  | linkLayerReplay _ _ => exact .main (fun _ => rfl) fun _ _ => by simp
  | unclassifiedM2sOpcode _ _ _ _ =>
    refine .main_mem (fun _ => rfl) fun _ _ hf => ?_
    dsimp only
    split_ifs <;> simp [hf]
  | mapStripeHoldExpiry _ => exact .main (fun _ => rfl) fun _ _ => by split <;> simp

/-- Settles O60, command by command: THAW, and a boot, are the only ones that take a freeze off the list. What the statement
leaves out is every command that a mailbox, a register write or the MCTP endpoint may carry, since THAW may be that command. -/
theorem freezesStay : Obligations.FreezesStay := by
  unfold Obligations.FreezesStay
  intro s t f hstep hf hnot
  cases hpending : s.pending with
  | nil =>
    simp only [step, hpending] at hstep
    cases hstep
    simpa using hf
  | cons c rest =>
    obtain ⟨hthaw, hboot, hdoorbell, hwrite, hmctp⟩ := hnot rest
    simp only [step, hpending] at hstep
    simp only [hpending, ne_eq, List.cons.injEq, and_true] at hthaw hboot hdoorbell hwrite hmctp
    exact keepsFreezes_of_not_thaw hthaw hboot hdoorbell hwrite hmctp { s with pending := rest } t f hstep hf

end Sys2Proof.Machine

/-! SUPPORT. Partitions and their shares (R81, R82, R86, R133, R205, R208, R379, R401): what CREATE_PARTITION, DELETE_PARTITION and
SET_QOS store, and how a command that waits, or that runs in the background, is answered. -/

namespace Sys2Proof.Machine

/-! ### What the taking of a command leaves to a partition command -/

theorem tget_mem {α : Type} {t : Tbl α} {k : Nat} {v : α} (h : tget t k = some v) : (k, v) ∈ t := by
  induction t with
  | nil => simp [tget] at h
  | cons e t ih =>
    obtain ⟨k', v'⟩ := e
    by_cases hk : k = k'
    · simp_all [tget]
    · exact List.mem_cons_of_mem _ (ih (by simpa [tget, hk] using h))

/-- A test that a default fails, and that a change of an entry keeps, finds what it found before the change. -/
theorem any_tmod {α : Type} {t : Tbl α} {k : Nat} {d : α} {f : α → α} {P : α → Bool} (hd : P d = false)
    (hf : ∀ v, P (f v) = P v) : (tmod t k d f).any (fun e => P e.2) = t.any (fun e => P e.2) := by
  have habsorb : ∀ t : Tbl α, P (tgetD t k d) = true → t.any (fun e => P e.2) = true := by
    intro t ht
    cases hget : tget t k with
    | none => simp [tgetD, hget, hd] at ht
    | some v => exact List.any_eq_true.mpr ⟨_, tget_mem hget, by simpa [tgetD, hget] using ht⟩
  unfold tmod
  induction t with
  | nil => simp [tset, tgetD, tget, hf, hd]
  | cons e t ih =>
    obtain ⟨k', v⟩ := e
    have hhead := habsorb ((k', v) :: t)
    by_cases hlt : k < k'
    · simp only [tset, hlt, if_true, List.any_cons, hf]
      cases hp : P (tgetD ((k', v) :: t) k d)
      · simp
      · simpa using hhead hp
    · by_cases hk : k = k'
      · simp [tset, tgetD, tget, hk, hf]
      · have hget : tgetD ((k', v) :: t) k d = tgetD t k d := by simp [tgetD, tget, hk]
        rw [hget]
        simp only [tset, hlt, hk, if_false, List.any_cons]
        rw [ih]

/-- R85, R86: whether a map has a range over a position of a partition, or any when none is named. -/
def mapsAt (part : Nat) (pos : Option Nat) (m : LdMap) : Bool :=
  m.typ == .tenant && m.part == part && m.ranges.any (fun r => match pos with
    | some q => decide (r.pos ≤ q) && decide (q < r.pos + r.count) | none => true)

theorem rangeMaps_eq (s : State) (part : Nat) (pos : Option Nat) : rangeMaps s part pos =
    (s.sad.img.ldMaps.any (fun e => mapsAt part pos e.2) || s.ports.lds.any (fun e => mapsAt part pos e.2.map)) := rfl

section TakeIn

variable (op : Nat) (p : Path) (i : List Byte) (s : State)

@[simp] theorem reck_takeIn : (takeIn op p i s).reck = s.reck := by cases p <;> rfl
@[simp] theorem sealCtl_takeIn : (takeIn op p i s).sealCtl = s.sealCtl := by cases p <;> rfl
@[simp] theorem partRec_takeIn (part : Nat) : partRec (takeIn op p i s) part = partRec s part := by simp [partRec]
@[simp] theorem shareSum_takeIn (part : Nat) : shareSum (takeIn op p i s) part = shareSum s part := by simp [shareSum]
@[simp] theorem positions_takeIn (part : Nat) : positions (takeIn op p i s) part = positions s part := by simp [positions]
@[simp] theorem kwkOf_takeIn : kwkOf (takeIn op p i s) = kwkOf s := by simp [kwkOf, rootCmac]
@[simp] theorem newKeys_takeIn (gen : BitVec 16) : newKeys gen (takeIn op p i s) = newKeys gen s := by simp [newKeys]

@[simp] theorem rangeMaps_takeIn (part : Nat) (pos : Option Nat) : rangeMaps (takeIn op p i s) part pos = rangeMaps s part pos := by
  cases p with
  | mctp => rfl
  | ld q l =>
    rw [rangeMaps_eq, rangeMaps_eq, sad_takeIn]
    simp only [takeIn, modCtx, modLd]
    refine congrArg _ (any_tmod (P := fun x : Ld => mapsAt part pos x.map) (d := {}) rfl ?_)
    exact fun _ => rfl

end TakeIn

/-! ### Key wraps (R208) -/

/-- R208: a wrap opens under the KWK that closed it. -/
theorem unwrap_wrapKeys (kwk : BitVec 256) (part seq : Nat) (k : KeySet) : unwrap kwk (wrapKeys kwk part seq k) = some k := by
  have hplain : ∀ mask : BitVec 384, mask ^^^ (mask ^^^ (k.dataKey ++ k.hashKey : BitVec 384)) = (k.dataKey ++ k.hashKey : BitVec 384) := by
    intro mask
    rw [← BitVec.xor_assoc, BitVec.xor_self, BitVec.zero_xor]
  have hdata : (k.dataKey ++ k.hashKey : BitVec 384).extractLsb' 128 256 = k.dataKey := by
    refine (append_high k.dataKey k.hashKey 0 256).trans ?_
    simp
  have hhash : (k.dataKey ++ k.hashKey : BitVec 384).extractLsb' 0 128 = k.hashKey := append_low ..
  simp only [unwrap, wrapKeys, if_true, hplain, hdata, hhash]

/-! ### CREATE_PARTITION (R81, R82) -/

/-- The record of a CREATE_PARTITION input. -/
def createdPart (i : List Byte) : PartRec := { fastOnly := fld i 2 1 == 1, readShare := fld i 4 2, writeShare := fld i 6 2 }

/-- The state of a CREATE_PARTITION that is carried out. -/
def partCreated (part : Nat) (r : PartRec) (s : State) : State :=
  meter part id (modImg [rk 3 part] (fun m => { m with parts := tset m.parts part r }) (wrapNew part part 0 s))

section PartCreated

variable (part : Nat) (r : PartRec) (s : State)

theorem meter_rest (f : Meter → Meter) : meter part f s = { s with reck := (meter part f s).reck } := by
  unfold meter; split <;> rfl

theorem partCreated_rest : partCreated part r s =
    { s with reck := (partCreated part r s).reck, sad := (partCreated part r s).sad, keeper := { s.keeper with rbg := s.keeper.rbg + 1 } } := by
  unfold partCreated
  rw [meter_rest]
  rfl

theorem partCreated_sad : (partCreated part r s).sad =
    (modImg [rk 3 part] (fun m => { m with parts := tset m.parts part r }) (wrapNew part part 0 s)).sad := by
  unfold partCreated
  rw [meter_rest]

theorem dirty_partCreated : ∀ k ∈ [rk 3 part, rk 7 part], k ∈ (partCreated part r s).sad.dirty := by
  rw [partCreated_sad]
  simp [wrapNew]

end PartCreated

theorem body_createPartition {p : Path} {i : List Byte} {s : State} (hpart : fld i 0 2 < 1024) (hpolicy : fld i 2 1 < 2) :
    cmdCreatePartition.body p i s =
      if (partRec s (fld i 0 2)).isSome then (rej 2 0x0280 0, s)
      else if tget s.gate.freedMinute (fld i 0 2) = some s.reck.openBank.minute then (rej 6 0x0281 0, s)
      else if 896 < shareSum s (fld i 0 2) + fld i 4 2 + fld i 6 2 then (rej 2 0x0480 4, s)
      else ({ out := [], recs := [rk 3 (fld i 0 2), rk 7 (fld i 0 2)], done := .slot (fld i 0 2) (newKeys 0 s) (fld i 4 2, fld i 6 2) },
        partCreated (fld i 0 2) (createdPart i) s) := by
  simp only [cmdCreatePartition]
  rw [if_neg (by omega), if_neg (by omega)]
  rfl

/-! ### DELETE_PARTITION (R86) -/

/-- The state of a DELETE_PARTITION that is carried out. -/
def partDeparted (part : Nat) (s : State) : State :=
  dropCredits (modImg [rk 3 part] (fun m => { m with parts := tmod m.parts part {} (fun r => { r with st := .departing }) }) s)

theorem body_deletePartition {p : Path} {i : List Byte} {s : State} (hpart : fld i 0 2 < 1024) (hact : isActive s (fld i 0 2) = true) :
    cmdDeletePartition.body p i s =
      if rangeMaps s (fld i 0 2) none then (rej 2 0x0282 0, s)
      else ({ job := some (.deletePart (fld i 0 2) ((positions s (fld i 0 2)).map (·.2)) (wrapsOf s (fld i 0 2)).length (tbNow s)) },
        partDeparted (fld i 0 2) s) := by
  simp only [cmdDeletePartition, hact]
  rw [if_neg (by omega)]
  rfl

/-! ### SET_QOS (R133) -/

/-- The state of a SET_QOS that is carried out. -/
def sharesStored (part read write : Nat) (s : State) : State :=
  modImg [rk 3 part] (fun m => { m with parts := tmod m.parts part {} (fun r => { r with readShare := read, writeShare := write }) }) s

theorem body_setQos {p : Path} {i : List Byte} {s : State} (hpart : fld i 0 2 < 1024) (hact : isActive s (fld i 0 2) = true) :
    cmdSetQos.body p i s =
      if 896 < shareSum s (fld i 0 2) + fld i 2 2 + fld i 4 2 then (rej 2 0x0480 2, s)
      else ({ out := toLe 4 (shareSum s (fld i 0 2) + fld i 2 2 + fld i 4 2), recs := [rk 3 (fld i 0 2)],
              done := .shares (fld i 0 2) (fld i 2 2, fld i 4 2) }, sharesStored (fld i 0 2) (fld i 2 2) (fld i 4 2) s) := by
  simp only [cmdSetQos, hact]
  rw [if_neg (by omega)]
  rfl

theorem tgetD_parts_of_partRec {s : State} {part : Nat} {r : PartRec} (hrec : partRec s part = some r) (d : PartRec) :
    tgetD s.sad.img.parts part d = r := by
  rw [tgetD, ← partRec, hrec, Option.getD_some]

theorem isActive_of_partRec {s : State} {part : Nat} {r : PartRec} (hrec : partRec s part = some r) (hst : r.st = .active) :
    isActive s part = true := by
  simp [isActive, hrec, hst]

/-! ### How a command that waits, or that runs in the background, is answered -/

theorem OnlyCtxLog.then_only {p : Path} {s t u : State} (h : OnlyCtxLog p s t) (h' : OnlyCtx p t u) : OnlyCtxLog p s u := by
  obtain ⟨r, c, h⟩ := h
  exact ⟨r, c, h.trans h'⟩

section Answers

variable {x : Instr} {c : Cmd} {p : Path} {i : List Byte} {s u : State}

/-- R401: a command that waits keeps the output that it answers with. -/
theorem gives_awaits_out {out : List Byte} {recs : List Nat} {done : OnDone} (hx : exec x s = runCmd c p i s) (h : Admitted c p i s)
    (hb : c.body p i (takeIn c.op p i s) = ({ out := out, recs := recs, done := done }, u)) (hup : u.mainUp = true)
    (hrecs : recs ≠ []) (hdirty : ∀ k ∈ recs, k ∈ u.sad.dirty) :
    Gives x s (fun t => Awaits p c.op recs done t ∧ (∃ w, (ctx t p).wait = some w ∧ w.out = out) ∧ OnlyCtx p u t) := by
  obtain ⟨t, ht, hwaits, honly⟩ := gives_awaits hx h hb hup hrecs hdirty
  obtain ⟨t', ht', hout⟩ : Gives x s (fun t => ∃ w, (ctx t p).wait = some w ∧ w.out = out) := by
    refine gives_settled hx h hb hup ?_
    simp only [settle, List.isEmpty_iff, hrecs, if_false, ctx_modCtx_same]
    exact ⟨_, rfl, rfl⟩
  obtain rfl : t' = t := by simpa using ht'.symm.trans ht
  exact ⟨t', ht, hwaits, hout, honly⟩

/-- R399: a background command is answered at once, and its job runs. -/
theorem gives_started {j : Job} (hx : exec x s = runCmd c p i s) (h : Admitted c p i s)
    (hb : c.body p i (takeIn c.op p i s) = ({ job := some j }, u)) (hup : u.mainUp = true) :
    Gives x s (fun t => Started p c.op j t ∧ OnlyCtxLog p u t) := by
  refine gives_settled hx h hb hup ⟨?_, ?_⟩
  · simp [Started, settle, complete]
  · simp only [settle]
    exact (onlyCtxLog_complete ..).then_only (onlyCtx_modCtx ..)

end Answers

/-- Settles O37, from the state that each command stores and the answer that it gives. -/
theorem partitionCommands : Obligations.PartitionCommands := by
  unfold Obligations.PartitionCommands
  refine ⟨fun s p i h hpart hpolicy => ⟨fun hnone hfreed hsum => ?create, unwrap_wrapKeys, fun hsome => ?taken, fun hnone hfreed => ?freed⟩,
    fun s p i r h hpart hrec hst => ⟨fun hunmapped => ?delete, fun hmapped => ?mapped⟩,
    fun s p i r h hpart hrec hst => ⟨fun hsum => ?shares, fun hsum => ?overSum⟩⟩
  case create =>
    have hbody := body_createPartition (p := p) (s := takeIn cmdCreatePartition.op p i s) hpart hpolicy
    simp only [partRec_takeIn, hnone, gate_takeIn, reck_takeIn, hfreed, shareSum_takeIn, newKeys_takeIn, Option.isSome_none,
      Bool.false_eq_true, if_false, if_neg (Nat.not_lt.mpr hsum)] at hbody
    have hrest := partCreated_rest (fld i 0 2) (createdPart i) (takeIn cmdCreatePartition.op p i s)
    refine (gives_awaits rfl h hbody (by rw [hrest]; exact mainUp_takeIn h) (List.cons_ne_nil _ _)
      (dirty_partCreated _ _ _)).imp fun t ⟨hwaits, honly⟩ => ?_
    have hsad := honly.sad.trans (partCreated_sad ..)
    refine ⟨hwaits, ?_, ?_, ?_, ?_, fun q hq => ?_, ?_, ?_⟩
    · rw [partRec, hsad]
      exact tget_tset_same ..
    · rw [hsad]
      simp [wrapNew]
    · rw [honly.1, hrest]
      simp
    · rw [hsad]
      simp [wrapNew, modImg, markRecs]
    · rw [partRec, hsad]
      simp [wrapNew, hq, partRec]
    · rw [honly.1, hrest]
      simp
    · rw [honly.1, hrest]
      simp
  case taken =>
    refine gives_turned rfl h ?_
    rw [body_createPartition hpart hpolicy, if_pos (by simpa using hsome)]
  case freed =>
    refine gives_turned rfl h ?_
    rw [body_createPartition hpart hpolicy, if_neg (by simp [hnone]), if_pos (by simpa using hfreed)]
  case delete =>
    have hbody := body_deletePartition (p := p) (s := takeIn cmdDeletePartition.op p i s) hpart
      (by simpa using isActive_of_partRec hrec hst)
    rw [rangeMaps_takeIn, hunmapped, if_neg Bool.false_ne_true, positions_takeIn, tbNow_takeIn] at hbody
    refine (gives_started rfl h hbody (mainUp_takeIn h)).imp fun t ⟨hstarted, honly⟩ => ?_
    have hsad : t.sad = (partDeparted (fld i 0 2) (takeIn cmdDeletePartition.op p i s)).sad := honly.sad
    have hold := tgetD_parts_of_partRec hrec
    refine ⟨⟨_, _, hstarted, fun g => by simp⟩, ?_, ?_, fun q hq => ?_, ?_, ?_⟩
    all_goals simp only [partRec, hsad, partDeparted, dropCredits]
    · simp [hold]
    · simp
    · simp [hq]
    · simp
    · simp
  case mapped =>
    refine gives_turned rfl h ?_
    rw [body_deletePartition hpart (by simpa using isActive_of_partRec hrec hst), if_pos (by simpa using hmapped)]
  case shares =>
    have hbody := body_setQos (p := p) (s := takeIn cmdSetQos.op p i s) hpart (by simpa using isActive_of_partRec hrec hst)
    rw [shareSum_takeIn, if_neg (Nat.not_lt.mpr hsum)] at hbody
    have hold := tgetD_parts_of_partRec hrec
    refine (gives_awaits_out rfl h hbody (mainUp_takeIn h) (List.cons_ne_nil _ _) (by simp [sharesStored])).imp
      fun t ⟨hwaits, ⟨w, hw, hout⟩, honly⟩ => ⟨hwaits, ⟨w, hw, ?_⟩, ?_, fun q hq => ?_⟩
    · rw [hout, fld_toLe]
      exact Nat.mod_eq_of_lt (by omega)
    · simp [partRec, honly.sad, sharesStored, hold]
    · simp [partRec, honly.sad, sharesStored, hq]
  case overSum =>
    refine gives_turned rfl h ?_
    rw [body_setQos hpart (by simpa using isActive_of_partRec hrec hst), if_pos (by simpa using hsum)]

end Sys2Proof.Machine

/-! SUPPORT. Legs (R84, R85, R401): the entries of ADD_LEGS and REMOVE_LEGS, and the runs that they store. -/

namespace Sys2Proof.Machine

/-! ### What the taking of a command leaves to a leg command -/

section TakeIn

variable (op : Nat) (p : Path) (i : List Byte) (s : State)

@[simp] theorem freeCtr_takeIn : (takeIn op p i s).freeCtr = s.freeCtr := by cases p <;> rfl
@[simp] theorem freeLegs_takeIn : freeLegs (takeIn op p i s) = freeLegs s := by cases p <;> rfl
@[simp] theorem legCost_takeIn (part : Nat) : legCost (takeIn op p i s) part = legCost s part := by cases p <;> rfl
@[simp] theorem legSpace_takeIn : legSpace (takeIn op p i s) = legSpace s := by cases p <;> rfl
@[simp] theorem legFree_takeIn (runs : Tbl LegRun) (g : Nat) : legFree (takeIn op p i s) runs g = legFree s runs g := by cases p <;> rfl

@[simp] theorem firstFree_takeIn (runs : Tbl LegRun) (m n : Nat) : firstFree (takeIn op p i s) runs m n = firstFree s runs m n := by
  induction m generalizing n with
  | zero => rfl
  | succ m ih => simp only [firstFree, legFree_takeIn, ih]

@[simp] theorem pickLeg_takeIn (runs : Tbl LegRun) (part pos n : Nat) :
    pickLeg (takeIn op p i s) runs part pos n = pickLeg s runs part pos n := by
  have hfree : legFree (takeIn op p i s) runs = legFree s runs := funext fun g => legFree_takeIn ..
  simp only [pickLeg, hfree, legSpace_takeIn, firstFree_takeIn]

@[simp] theorem fillPositions_takeIn (part : Nat) (ps : List Nat) (n : Nat) (runs : Tbl LegRun) :
    fillPositions (takeIn op p i s) part ps n runs = fillPositions s part ps n runs := by
  induction ps generalizing n runs with
  | nil => rfl
  | cons pos rest ih => simp only [fillPositions, pickLeg_takeIn, ih]

@[simp] theorem placeLegs_takeIn (part : Nat) (ps : List Nat) : placeLegs (takeIn op p i s) part ps = placeLegs s part ps := by
  simp [placeLegs]

@[simp] theorem removeBad_takeIn (part q : Nat) : removeBad (takeIn op p i s) part q = removeBad s part q := by simp [removeBad]

end TakeIn

/-! ### The entries of ADD_LEGS and REMOVE_LEGS (R84, R85) -/

/-- A list without repetitions whose entries pass the test, and are none of those seen, has no bad entry. -/
theorem badEntry_none {bad : Nat → Option Nat} {ps seen : List Nat} (k : Nat) (hgood : ∀ q ∈ ps, bad q = none) (hnodup : ps.Nodup)
    (hseen : ∀ q ∈ ps, q ∉ seen) : badEntry bad ps seen k = none := by
  induction ps generalizing seen k with
  | nil => rfl
  | cons q ps ih =>
    obtain ⟨hq, hnodup⟩ := List.nodup_cons.mp hnodup
    have hrest : badEntry bad ps (q :: seen) (k + 1) = none :=
      ih (k + 1) (fun x hx => hgood x (.tail _ hx)) hnodup fun x hx hmem => by
        rcases List.mem_cons.mp hmem with rfl | hmem
        · exact hq hx
        · exact hseen x (.tail _ hx) hmem
    simp [badEntry, hgood q (.head _), hseen q (.head _), hrest]

theorem badEntry_first {bad : Nat → Option Nat} {q d : Nat} (rest : List Nat) (hbad : bad q = some d) :
    badEntry bad (q :: rest) [] 0 = some (4, d) := by
  simp [badEntry, hbad]

theorem length_posList (i : List Byte) : (posList i).length = fld i 2 2 := by simp [posList]

/-- R84: why a position cannot take a leg. -/
def addBad (s : State) (part q : Nat) : Option Nat := if (legAt s.sad.img.runs part q).isSome then some 0x0283 else none

/-- R84: the output of an ADD_LEGS that is carried out. -/
def addLegsOut (n : Nat) (legs : List Nat) : List Byte := toLe 2 n ++ zeros 2 ++ legs.flatMap (toLe 4)

theorem fld_flatMap_toLe {legs : List Nat} {j g : Nat} (h : legs[j]? = some g) : fld (legs.flatMap (toLe 4)) (4 * j) 4 = g % 2 ^ 32 := by
  induction legs generalizing j with
  | nil => simp at h
  | cons x legs ih =>
    rw [List.flatMap_cons]
    cases j with
    | zero =>
      obtain rfl : x = g := by simpa using h
      rw [fld_append_lt _ _ _ _ (by simp), fld_toLe]
      norm_num
    | succ j =>
      rw [fld_append_ge _ _ _ _ (by simp), length_toLe, show 4 * (j + 1) - 4 = 4 * j by omega]
      exact ih (by simpa using h)

theorem addLegsOut_count {n : Nat} (hn : n ≤ 1024) (legs : List Nat) : fld (addLegsOut n legs) 0 2 = n := by
  rw [addLegsOut, List.append_assoc, fld_append_lt _ _ _ _ (by simp), fld_toLe]
  exact Nat.mod_eq_of_lt (by omega)

theorem addLegsOut_leg (n : Nat) {legs : List Nat} {j g : Nat} (h : legs[j]? = some g) :
    fld (addLegsOut n legs) (4 + 4 * j) 4 = g % 2 ^ 32 := by
  have hhead : (toLe 2 n ++ zeros 2).length = 4 := by simp [zeros]
  rw [addLegsOut, fld_append_ge _ _ _ _ (by omega), hhead, Nat.add_sub_cancel_left]
  exact fld_flatMap_toLe h

section Bodies

variable {p : Path} {i : List Byte} {s : State}

theorem body_addLegs (hpart : fld i 0 2 < 1024) (hact : isActive s (fld i 0 2) = true) (hlow : 1 ≤ fld i 2 2) (hhigh : fld i 2 2 ≤ 1024)
    {legs : List Nat} {runs : Tbl LegRun} (hgood : badEntry (addBad s (fld i 0 2)) (posList i) [] 0 = none)
    (hplace : placeLegs s (fld i 0 2) (posList i) = .ok (legs, runs)) : cmdAddLegs.body p i s =
      ({ out := addLegsOut (fld i 2 2) legs, recs := runRecs s.sad.img.runs runs, done := .none }, setRuns runs (drawn s)) := by
  unfold addBad at hgood
  simp only [cmdAddLegs, hact, length_posList, hgood, hplace, addLegsOut]
  rw [if_neg (by omega), if_neg (by simp), if_neg (by omega)]

theorem body_addLegs_unplaced (hpart : fld i 0 2 < 1024) (hact : isActive s (fld i 0 2) = true) (hlow : 1 ≤ fld i 2 2)
    (hhigh : fld i 2 2 ≤ 1024) {r : Reply} (hgood : badEntry (addBad s (fld i 0 2)) (posList i) [] 0 = none)
    (hplace : placeLegs s (fld i 0 2) (posList i) = .error r) : cmdAddLegs.body p i s = (r, s) := by
  unfold addBad at hgood
  simp only [cmdAddLegs, hact, hgood, hplace]
  rw [if_neg (by omega), if_neg (by simp), if_neg (by omega)]

theorem body_addLegs_bad (hpart : fld i 0 2 < 1024) (hact : isActive s (fld i 0 2) = true) (hlow : 1 ≤ fld i 2 2)
    (hhigh : fld i 2 2 ≤ 1024) {o d : Nat} (hbad : badEntry (addBad s (fld i 0 2)) (posList i) [] 0 = some (o, d)) :
    cmdAddLegs.body p i s = (rej 2 d o, s) := by
  unfold addBad at hbad
  simp only [cmdAddLegs, hact, hbad]
  rw [if_neg (by omega), if_neg (by simp), if_neg (by omega)]

theorem body_removeLegs (hpart : fld i 0 2 < 1024) (hact : isActive s (fld i 0 2) = true) (hlow : 1 ≤ fld i 2 2)
    (hhigh : fld i 2 2 ≤ 1024) (hgood : badEntry (removeBad s (fld i 0 2)) (posList i) [] 0 = none) : cmdRemoveLegs.body p i s =
      ({ job := some (.removeLegs ((posList i).filterMap (legAt s.sad.img.runs (fld i 0 2)))) }, emptyPositions (fld i 0 2) (posList i) s) := by
  simp only [cmdRemoveLegs, hact, hgood]
  rw [if_neg (by omega), if_neg (by simp), if_neg (by omega)]

theorem body_removeLegs_bad (hpart : fld i 0 2 < 1024) (hact : isActive s (fld i 0 2) = true) (hlow : 1 ≤ fld i 2 2)
    (hhigh : fld i 2 2 ≤ 1024) {o d : Nat} (hbad : badEntry (removeBad s (fld i 0 2)) (posList i) [] 0 = some (o, d)) :
    cmdRemoveLegs.body p i s = (rej 2 d o, s) := by
  simp only [cmdRemoveLegs, hact, hbad]
  rw [if_neg (by omega), if_neg (by simp), if_neg (by omega)]

end Bodies

theorem placeLegs_of_few {s : State} {part : Nat} {ps : List Nat} (h : freeLegs s < ps.length * legCost s part) :
    placeLegs s part ps = .error (rej 0x1D 0x0284) := if_pos h

section SetRuns

variable (runs : Tbl LegRun) (s : State)

theorem img_setRuns : (setRuns runs s).sad.img = { s.sad.img with runs := runs } := rfl

theorem dirty_setRuns : ∀ k ∈ runRecs s.sad.img.runs runs, k ∈ (setRuns runs s).sad.dirty :=
  fun _ hk => (mem_dirty_modImg ..).mpr (.inl hk)

end SetRuns

/-- Settles O38. Which free legs an ADD_LEGS takes is the model's `Config.legChoice`. -/
theorem legCommands : Obligations.LegCommands := by
  unfold Obligations.LegCommands
  refine ⟨fun s p i legs runs h hpart hact hlow hhigh hempty hnodup hplace hrecs => ?add,
    fun s p i h hpart hact hlow hhigh => ⟨fun hempty hnodup hfew => ?few, fun q rest hlist hocc => ?occupied⟩,
    fun s p i h hpart hact hlow hhigh => ⟨fun hgood hnodup => ?remove, fun q rest hlist hmapped => ?mapped⟩⟩
  case add =>
    have hbody := body_addLegs (p := p) (s := takeIn cmdAddLegs.op p i s) hpart ((isActive_takeIn ..).trans hact) hlow hhigh
      (badEntry_none 0 (fun q hq => by simp [addBad, hempty q hq]) hnodup (by simp)) ((placeLegs_takeIn ..).trans hplace)
    refine (gives_awaits_out rfl h hbody (mainUp_takeIn h) (by simpa using hrecs) (dirty_setRuns runs (drawn _))).imp
      fun t ⟨hwaits, ⟨w, hw, hout⟩, honly⟩ => ⟨by rwa [sad_takeIn] at hwaits, ?_, ⟨w, hw, ?_, fun j g hg => ?_⟩, ?_, ?_⟩
    · rw [honly.sad, img_setRuns]
      simp [drawn]
    · rw [hout]
      exact addLegsOut_count hhigh legs
    · rw [hout]
      exact addLegsOut_leg _ hg
    · rw [honly.1]
      exact medium_takeIn ..
    · rw [honly.1]
      exact way_takeIn ..
  case few =>
    exact gives_turned rfl h (body_addLegs_unplaced hpart ((isActive_takeIn ..).trans hact) hlow hhigh
      (badEntry_none 0 (fun q hq => by simp [addBad, hempty q hq]) hnodup (by simp))
      ((placeLegs_takeIn ..).trans (placeLegs_of_few hfew)))
  case occupied =>
    refine gives_turned rfl h (body_addLegs_bad hpart ((isActive_takeIn ..).trans hact) hlow hhigh ?_)
    rw [hlist, badEntry_first (d := 0x0283) rest (by simp [addBad, hocc])]
  case remove =>
    have hremovable : ∀ q ∈ posList i, removeBad (takeIn cmdRemoveLegs.op p i s) (fld i 0 2) q = none := fun q hq => by
      obtain ⟨hfree, hleg⟩ := hgood q hq
      simp [removeBad, hfree, Option.isNone_eq_false_iff.mpr hleg]
    have hbody := body_removeLegs (p := p) hpart ((isActive_takeIn ..).trans hact) hlow hhigh
      (badEntry_none 0 hremovable hnodup (by simp))
    rw [sad_takeIn] at hbody
    refine (gives_started rfl h hbody (mainUp_takeIn h)).imp fun t ⟨hstarted, honly⟩ => ?_
    have himg := congrArg Saddle.img honly.sad
    simp only [emptyPositions, sad_takeIn, img_setRuns] at himg
    refine ⟨hstarted, himg, fun k hk => ?_, ?_, ?_⟩
    · rw [himg] at hk
      rw [honly.sad]
      refine dirty_setRuns _ _ k ?_
      simpa using hk
    · rw [honly.rest]
      exact way_takeIn ..
    · rw [honly.cache]
      exact cache_takeIn ..
  case mapped =>
    refine gives_turned rfl h (body_removeLegs_bad hpart ((isActive_takeIn ..).trans hact) hlow hhigh ?_)
    rw [hlist, badEntry_first (d := 0x0282) rest (by simp [removeBad, hmapped])]

end Sys2Proof.Machine

/-! SUPPORT. Dynamic capacity (R92 to R94, R401, R459): offers, the extents that a host accepts and releases, and what the manager's
commands fill, withdraw and take back. -/

namespace Sys2Proof.Machine

/-! ### What the taking of a command leaves to a dynamic capacity command -/

section TakeIn

variable (op : Nat) (p : Path) (i : List Byte) (s : State) (k : Nat)

@[simp] theorem offers_takeIn : (ldAt (takeIn op p i s) k).offers = (ldAt s k).offers := by rw [ldAt_takeIn]
@[simp] theorem extGen_takeIn : (ldAt (takeIn op p i s) k).extGen = (ldAt s k).extGen := by rw [ldAt_takeIn]
@[simp] theorem nextOffer_takeIn : nextOffer (ldAt (takeIn op p i s) k) = nextOffer (ldAt s k) := by simp [nextOffer]
@[simp] theorem emptyLegs_takeIn (m : LdMap) : emptyLegs (takeIn op p i s) m = emptyLegs s m := by simp [emptyLegs]
@[simp] theorem dcTarget_takeIn (j : List Byte) : dcTarget (takeIn op p i s) j = dcTarget s j := by simp [dcTarget, dcLd_takeIn]

end TakeIn

/-! ### Events and completions -/

/-- The events on their way to the logs of LDs. -/
def events (s : State) : List EventDesc := s.relay.evq10 ++ s.relay.evq11 ++ s.relay.synetWait

theorem mem_events {e : EventDesc} {s : State} : e ∈ events s ↔ e ∈ s.relay.evq10 ∨ e ∈ s.relay.evq11 ∨ e ∈ s.relay.synetWait := by
  simp [events]

theorem events_emit (code inst a b c d : Nat) (s : State) : events (emit code inst a b c d s) = events s := by
  unfold emit emitN
  split <;> rfl

theorem events_complete (op : Nat) (p : Path) (n : Nat) (r : Reply) (s : State) : events (complete op p n r s) = events s := by
  unfold complete
  have hctx : ∀ f u, events (modCtx p f u) = events u := fun f u => by cases p <;> rfl
  rw [hctx, apply_ite events, events_emit, ite_self]

theorem Gives.and {x : Instr} {s : State} {P Q : State → Prop} (h : Gives x s P) (h' : Gives x s Q) : Gives x s (fun t => P t ∧ Q t) := by
  obtain ⟨t, ht, hP⟩ := h
  obtain ⟨t', ht', hQ⟩ := h'
  obtain rfl : t' = t := by simpa using ht'.symm.trans ht
  exact ⟨t', ht, hP, hQ⟩

/-- A command without a job, whether it waits or completes, leaves its effect, beside its context and a record of it. -/
theorem gives_effect {x : Instr} {c : Cmd} {p : Path} {i : List Byte} {s u : State} {out : List Byte} {recs : List Nat} {done : OnDone}
    (hx : exec x s = runCmd c p i s) (h : Admitted c p i s)
    (hb : c.body p i (takeIn c.op p i s) = ({ out := out, recs := recs, done := done }, u)) (hup : u.mainUp = true) :
    Gives x s (fun t => OnlyCtxLog p u t ∧ events t = events u) := by
  refine gives_settled hx h hb hup ?_
  simp only [settle]
  split
  · exact ⟨onlyCtxLog_complete .., events_complete ..⟩
  · refine ⟨(onlyCtx_modCtx ..).log, ?_⟩
    cases p <;> rfl

/-- R92: a Dynamic Capacity event is on its way. -/
theorem event_postDc (k kind a n : Nat) (more : Bool) (s : State) : ∃ e ∈ events (postDc k kind a n more s), e.lds = [k] ∧ e.log = 4 ∧
    e.ev.code = evDc kind ∧ e.ev.dpa = BitVec.ofNat 64 (a * gib) ∧ e.ev.len = n * gib := by
  have hput : ∀ (e : EventDesc) (r : Relay), e ∈ (eventPut e r).evq10 ∨ e ∈ (eventPut e r).evq11 ∨ e ∈ (eventPut e r).synetWait := by
    intro e r
    unfold eventPut
    split <;> split <;> simp
  exact ⟨_, mem_events.mpr (hput _ _), rfl, rfl, rfl, rfl, rfl⟩

theorem ldAt_postDc (k kind a n : Nat) (more : Bool) (s : State) (j : Nat) : ldAt (postDc k kind a n more s) j = ldAt s j := rfl

theorem postDc_frame (k kind a n : Nat) (more : Bool) (s : State) :
    postDc k kind a n more s = { s with relay := (postDc k kind a n more s).relay } := rfl

section LogProjections

variable {p : Path} {s t : State}

theorem OnlyCtxLog.offers (h : OnlyCtxLog p s t) (k : Nat) : (ldAt t k).offers = (ldAt s k).offers := by rw [← h.ld k]
theorem OnlyCtxLog.extGen (h : OnlyCtxLog p s t) (k : Nat) : (ldAt t k).extGen = (ldAt s k).extGen := by rw [← h.ld k]
theorem OnlyCtxLog.graces (h : OnlyCtxLog p s t) (k : Nat) : (ldAt t k).graces = (ldAt s k).graces := by rw [← h.ld k]
theorem OnlyCtxLog.map (h : OnlyCtxLog p s t) (k : Nat) : (ldAt t k).map = (ldAt s k).map := by rw [← h.ld k]

end LogProjections

/-! ### What the parts of an effect leave alone -/

section Parts

variable (s : State)

theorem mainUp_postDc (k kind a n : Nat) (more : Bool) : (postDc k kind a n more s).mainUp = s.mainUp := rfl
theorem mainUp_setChg (i k : Nat) : (setChg i k s).mainUp = s.mainUp := rfl
theorem mainUp_emptyPositions (part : Nat) (l : List Nat) : (emptyPositions part l s).mainUp = s.mainUp := rfl
theorem mainUp_recRanges (k : Nat) (rs : List Range) : (recRanges k rs s).mainUp = s.mainUp := rfl
theorem sad_postDc (k kind a n : Nat) (more : Bool) : (postDc k kind a n more s).sad = s.sad := rfl
theorem sad_setChg (i k : Nat) : (setChg i k s).sad = s.sad := rfl

theorem ldMaps_emptyPositions (part : Nat) (l : List Nat) : (emptyPositions part l s).sad.img.ldMaps = s.sad.img.ldMaps := rfl

end Parts

/-! ### Extents of whole legs (R92) -/

theorem mul_gib_div (a : Nat) : a * gib / gib = a := Nat.mul_div_cancel a (by decide)

theorem extents_one (i : List Byte) (off n : Nat) : extents i 1 off n = [(fld i off 8, fld i (off + 8) 8)] := by simp [extents]

/-- An extent of n whole legs from the DPA leg a. -/
structure WholeLegs (a n : Nat) (e : Nat × Nat) : Prop where
  start : e.1 / gib = a
  count : e.2 / gib = n
  aligned : unaligned [e] = none

theorem wholeLegs_mul {a n : Nat} (hn : 0 < n) : WholeLegs a n (a * gib, n * gib) where
  start := mul_gib_div a
  count := mul_gib_div n
  aligned := by
    have hlen : n * gib ≠ 0 := Nat.mul_ne_zero (by omega) (by decide)
    simp [unaligned, hlen]

theorem WholeLegs.legs {a n : Nat} {e : Nat × Nat} (h : WholeLegs a n e) : legsOf e = (List.range n).map (a + ·) := by
  rw [legsOf, h.start, h.count]

/-! ### The record of an LD's ranges (R459) -/

theorem withMap_frame (inst : Nat) (m : LdMap) (g : SadImage) : withMap inst m g = { g with ldMaps := (withMap inst m g).ldMaps } := by
  unfold withMap
  split <;> rfl

/-- The LD_MAP record of an LD with other ranges. -/
def rangesRec (k : Nat) (rs : List Range) (s : State) : LdMap := { tgetD s.sad.img.ldMaps (ldInst k) (ldAt s k).map with ranges := rs }

theorem img_recRanges (k : Nat) (rs : List Range) (s : State) :
    (recRanges k rs s).sad.img = withMap (ldInst k) (rangesRec k rs s) s.sad.img := rfl

theorem runs_recRanges (k : Nat) (rs : List Range) (s : State) : (recRanges k rs s).sad.img.runs = s.sad.img.runs := by
  rw [img_recRanges, withMap_frame]

theorem tget_recRanges (k : Nat) (rs : List Range) (s : State) :
    ∃ m, tget (recRanges k rs s).sad.img.ldMaps (ldInst k) = some m ∧ m.ranges = rs := by
  obtain ⟨m, hget, hm⟩ := tget_withMap_same (ldInst k) (rangesRec k rs s) s.sad.img
  exact ⟨m, hget, congrArg LdMap.ranges hm⟩

theorem ldAt_recRanges (k : Nat) (rs : List Range) (s : State) (j : Nat) : ldAt (recRanges k rs s) j = ldAt s j := rfl

theorem dirty_recRanges (k : Nat) (rs : List Range) (s : State) :
    ∀ x ∈ mapRecs s.sad.img (recRanges k rs s).sad.img, x ∈ (recRanges k rs s).sad.dirty :=
  fun _ hx => (mem_dirty_modImg ..).mpr (.inl hx)

@[simp] theorem runRecs_self (runs : Tbl LegRun) : runRecs runs runs = [] := by simp [runRecs]
@[simp] theorem mapRecs_self (g : SadImage) : mapRecs g g = [] := by simp [mapRecs]

/-- The number of ranges of every map of a table, with its key. -/
def rangeCounts (t : Tbl LdMap) : List (Nat × Nat) := t.map (fun e => (e.1, e.2.ranges.length))

theorem rangeTotal_eq (s : State) (but : Nat) :
    rangeTotal s but = sumN (((rangeCounts s.sad.img.ldMaps).filter (fun e => e.1 ≠ but)).map (·.2)) := by
  simp only [rangeTotal, rangeCounts, List.filter_map, List.map_map]
  rfl

theorem rangeCounts_packRanges (t : Tbl LdMap) : rangeCounts (packRanges t) = rangeCounts t := by
  have hfold : ∀ (n : Nat) (done : Tbl LdMap), rangeCounts (t.foldl (fun (a : Nat × Tbl LdMap) p =>
      (a.1 + p.2.ranges.length, a.2 ++ [(p.1, { p.2 with first := a.1 })])) (n, done)).2 = rangeCounts done ++ rangeCounts t := by
    induction t with
    | nil => simp [rangeCounts]
    | cons e t ih =>
      intro n done
      rw [List.foldl_cons, ih]
      simp [rangeCounts]
  exact hfold 0 []

theorem filter_rangeCounts_tset (t : Tbl LdMap) (inst : Nat) (m : LdMap) :
    (rangeCounts (tset t inst m)).filter (fun e => e.1 ≠ inst) = (rangeCounts t).filter (fun e => e.1 ≠ inst) := by
  induction t with
  | nil => simp [tset, rangeCounts]
  | cons e t ih =>
    obtain ⟨k, v⟩ := e
    unfold tset
    split
    · simp [rangeCounts]
    · split
      · rename_i hk
        simp [rangeCounts, hk]
      · simp only [rangeCounts, List.map_cons, List.filter_cons] at ih ⊢
        rw [ih]

/-- The ranges of the other LDs are as many after a change of an LD's record. -/
theorem rangeTotal_recRanges (k : Nat) (rs : List Range) (s : State) : rangeTotal (recRanges k rs s) (ldInst k) = rangeTotal s (ldInst k) := by
  rw [rangeTotal_eq, rangeTotal_eq, img_recRanges]
  unfold withMap
  split
  · rw [filter_rangeCounts_tset]
  · rw [rangeCounts_packRanges, filter_rangeCounts_tset]

theorem rangeTotal_of_ldMaps {s t : State} (h : t.sad.img.ldMaps = s.sad.img.ldMaps) (but : Nat) : rangeTotal t but = rangeTotal s but := by
  simp [rangeTotal, h]

/-! ### INITIATE_DYNAMIC_CAPACITY_ADD (R92, R94) -/

/-- An extent of empty positions within the region is good. -/
theorem badPositions_one {s : State} {m : LdMap} {a n : Nat} {e : Nat × Nat} (he : WholeLegs a n e) (hroom : m.dcBase + a + n ≤ 65536)
    (hempty : ∀ j, j < n → legAt s.sad.img.runs m.part (m.dcBase + a + j) = none) : badPositions s m [e] = none := by
  have hpast : ¬ ∃ d ∈ legsOf e, 65536 ≤ m.dcBase + d := by
    rintro ⟨d, hd, hlarge⟩
    simp only [he.legs, List.mem_map, List.mem_range] at hd
    obtain ⟨j, hj, rfl⟩ := hd
    omega
  have hocc : ¬ ∃ d ∈ legsOf e, (legAt s.sad.img.runs m.part (m.dcBase + d)).isSome = true := by
    rintro ⟨d, hd, hleg⟩
    simp only [he.legs, List.mem_map, List.mem_range] at hd
    obtain ⟨j, hj, rfl⟩ := hd
    simp [← Nat.add_assoc, hempty j hj] at hleg
  simp [badPositions, List.range_one, hpast, hocc]

theorem body_initiateDcAdd {p : Path} {i : List Byte} {s : State} {k : Nat} {es : List (Nat × Nat)} (hk : dcTarget s i = some k)
    (hes : addExtents s (ldAt s k).map i = .ok es) : cmdInitiateDcAdd.body p i s = initiateAdd k es s := by
  simp only [cmdInitiateDcAdd, hk, hes]

theorem addExtents_listed {s : State} {m : LdMap} {i : List Byte} (hpolicy : fld i 2 1 % 16 = 2) (hcnt : fld i 28 4 = 1) :
    addExtents s m i = .ok [(fld i 32 8, fld i 40 8)] := by
  simp only [addExtents, hpolicy, hcnt, extents_one]

/-- R92: the lowest run of empty legs that holds the size asked for. -/
theorem addExtents_contiguous {s : State} {m : LdMap} {i : List Byte} {n x y : Nat} (hpolicy : fld i 2 1 % 16 = 1)
    (haligned : fld i 4 8 % gib = 0) (hsize : fld i 4 8 / gib = n) (hn : 0 < n)
    (hfind : (asExtents (emptyLegs s m)).find? (fun e => decide (n * gib ≤ e.2)) = some (x, y)) :
    addExtents s m i = .ok [(x, n * gib)] := by
  simp only [addExtents, hpolicy, hsize]
  rw [if_neg (by simp [haligned]; omega), hfind]

/-- The state of an offer of one extent. -/
def extentOffered (k a n : Nat) (runs : Tbl LegRun) (s : State) : State :=
  modLd k (fun x => { x with offers := x.offers ++ [{ dpaLeg := a, count := n, group := nextOffer (ldAt s k) }] }) (setRuns runs (drawn s))

theorem initiateAdd_one {s : State} {k a n : Nat} {legs : List Nat} {runs : Tbl LegRun} {e : Nat × Nat} (he : WholeLegs a n e)
    (hroom : (ldAt s k).map.dcBase + a + n ≤ 65536)
    (hempty : ∀ j, j < n → legAt s.sad.img.runs (ldAt s k).map.part ((ldAt s k).map.dcBase + a + j) = none)
    (hcount : (withOffers (ldAt s k).map.dcBase (ldAt s k).map.ranges
      ((ldAt s k).offers ++ [{ dpaLeg := a, count := n, group := nextOffer (ldAt s k) }])).length ≤ 64)
    (hplace : placeLegs s (ldAt s k).map.part ((List.range n).map (fun j => (ldAt s k).map.dcBase + (a + j))) = .ok (legs, runs)) :
    initiateAdd k [e] s =
      ({ out := [], recs := runRecs s.sad.img.runs runs, done := .none }, postDc k 0 a n false (extentOffered k a n runs s)) := by
  have hplace' : placeLegs s (ldAt s k).map.part (([e].flatMap legsOf).map ((ldAt s k).map.dcBase + ·)) = .ok (legs, runs) := by
    rw [List.flatMap_singleton, he.legs, List.map_map]
    exact hplace
  simp only [initiateAdd, he.aligned, badPositions_one he hroom hempty, offersOf, List.map_cons, List.map_nil, he.start, he.count, hplace']
  rw [if_neg (Nat.not_lt.mpr hcount)]
  simp only [postExtents, he.start, he.count, List.isEmpty_nil, Bool.not_true, extentOffered]

/-! ### ADD_DYNAMIC_CAPACITY_RESPONSE (R92, R94) -/

/-- The legs of the answered offers that a response does not take. -/
def legsBack (os : List Offer) (es : List (Nat × Nat)) : List Nat :=
  ((answered os es).flatMap (fun o => (List.range o.count).map (o.dpaLeg + ·))).filter (fun d => !(es.flatMap legsOf).contains d)

/-- The runs without the legs that a response does not take. -/
def answeredRuns (k : Nat) (es : List (Nat × Nat)) (s : State) : Tbl LegRun :=
  dropRuns ((legsBack (ldAt s k).offers es).filterMap (fun d => legAt s.sad.img.runs (ldAt s k).map.part ((ldAt s k).map.dcBase + d)))
    s.sad.img.runs

/-- The ranges with the extents that a response takes. -/
def acceptedRanges (m : LdMap) (es : List (Nat × Nat)) : List Range :=
  es.foldl (fun r e => addRange m.dcBase r (e.1 / gib) (e.2 / gib)) m.ranges

/-- The state of a response before the ranges are recorded. -/
def offersAnswered (k : Nat) (es : List (Nat × Nat)) (s : State) : State :=
  modLd k (fun x => { x with offers := x.offers.filter (fun o => !(answered (ldAt s k).offers es).contains o)
                             extGen := if es.isEmpty then x.extGen else x.extGen + 1 }) (setRuns (answeredRuns k es s) s)

section Response

variable {p : Path} {i : List Byte} {s : State} {k : Nat}

theorem body_addDcResponse_unaligned {j : Nat} (hk : pathLd s p = some k) (hdc : dcLd s k = true)
    (hbad : unaligned (extents i (fld i 0 4) 8 24) = some j) : cmdAddDcResponse.body p i s = (rej 2 0x0285 (8 + 24 * j), s) := by
  refine (body_dcCmd hk hdc).trans ?_
  simp only [hbad]

theorem body_addDcResponse_none (hk : pathLd s p = some k) (hdc : dcLd s k = true) (hcnt : fld i 0 4 = 0)
    (hlen : (ldAt s k).map.ranges.length ≤ 64) (htotal : rangeTotal s (ldInst k) + (ldAt s k).map.ranges.length ≤ 4096) :
    cmdAddDcResponse.body p i s =
      ({ out := [], recs := runRecs s.sad.img.runs (answeredRuns k [] s) ++ mapRecs s.sad.img (offersAnswered k [] s).sad.img,
         done := .none }, offersAnswered k [] s) := by
  have hes : extents i (fld i 0 4) 8 24 = [] := by simp [extents, hcnt]
  have hbad : badAnswer (ldAt s k).offers [] = none := rfl
  have hgood : unaligned [] = none := rfl
  refine (body_dcCmd hk hdc).trans ?_
  simp only [hes, hbad, hgood, List.foldl_nil]
  rw [if_neg (Nat.not_lt.mpr hlen), if_neg (Nat.not_lt.mpr htotal)]
  rfl

theorem body_addDcResponse_some {es : List (Nat × Nat)} (hk : pathLd s p = some k) (hdc : dcLd s k = true)
    (hes : extents i (fld i 0 4) 8 24 = es) (hsome : es ≠ []) (hgood : unaligned es = none) (hbad : badAnswer (ldAt s k).offers es = none)
    (hlen : (acceptedRanges (ldAt s k).map es).length ≤ 64)
    (htotal : rangeTotal s (ldInst k) + (acceptedRanges (ldAt s k).map es).length ≤ 4096) :
    cmdAddDcResponse.body p i s =
      ({ out := [], recs := runRecs s.sad.img.runs (answeredRuns k es s) ++
          mapRecs s.sad.img (recRanges k (acceptedRanges (ldAt s k).map es) (offersAnswered k es s)).sad.img,
         done := .ranges k (acceptedRanges (ldAt s k).map es) },
       recRanges k (acceptedRanges (ldAt s k).map es) (offersAnswered k es s)) := by
  have hempty : es.isEmpty = false := List.isEmpty_eq_false_iff.mpr hsome
  unfold acceptedRanges at hlen htotal
  refine (body_dcCmd hk hdc).trans ?_
  simp only [hes, hbad, hgood, hempty, Bool.false_eq_true, if_false]
  rw [if_neg (Nat.not_lt.mpr hlen), if_neg (Nat.not_lt.mpr htotal)]
  simp only [offersAnswered, hempty, Bool.false_eq_true, if_false]
  rfl

end Response

theorem mainUp_extentOffered (k a n : Nat) (runs : Tbl LegRun) (s : State) : (extentOffered k a n runs s).mainUp = s.mainUp := rfl

/-- The offers of an LD with one more. -/
theorem ldAt_extentOffered (k a n : Nat) (runs : Tbl LegRun) (s : State) : ldAt (extentOffered k a n runs s) k =
    { ldAt s k with offers := (ldAt s k).offers ++ [{ dpaLeg := a, count := n, group := nextOffer (ldAt s k) }] } := ldAt_modLd_same ..

section OffersAnswered

variable (k : Nat) (es : List (Nat × Nat)) (s : State)

theorem mainUp_offersAnswered : (offersAnswered k es s).mainUp = s.mainUp := rfl

theorem img_offersAnswered : (offersAnswered k es s).sad.img = { s.sad.img with runs := answeredRuns k es s } := rfl

theorem ldAt_offersAnswered : ldAt (offersAnswered k es s) k = { ldAt s k with
    offers := (ldAt s k).offers.filter (fun o => !(answered (ldAt s k).offers es).contains o)
    extGen := if es.isEmpty then (ldAt s k).extGen else (ldAt s k).extGen + 1 } := ldAt_modLd_same ..

end OffersAnswered

/-- The offers that a response with extents leaves are those of the Initiates that it does not touch. -/
theorem mem_offersLeft {os : List Offer} {es : List (Nat × Nat)} (hes : es ≠ []) (o : Offer) :
    o ∈ os.filter (fun o => !(answered os es).contains o) ↔
      o ∈ os ∧ ∀ x ∈ os, x.group = o.group → ∀ e ∈ es, offered x e = false := by
  have hempty : es.isEmpty = false := List.isEmpty_eq_false_iff.mpr hes
  simp only [answered, hempty, Bool.false_eq_true, if_false, List.mem_filter, List.contains_eq_mem, List.mem_map, List.any_eq_true,
    Bool.not_eq_true', decide_eq_false_iff_not, decide_eq_true_eq]
  refine and_congr_right fun ho => ⟨fun h x hx hgroup e he => ?_, fun h ⟨_, x, ⟨hx, e, he, hoffer⟩, hgroup⟩ => ?_⟩
  · refine Bool.eq_false_iff.mpr fun hoffer => ?_
    exact h ⟨ho, x, ⟨hx, e, he, hoffer⟩, hgroup⟩
  · exact absurd hoffer (by simp [h x hx hgroup e he])

section OneOffer

variable {a n g : Nat} {rest : List Offer} {e : Nat × Nat}

theorem answered_one (he : WholeLegs a n e) (hrest : ∀ o ∈ rest, o.group ≠ g ∧ offered o e = false) :
    answered ({ dpaLeg := a, count := n, group := g } :: rest) [e] = [{ dpaLeg := a, count := n, group := g }] := by
  have hfirst : offered { dpaLeg := a, count := n, group := g } e = true := by simp [offered, he.start, he.count]
  have hothers : rest.filter (fun o => offered o e) = [] := List.filter_eq_nil_iff.mpr fun o ho => by simp [hrest o ho]
  have hgroups : rest.filter (fun o => decide (o.group = g)) = [] := List.filter_eq_nil_iff.mpr fun o ho => by simp [hrest o ho]
  simp [answered, hfirst, hothers, hgroups]

theorem answered_none (hrest : ∀ o ∈ rest, o.group ≠ g) :
    answered ({ dpaLeg := a, count := n, group := g } :: rest) [] = [{ dpaLeg := a, count := n, group := g }] := by
  have hgroups : rest.filter (fun o => decide (o.group = g)) = [] := List.filter_eq_nil_iff.mpr fun o ho => by simp [hrest o ho]
  simp [answered, hgroups]

theorem legsBack_one (he : WholeLegs a n e) (hrest : ∀ o ∈ rest, o.group ≠ g ∧ offered o e = false) :
    legsBack ({ dpaLeg := a, count := n, group := g } :: rest) [e] = [] := by
  rw [legsBack, answered_one he hrest, List.flatMap_singleton, List.flatMap_singleton, he.legs, List.filter_eq_nil_iff]
  intro d hd
  simpa using List.mem_map.mp hd

theorem legsBack_none (hrest : ∀ o ∈ rest, o.group ≠ g) :
    legsBack ({ dpaLeg := a, count := n, group := g } :: rest) [] = (List.range n).map (a + ·) := by
  simp [legsBack, answered_none hrest]

theorem offersLeft_of_first (hrest : ∀ o ∈ rest, o.group ≠ g) :
    ({ dpaLeg := a, count := n, group := g } :: rest).filter
      (fun o => !([{ dpaLeg := a, count := n, group := g }] : List Offer).contains o) = rest := by
  rw [List.filter_cons, if_neg (by simp), List.filter_eq_self]
  rintro o ho
  have hne : o ≠ { dpaLeg := a, count := n, group := g } := fun h => hrest o ho (congrArg Offer.group h)
  simp [hne]

theorem badAnswer_one (he : WholeLegs a n e) : badAnswer ({ dpaLeg := a, count := n, group := g } :: rest) [e] = none := by
  have hfirst : offered { dpaLeg := a, count := n, group := g } e = true := by simp [offered, he.start, he.count]
  simp [badAnswer, List.range_one, hfirst]

end OneOffer

/-! ### RELEASE_DYNAMIC_CAPACITY (R92) -/

/-- The state of a release whose record is not committed yet. -/
def rangesReleased (k : Nat) (rs : List Range) (s : State) : State := recRanges k rs (modLd k (fun x => { x with extGen := x.extGen + 1 }) s)

theorem mainUp_rangesReleased (k : Nat) (rs : List Range) (s : State) : (rangesReleased k rs s).mainUp = s.mainUp := rfl

theorem findIdx?_one {α : Type} {f : α → Bool} {e : α} (h : f e = false) : [e].findIdx? f = none := by simp [h]

theorem body_releaseDc_one {p : Path} {i : List Byte} {s : State} {k a n : Nat} {e : Nat × Nat} (hk : pathLd s p = some k)
    (hdc : dcLd s k = true) (hes : extents i (fld i 0 4) 8 24 = [e]) (he : WholeLegs a n e)
    (hheld : (legsOf e).any (fun d => (rangePos (ldAt s k).map.ranges d).isNone) = false)
    (hlen : (cutRange a n (ldAt s k).map.ranges).length ≤ 64)
    (htotal : rangeTotal s (ldInst k) + (cutRange a n (ldAt s k).map.ranges).length ≤ 4096) :
    cmdReleaseDc.body p i s =
      ({ out := [], recs := mapRecs s.sad.img (rangesReleased k (cutRange a n (ldAt s k).map.ranges) s).sad.img,
         done := .release k (ldAt s k).map.part (cutRange a n (ldAt s k).map.ranges)
           (((List.range n).map (a + ·)).filterMap (rangePos (ldAt s k).map.ranges)) },
       rangesReleased k (cutRange a n (ldAt s k).map.ranges) s) := by
  refine (body_dcCmd hk hdc).trans ?_
  simp only [hes, he.aligned, findIdx?_one (f := fun e => (legsOf e).any (fun d => (rangePos (ldAt s k).map.ranges d).isNone)) hheld,
    List.foldl_cons, List.foldl_nil, he.start, he.count, List.flatMap_singleton, he.legs]
  rw [if_neg (Nat.not_lt.mpr hlen), if_neg (Nat.not_lt.mpr htotal)]
  rfl

/-! ### INITIATE_DYNAMIC_CAPACITY_RELEASE (R92, R93) -/

theorem body_initiateDcRelease {p : Path} {i : List Byte} {s : State} {k : Nat} {es : List (Nat × Nat)} (hk : dcTarget s i = some k)
    (hpolicy : fld i 2 1 % 16 = 1) (hes : extents i (fld i 28 4) 32 40 = es) :
    cmdInitiateDcRelease.body p i s = initiateRelease (fld i 2 1 / 16 % 2 == 1) k es s := by
  simp only [cmdInitiateDcRelease, hk, releaseExtents, hpolicy, hes]

theorem initiateRelease_one {forced : Bool} {k a n : Nat} {e : Nat × Nat} {s t : State} (he : WholeLegs a n e)
    (hknown : knownExtent (ldAt s k) e = true) (ht : releaseExtent forced k e s = t) (hlen : (ldAt t k).map.ranges.length ≤ 64)
    (htotal : rangeTotal t (ldInst k) + (ldAt t k).map.ranges.length ≤ 4096) :
    initiateRelease forced k [e] s =
      ({ out := [], recs := runRecs s.sad.img.runs t.sad.img.runs ++ mapRecs s.sad.img t.sad.img, done := .none }, t) := by
  have hone : forAll [e] (releaseExtent forced k) s = t := ht
  have hall : [e].findIdx? (fun e => !knownExtent (ldAt s k) e) = none := findIdx?_one (by simp [hknown])
  simp only [initiateRelease, he.aligned, hall, hone]
  rw [if_neg (Nat.not_lt.mpr hlen), if_neg (Nat.not_lt.mpr htotal)]

section ReleaseExtent

variable {k a n : Nat} {e : Nat × Nat} {s : State}

theorem isOffer_whole (he : WholeLegs a n e) (o : Offer) : isOffer e o = true ↔ o.dpaLeg = a ∧ o.count = n := by
  simp [isOffer, he.start, he.count]

theorem releaseExtent_of_offer {forced : Bool} (he : WholeLegs a n e) (h : ∃ o ∈ (ldAt s k).offers, o.dpaLeg = a ∧ o.count = n) :
    releaseExtent forced k e s = withdraw k e s := by
  obtain ⟨o, ho, hoffer⟩ := h
  exact if_pos (List.any_eq_true.mpr ⟨o, ho, (isOffer_whole he o).mpr hoffer⟩)

theorem releaseExtent_of_range {forced : Bool} (he : WholeLegs a n e) (h : ∀ o ∈ (ldAt s k).offers, o.dpaLeg = a → o.count ≠ n) :
    releaseExtent forced k e s = if forced then forceRelease k e s else postDc k 1 a n false s := by
  have hnone : (ldAt s k).offers.any (isOffer e) = false := List.any_eq_false.mpr fun o ho hoffer => by
    obtain ⟨hstart, hcount⟩ := (isOffer_whole he o).mp hoffer
    exact h o ho hstart hcount
  rw [releaseExtent, hnone, he.start, he.count, if_neg Bool.false_ne_true]

theorem knownExtent_of_offer (he : WholeLegs a n e) (h : ∃ o ∈ (ldAt s k).offers, o.dpaLeg = a ∧ o.count = n) :
    knownExtent (ldAt s k) e = true := by
  obtain ⟨o, ho, hoffer⟩ := h
  exact Bool.or_eq_true_iff.mpr (.inl (List.any_eq_true.mpr ⟨o, ho, (isOffer_whole he o).mpr hoffer⟩))

theorem knownExtent_of_ranges (he : WholeLegs a n e) (h : ∀ j, j < n → (rangePos (ldAt s k).map.ranges (a + j)).isSome = true) :
    knownExtent (ldAt s k) e = true := by
  refine Bool.or_eq_true_iff.mpr (.inr (List.all_eq_true.mpr fun d hd => ?_))
  simp only [he.legs, List.mem_map, List.mem_range] at hd
  obtain ⟨j, hj, rfl⟩ := hd
  exact h j hj

/-- R93: what a forced release changes of its LD. -/
theorem ldAt_forceRelease (he : WholeLegs a n e) :
    (ldAt (forceRelease k e s) k).map.ranges = cutRange a n (ldAt s k).map.ranges ∧
    (ldAt (forceRelease k e s) k).extGen = (ldAt s k).extGen + 1 ∧ (ldAt (forceRelease k e s) k).offers = (ldAt s k).offers ∧
    (ldAt (forceRelease k e s) k).graces = (ldAt s k).graces ++ [{ dpaLeg := a, count := n, since := tbNow s }] := by
  unfold forceRelease
  simp only [he.start, he.count]
  rw [postDc_frame, setChg]
  simp only [ldAt, modLd, tgetD_tmod_same]
  exact ⟨rfl, rfl, rfl, rfl⟩

theorem mainUp_forceRelease (k : Nat) (e : Nat × Nat) (s : State) : (forceRelease k e s).mainUp = s.mainUp := by
  simp only [forceRelease, mainUp_postDc, mainUp_setChg, modLd_mainUp, mainUp_emptyPositions, mainUp_recRanges]

theorem event_forceRelease (k : Nat) (e : Nat × Nat) (s : State) :
    ∃ x ∈ events (forceRelease k e s), x.lds = [k] ∧ x.log = 4 ∧ x.ev.code = evDc 2 := by
  obtain ⟨x, hx, hlds, hlog, hcode, -⟩ := event_postDc k 2 (e.1 / gib) (e.2 / gib) false _
  exact ⟨x, hx, hlds, hlog, hcode⟩

theorem rangeTotal_forceRelease (k : Nat) (e : Nat × Nat) (s : State) : rangeTotal (forceRelease k e s) (ldInst k) = rangeTotal s (ldInst k) :=
  (rangeTotal_of_ldMaps (s := recRanges k (cutRange (e.1 / gib) (e.2 / gib) (ldAt s k).map.ranges) s) (by
    simp only [forceRelease, sad_postDc, sad_setChg, modLd_sad, ldMaps_emptyPositions]) _).trans (rangeTotal_recRanges ..)

/-- R92: what the withdrawal of an offer changes of its LD. -/
theorem ldAt_withdraw (k : Nat) (e : Nat × Nat) (s : State) :
    ldAt (withdraw k e s) k = { ldAt s k with offers := (ldAt s k).offers.filter (fun o => !isOffer e o) } := ldAt_modLd_same ..

theorem img_withdraw (he : WholeLegs a n e) : (withdraw k e s).sad.img = { s.sad.img with
    runs := dropRuns (((List.range n).map (a + ·)).filterMap (fun d =>
      legAt s.sad.img.runs (ldAt s k).map.part ((ldAt s k).map.dcBase + d))) s.sad.img.runs } := by
  rw [← he.legs]
  unfold withdraw emptyPositions
  dsimp only
  rw [List.filterMap_map]
  rfl

end ReleaseExtent

theorem rangesRec_takeIn (op : Nat) (p : Path) (i : List Byte) (k : Nat) (rs : List Range) (s : State) :
    rangesRec k rs (takeIn op p i s) = rangesRec k rs s := by simp [rangesRec]

/-! ### The commands -/

section DynamicCapacity

variable {s : State} {p : Path} {i : List Byte} {k a n : Nat}

theorem gives_initiateAdd {legs : List Nat} {runs : Tbl LegRun} {e : Nat × Nat} (h : Admitted cmdInitiateDcAdd p i s)
    (hk : dcTarget s i = some k) (hes : addExtents s (ldAt s k).map i = .ok [e]) (he : WholeLegs a n e)
    (hroom : (ldAt s k).map.dcBase + a + n ≤ 65536)
    (hempty : ∀ j, j < n → legAt s.sad.img.runs (ldAt s k).map.part ((ldAt s k).map.dcBase + a + j) = none)
    (hcount : (withOffers (ldAt s k).map.dcBase (ldAt s k).map.ranges
      ((ldAt s k).offers ++ [{ dpaLeg := a, count := n, group := nextOffer (ldAt s k) }])).length ≤ 64)
    (hplace : placeLegs s (ldAt s k).map.part ((List.range n).map (fun j => (ldAt s k).map.dcBase + (a + j))) = .ok (legs, runs))
    (hrecs : runRecs s.sad.img.runs runs ≠ []) : Gives (.initiateDynamicCapacityAdd p i) s (fun t =>
      Awaits p 0x5604 (runRecs s.sad.img.runs runs) .none t ∧ OnlyCtx p (postDc k 0 a n false (extentOffered k a n runs
        (takeIn cmdInitiateDcAdd.op p i s))) t) := by
  have hes' : addExtents (takeIn cmdInitiateDcAdd.op p i s) (ldAt (takeIn cmdInitiateDcAdd.op p i s) k).map i = .ok [e] := by
    rw [map_takeIn, ← hes]
    simp only [addExtents, emptyLegs_takeIn]
  have hbody := (body_initiateDcAdd (p := p) ((dcTarget_takeIn ..).trans hk) hes').trans
    (initiateAdd_one he (by simpa using hroom) (by simpa using hempty) (by simpa using hcount) (by simpa using hplace))
  have hup : (postDc k 0 a n false (extentOffered k a n runs (takeIn cmdInitiateDcAdd.op p i s))).mainUp = true := by
    rw [mainUp_postDc, mainUp_extentOffered]
    exact mainUp_takeIn h
  rw [sad_takeIn] at hbody
  refine (gives_awaits rfl h hbody hup hrecs fun x hx => ?_)
  exact dirty_setRuns runs (drawn (takeIn cmdInitiateDcAdd.op p i s)) x (by simpa [drawn] using hx)

/-- R92: a response with extents records the ranges and keeps the offers of the Initiates that it does not touch. -/
theorem gives_response_some {es : List (Nat × Nat)} (h : Admitted cmdAddDcResponse p i s) (hk : pathLd s p = some k) (hdc : dcLd s k = true)
    (hes : extents i (fld i 0 4) 8 24 = es) (hsome : es ≠ []) (hgood : unaligned es = none) (hbad : badAnswer (ldAt s k).offers es = none)
    (hlen : (acceptedRanges (ldAt s k).map es).length ≤ 64)
    (htotal : rangeTotal s (ldInst k) + (acceptedRanges (ldAt s k).map es).length ≤ 4096) :
    Gives (.addDynamicCapacityResponse p i) s (fun t =>
      (∃ m, tget t.sad.img.ldMaps (ldInst k) = some m ∧ m.ranges = acceptedRanges (ldAt s k).map es) ∧
      (ldAt t k).offers = (ldAt s k).offers.filter (fun o => !(answered (ldAt s k).offers es).contains o)) := by
  have hbody := body_addDcResponse_some (s := takeIn cmdAddDcResponse.op p i s) ((pathLd_takeIn ..).trans hk) ((dcLd_takeIn ..).trans hdc)
    hes hsome hgood (by simpa using hbad) (by simpa using hlen) (by simpa using htotal)
  rw [map_takeIn] at hbody
  refine (gives_effect rfl h hbody (by rw [mainUp_recRanges, mainUp_offersAnswered]; exact mainUp_takeIn h)).imp fun t ⟨honly, _⟩ => ⟨?_, ?_⟩
  · rw [honly.sad]
    exact tget_recRanges ..
  · rw [honly.offers, ldAt_recRanges, ldAt_offersAnswered, offers_takeIn]

end DynamicCapacity

section OneOfferResponse

variable {s : State} {p : Path} {i : List Byte} {k a n g : Nat} {rest : List Offer}

/-- R92: a response that takes the whole of an offer leaves no leg of it. -/
theorem answeredRuns_one {e : Nat × Nat} (hoffers : (ldAt s k).offers = { dpaLeg := a, count := n, group := g } :: rest)
    (he : WholeLegs a n e) (hrest : ∀ o ∈ rest, o.group ≠ g ∧ offered o e = false) : answeredRuns k [e] s = s.sad.img.runs := by
  rw [answeredRuns, hoffers, legsBack_one he hrest]
  rfl

/-- R92, R401: a response that takes the one extent of the oldest offer waits for the record of the ranges. -/
theorem gives_response_one {e : Nat × Nat} (h : Admitted cmdAddDcResponse p i s) (hk : pathLd s p = some k) (hdc : dcLd s k = true)
    (hoffers : (ldAt s k).offers = { dpaLeg := a, count := n, group := g } :: rest) (he : WholeLegs a n e)
    (hes : extents i (fld i 0 4) 8 24 = [e]) (hrest : ∀ o ∈ rest, o.group ≠ g ∧ offered o e = false) {rs : List Range}
    (hrs : addRange (ldAt s k).map.dcBase (ldAt s k).map.ranges a n = rs) (hlen : rs.length ≤ 64)
    (htotal : rangeTotal s (ldInst k) + rs.length ≤ 4096)
    (hrecs : mapRecs s.sad.img (withMap (ldInst k) (rangesRec k rs s) s.sad.img) ≠ []) :
    Gives (.addDynamicCapacityResponse p i) s (fun t => (∃ recs, Awaits p 0x4802 recs (.ranges k rs) t) ∧
      (ldAt t k).offers = rest ∧ (ldAt t k).extGen = (ldAt s k).extGen + 1 ∧ (ldAt t k).map = (ldAt s k).map ∧
      (∃ m, tget t.sad.img.ldMaps (ldInst k) = some m ∧ m.ranges = rs) ∧ t.sad.img.runs = s.sad.img.runs) := by
  let v := takeIn cmdAddDcResponse.op p i s
  have hvoffers : (ldAt v k).offers = { dpaLeg := a, count := n, group := g } :: rest := (offers_takeIn ..).trans hoffers
  have hvrs : acceptedRanges (ldAt v k).map [e] = rs := by
    rw [map_takeIn, ← hrs]
    simp [acceptedRanges, he.start, he.count]
  have hbody := body_addDcResponse_some (p := p) (s := v) ((pathLd_takeIn ..).trans hk) ((dcLd_takeIn ..).trans hdc) hes
    (List.cons_ne_nil _ _) he.aligned (by rw [hvoffers]; exact badAnswer_one he) (by rw [hvrs]; exact hlen)
    (by rw [hvrs, rangeTotal_takeIn]; exact htotal)
  have hruns := answeredRuns_one hvoffers he hrest
  have himg : (offersAnswered k [e] v).sad.img = s.sad.img := by
    rw [img_offersAnswered, hruns, sad_takeIn]
  have hmap : (ldAt (offersAnswered k [e] v) k).map = (ldAt s k).map := by rw [ldAt_offersAnswered, map_takeIn]
  have hrec : (recRanges k rs (offersAnswered k [e] v)).sad.img = withMap (ldInst k) (rangesRec k rs s) s.sad.img := by
    rw [img_recRanges, rangesRec, himg, hmap]
    rfl
  rw [hvrs, hruns, runRecs_self, List.nil_append, sad_takeIn] at hbody
  refine (gives_awaits rfl h hbody (by rw [mainUp_recRanges, mainUp_offersAnswered]; exact mainUp_takeIn h) (by rw [hrec]; exact hrecs) fun x hx => ?_).imp
    fun t ⟨hwaits, honly⟩ => ⟨⟨_, hwaits⟩, ?_, ?_, ?_, ?_, ?_⟩
  · rw [← himg] at hx
    exact dirty_recRanges k rs (offersAnswered k [e] v) x hx
  · rw [honly.log.offers, ldAt_recRanges, ldAt_offersAnswered, hvoffers, answered_one he hrest]
    exact offersLeft_of_first fun o ho => (hrest o ho).1
  · rw [honly.log.extGen, ldAt_recRanges, ldAt_offersAnswered, List.isEmpty_cons, if_neg Bool.false_ne_true, extGen_takeIn]
  · rw [honly.log.map, ldAt_recRanges, hmap]
  · rw [honly.sad]
    exact tget_recRanges ..
  · rw [honly.sad, runs_recRanges, himg]

/-- R92: a response without extents empties the positions of the oldest offer. -/
theorem gives_response_none (h : Admitted cmdAddDcResponse p i s) (hk : pathLd s p = some k) (hdc : dcLd s k = true)
    (hoffers : (ldAt s k).offers = { dpaLeg := a, count := n, group := g } :: rest) (hcnt : fld i 0 4 = 0)
    (hrest : ∀ o ∈ rest, o.group ≠ g) (hlen : (ldAt s k).map.ranges.length ≤ 64)
    (htotal : rangeTotal s (ldInst k) + (ldAt s k).map.ranges.length ≤ 4096) :
    Gives (.addDynamicCapacityResponse p i) s (fun t => (ldAt t k).offers = rest ∧ (ldAt t k).map = (ldAt s k).map ∧
      t.sad.img.ldMaps = s.sad.img.ldMaps ∧ t.sad.img.runs = dropRuns (((List.range n).map (a + ·)).filterMap
        (fun d => legAt s.sad.img.runs (ldAt s k).map.part ((ldAt s k).map.dcBase + d))) s.sad.img.runs) := by
  let v := takeIn cmdAddDcResponse.op p i s
  have hvoffers : (ldAt v k).offers = { dpaLeg := a, count := n, group := g } :: rest := (offers_takeIn ..).trans hoffers
  have hbody := body_addDcResponse_none (p := p) (s := v) ((pathLd_takeIn ..).trans hk) ((dcLd_takeIn ..).trans hdc) hcnt
    (by simpa [v] using hlen) (by simpa [v] using htotal)
  refine (gives_effect rfl h hbody ((mainUp_offersAnswered ..).trans (mainUp_takeIn h))).imp fun t ⟨honly, _⟩ => ⟨?_, ?_, ?_, ?_⟩
  · rw [honly.offers, ldAt_offersAnswered, hvoffers, answered_none hrest]
    exact offersLeft_of_first hrest
  · rw [honly.map, ldAt_offersAnswered, map_takeIn]
  · rw [honly.sad, img_offersAnswered, sad_takeIn]
  · rw [honly.sad, img_offersAnswered, answeredRuns, hvoffers, legsBack_none hrest, map_takeIn, sad_takeIn]

end OneOfferResponse

section Releases

variable {s : State} {p : Path} {i : List Byte} {k a n : Nat} {e : Nat × Nat}

/-- R92, R401: the host's release of one extent waits for the record of the ranges that are left. -/
theorem gives_release_one (h : Admitted cmdReleaseDc p i s) (hk : pathLd s p = some k) (hdc : dcLd s k = true)
    (hes : extents i (fld i 0 4) 8 24 = [e]) (he : WholeLegs a n e)
    (hheld : ∀ j, j < n → (rangePos (ldAt s k).map.ranges (a + j)).isSome = true) {rs : List Range}
    (hrs : cutRange a n (ldAt s k).map.ranges = rs) (hlen : rs.length ≤ 64) (htotal : rangeTotal s (ldInst k) + rs.length ≤ 4096)
    (hrecs : mapRecs s.sad.img (withMap (ldInst k) (rangesRec k rs s) s.sad.img) ≠ []) :
    Gives (.releaseDynamicCapacity p i) s (fun t => (∃ recs ps, Awaits p 0x4803 recs (.release k (ldAt s k).map.part rs ps) t ∧
        ∀ j, j < n → ∀ q, rangePos (ldAt s k).map.ranges (a + j) = some q → q ∈ ps) ∧
      (∃ m, tget t.sad.img.ldMaps (ldInst k) = some m ∧ m.ranges = rs) ∧
      (ldAt t k).map = (ldAt s k).map ∧ (ldAt t k).extGen = (ldAt s k).extGen + 1 ∧ t.sad.img.runs = s.sad.img.runs) := by
  let v := takeIn cmdReleaseDc.op p i s
  have hlegs : (legsOf e).any (fun d => (rangePos (ldAt v k).map.ranges d).isNone) = false := by
    rw [map_takeIn, he.legs, List.any_eq_false]
    intro d hd
    simp only [List.mem_map, List.mem_range] at hd
    obtain ⟨j, hj, rfl⟩ := hd
    simp [Option.isNone_eq_false_iff.mpr (hheld j hj)]
  have hbody := body_releaseDc_one (p := p) (s := v) ((pathLd_takeIn ..).trans hk) ((dcLd_takeIn ..).trans hdc) hes he hlegs
    (by rw [map_takeIn, hrs]; exact hlen) (by rw [map_takeIn, hrs, rangeTotal_takeIn]; exact htotal)
  have hld : ldAt (modLd k (fun x => { x with extGen := x.extGen + 1 }) v) k = { ldAt v k with extGen := (ldAt v k).extGen + 1 } :=
    ldAt_modLd_same ..
  have hrec : (rangesReleased k rs v).sad.img = withMap (ldInst k) (rangesRec k rs s) s.sad.img := by
    rw [rangesReleased, img_recRanges, rangesRec, hld, map_takeIn, modLd_sad, sad_takeIn]
    rfl
  rw [map_takeIn, hrs, sad_takeIn] at hbody
  refine (gives_awaits rfl h hbody ((mainUp_rangesReleased ..).trans (mainUp_takeIn h)) (by rw [hrec]; exact hrecs) fun x hx => ?_).imp
    fun t ⟨hwaits, honly⟩ => ⟨⟨_, _, hwaits, fun j hj q hq => ?_⟩, ?_, ?_, ?_, ?_⟩
  · refine dirty_recRanges k rs (modLd k _ v) x ?_
    rwa [modLd_sad, sad_takeIn]
  · exact List.mem_filterMap.mpr ⟨a + j, List.mem_map.mpr ⟨j, List.mem_range.mpr hj, rfl⟩, hq⟩
  · rw [honly.sad]
    exact tget_recRanges ..
  · rw [honly.log.map, rangesReleased, ldAt_recRanges, hld, map_takeIn]
  · rw [honly.log.extGen, rangesReleased, ldAt_recRanges, hld, extGen_takeIn]
  · rw [honly.sad, rangesReleased, runs_recRanges, modLd_sad, sad_takeIn]

theorem body_initiateDcRelease_one {t : State} (hk : dcTarget s i = some k) (hpolicy : fld i 2 1 % 16 = 1)
    (hes : extents i (fld i 28 4) 32 40 = [e]) (he : WholeLegs a n e) (hknown : knownExtent (ldAt s k) e = true)
    (ht : releaseExtent (fld i 2 1 / 16 % 2 == 1) k e s = t) (hlen : (ldAt t k).map.ranges.length ≤ 64)
    (htotal : rangeTotal t (ldInst k) + (ldAt t k).map.ranges.length ≤ 4096) : cmdInitiateDcRelease.body p i s =
      ({ out := [], recs := runRecs s.sad.img.runs t.sad.img.runs ++ mapRecs s.sad.img t.sad.img, done := .none }, t) :=
  (body_initiateDcRelease hk hpolicy hes).trans (initiateRelease_one he hknown ht hlen htotal)

/-- R92: the manager's release of a range that is not forced asks the host. -/
theorem gives_release_asked (h : Admitted cmdInitiateDcRelease p i s) (hk : dcTarget s i = some k) (hpolicy : fld i 2 1 % 16 = 1)
    (hes : extents i (fld i 28 4) 32 40 = [e]) (he : WholeLegs a n e)
    (hheld : ∀ j, j < n → (rangePos (ldAt s k).map.ranges (a + j)).isSome = true)
    (hoffers : ∀ o ∈ (ldAt s k).offers, o.dpaLeg = a → o.count ≠ n) (hforced : fld i 2 1 / 16 % 2 = 0)
    (hlen : (ldAt s k).map.ranges.length ≤ 64) (htotal : rangeTotal s (ldInst k) + (ldAt s k).map.ranges.length ≤ 4096) :
    Gives (.initiateDynamicCapacityRelease p i) s (fun t => Succeeded p [] t ∧ (ldAt t k).map = (ldAt s k).map ∧ t.sad = s.sad ∧
      events t = events (postDc k 1 a n false (takeIn cmdInitiateDcRelease.op p i s))) := by
  let v := takeIn cmdInitiateDcRelease.op p i s
  have hask : releaseExtent (fld i 2 1 / 16 % 2 == 1) k e v = postDc k 1 a n false v := by
    rw [releaseExtent_of_range he (by simpa [v] using hoffers)]
    exact if_neg (by simp [hforced])
  have hbody := body_initiateDcRelease_one (p := p) (s := v) ((dcTarget_takeIn ..).trans hk) hpolicy hes he
    (knownExtent_of_ranges he (by simpa [v] using hheld)) hask (by simpa [v, ldAt_postDc] using hlen)
    (by rw [ldAt_postDc, map_takeIn, rangeTotal_of_ldMaps (s := v) (t := postDc k 1 a n false v) rfl, rangeTotal_takeIn]; exact htotal)
  have hsad : (postDc k 1 a n false v).sad = s.sad := sad_takeIn ..
  rw [hsad, sad_takeIn, runRecs_self, mapRecs_self, List.append_nil] at hbody
  refine ((gives_payload rfl h hbody (mainUp_takeIn h)).and (gives_effect rfl h hbody (mainUp_takeIn h))).imp
    fun t ⟨⟨hdone, honly⟩, _, hevents⟩ => ⟨hdone, ?_, honly.sad.trans hsad, hevents⟩
  rw [honly.map, ldAt_postDc, map_takeIn]

/-- R93: the manager's forced release of a range takes it back at once. -/
theorem gives_release_forced (h : Admitted cmdInitiateDcRelease p i s) (hk : dcTarget s i = some k) (hpolicy : fld i 2 1 % 16 = 1)
    (hes : extents i (fld i 28 4) 32 40 = [e]) (he : WholeLegs a n e)
    (hheld : ∀ j, j < n → (rangePos (ldAt s k).map.ranges (a + j)).isSome = true)
    (hoffers : ∀ o ∈ (ldAt s k).offers, o.dpaLeg = a → o.count ≠ n) (hforced : fld i 2 1 / 16 % 2 = 1)
    (hlen : (cutRange a n (ldAt s k).map.ranges).length ≤ 64)
    (htotal : rangeTotal s (ldInst k) + (cutRange a n (ldAt s k).map.ranges).length ≤ 4096) :
    Gives (.initiateDynamicCapacityRelease p i) s (fun t => OnlyCtxLog p (forceRelease k e (takeIn cmdInitiateDcRelease.op p i s)) t ∧
      events t = events (forceRelease k e (takeIn cmdInitiateDcRelease.op p i s))) := by
  let v := takeIn cmdInitiateDcRelease.op p i s
  have hforce : releaseExtent (fld i 2 1 / 16 % 2 == 1) k e v = forceRelease k e v := by
    rw [releaseExtent_of_range he (by simpa [v] using hoffers)]
    exact if_pos (by simp [hforced])
  obtain ⟨hranges, -⟩ := ldAt_forceRelease (s := v) (k := k) he
  rw [map_takeIn] at hranges
  have hbody := body_initiateDcRelease_one (p := p) (s := v) ((dcTarget_takeIn ..).trans hk) hpolicy hes he
    (knownExtent_of_ranges he (by simpa [v] using hheld)) hforce (by rw [hranges]; exact hlen)
    (by rw [hranges, rangeTotal_forceRelease, rangeTotal_takeIn]; exact htotal)
  exact gives_effect rfl h hbody ((mainUp_forceRelease ..).trans (mainUp_takeIn h))

/-- R92: the manager's release of an offer withdraws it, forced or not. -/
theorem gives_release_offer (h : Admitted cmdInitiateDcRelease p i s) (hk : dcTarget s i = some k) (hpolicy : fld i 2 1 % 16 = 1)
    (hes : extents i (fld i 28 4) 32 40 = [e]) (he : WholeLegs a n e) (hoffer : ∃ o ∈ (ldAt s k).offers, o.dpaLeg = a ∧ o.count = n)
    (hlen : (ldAt s k).map.ranges.length ≤ 64) (htotal : rangeTotal s (ldInst k) + (ldAt s k).map.ranges.length ≤ 4096) :
    Gives (.initiateDynamicCapacityRelease p i) s (OnlyCtxLog p (withdraw k e (takeIn cmdInitiateDcRelease.op p i s))) := by
  let v := takeIn cmdInitiateDcRelease.op p i s
  have hvoffer : ∃ o ∈ (ldAt v k).offers, o.dpaLeg = a ∧ o.count = n := by simpa [v] using hoffer
  have hmap : (ldAt (withdraw k e v) k).map = (ldAt s k).map := by rw [ldAt_withdraw, map_takeIn]
  have hmaps : (withdraw k e v).sad.img.ldMaps = v.sad.img.ldMaps := by rw [img_withdraw he]
  have hbody := body_initiateDcRelease_one (p := p) (s := v) ((dcTarget_takeIn ..).trans hk) hpolicy hes he
    (knownExtent_of_offer he hvoffer) (releaseExtent_of_offer he hvoffer) (by rw [hmap]; exact hlen)
    (by rw [hmap, rangeTotal_of_ldMaps hmaps, rangeTotal_takeIn]; exact htotal)
  exact (gives_effect rfl h hbody (mainUp_takeIn h)).imp fun t ⟨honly, _⟩ => honly

end Releases

/-- Settles O40. The code of a Dynamic Capacity event is the model's choice (log 24), and so are what the selection policies and the
generation of the extent list come to (log 45), the layouts that the manual leaves to the CXL Specification (log 10) and which offers
a response answers (log 84). -/
theorem dynamicCapacity : Obligations.DynamicCapacity := by
  unfold Obligations.DynamicCapacity
  refine ⟨fun s p i k a n legs runs h hk hreq hn hroom hempty hcount hplace hrecs => ?add,
    fun s p i k a n g rest rs h hk hdc hoffers hrest hrs hlen htotal => ⟨fun hcnt hstart hsize hn hrecs => ?accept, fun hcnt => ?decline⟩,
    fun s p i k es rs h hk hdc hes hsome hgood hbad hrs hlen htotal => ?answer,
    fun s p i k h hk hdc hcnt hstart => ?unaligned,
    fun s p i k a n h hk hdc hcnt hstart hsize hn hheld hlen htotal hrecs => ?release,
    fun s p i k a n h hk hpolicy hcnt hstart hsize hn hheld hoffers => ⟨fun hforced hlen htotal => ?ask, fun hforced hlen htotal => ?force⟩,
    fun s p i k a n runs h hk hpolicy hcnt hstart hsize hn hoffer hruns hlen htotal => ?withdraw⟩
  case add =>
    have he := wholeLegs_mul (a := a) hn
    have hes : addExtents s (ldAt s k).map i = .ok [(a * gib, n * gib)] := by
      rcases hreq with ⟨hpolicy, hcnt, hstart, hsize⟩ | ⟨hpolicy, hsize, m, hfind⟩
      · rw [addExtents_listed hpolicy hcnt, hstart, hsize]
      · exact addExtents_contiguous hpolicy (by rw [hsize, Nat.mul_mod_left]) (by rw [hsize, mul_gib_div]) hn hfind
    refine (gives_initiateAdd h hk hes he hroom hempty hcount hplace hrecs).imp fun t ⟨hwaits, honly⟩ => ⟨hwaits, ?_, ?_, ?_, ?_⟩
    · rw [honly.sad]
      exact congrArg (fun g : SadImage => { g with runs := runs }) (congrArg Saddle.img (sad_takeIn ..))
    · rw [honly.log.offers, ldAt_postDc, ldAt_extentOffered, offers_takeIn, nextOffer_takeIn]
    · rw [honly.log.map, ldAt_postDc, ldAt_extentOffered, map_takeIn]
    · obtain ⟨x, hx, hlds, hlog, hcode, hdpa, hsize⟩ := event_postDc k 0 a n false
        (extentOffered k a n runs (takeIn cmdInitiateDcAdd.op p i s))
      refine ⟨x, mem_events.mp ?_, hlds, hlog, hcode, hdpa, hsize⟩
      rw [events, honly.1]
      exact hx
  case accept =>
    have hes : extents i (fld i 0 4) 8 24 = [(a * gib, n * gib)] := by rw [hcnt, extents_one, hstart, hsize]
    rw [if_neg (by omega)] at hrs
    exact gives_response_one h hk hdc hoffers (wholeLegs_mul hn) hes hrest hrs.symm hlen htotal hrecs
  case decline =>
    rw [if_pos hcnt] at hrs
    subst hrs
    exact gives_response_none h hk hdc hoffers hcnt (fun o ho => (hrest o ho).1) hlen htotal
  case answer =>
    subst hrs
    refine (gives_response_some h hk hdc hes.symm hsome hgood hbad hlen htotal).imp fun t ⟨hrec, hoffers⟩ => ⟨hrec, fun o => ?_⟩
    rw [hoffers]
    exact mem_offersLeft hsome o
  case unaligned =>
    have hbad : unaligned (extents i (fld i 0 4) 8 24) = some 0 := by
      rw [hcnt, extents_one]
      simp [unaligned, hstart]
    exact gives_turned rfl h (body_addDcResponse_unaligned ((pathLd_takeIn ..).trans hk) ((dcLd_takeIn ..).trans hdc) hbad)
  case release =>
    have hes : extents i (fld i 0 4) 8 24 = [(a * gib, n * gib)] := by rw [hcnt, extents_one, hstart, hsize]
    exact gives_release_one h hk hdc hes (wholeLegs_mul hn) hheld rfl hlen htotal hrecs
  case ask =>
    have hes : extents i (fld i 28 4) 32 40 = [(a * gib, n * gib)] := by rw [hcnt, extents_one, hstart, hsize]
    refine (gives_release_asked h hk hpolicy hes (wholeLegs_mul hn) hheld hoffers hforced hlen htotal).imp
      fun t ⟨hdone, hmap, hsad, hevents⟩ => ⟨hdone, ?_, hmap, hsad⟩
    obtain ⟨x, hx, hevent⟩ := event_postDc k 1 a n false (takeIn cmdInitiateDcRelease.op p i s)
    exact ⟨x, mem_events.mp (hevents ▸ hx), hevent⟩
  case force =>
    have hes : extents i (fld i 28 4) 32 40 = [(a * gib, n * gib)] := by rw [hcnt, extents_one, hstart, hsize]
    have he := wholeLegs_mul (a := a) hn
    obtain ⟨hranges, hgen, hkept, hgraces⟩ := ldAt_forceRelease (s := takeIn cmdInitiateDcRelease.op p i s) (k := k) he
    refine (gives_release_forced h hk hpolicy hes he hheld hoffers hforced hlen htotal).imp fun t ⟨honly, hevents⟩ => ⟨?_, ?_, ?_, ?_, ?_⟩
    · rw [honly.map, hranges, map_takeIn]
    · rw [honly.graces, hgraces, tbNow_takeIn]
      exact ⟨_, List.mem_append_right _ (List.mem_singleton_self _), rfl, rfl, rfl⟩
    · rw [honly.extGen, hgen, extGen_takeIn]
    · rw [honly.offers, hkept, offers_takeIn]
    · obtain ⟨x, hx, hevent⟩ := event_forceRelease k (a * gib, n * gib) (takeIn cmdInitiateDcRelease.op p i s)
      exact ⟨x, mem_events.mp (hevents ▸ hx), hevent⟩
  case withdraw =>
    have hes : extents i (fld i 28 4) 32 40 = [(a * gib, n * gib)] := by rw [hcnt, extents_one, hstart, hsize]
    have he := wholeLegs_mul (a := a) hn
    refine (gives_release_offer h hk hpolicy hes he hoffer hlen htotal).imp fun t honly => ⟨fun o ho hdpa hcount => ?_, ?_, ?_⟩
    · rw [honly.offers, ldAt_withdraw] at ho
      obtain ⟨-, hnot⟩ := List.mem_filter.mp ho
      rw [(isOffer_whole he o).mpr ⟨hdpa, hcount⟩] at hnot
      cases hnot
    · rw [honly.sad, img_withdraw he, hruns, map_takeIn, sad_takeIn]
    · rw [honly.map, ldAt_withdraw, map_takeIn]

end Sys2Proof.Machine

/-! SUPPORT. The Survey port (R102, R105, R114, R549 to R552): what lost links, flushes and the end of partitions leave of it, and what
an unlock, a memory access and a life-cycle transition change. -/

namespace Sys2Proof.Machine

/-! ### What requests, records, links and flushes leave of the Survey side -/

/-- The Survey port, the life cycle and the stores that a Survey instruction must leave. -/
structure SurveySide where
  mainUp : Bool
  survey : Survey
  keeper : Keeper
  sad : Saddle
  sealCtl : Seal
  medium : Medium
  boot : Boot
  belay : Belay
  stored : List CairnRec

/-- The Survey side of a state. -/
def surveySide (s : State) : SurveySide :=
  { mainUp := s.mainUp, survey := s.survey, keeper := s.keeper, sad := s.sad, sealCtl := s.sealCtl, medium := s.medium, boot := s.boot,
    belay := s.belay, stored := s.cairn.stored }

section SurveySide

variable (s : State)

@[simp] theorem surveySide_ite (c : Prop) [Decidable c] (s t : State) :
    surveySide (if c then s else t) = if c then surveySide s else surveySide t := apply_ite surveySide c s t

@[simp] theorem stored_stagePut (r : CairnRec) (c : Cairn) : (stagePut r c).stored = c.stored := by unfold stagePut; split <;> rfl

theorem surveySide_emitN (b : Bool) (code inst p q r d : Nat) : surveySide (emitN b code inst p q r d s) = surveySide s := by
  unfold emitN
  split
  · rfl
  · simp [surveySide]

@[simp] theorem surveySide_emit (code inst p q r d : Nat) : surveySide (emit code inst p q r d s) = surveySide s := surveySide_emitN ..

@[simp] theorem surveySide_postEvent (l : List Nat) (log : Nat) (e : EventRec) : surveySide (postEvent l log e s) = surveySide s := by
  unfold postEvent; split <;> rfl

@[simp] theorem surveySide_meter (part : Nat) (f : Meter → Meter) : surveySide (meter part f s) = surveySide s := by
  rw [meter_rest]; rfl

@[simp] theorem surveySide_modPort (p : Nat) (f : Port → Port) : surveySide (modPort p f s) = surveySide s := rfl
@[simp] theorem surveySide_modLd (k : Nat) (f : Ld → Ld) : surveySide (modLd k f s) = surveySide s := rfl
@[simp] theorem surveySide_setChg (i k : Nat) : surveySide (setChg i k s) = surveySide s := rfl
@[simp] theorem surveySide_histAdd (key ns : Nat) : surveySide (histAdd key ns s) = surveySide s := rfl
@[simp] theorem surveySide_cairnSample (id bin : Nat) : surveySide (cairnSample id bin s) = surveySide s := rfl

@[simp] theorem surveySide_extremeHi (i : Nat) (v : Int) : surveySide (extremeHi i v s) = surveySide s := by
  unfold extremeHi
  split
  · split <;> rfl
  · rfl

@[simp] theorem surveySide_meterWrite (r : Req) : surveySide (meterWrite r s) = surveySide s := by simp [meterWrite]
@[simp] theorem surveySide_meterRead (r : Req) (lat : Nat) : surveySide (meterRead r lat s) = surveySide s := by simp [meterRead]
@[simp] theorem surveySide_freeTag (r : Req) : surveySide (freeTag r s) = surveySide s := by simp [freeTag]

@[simp] theorem surveySide_sendResp (n : Nat) (r : Req) (k : RespKind) : surveySide (sendResp n r k s) = surveySide s :=
  show surveySide (modPort r.port (useCredit k) (meterRead r (n - r.stamp) (meterWrite r (freeTag r s)))) = surveySide s by simp

@[simp] theorem surveySide_finish (r : Req) (k : RespKind) : surveySide (finish r k s) = surveySide s := by simp [finish]

/-! ### A link that is lost (R76, R77) -/

@[simp] theorem surveySide_endWithheld (p : Nat) : surveySide (endWithheld p s) = surveySide s := by
  unfold endWithheld
  split
  · rfl
  · simp

@[simp] theorem surveySide_dropHeld (p : Nat) (l : Option Nat) : surveySide (dropHeld p l s) = surveySide s :=
  forAll_keeps surveySide (fun h t => by simp) _ _

@[simp] theorem surveySide_dropWrites (p : Nat) (l : Option Nat) : surveySide (dropWrites p l s) = surveySide s :=
  forAll_keeps surveySide (fun r t => surveySide_freeTag t r) _ _

theorem surveySide_dropLink (p : Nat) : surveySide (dropLink p s) = surveySide s := by simp [dropLink]

theorem surveySide_stopCoffer (k : Nat) : surveySide (stopCoffer k s) = surveySide s := by
  unfold stopCoffer
  split
  · rfl
  · exact (surveySide_emit ..).trans (surveySide_meter ..)

theorem surveySide_resetPortLds (p : Nat) : surveySide (resetPortLds p s) = surveySide s :=
  forAll_keeps surveySide (f := fun k t => modLd k (fun l => { l with decoders := [{}, {}], memActive := false }) (resetIo k t))
    (fun k t => surveySide_stopCoffer t k) (portLds s p) s

theorem surveySide_loseLink (p cause : Nat) : surveySide (loseLink p cause s) = surveySide s :=
  (surveySide_resetPortLds ..).trans ((surveySide_dropLink ..).trans (surveySide_emit ..))

/-! ### A flush that starts (R347) -/

theorem surveySide_dropRequests : surveySide (dropRequests s) = surveySide s :=
  forAll_keeps surveySide (fun r t => surveySide_meterWrite t r) s.cache.throughWait s

/-- The Survey side without the flush. -/
def flushlessSide (s : State) : SurveySide := { surveySide s with belay := {} }

theorem flushlessSide_of_surveySide {s t : State} (h : surveySide t = surveySide s) : flushlessSide t = flushlessSide s :=
  congrArg (fun v => { v with belay := {} }) h

theorem flushlessSide_failTest (cause : Nat) : flushlessSide (failTest cause s) = flushlessSide s := by
  unfold failTest
  split
  · rfl
  · exact (flushlessSide_of_surveySide (surveySide_emit ..)).trans rfl

theorem flushlessSide_beginFlush (cause : Nat) : flushlessSide (beginFlush cause s) = flushlessSide s := by
  unfold beginFlush
  split
  · rfl
  · exact (flushlessSide_of_surveySide ((surveySide_dropRequests _).trans ((surveySide_emit ..).trans (surveySide_emit ..)))).trans
      (flushlessSide_failTest s cause)

theorem flushlessSide_startFlush (cause : Nat) {s : State} (hrunning : s.boot.running = true) :
    flushlessSide (startFlush cause s) = flushlessSide s := by
  unfold startFlush
  split
  · rfl
  · simpa [hrunning] using flushlessSide_beginFlush s cause

/-! ### Legs and traverses that end (R85, R248) -/

theorem surveySide_dropWaiting (hit : Nat → Bool) : surveySide (dropWaiting hit s) = surveySide s :=
  forAll_keeps surveySide (fun r t => surveySide_finish t r .cmp) _ _

theorem surveySide_dropLegs (legs : List Nat) : surveySide (dropLegs legs s) = surveySide s := surveySide_dropWaiting ..

theorem surveySide_dropCredits : surveySide (dropCredits s) = surveySide s := rfl

theorem surveySide_endTraverse (part cause : Nat) :
    ∃ d, surveySide (endTraverse part cause s) = { surveySide s with sad := d } ∧ d.img.parts = s.sad.img.parts := by
  unfold endTraverse
  dsimp only
  split
  · split
    · exact ⟨s.sad, surveySide_emit .., rfl⟩
    · exact ⟨s.sad, rfl, rfl⟩
  · exact ⟨_, surveySide_emit .., rfl⟩

end SurveySide

/-! ### RETURN (R549) -/

/-- A state in which the partitions of a list are erased: they are DEPARTING, and of the Survey side only key slots and records
differ. -/
structure Erased (ps : List Nat) (s t : State) : Prop where
  side : ∃ k d, surveySide t = { surveySide s with sealCtl := k, sad := d }
  parts : ∀ p r, tget t.sad.img.parts p = some r → r.st = .departing ∨ p ∉ ps ∧ tget s.sad.img.parts p = some r

theorem erased_eraseForReturn (part : Nat) (s : State) : Erased [part] s (eraseForReturn part s) := by
  obtain ⟨d, hside, hparts⟩ := surveySide_endTraverse s part 0
  have hview : ∃ k d', surveySide (eraseForReturn part s) = { surveySide (endTraverse part 0 s) with sealCtl := k, sad := d' } ∧
      d'.img.parts = tmod (endTraverse part 0 s).sad.img.parts part {} (fun r => { r with st := .departing }) :=
    ⟨_, _, (surveySide_emit ..).trans (surveySide_dropLegs ..), rfl⟩
  obtain ⟨k, d', hview, hdeparting⟩ := hview
  refine ⟨⟨k, d', by rw [hview, hside]⟩, fun p r hr => ?_⟩
  have hsad : (eraseForReturn part s).sad = d' := congrArg SurveySide.sad hview
  have hsad1 : (endTraverse part 0 s).sad = d := congrArg SurveySide.sad hside
  rw [hsad, hdeparting, hsad1, hparts] at hr
  by_cases hp : p = part
  · subst hp
    rw [tget_tmod_same] at hr
    exact .inl (by rw [← Option.some.inj hr])
  · rw [tget_tmod_ne _ _ _ hp] at hr
    exact .inr ⟨by simpa using hp, hr⟩

theorem Erased.trans {ps qs : List Nat} {s t u : State} (h : Erased ps s t) (h' : Erased qs t u) : Erased (ps ++ qs) s u := by
  obtain ⟨k, d, hside⟩ := h.side
  obtain ⟨k', d', hside'⟩ := h'.side
  refine ⟨⟨k', d', by rw [hside', hside]⟩, fun p r hr => ?_⟩
  rcases h'.parts p r hr with hdep | ⟨hq, hr⟩
  · exact .inl hdep
  · rcases h.parts p r hr with hdep | ⟨hp, hr⟩
    · exact .inl hdep
    · exact .inr ⟨by simp [hp, hq], hr⟩

theorem erased_forAll (ps : List Nat) (s : State) : Erased ps s (forAll ps eraseForReturn s) := by
  induction ps generalizing s with
  | nil => exact ⟨⟨_, _, rfl⟩, fun p r hr => .inr ⟨by simp, hr⟩⟩
  | cons p ps ih => exact (erased_eraseForReturn p s).trans (ih _)

/-- R549: RETURN leaves every partition DEPARTING and no key slot, and derives another root key. -/
structure Returned (s t : State) : Prop where
  side : ∃ k d m, surveySide t = { surveySide s with
    sealCtl := k, sad := d, medium := m, keeper := { s.keeper with root := s.keeper.root + 1 } } ∧ k.slots = []
  parts : ∀ p r, tget t.sad.img.parts p = some r → r.st = .departing

theorem returned_returnUnit (s : State) : Returned s (returnUnit s) := by
  obtain ⟨⟨k, d, hside⟩, hparts⟩ := erased_forAll (tkeys s.sad.img.parts) s
  refine ⟨?_, fun p r hr => ?_⟩
  · have hkeeper : (forAll (tkeys s.sad.img.parts) eraseForReturn s).keeper = s.keeper := congrArg SurveySide.keeper hside
    refine ⟨(returnUnit s).sealCtl, (returnUnit s).sad, (returnUnit s).medium, ?_, rfl⟩
    have hview : surveySide (returnUnit s) = { surveySide (forAll (tkeys s.sad.img.parts) eraseForReturn s) with
        sealCtl := (returnUnit s).sealCtl, sad := (returnUnit s).sad, medium := (returnUnit s).medium
        keeper := { (forAll (tkeys s.sad.img.parts) eraseForReturn s).keeper with
          root := (forAll (tkeys s.sad.img.parts) eraseForReturn s).keeper.root + 1 } } := rfl
    rw [hview, hside, hkeeper]
  · have hr : tget (forAll (tkeys s.sad.img.parts) eraseForReturn s).sad.img.parts p = some r := hr
    rcases hparts p r hr with hdep | ⟨hp, hr⟩
    · exact hdep
    · exact absurd (List.mem_map_of_mem (f := (·.1)) (tget_mem hr)) hp

/-! ### Life-cycle transitions (R549) -/

theorem surveySide_endUnlock (cause : Nat) (s : State) :
    surveySide (endUnlock cause s) = { surveySide s with survey := { s.survey with level := none } } := by
  unfold endUnlock
  split
  · exact surveySide_emit ..
  case isFalse h =>
    have hlevel : s.survey.level = none := by simpa using h
    rw [← hlevel]
    rfl

/-- The state of an authorized transition at its warm reset. -/
def transitioned (l : Life) (lvl : Nat) (s : State) : State :=
  let s1 := emit 0x1701 0xFF (lifeCode s.keeper.life) (lifeCode l) lvl 0 (promoteEffect l s)
  endUnlock 3 { s1 with keeper := { s1.keeper with life := l } }

theorem surveySide_transitioned (l : Life) (lvl : Nat) (s : State) : surveySide (transitioned l lvl s) =
    { surveySide (promoteEffect l s) with
      survey := { (promoteEffect l s).survey with level := none }, keeper := { (promoteEffect l s).keeper with life := l } } := by
  rw [transitioned, surveySide_endUnlock]
  have hemit := surveySide_emit (promoteEffect l s) 0x1701 0xFF (lifeCode s.keeper.life) (lifeCode l) lvl 0
  simp only [emit_survey, emit_keeper]
  exact congrArg (fun v : SurveySide => { v with survey := { (promoteEffect l s).survey with level := none },
                                                 keeper := { (promoteEffect l s).keeper with life := l } }) hemit

/-- What an authorized transition leaves, against the state of its effect. -/
structure Promoted (l : Life) (u t : State) : Prop where
  life : t.keeper.life = l
  locked : t.survey.level = none
  step : t.belay.step = 1
  cause : t.belay.cause = 6
  resetInfo : t.keeper.resetInfo = u.keeper.resetInfo ||| 8
  root : t.keeper.root = u.keeper.root
  sad : t.sad = u.sad
  medium : t.medium = u.medium
  sealCtl : t.sealCtl = u.sealCtl
  boot : t.boot = u.boot
  stored : t.cairn.stored = u.cairn.stored

theorem svPromote_of_authorized {target lvl : Nat} {token : List Byte} {l : Life} {s : State} (hlife : lifeOf target = some l)
    (hauth : promotion (tap 0x30 s) l token = some lvl) (hmain : (promoteEffect l (tap 0x30 s)).mainUp = true)
    (hrunning : (promoteEffect l (tap 0x30 s)).boot.running = true) (hstep : (promoteEffect l (tap 0x30 s)).belay.step = 0) :
    Promoted l (promoteEffect l (tap 0x30 s)) (svPromote target token s) := by
  let u := promoteEffect l (tap 0x30 s)
  let v := transitioned l lvl (tap 0x30 s)
  have hside : surveySide v = { surveySide u with survey := { u.survey with level := none }, keeper := { u.keeper with life := l } } :=
    surveySide_transitioned ..
  have hvstep : v.belay.step = 0 := (congrArg (·.belay.step) hside).trans hstep
  let w : State := { setReset 3 v with keeper := { (setReset 3 v).keeper with mgmtWarm := false } }
  have hpromote : svPromote target token s = startFlush 6 w := by
    have hwarm : svPromote target token s = if v.belay.step = 0 then warmReset false v else v := by
      simp only [svPromote, hlife, hauth]
      rfl
    rw [hwarm, if_pos hvstep]
    rfl
  have hwrunning : w.boot.running = true := (congrArg (·.boot.running) hside).trans hrunning
  obtain ⟨hbegun, hcause, -⟩ := startFlush_begins 6 (s := w) ((congrArg SurveySide.mainUp hside).trans hmain) hwrunning hvstep
  have hflush := flushlessSide_startFlush 6 hwrunning
  have hkeeper : (startFlush 6 w).keeper = w.keeper := congrArg SurveySide.keeper hflush
  have hvkeeper : v.keeper = { u.keeper with life := l } := congrArg SurveySide.keeper hside
  rw [hpromote]
  exact {
    life := by rw [hkeeper]; exact congrArg Keeper.life hvkeeper
    locked := (congrArg (·.survey.level) hflush).trans (congrArg (·.survey.level) hside)
    step := hbegun
    cause := hcause
    resetInfo := by
      rw [hkeeper]
      exact congrArg (·.resetInfo ||| 8) hvkeeper
    root := (congrArg Keeper.root hkeeper).trans (congrArg Keeper.root hvkeeper :)
    sad := (congrArg SurveySide.sad hflush).trans (congrArg SurveySide.sad hside)
    medium := (congrArg SurveySide.medium hflush).trans (congrArg SurveySide.medium hside)
    sealCtl := (congrArg SurveySide.sealCtl hflush).trans (congrArg SurveySide.sealCtl hside)
    boot := (congrArg SurveySide.boot hflush).trans (congrArg SurveySide.boot hside)
    stored := (congrArg SurveySide.stored hflush).trans (congrArg SurveySide.stored hside) }

/-- R549: the codes that no transition of a unit in PRODUCTION or SCRAPPED has. -/
theorem lifeOf_low {n : Nat} {l : Life} (hn : n = 0 ∨ n = 1 ∨ n = 2 ∨ 4 < n) (hl : lifeOf n = some l) : l = .provision ∨ l = .production := by
  unfold lifeOf at hl
  split at hl
  · exact .inl (Option.some.inj hl).symm
  · exact .inr (Option.some.inj hl).symm
  · omega
  · omega
  · cases hl

theorem svPromote_of_refused {target : Nat} {token : List Byte} {s : State}
    (h : ∀ l, lifeOf target = some l → promotion (tap 0x30 s) l token = none) : svPromote target token s = tap 0x30 s := by
  unfold svPromote
  dsimp only
  split
  · rfl
  · rename_i l hl
    rw [h l hl]

/-! ### EXTEST (R550) -/

/-- Whether a port is up, which tags and records leave alone. -/
def portUp (q : Nat) (s : State) : Bool := (port s q).up

section PortUp

variable (q : Nat) (s : State)

theorem portUp_of_portsPorts {q : Nat} {s t : State} (h : t.ports.ports = s.ports.ports) : portUp q t = portUp q s :=
  congrArg Port.up (port_eq_of_ports h q)

theorem portUp_modPort {f : Port → Port} (p : Nat) (hf : ∀ x, (f x).up = x.up) : portUp q (modPort p f s) = portUp q s := by
  unfold portUp
  by_cases h : q = p
  · rw [h, port_modPort_same, hf]
  · rw [port_modPort_ne _ _ h]

theorem portUp_modLd (k : Nat) (f : Ld → Ld) : portUp q (modLd k f s) = portUp q s := rfl

theorem portUp_freeTag (r : Req) : portUp q (freeTag r s) = portUp q s := by
  unfold freeTag
  dsimp only
  rw [apply_ite (portUp q), portUp_modLd, ite_self]
  refine portUp_modPort q s r.port (fun x => ?_)
  exact up_oldDone ..

theorem portUp_meterWrite (r : Req) : portUp q (meterWrite r s) = portUp q s := by
  unfold meterWrite
  split
  · rw [meter_rest]
    rfl
  · rfl

theorem portUp_endWithheld (p : Nat) : portUp q (endWithheld p s) = portUp q s := by
  unfold endWithheld
  dsimp only
  split
  · rfl
  · split
    · rw [portUp_of_portsPorts (congrArg Ports.ports (emit_ports ..))]
      exact portUp_modPort q s p (by intro; rfl)
    · exact portUp_modPort q s p (by intro; rfl)

theorem portUp_dropHeld (p : Nat) (l : Option Nat) : portUp q (dropHeld p l s) = portUp q s := by
  refine (forAll_keeps (portUp q) (fun h t => ?_) _ _).trans (portUp_modPort q s p (by intro; rfl))
  split
  · exact (portUp_meterWrite ..).trans (portUp_freeTag ..)
  · exact portUp_freeTag ..

theorem portUp_dropWrites (p : Nat) (l : Option Nat) : portUp q (dropWrites p l s) = portUp q s :=
  (forAll_keeps (portUp q) (fun r t => portUp_freeTag q t r) _ _).trans rfl

theorem portUp_dropLink_of_down (p : Nat) (h : portUp q s = false) : portUp q (dropLink p s) = false := by
  by_cases hq : q = p
  · rw [hq]
    exact up_dropLink ..
  · have hkept : portUp q (dropLink p s) = portUp q (dropHeld p none (dropWrites p none (endWithheld p s))) :=
      congrArg Port.up (port_modPort_ne _ _ hq)
    rw [hkept, portUp_dropHeld, portUp_dropWrites, portUp_endWithheld, h]

theorem portUp_loseLink_of_down (p cause : Nat) (h : portUp q s = false) : portUp q (loseLink p cause s) = false := by
  have hlost : loseLink p cause s =
      resetPortLds p (dropLink p (emit 0x0102 p p cause (lossCounts p s).1 (lossCounts p s).2 s)) := rfl
  rw [hlost, portUp_of_portsPorts (portsPorts_resetPortLds ..)]
  refine portUp_dropLink_of_down q _ p ?_
  rw [portUp_of_portsPorts (congrArg Ports.ports (emit_ports ..)), h]

end PortUp

theorem forAll_cons {α : Type} (a : α) (l : List α) (f : α → State → State) (s : State) : forAll (a :: l) f s = forAll l f (f a s) := rfl

theorem portUp_setReset (i q : Nat) (s : State) : portUp q (setReset i s) = portUp q s := rfl

/-- R550: a port of a list that loses its links is down, and so is one that was down. -/
theorem portUp_forAll_loseLink (ps : List Nat) (q : Nat) (s : State) (h : q ∈ ps ∨ portUp q s = false) :
    portUp q (forAll ps (fun p t => setReset 9 (loseLink p 1 t)) s) = false := by
  induction ps generalizing s with
  | nil => simpa [forAll] using h
  | cons p ps ih =>
    rw [forAll_cons]
    refine ih _ ?_
    rw [portUp_setReset]
    rcases h with hmem | hdown
    · rcases List.mem_cons.mp hmem with rfl | hmem
      · exact .inr (up_loseLink ..)
      · exact .inl hmem
    · exact .inr (portUp_loseLink_of_down q s p 1 hdown)

/-- A port that no entry names is down. -/
theorem mem_tkeys_of_portUp {q : Nat} {s : State} (h : portUp q s = true) : q ∈ tkeys s.ports.ports := by
  cases hget : tget s.ports.ports q with
  | none => simp [portUp, port, tgetD, hget] at h
  | some x => exact List.mem_map_of_mem (f := (·.1)) (tget_mem hget)

theorem portUp_portsDown (q : Nat) (s : State) : portUp q (portsDown s) = false := by
  refine portUp_forAll_loseLink _ q s ?_
  cases h : portUp q s with
  | false => exact .inr rfl
  | true => exact .inl (List.mem_filter.mpr ⟨mem_tkeys_of_portUp h, h⟩)

/-- The TAP and the stores that a lost link leaves alone. -/
def tapSide (s : State) : Survey × Medium × Saddle := (s.survey, s.medium, s.sad)

theorem tapSide_of_surveySide {s t : State} (h : surveySide t = surveySide s) : tapSide t = tapSide s :=
  congrArg (fun v => (v.survey, v.medium, v.sad)) h

theorem tapSide_setReset (i : Nat) (s : State) : tapSide (setReset i s) = tapSide s := rfl

theorem tapSide_portsDown (s : State) : tapSide (portsDown s) = tapSide s :=
  forAll_keeps tapSide (fun p t => (tapSide_setReset ..).trans (tapSide_of_surveySide (surveySide_loseLink t p 1))) _ s

/-! ### Memory access (R105, R114, R552) -/

theorem tapSide_freeze (m code : Nat) (addr : BitVec 64) (detail : Nat) (s : State) :
    tapSide (freeze m code addr detail s) = tapSide s := by
  unfold freeze
  dsimp only
  split
  · rfl
  · refine (forAll_keeps tapSide (f := setChg 1) (fun k t => rfl) _ _).trans ?_
    refine (tapSide_of_surveySide ((surveySide_postEvent ..).trans (surveySide_postEvent ..))).trans ?_
    exact (tapSide_of_surveySide (surveySide_emitN ..)).trans rfl

theorem tapSide_endUnlock (cause : Nat) (s : State) :
    tapSide (endUnlock cause s) = ({ s.survey with level := none }, s.medium, s.sad) :=
  congrArg (fun v : SurveySide => (v.survey, v.medium, v.sad)) (surveySide_endUnlock cause s)

/-- The end of an unlock changes the Survey port and the places in which records stand. -/
theorem endUnlock_frame (cause : Nat) (s : State) : endUnlock cause s =
    { s with survey := { s.survey with level := none }, relay := (endUnlock cause s).relay, cairn := (endUnlock cause s).cairn } := by
  unfold endUnlock
  split
  · exact emit_eq ..
  case isFalse h =>
    have hlevel : s.survey.level = none := by simpa using h
    rw [← hlevel]

/-- R552: a session with access to memory, whose master is not frozen. -/
theorem svMem_of_access {w : Bool} {a : BitVec 128} {s : State} (hacc : svAccess s = true) (hfree : isFrozen s surveyMaster = false) :
    svMem w a s =
      let s1 := tap 0x20 s
      let space := (a.extractLsb' 126 2).toNat
      let addr := (a.extractLsb' 64 62).toNat
      if !w then drawn (tdo (toLe 8 (svRead s1 space addr)) s1)
      else if svTenant s space addr then
        endUnlock 4 (freeze surveyMaster 0x0205 (BitVec.ofNat 64 addr) (lifeCode s.keeper.life) s1)
      else if svFull s then
        { s1 with survey := { s1.survey with raw := tset s.survey.raw (space * 2 ^ 62 + addr) (a.extractLsb' 0 64) } }
      else s1 := by
  have hacc' : svAccess (tap 0x20 s) = true := hacc
  have hfree' : isFrozen (tap 0x20 s) surveyMaster = false := hfree
  simp only [svMem, hacc', hfree', Bool.not_true, Bool.false_eq_true, or_self, if_false]
  rfl

theorem svMem_of_locked {w : Bool} {a : BitVec 128} {s : State} (h : svAccess s = false) : svMem w a s = tdo (zeros 8) (tap 0x20 s) := by
  have h' : svAccess (tap 0x20 s) = false := h
  simp [svMem, h']

theorem svSession_of_locked {s : State} (hlife : s.keeper.life ≠ .blank) (hlevel : s.survey.level = none) : svSession s = false := by
  simp [svSession, hlife, hlevel]

theorem svTenant_of_stored {s : State} {space addr : Nat} {x : Codeword} (hspace : space = 2)
    (hx : tget s.medium.cells (addr % 549755813888) = some x) (htenant : x.mdat.getLsbD 61 = false) : svTenant s space addr = true := by
  simp only [svTenant, hspace, hx, htenant]
  rfl

theorem svTenant_of_other {s : State} {space addr : Nat} (hspace : space ≠ 2) : svTenant s space addr = false := by
  simp [svTenant, hspace]

/-- R105, R552: a read of tenant data gives its codeword as it is stored. -/
theorem svRead_of_stored {s : State} {space addr : Nat} {x : Codeword} (hspace : space = 2)
    (hx : tget s.medium.cells (addr % 549755813888) = some x) (htenant : x.mdat.getLsbD 61 = false) :
    svRead s space addr = codewordBeat x (Config.surveyBeat addr % 40) := by
  have ht := svTenant_of_stored hspace hx htenant
  subst hspace
  simp [svRead, ht, svPlain, hx]

theorem space_eq_two {a : BitVec 128} (h : a.extractLsb' 126 2 = 2) : (a.extractLsb' 126 2).toNat = 2 := by rw [h]; rfl

theorem space_ne_two {a : BitVec 128} (h : a.extractLsb' 126 2 ≠ 2) : (a.extractLsb' 126 2).toNat ≠ 2 :=
  fun hn => h (BitVec.eq_of_toNat_eq hn)

/-- R105, R114: a write to tenant data freezes the Survey master and ends the unlock, and leaves the medium. -/
theorem svMem_tenant {a : BitVec 128} {s : State} (hacc : svAccess s = true) (hfree : isFrozen s surveyMaster = false)
    (ht : svTenant s (a.extractLsb' 126 2).toNat (a.extractLsb' 64 62).toNat = true) :
    FrozenWith surveyMaster 0x0205 (svMem true a s) ∧
      tapSide (svMem true a s) = ({ (tap 0x20 s).survey with level := none }, s.medium, s.sad) := by
  let u := freeze surveyMaster 0x0205 (BitVec.ofNat 64 (a.extractLsb' 64 62).toNat) (lifeCode s.keeper.life) (tap 0x20 s)
  have hmem : svMem true a s = endUnlock 4 u := by
    rw [svMem_of_access hacc hfree]
    simp only [Bool.not_true, Bool.false_eq_true, if_false, ht, if_true]
    rfl
  let f := freezeOf surveyMaster 0x0205 (BitVec.ofNat 64 (a.extractLsb' 64 62).toNat) (lifeCode s.keeper.life) (tap 0x20 s)
  have hgate : u.gate.freezes = s.gate.freezes ++ [f] :=
    congrArg (·.gate.freezes) (thawSide_freeze 0x0205 _ _ (s := tap 0x20 s) hfree)
  have htap : tapSide u = tapSide (tap 0x20 s) := tapSide_freeze ..
  obtain ⟨hsurvey, hmedium, hsad⟩ : u.survey = (tap 0x20 s).survey ∧ u.medium = s.medium ∧ u.sad = s.sad :=
    ⟨congrArg (·.1) htap, congrArg (·.2.1) htap, congrArg (·.2.2) htap⟩
  rw [hmem]
  refine ⟨?_, ?_⟩
  · rw [endUnlock_frame]
    refine ⟨f, ?_, rfl, rfl⟩
    change f ∈ u.gate.freezes
    rw [hgate]
    exact List.mem_append_right _ (List.mem_singleton_self _)
  · rw [tapSide_endUnlock, hsurvey, hmedium, hsad]

/-! ### The unlock (R551) -/

theorem svUnlock_of_token {token : List Byte} {s : State} (hfree : isFrozen s surveyMaster = false) (hfail : s.survey.failures < 3)
    (hgood : tokenGood s token = true) : svUnlock token s =
      emit 0x1702 0xFF (fld token 0 1) (lifeCode s.keeper.life) s.sad.img.boot.boots 0
        { s with survey := { s.survey with instr := 0x11, challenge := none, level := some (fld token 0 1) } } := by
  have hfree' : isFrozen (tap 0x11 s) surveyMaster = false := hfree
  have hgood' : tokenGood (tap 0x11 s) token = true := hgood
  have hfail' : ¬ 3 ≤ (tap 0x11 s).survey.failures := Nat.not_le.mpr hfail
  simp only [svUnlock, hfree', hgood', hfail', Bool.false_eq_true, if_false, if_true]
  rfl

/-- The state of an unlock that fails. -/
def unlockFailed (s : State) : State :=
  { s with survey := { s.survey with instr := 0x11, challenge := none, failures := s.survey.failures + 1 } }

theorem svUnlock_of_bad {token : List Byte} {s : State} (hfree : isFrozen s surveyMaster = false) (hfail : s.survey.failures < 3)
    (hbad : tokenGood s token = false) : svUnlock token s =
      if s.survey.failures + 1 = 3 then emit 0x1703 0xFF (s.survey.failures + 1) (lifeCode s.keeper.life) 0 0 (unlockFailed s)
      else unlockFailed s := by
  have hfree' : isFrozen (tap 0x11 s) surveyMaster = false := hfree
  have hbad' : tokenGood (tap 0x11 s) token = false := hbad
  have hfail' : ¬ 3 ≤ (tap 0x11 s).survey.failures := Nat.not_le.mpr hfail
  simp only [svUnlock, hfree', hbad', hfail', Bool.false_eq_true, if_false]
  rfl

theorem tokenGood_level {s : State} {token : List Byte} (h : tokenGood s token = true) : fld token 0 1 = lifeCode s.keeper.life := by
  unfold tokenGood at h
  dsimp only at h
  split at h
  · simp at h
  · simp_all

theorem tokenGood_of_refused {s : State} {token : List Byte} (h : s.survey.challenge = none ∨
    s.survey.challengeTb + 60000000000 < tbNow s ∨ fld token 0 1 ≠ lifeCode s.keeper.life ∨ token.length ≠ 256) :
    tokenGood s token = false := by
  unfold tokenGood
  dsimp only
  split
  · rfl
  · rename_i c hc
    rcases h with h | h | h | h
    · simp [hc] at h
    · simp [Nat.not_le.mpr h]
    · simp [h]
    · simp [h]

theorem length_challengeOf (s : State) : (challengeOf s).length = 64 := by
  simp [challengeOf, length_padTo, zeros]

theorem drop_challengeOf (s : State) : (challengeOf s).drop 32 = toLe 16 Config.unitId.toNat ++ toLe 4 s.sad.img.boot.boots ++
    [BitVec.ofNat 8 (lifeCode s.keeper.life)] ++ List.replicate 11 0 := by
  have hsplit : challengeOf s = padTo 32 (Config.rbgChallenge s.keeper.rbg) ++ (toLe 16 Config.unitId.toNat ++
      toLe 4 s.sad.img.boot.boots ++ toLe 1 (lifeCode s.keeper.life) ++ zeros 11) := by
    simp only [challengeOf, List.append_assoc]
  rw [hsplit, List.drop_left' (length_padTo ..)]
  rfl

/-- Settles O54. The bytes of SV_STATUS, the doubleword that BYPASS shifts out, BYPASS for a refused EXTEST, the free bytes and the
zeros without the right are the model's choice (log 79), and so is that RETURN leaves the partitions DEPARTING (log 80). -/
theorem surveyPort : Obligations.SurveyPort := by
  unfold Obligations.SurveyPort
  refine ⟨fun s hmain => ⟨?idcode, ?bypass, ?sample, ?status, ?lock, ?challenge, fun hfull => ?extest, fun hfull => ?refusedExtest⟩,
    fun s token hmain hfree => ⟨fun hfail => ?failures, fun hfail hgood => ?unlock, fun hfail hbad => ?badToken⟩,
    fun s w a hmain => ⟨fun hlife hlevel => ⟨?lockedMem, ?lockedScan, fun f n => ?lockedCairn⟩,
      fun hacc hfree => ⟨?read, fun x hspace hx htenant => ?readTenant, fun x hspace hx htenant => ?writeTenant,
        fun hspace hfull => ?writeRefused, fun hspace hfull => ?write⟩,
      fun hfull hfree => ?scan, fun f n hlevel hfree hlow hhigh => ?cairn⟩,
    fun s token hmain hrunning hstep => ⟨fun hlife hlevel => ?production, fun hlife hok => ?toReturn, fun hlife hlevel => ?scrapped,
      fun hlife hlevel => ?refused, fun hlife n hn => ?noTransition⟩⟩
  case idcode => exact gives_whenMain rfl hmain rfl
  case bypass => exact gives_whenMain rfl hmain rfl
  case sample => exact gives_whenMain rfl hmain ⟨rfl, length_toLe .., rfl⟩
  case status => exact gives_whenMain rfl hmain ⟨rfl, rfl, rfl⟩
  case lock =>
    have hframe := endUnlock_frame 1 (tap 0x12 s)
    refine gives_whenMain rfl hmain ⟨?_, ?_, ?_⟩
    all_goals rw [hframe]
    all_goals rfl
  case challenge =>
    exact gives_whenMain rfl hmain ⟨rfl, rfl, length_challengeOf s, drop_challengeOf s, rfl, rfl⟩
  case extest =>
    refine gives_whenMain (f := fun s => if svFull s then portsDown (tap 0 s) else tap 0xFF s) rfl hmain ?_
    rw [if_pos hfull]
    have htap := tapSide_portsDown (tap 0 s)
    exact ⟨congrArg (·.1.instr) htap, fun p => portUp_portsDown p _, congrArg (·.2.1) htap, congrArg (·.2.2) htap⟩
  case refusedExtest =>
    refine gives_whenMain (f := fun s => if svFull s then portsDown (tap 0 s) else tap 0xFF s) rfl hmain ?_
    rw [if_neg (by simp [hfull])]
    rfl
  case failures => exact gives_whenMain rfl hmain (if_pos hfail)
  case unlock =>
    refine gives_whenMain rfl hmain ?_
    rw [svUnlock_of_token hfree hfail hgood]
    simp only [emit_survey, true_and]
    exact ⟨tokenGood_level hgood, emit_eq ..⟩
  case badToken =>
    refine gives_whenMain rfl hmain ?_
    rw [svUnlock_of_bad hfree hfail (tokenGood_of_refused hbad)]
    split
    · simp only [emit_survey]
      exact ⟨rfl, rfl, rfl, emit_eq ..⟩
    · exact ⟨rfl, rfl, rfl, rfl⟩
  case lockedMem =>
    refine gives_whenMain rfl hmain ?_
    rw [svMem_of_locked (by simp [svAccess, svSession_of_locked hlife hlevel])]
    rfl
  case lockedScan =>
    have hsession : svSession (tap 0x21 s) = false := svSession_of_locked hlife hlevel
    have hfull : svFull (tap 0x21 s) = false := by rw [svFull, hsession, Bool.false_and]
    refine gives_whenMain rfl hmain ?_
    simp only [svScan, hfull, Bool.false_eq_true, false_and, if_false]
    rfl
  case lockedCairn =>
    have hsession : svSession (tap 0x22 s) = false := svSession_of_locked hlife hlevel
    refine gives_whenMain rfl hmain ?_
    simp only [svCairn, hsession, Bool.false_eq_true, false_and, if_false]
    rfl
  case read =>
    refine gives_whenMain rfl hmain ?_
    rw [svMem_of_access hacc hfree]
    exact ⟨rfl, length_toLe .., rfl⟩
  case readTenant =>
    refine gives_whenMain rfl hmain ?_
    rw [svMem_of_access hacc hfree]
    exact congrArg (toLe 8) (svRead_of_stored (s := tap 0x20 s) (space_eq_two hspace) hx htenant)
  case writeTenant =>
    obtain ⟨hfrozen, htap⟩ := svMem_tenant hacc hfree (svTenant_of_stored (space_eq_two hspace) hx htenant)
    exact gives_whenMain rfl hmain
      ⟨hfrozen, congrArg (·.1.level) htap, congrArg (·.2.1) htap, congrArg (·.1.raw) htap, congrArg (·.2.2) htap⟩
  case writeRefused =>
    refine gives_whenMain rfl hmain ?_
    rw [svMem_of_access hacc hfree]
    simp only [Bool.not_true, Bool.false_eq_true, if_false, svTenant_of_other (space_ne_two hspace), hfull]
    rfl
  case write =>
    refine gives_whenMain rfl hmain ?_
    rw [svMem_of_access hacc hfree]
    simp only [Bool.not_true, Bool.false_eq_true, if_false, svTenant_of_other (space_ne_two hspace), hfull, if_true]
    exact ⟨rfl, tget_tset_same .., rfl⟩
  case scan =>
    have hfull' : svFull (tap 0x21 s) = true := hfull
    have hfree' : isFrozen (tap 0x21 s) surveyMaster = false := hfree
    refine gives_whenMain rfl hmain ?_
    simp only [svScan, hfull', hfree', Bool.not_false, and_self, if_true]
    exact ⟨rfl, length_toLe .., rfl⟩
  case cairn =>
    have hsession : svSession (tap 0x22 s) = true := Bool.or_eq_true_iff.mpr (.inr hlevel)
    have hfree' : isFrozen (tap 0x22 s) surveyMaster = false := hfree
    refine gives_whenMain rfl hmain ?_
    simp only [svCairn, hsession, hfree', Bool.not_false, hlow, hhigh, and_self, if_true]
    exact ⟨rfl, rfl⟩
  case production =>
    have h := svPromote_of_authorized (target := 2) (token := token) (s := s) (l := .production) (lvl := 1) rfl
      (by simp [promotion, tap, hlife, hlevel]) hmain hrunning hstep
    exact gives_whenMain rfl hmain ⟨h.life, h.locked, h.step, h.cause, h.resetInfo, h.sad, h.medium⟩
  case toReturn =>
    obtain ⟨⟨k, d, m, hside, hslots⟩, hparts⟩ := returned_returnUnit (tap 0x30 s)
    have h := svPromote_of_authorized (target := 3) (token := token) (s := s) (l := .ret) (lvl := fld token 0 1) rfl
      (by simp [promotion, tap, hlife, lifeCode, hok]) ((congrArg SurveySide.mainUp hside).trans hmain)
      ((congrArg (·.boot.running) hside).trans hrunning) ((congrArg (·.belay.step) hside).trans hstep)
    have hstores := congrArg (fun v : SurveySide => (v.keeper.root, v.sealCtl.slots, v.boot.secCounter, v.stored)) hside
    refine gives_whenMain rfl hmain ⟨h.life, h.locked, h.step, h.cause, ?_, ?_, fun p r hr => ?_, ?_, ?_⟩
    · exact h.root.trans (congrArg (·.1) hstores)
    · rw [h.sealCtl]
      exact (congrArg (·.2.1) hstores).trans hslots
    · rw [h.sad] at hr
      exact hparts p r hr
    · rw [h.boot]
      exact congrArg (·.2.2.1) hstores
    · exact h.stored.trans (congrArg (·.2.2.2) hstores)
  case scrapped =>
    have h := svPromote_of_authorized (target := 4) (token := token) (s := s) (l := .scrapped) (lvl := 2) rfl
      (by simp [promotion, tap, hlife, hlevel]) hmain hrunning hstep
    exact gives_whenMain rfl hmain ⟨h.life, h.locked, h.root, congrArg Boot.secCounter h.boot⟩
  case refused =>
    refine gives_whenMain rfl hmain (svPromote_of_refused fun l hl => ?_)
    obtain rfl : l = .scrapped := (Option.some.inj hl).symm
    simp [promotion, tap, hlife, hlevel]
  case noTransition =>
    refine gives_whenMain rfl hmain (svPromote_of_refused fun l hl => ?_)
    obtain rfl | rfl := lifeOf_low hn hl
    · rcases hlife with hlife | hlife <;> simp [promotion, tap, hlife]
    · rcases hlife with hlife | hlife <;> simp [promotion, tap, hlife]

end Sys2Proof.Machine

/-! SUPPORT. The window boundary (R127, R135, R267, R276): the state in which an idle bank starts its item, and what the start of a
read changes of its channel and of the machine. -/

namespace Sys2Proof.Machine

/-! ### Banks of a channel -/

@[simp] theorem bankOf_modBank_same (c b : Nat) (f : Bank → Bank) (s : State) :
    bankOf (chan (modBank c b f s) c) b = f (bankOf (chan s c) b) := by
  simp [modBank, bankOf]

theorem bankOf_modBank_ne {c d b e : Nat} (f : Bank → Bank) (s : State) (h : d ≠ c ∨ e ≠ b) :
    bankOf (chan (modBank c b f s) d) e = bankOf (chan s d) e := by
  by_cases hd : d = c
  · subst hd
    simp [modBank, bankOf, h.resolve_left (not_not_intro rfl)]
  · rw [modBank, chan_modChan_ne _ _ hd]

/-- A change of a bank depends on its effect on that bank alone. -/
theorem modBank_congr {c b : Nat} {f g : Bank → Bank} {s : State} (h : f (bankOf (chan s c) b) = g (bankOf (chan s c) b)) :
    modBank c b f s = modBank c b g s := by
  have hbanks : tmod (chan s c).banks b {} f = tmod (chan s c).banks b {} g := congrArg (tset _ b) h
  have hchan : tmod s.chans c {} (fun x => { x with banks := tmod x.banks b {} f }) =
      tmod s.chans c {} fun x => { x with banks := tmod x.banks b {} g } :=
    congrArg (fun l => tset s.chans c { chan s c with banks := l }) hbanks
  exact congrArg (fun l : Tbl Chan => { s with chans := l }) hchan

/-! ### Before the item starts -/

theorem emergencyAt_of_calm {c b : Nat} {s : State} (h : s.planner.emergency = false) : emergencyAt c b s = s := by
  simp [emergencyAt, h]

theorem abandonCheck_of_no_seq {c b w : Nat} {s : State} (h : (bankOf (chan s c) b).seq = none) : abandonCheck c b w s = s := by
  simp [abandonCheck, h]

theorem promote_of_no_reads {c b : Nat} {s : State} (h : (bankOf (chan s c) b).otherQ = []) : promote c b s = s := by
  simp [promote, h, forAll]

theorem dropSpec_of_no_reads {c b : Nat} {s : State} (h : (bankOf (chan s c) b).otherQ = []) : dropSpec c b s = modBank c b id s := by
  simp only [dropSpec, h, List.filter_nil, forAll, List.foldl_nil]
  refine modBank_congr ?_
  generalize bankOf (chan s c) b = x at h
  cases x
  simp_all

/-- The channel's mark of a window, and its STATUS strobe. -/
def markWindow (w : Nat) (x : Chan) : Chan := { x with window := w, bframe := statusFrame }

/-- R127: an idle bank with no pulse sequence and no best-effort read, outside a flush, starts its item at the boundary. -/
theorem windowBoundary_of_idle {c b w : Nat} {s : State} (hserves : inService (chan s c) = true) (hb : b < 128) (hw : w < 16)
    (hdie : (chan s c).diesOut.getLsbD (b / 16) = false) (hidle : (bankOf (chan s c) b).run = .idle)
    (hcalm : s.planner.emergency = false) (hseq : (bankOf (chan s c) b).seq = none) (hother : (bankOf (chan s c) b).otherQ = []) :
    windowBoundary c b w s = startItem c b w (modBank c b id (modChan c (markWindow w) s)) := by
  have hbank : bankOf (chan (modChan c (markWindow w) s) c) b = bankOf (chan s c) b := by rw [chan_modChan_same]; rfl
  have hstart : windowBoundary c b w s = startItem c b w (promote c b (dropSpec c b (abandonCheck c b w (emergencyAt c b
      (modChan c (markWindow w) s))))) := by
    simp [windowBoundary, hserves, hdie, hidle, Nat.not_le.mpr hb, Nat.not_le.mpr hw]
    rfl
  rw [hstart, emergencyAt_of_calm (s := modChan c (markWindow w) s) hcalm, abandonCheck_of_no_seq (by rw [hbank, hseq]),
    dropSpec_of_no_reads (by rw [hbank, hother]), promote_of_no_reads (by rw [bankOf_modBank_same, id, hbank, hother])]

/-- Two channels that differ in nothing that R131 and R135 count have the same host transfers to give. -/
theorem hostAvail_congr {x y : Chan} (w : Nat) (hhost : y.hostLeft = x.hostLeft) (hmaint : y.maintLeft = x.maintLeft)
    (hplan : y.plan = x.plan) (hbanks : ∀ b, bankOf y b = bankOf x b) : hostAvail y w = hostAvail x w := by
  simp only [hostAvail, claimed, hhost, hmaint, hplan, hbanks]

/-! ### The state at the boundary -/

/-- At a channel's window boundary: the window is marked and the strobe sent, and only banks of the channel have changed. -/
structure AtWindow (c w : Nat) (s u : State) : Prop where
  self : ∃ banks, chan u c = { markWindow w (chan s c) with banks := banks }
  others : ∀ d, d ≠ c → chan u d = chan s d
  rest : u = { s with chans := u.chans }

theorem atWindow_markWindow (c w : Nat) (s : State) : AtWindow c w s (modChan c (markWindow w) s) where
  self := ⟨_, chan_modChan_same ..⟩
  others _ h := chan_modChan_ne _ _ h
  rest := rfl

theorem AtWindow.modBank {c w : Nat} {s u : State} (h : AtWindow c w s u) (b : Nat) (f : Bank → Bank) :
    AtWindow c w s (modBank c b f u) where
  self := by
    obtain ⟨banks, hu⟩ := h.self
    exact ⟨_, (chan_modChan_same ..).trans (by rw [hu])⟩
  others d hd := (chan_modChan_ne _ _ hd).trans (h.others d hd)
  rest := congrArg (fun v : State => { v with chans := (Machine.modBank c b f u).chans }) h.rest

theorem isFast_atWindow {c w : Nat} {s u : State} (h : AtWindow c w s u) (ppa : Nat) : isFast u ppa = isFast s ppa := by
  rw [h.rest]; rfl

theorem driftSet_atWindow {c w : Nat} {s u : State} (h : AtWindow c w s u) (ppa : Nat) : driftSet u ppa = driftSet s ppa := by
  have hway : u.way = s.way := by rw [h.rest]
  have hclock : clockHours (chan u (ppaCh ppa)) = clockHours (chan s (ppaCh ppa)) := by
    by_cases hc : ppaCh ppa = c
    · obtain ⟨banks, hu⟩ := h.self
      rw [hc, hu]; rfl
    · rw [h.others _ hc]
  simp only [driftSet, segAge, hclock, hway]

/-! ### A read that starts -/

@[simp] theorem withOffsets_lpn (s : State) (r : RdItem) : (withOffsets s r).lpn = r.lpn := by unfold withOffsets; split <;> rfl
@[simp] theorem withOffsets_ppa (s : State) (r : RdItem) : (withOffsets s r).ppa = r.ppa := by unfold withOffsets; split <;> rfl
@[simp] theorem withOffsets_cls (s : State) (r : RdItem) : (withOffsets s r).cls = r.cls := by unfold withOffsets; split <;> rfl

theorem takeXfer_maint (x : Chan) : takeXfer true x = { x with maintLeft := x.maintLeft - 1 } := rfl

theorem hostLeft_takeXfer (x : Chan) : (takeXfer false x).hostLeft = x.hostLeft - 1 := by
  unfold takeXfer
  simp only [Bool.false_eq_true, if_false]
  split <;> simp [*]

@[simp] theorem window_takeXfer (m : Bool) (x : Chan) : (takeXfer m x).window = x.window := by
  unfold takeXfer; split <;> [rfl; split <;> rfl]

@[simp] theorem bframe_takeXfer (m : Bool) (x : Chan) : (takeXfer m x).bframe = x.bframe := by
  unfold takeXfer; split <;> [rfl; split <;> rfl]

@[simp] theorem banks_takeXfer (m : Bool) (x : Chan) : (takeXfer m x).banks = x.banks := by
  unfold takeXfer; split <;> [rfl; split <;> rfl]

/-- R319: the count of an array read changes the Waybill and the Reckoner alone. -/
theorem countArrayRead_eq (ppa : Nat) (s : State) : ∃ w k, countArrayRead ppa s = { s with way := w, reck := k } := by
  unfold countArrayRead
  dsimp only
  split
  · exact ⟨_, _, rfl⟩
  · split
    · exact ⟨_, _, rfl⟩
    · exact ⟨_, _, rfl⟩

theorem meter_eq (part : Nat) (f : Meter → Meter) (s : State) : ∃ k, meter part f s = { s with reck := k } := by
  unfold meter
  split
  · exact ⟨_, rfl⟩
  · exact ⟨_, rfl⟩

/-- R130, R259: what a read takes of its channel as it starts, and the output register that its array read fills. -/
def chargeRead (b : Nat) (out : Option Load) (cls : RdClass) (x : Chan) : Chan :=
  { takeXfer (cls == .maint) x with
    slotsLeft := if cls = .maint then x.slotsLeft - 2 else x.slotsLeft
    outs := match out with | some w => tset x.outs b w | none => tdel x.outs b }

/-- A bank whose channel has changed too, but for its banks, shows the bank's own change. -/
theorem bankOf_modBank_modChan (c b : Nat) (f : Bank → Bank) {g : Chan → Chan} {s : State}
    (hg : (g (chan s c)).banks = (chan s c).banks) : bankOf (chan (modBank c b f (modChan c g s)) c) b = f (bankOf (chan s c) b) := by
  rw [bankOf_modBank_same, chan_modChan_same, bankOf, hg, ← bankOf]

theorem chan_modBank_modChan (c b : Nat) (f : Bank → Bank) (g : Chan → Chan) (s : State) :
    ∃ banks, chan (modBank c b f (modChan c g s)) c = { g (chan s c) with banks := banks } :=
  ⟨_, (chan_modChan_same ..).trans (by rw [chan_modChan_same])⟩

/-- The bank's change as a read starts: what runs, its frame, and its retry register. -/
def startedBank (s : State) (again : Bool) (r : RdItem) (reads : Nat) (x : Bank) : Bank :=
  { x with run := .read { r with reads := reads }, frame := readFrame r.ppa (isFast s r.ppa) again (driftSet s r.ppa)
           retryReg := if again then r.offs else x.retryReg }

/-- R127, R268, R276: the start of a read: its transfer, its frame, its meter and its count. -/
theorem startRead_eq (c b : Nat) (again : Bool) (r : RdItem) (s : State) : ∃ w k, startRead c b again r s =
    { modBank c b (startedBank s again (withOffsets s r) (r.reads + 1))
        (modChan c (chargeRead b (loadAt s (withOffsets s r).ppa) (withOffsets s r).cls) s) with way := w, reck := k } := by
  have hmetered : ∃ v, startRead c b again r s = countArrayRead (withOffsets s r).ppa v ∧ ∃ k, v =
      { modBank c b (startedBank s again (withOffsets s r) (r.reads + 1))
          (modChan c (chargeRead b (loadAt s (withOffsets s r).ppa) (withOffsets s r).cls) s) with reck := k } := by
    refine ⟨_, by unfold startRead; rfl, ?_⟩
    split
    · exact meter_eq ..
    · exact meter_eq ..
    · exact ⟨_, rfl⟩
  obtain ⟨v, hstart, k, rfl⟩ := hmetered
  obtain ⟨w, k', hcount⟩ := countArrayRead_eq (withOffsets s r).ppa _
  exact ⟨w, k', hstart.trans hcount⟩

/-- What a bank and its channel show once a read of a queue has started at a window boundary. -/
structure ReadStarted (c b w : Nat) (again : Bool) (r : RdItem) (s t : State) : Prop where
  run : ∃ r', (bankOf (chan t c) b).run = .read r' ∧ r'.lpn = r.lpn ∧ r'.ppa = r.ppa ∧ r'.reads = r.reads + 1
  frame : (bankOf (chan t c) b).frame = readFrame r.ppa (isFast s r.ppa) again (driftSet s r.ppa)
  maint : r.cls = .maint → (chan t c).maintLeft = (chan s c).maintLeft - 1
  host : r.cls ≠ .maint → (chan t c).hostLeft = (chan s c).hostLeft - 1
  window : (chan t c).window = w
  strobe : (chan t c).bframe = statusFrame
  rest : t = { s with chans := t.chans, reck := t.reck, way := t.way }

/-- R127: the read that an idle bank starts at the boundary, and what it leaves of the bank's queues. -/
theorem readStarted_atWindow {c w : Nat} {s u : State} (h : AtWindow c w s u) (b : Nat) (again : Bool) (r : RdItem) :
    ReadStarted c b w again r s (startRead c b again r u) ∧
    (bankOf (chan (startRead c b again r u) c) b).retryQ = (bankOf (chan u c) b).retryQ ∧
    (bankOf (chan (startRead c b again r u) c) b).guarQ = (bankOf (chan u c) b).guarQ := by
  obtain ⟨way, reck, hstart⟩ := startRead_eq c b again r u
  obtain ⟨banks, hu⟩ := h.self
  obtain ⟨l, hchan⟩ := chan_modBank_modChan c b (startedBank u again (withOffsets u r) (r.reads + 1))
    (chargeRead b (loadAt u (withOffsets u r).ppa) (withOffsets u r).cls) u
  have hbank := bankOf_modBank_modChan c b (startedBank u again (withOffsets u r) (r.reads + 1))
    (g := chargeRead b (loadAt u (withOffsets u r).ppa) (withOffsets u r).cls) (s := u) (banks_takeXfer ..)
  generalize startRead c b again r u = t at hstart
  replace hchan : chan t c = _ := (congrArg (chan · c) hstart).trans hchan
  replace hbank : bankOf (chan t c) b = _ := (congrArg (fun x => bankOf (chan x c) b) hstart).trans hbank
  refine ⟨⟨⟨_, congrArg Bank.run hbank, by simp, by simp, rfl⟩, ?_, fun hm => ?_, fun hm => ?_, ?_, ?_, ?_⟩,
    by rw [hbank]; rfl, by rw [hbank]; rfl⟩
  · rw [hbank, ← isFast_atWindow h, ← driftSet_atWindow h, ← withOffsets_ppa u r]
    rfl
  · rw [hchan]; simp [chargeRead, hm, takeXfer_maint, hu, markWindow]
  · rw [hchan]; simp [chargeRead, beq_eq_false_iff_ne.mpr hm, hostLeft_takeXfer, hu, markWindow]
  · rw [hchan]; simp [chargeRead, hu, markWindow]
  · rw [hchan]; simp [chargeRead, hu, markWindow]
  · have ht : t = { u with chans := t.chans, reck := t.reck, way := t.way } := by rw [hstart]; rfl
    exact ht.trans (congrArg (fun x : State => { x with chans := t.chans, reck := t.reck, way := t.way }) h.rest)

/-! ### What the bank starts -/

/-- R127, R276: a waiting re-read whose transfer is left goes first. -/
theorem startItem_of_retry {c b w : Nat} {r : RdItem} {rest : List RdItem} {s : State} (hq : (bankOf (chan s c) b).retryQ = r :: rest)
    (hready : retryReady s c w r = true) :
    startItem c b w s = startRead c b true r (modBank c b (fun x => { x with retryQ := x.retryQ.erase r }) s) := by
  simp [startItem, hq, hready]

/-- R127: with no re-read, the oldest guaranteed read goes while the channel has a host transfer to give. -/
theorem startItem_of_guaranteed {c b w : Nat} {r : RdItem} {s : State} (hq : (bankOf (chan s c) b).retryQ = [])
    (havail : 0 < hostAvail (chan s c) w) (hold : oldest (bankOf (chan s c) b).guarQ = some r) :
    startItem c b w s = startRead c b false r (modBank c b (fun x => { x with guarQ := x.guarQ.erase r }) s) := by
  simp [startItem, hq, havail, hold]

/-- Settles O2: the boundary's own work leaves an idle bank's queues as they are, so that its item is the one that R127 names. -/
theorem windowBoundaryOrder : Obligations.WindowBoundaryOrder := by
  unfold Obligations.WindowBoundaryOrder
  intro s c b w hmain hserves hb hw hdie hidle hcalm hseq hother
  let u := modBank c b id (modChan c (markWindow w) s)
  have hu : AtWindow c w s u := (atWindow_markWindow c w s).modBank b id
  have hbanks (e : Nat) : bankOf (chan u c) e = bankOf (chan s c) e := by
    have hmarked : bankOf (chan (modChan c (markWindow w) s) c) e = bankOf (chan s c) e := by rw [chan_modChan_same]; rfl
    by_cases he : e = b
    · subst he
      exact (bankOf_modBank_same ..).trans hmarked
    · exact (bankOf_modBank_ne _ _ (.inr he)).trans hmarked
  have havail : hostAvail (chan u c) w = hostAvail (chan s c) w := by
    obtain ⟨banks, hself⟩ := hu.self
    exact hostAvail_congr w (by rw [hself]; rfl) (by rw [hself]; rfl) (by rw [hself]; rfl) hbanks
  have hstart := windowBoundary_of_idle hserves hb hw hdie hidle hcalm hseq hother
  refine ⟨fun r rest hretry hleft => ?retry, fun r hretry hleft hold => ?guaranteed⟩
  case retry =>
    refine gives_whenMain rfl hmain ?_
    have hready : retryReady u c w r = true := by
      obtain ⟨banks, hself⟩ := hu.self
      have hmaint : (chan u c).maintLeft = (chan s c).maintLeft := by rw [hself]; rfl
      rw [retryReady, hmaint, havail]
      split at hleft <;> simp [*]
    rw [hstart, startItem_of_retry (r := r) (rest := rest) ((congrArg Bank.retryQ (hbanks b)).trans hretry) hready]
    obtain ⟨ht, hretryQ, hguarQ⟩ := readStarted_atWindow (hu.modBank b fun x => { x with retryQ := x.retryQ.erase r }) b true r
    rw [bankOf_modBank_same, hbanks] at hretryQ hguarQ
    exact ⟨by simp [hretryQ, hretry], hguarQ, ht.run, ht.frame, ht.maint, ht.host, ht.window, ht.strobe, ht.rest⟩
  case guaranteed =>
    refine gives_whenMain rfl hmain ?_
    rw [hstart, startItem_of_guaranteed (r := r) ((congrArg Bank.retryQ (hbanks b)).trans hretry) (by rw [havail]; exact hleft)
      ((congrArg (fun x : Bank => oldest x.guarQ) (hbanks b)).trans hold)]
    obtain ⟨ht, -, hguarQ⟩ := readStarted_atWindow (hu.modBank b fun x => { x with guarQ := x.guarQ.erase r }) b false r
    rw [bankOf_modBank_same, hbanks] at hguarQ
    exact ⟨hguarQ, ht.run, ht.frame, ht.host, ht.window, ht.strobe, ht.rest⟩

end Sys2Proof.Machine

/-! SUPPORT. What the Stage planner's work leaves alone (R128, R299, R306): `Places`, what giving programs their locations keeps of
the machine, of its channels and of their pulse sequences, and `Abandons`, what ending sequences at a stage tick keeps. -/

namespace Sys2Proof.Machine

/-! ### Loops -/

/-- A loop stays in a reflexive and transitive relation in which its steps stay. -/
theorem forAll_rel {α : Type} {R : State → State → Prop} (hrefl : ∀ t, R t t) (htrans : ∀ {t u v}, R t u → R u v → R t v)
    {f : α → State → State} (hstep : ∀ a t, R t (f a t)) (l : List α) (s : State) : R s (forAll l f s) := by
  induction l generalizing s with
  | nil => exact hrefl s
  | cons a l ih => exact htrans (hstep a s) (ih (f a s))

/-- What each step of a loop makes true of its element, and no step undoes, holds of every element after the loop. -/
theorem forAll_establishes {α : Type} {Q : α → State → Prop} {f : α → State → State} (hmakes : ∀ a t, Q a (f a t))
    (hkeeps : ∀ a b t, Q a t → Q a (f b t)) {l : List α} {a : α} (ha : a ∈ l) (s : State) : Q a (forAll l f s) := by
  induction l generalizing s with
  | nil => cases ha
  | cons b l ih =>
    rcases List.mem_cons.mp ha with rfl | ha
    · exact forAll_rel (R := fun t u => Q a t → Q a u) (fun _ h => h) (fun h h' hq => h' (h hq)) (fun b t => hkeeps a b t) l _
        (hmakes a s)
    · exact ih ha (f b s)

/-! ### What is kept -/

/-- What the planner's work on programs leaves alone, with the settings of the stage. -/
structure StageSide where
  health : Health
  planner : Planner
  sealCtl : Seal
  medium : Medium
  sad : Saddle
  therm : Thermal
  boot : Boot
  keeper : Keeper

/-- The planner's settings: without the round-robin place, the credits, the shares set and the registers. -/
def stageSettings (p : Planner) : Planner :=
  { p with nextCh := 0, readCredit := [], writeCredit := [], sharesSet := [], templateReg := 0, forbidReg := 0, fHReg := 0 }

/-- The stage side of a state. -/
def stageSide (s : State) : StageSide :=
  { health := s.health, planner := stageSettings s.planner, sealCtl := s.sealCtl, medium := s.medium, sad := s.sad, therm := s.therm
    boot := s.boot, keeper := s.keeper }

/-- A channel without its banks, write buffer, open tiles and lanes. -/
def chanSide (x : Chan) : Chan := { x with banks := [], wbuf := [], openTiles := [], lanes := [] }

/-- The pulse sequence of a bank: what it is, what runs, and whether it is late. -/
def pulseOf (b : Bank) : Option PulseSeq × BankRun × Bool := (b.seq, b.run, b.late)

theorem inService_of_chanSide {x y : Chan} (h : chanSide x = chanSide y) : inService x = inService y := (congrArg inService h :)

theorem seq_of_pulseOf {x y : Bank} (h : pulseOf x = pulseOf y) : x.seq = y.seq := congrArg Prod.fst h

theorem run_of_pulseOf {x y : Bank} (h : pulseOf x = pulseOf y) : x.run = y.run := congrArg (·.2.1) h

theorem late_of_pulseOf {x y : Bank} (h : pulseOf x = pulseOf y) : x.late = y.late := congrArg (·.2.2) h

/-- What giving programs their locations keeps of a state. -/
structure Places (s t : State) : Prop where
  side : stageSide t = stageSide s
  chans : ∀ c, chanSide (chan t c) = chanSide (chan s c)
  pulses : ∀ c b, pulseOf (bankOf (chan t c) b) = pulseOf (bankOf (chan s c) b)
  parcels : t.way.parcels = s.way.parcels
  drover : t.way.drover = s.way.drover
  tail : s.way.tail ⊆ t.way.tail

theorem Places.refl (s : State) : Places s s := ⟨rfl, fun _ => rfl, fun _ _ => rfl, rfl, rfl, List.Subset.refl _⟩

theorem Places.trans {s t u : State} (h : Places s t) (h' : Places t u) : Places s u where
  side := h'.side.trans h.side
  chans c := (h'.chans c).trans (h.chans c)
  pulses c b := (h'.pulses c b).trans (h.pulses c b)
  parcels := h'.parcels.trans h.parcels
  drover := h'.drover.trans h.drover
  tail := List.Subset.trans h.tail h'.tail

theorem Places.forAll {α : Type} {f : α → State → State} (h : ∀ a t, Places t (f a t)) (l : List α) (s : State) :
    Places s (forAll l f s) := forAll_rel Places.refl Places.trans h l s

theorem Places.ite {c : Prop} [Decidable c] {s t u : State} (ht : Places s t) (hu : Places s u) : Places s (if c then t else u) := by
  split
  · exact ht
  · exact hu

/-- A change outside the channels and the Waybill. -/
theorem Places.of_way {s t : State} (hside : stageSide t = stageSide s) (hchans : t.chans = s.chans) (hway : t.way = s.way) :
    Places s t where
  side := hside
  chans c := by rw [chan, hchans, ← chan]
  pulses c b := by rw [chan, hchans, ← chan]
  parcels := by rw [hway]
  drover := by rw [hway]
  tail := by rw [hway]; exact List.Subset.refl _

/-! ### The shared updates -/

/-- A change of a channel's write buffer, open tiles or lanes. -/
theorem Places.modChan {f : Chan → Chan} {c : Nat} {s t : State} (h : Places s t) (hside : ∀ x, chanSide (f x) = chanSide x)
    (hbanks : ∀ x, (f x).banks = x.banks) : Places s (modChan c f t) := by
  have hchan (d : Nat) : chanSide (chan (Machine.modChan c f t) d) = chanSide (chan t d) ∧
      (chan (Machine.modChan c f t) d).banks = (chan t d).banks := by
    by_cases hd : d = c
    · subst hd
      rw [chan_modChan_same]
      exact ⟨hside _, hbanks _⟩
    · rw [chan_modChan_ne _ _ hd]
      exact ⟨rfl, rfl⟩
  refine h.trans ⟨rfl, fun d => (hchan d).1, fun d b => ?_, rfl, rfl, List.Subset.refl _⟩
  rw [bankOf, (hchan d).2, ← bankOf]

theorem chanSide_modBank (c b d : Nat) (f : Bank → Bank) (s : State) :
    chanSide (chan (modBank c b f s) d) = chanSide (chan s d) := by
  by_cases hd : d = c
  · subst hd
    rw [modBank, chan_modChan_same]
    rfl
  · rw [modBank, chan_modChan_ne _ _ hd]

/-- A change of a bank that leaves its pulse sequence. -/
theorem Places.modBank {f : Bank → Bank} {c b : Nat} {s t : State} (h : Places s t) (hpulse : ∀ x, pulseOf (f x) = pulseOf x) :
    Places s (modBank c b f t) := by
  refine h.trans ⟨rfl, fun d => chanSide_modBank c b d f t, fun d e => ?_, rfl, rfl, List.Subset.refl _⟩
  by_cases hde : d = c ∧ e = b
  · obtain ⟨rfl, rfl⟩ := hde
    rw [bankOf_modBank_same, hpulse]
  · rw [bankOf_modBank_ne _ _ (not_and_or.mp hde)]

theorem Places.planSeq {c b : Nat} {q : PulseSeq} {s t : State} (h : Places s t) : Places s (planSeq c b q t) :=
  h.modBank fun _ => rfl

/-- A change of the Waybill that leaves its journal parcels and the Drover's settings, and takes nothing off the tail. -/
theorem Places.way {w : Way} {s t : State} (h : Places s t) (hparcels : w.parcels = t.way.parcels) (hdrover : w.drover = t.way.drover)
    (htail : t.way.tail ⊆ w.tail) : Places s { t with way := w } :=
  h.trans ⟨rfl, fun _ => rfl, fun _ _ => rfl, hparcels, hdrover, htail⟩

theorem Places.modTile {k : Nat} {f : Tile → Tile} {s t : State} (h : Places s t) : Places s (modTile k f t) :=
  h.way rfl rfl (List.Subset.refl _)

theorem Places.journal {rs : List JRec} {s t : State} (h : Places s t) : Places s (journal rs t) :=
  h.way rfl rfl (List.subset_append_left ..)

theorem Places.modProg {w : MWork} {f : MProg → MProg} {s t : State} (h : Places s t) : Places s (modProg w f t) :=
  h.way rfl rfl (List.Subset.refl _)

theorem Places.meter {part : Nat} {f : Meter → Meter} {s t : State} (h : Places s t) : Places s (meter part f t) := by
  obtain ⟨k, hk⟩ := meter_eq part f t
  rw [hk]
  exact h.trans (.of_way rfl rfl rfl)

theorem Places.bump {code par n : Nat} {s t : State} (h : Places s t) : Places s (bump code par n t) :=
  h.trans (.of_way rfl rfl rfl)

theorem Places.uncharge {part pairs : Nat} {s t : State} (h : Places s t) : Places s (uncharge part pairs t) := h.meter

theorem Places.bumpBit {code par i : Nat} {s t : State} (h : Places s t) : Places s (bumpBit code par i t) :=
  h.trans (.of_way rfl rfl rfl)

theorem Places.bumpMin {code par n : Nat} {s t : State} (h : Places s t) : Places s (bumpMin code par n t) :=
  h.trans (.of_way rfl rfl rfl)

theorem Places.cache {x : Cache} {s t : State} (h : Places s t) : Places s { t with cache := x } :=
  h.trans (.of_way rfl rfl rfl)

theorem Places.bumpCh {code ch : Nat} {s t : State} (h : Places s t) : Places s (bumpCh code ch t) :=
  h.trans (.of_way rfl rfl rfl)

theorem places_setChg (i k : Nat) (s : State) : Places s (setChg i k s) := .of_way rfl rfl rfl

theorem places_emit (code inst a b c d : Nat) (s : State) : Places s (emit code inst a b c d s) := by
  unfold emit emitN
  split
  · exact .of_way rfl rfl rfl
  · exact .of_way rfl rfl rfl

theorem places_postEvent (lds : List Nat) (log : Nat) (e : EventRec) (s : State) : Places s (postEvent lds log e s) :=
  .ite (.refl s) (.of_way rfl rfl rfl)

/-- The entry of a key in a table whose entries change, where the change leaves the reset content. -/
theorem tgetD_tmap {α : Type} (t : Tbl α) (f : Nat → α → α) {k : Nat} {d : α} (h : f k d = d) :
    tgetD (tmap t f) k d = f k (tgetD t k d) := by
  rw [tgetD, tget_tmap, tgetD]
  cases tget t k <;> simp [h]

theorem chan_dropProgs (hit : MWork → Bool) (s : State) (c : Nat) : chan (dropProgs hit s) c = { chan s c with
    banks := tmap (chan s c).banks fun _ b => { b with planned := b.planned.filter fun q => !carries hit q } } :=
  tgetD_tmap s.chans (fun _ x => { x with
    banks := tmap x.banks fun _ b => { b with planned := b.planned.filter fun q => !carries hit q } }) rfl

theorem Places.dropProgs {hit : MWork → Bool} {s t : State} (h : Places s t) : Places s (dropProgs hit t) := by
  refine h.trans ⟨rfl, fun c => by rw [chan_dropProgs]; rfl, fun c b => ?_, rfl, rfl, List.Subset.refl _⟩
  rw [chan_dropProgs]
  exact (congrArg pulseOf
    (tgetD_tmap (chan t c).banks (fun _ b => { b with planned := b.planned.filter fun q => !carries hit q }) (d := {}) rfl)).trans rfl

/-! ### Tiles and locations -/

theorem places_openTile (ch b : Nat) (r : Role) (s : State) : Places s (openTile ch b r s) := by
  unfold openTile
  split
  · exact .refl s
  · exact .journal (.modChan (.modTile (.refl s)) (fun _ => rfl) fun _ => rfl)

theorem places_closeTile (ch b : Nat) (r : Role) (k : Nat) (s : State) : Places s (closeTile ch b r k s) :=
  .journal (.modChan (.modTile (.refl s)) (fun _ => rfl) fun _ => rfl)

theorem places_closeIfFull (ch b : Nat) (r : Role) (k : Nat) (s : State) : Places s (closeIfFull ch b r k s) :=
  .ite (places_closeTile ch b r k s) (.refl s)

theorem places_takeFresh {ch b n : Nat} {r : Role} {s : State} {x : Nat × State} (h : takeFresh ch b r n s = some x) :
    Places s x.2 := by
  obtain ⟨k, -, rfl⟩ := Option.map_eq_some_iff.mp h
  exact (places_openTile ch b r s).modTile.trans (places_closeIfFull ch b r k _)

theorem places_takeLoc {ch b n : Nat} {r : Role} {s : State} {x : Nat × State} (h : takeLoc ch b r n s = some x) : Places s x.2 := by
  unfold takeLoc at h
  split at h
  case h_1 => exact places_takeFresh h
  case h_2 k _ =>
    dsimp only at h
    split at h
    · exact (places_closeTile ch b r k s).trans (places_takeFresh h)
    · obtain rfl := Option.some.inj h
      exact (Places.refl s).modTile.trans (places_closeIfFull ch b r k _)

theorem places_placeHost {s : State} {x : Nat × Nat × State} (h : placeHost s = some x) : Places s x.2.2 := by
  unfold placeHost at h
  split at h
  case h_1 => cases h
  case h_2 c _ =>
    split at h
    case h_1 => cases h
    case h_2 =>
      obtain ⟨r, hr, rfl⟩ := Option.map_eq_some_iff.mp h
      have hnext : Places s { s with planner := { s.planner with nextCh := (c + 1) % 32 } } := .of_way rfl rfl rfl
      exact hnext.trans (places_takeLoc hr)

theorem places_fastPlace {n : Nat} {s : State} {cs : List Nat} {x : Nat × State} (h : fastPlace n s cs = some x) : Places s x.2 := by
  induction cs with
  | nil => cases h
  | cons c cs ih =>
    unfold fastPlace at h
    split at h
    case h_1 hr =>
      obtain rfl := Option.some.inj h
      obtain ⟨b, -, hb⟩ := Option.bind_eq_some_iff.mp hr
      exact places_takeLoc hb
    case h_2 => exact ih h

/-! ### Journal lanes (R306) -/

theorem places_laneTile {c : Nat} {s : State} {x : Nat × State} (h : laneTile c s = some x) : Places s x.2 := by
  unfold laneTile at h
  split at h
  case h_1 => cases h
  case h_2 =>
    obtain ⟨n, -, rfl⟩ := Option.map_eq_some_iff.mp h
    exact .journal (.modTile (.refl s))

theorem places_openLane {c l : Nat} {s : State} {x : (Nat × Nat) × State} (h : openLane c l s = some x) : Places s x.2 := by
  unfold openLane at h
  split at h
  case h_1 =>
    obtain rfl := Option.some.inj h
    exact .refl s
  case h_2 =>
    obtain ⟨a, ha, h⟩ := Option.bind_eq_some_iff.mp h
    obtain ⟨b, hb, rfl⟩ := Option.map_eq_some_iff.mp h
    exact .modChan ((places_laneTile ha).trans (places_laneTile hb)) (fun _ => rfl) fun _ => rfl

theorem places_nextLane (c l : Nat) (s : State) : Places s (nextLane c l s) := by
  unfold nextLane
  split
  case h_1 => exact .refl s
  case h_2 =>
    dsimp only
    split
    case h_1 h => exact .modChan (.trans (.journal (.modTile (.refl s))) (places_laneTile h)) (fun _ => rfl) fun _ => rfl
    case h_2 => exact .modChan (.journal (.modTile (.refl s))) (fun _ => rfl) fun _ => rfl

theorem places_laneLoc {c l : Nat} {s : State} {x : (Nat × Nat) × State} (h : laneLoc c l s = some x) : Places s x.2 := by
  obtain ⟨r, hr, rfl⟩ := Option.map_eq_some_iff.mp h
  refine .modTile (.trans ?_ (places_openLane hr))
  split
  · exact .ite (places_nextLane c l s) (.refl s)
  · exact .refl s

/-! ### Maintenance programs -/

theorem places_putProg (w : MWork) (ppa after : Nat) (s : State) : Places s (putProg w ppa after s) := by
  unfold putProg
  split
  · exact .refl s
  · exact .planSeq (.modProg (.refl s))

/-- R221, R299, R306, R382: a program gets its location, or waits on. -/
theorem places_placeProg (after : Nat) (w : MWork) (s : State) : Places s (placeProg after w s) := by
  have hfast {n : Nat} {cs : List Nat} {ppa : Nat} {t : State} (h : fastPlace n s cs = some (ppa, t)) :
      Places s (putProg w ppa after t) := (places_fastPlace h).trans (places_putProg w ppa after t)
  unfold placeProg
  split
  case h_1 =>
    split
    case h_1 h =>
      obtain ⟨ch, -, h⟩ := Option.bind_eq_some_iff.mp h
      exact .trans (.modProg (places_laneLoc h)) (places_putProg _ _ _ _)
    case h_2 => exact .refl s
  case h_2 =>
    split
    · exact .ite (places_putProg _ _ _ s) (.refl s)
    · exact .refl s
  case h_3 => exact .refl s
  case h_4 =>
    split
    case h_1 h => exact hfast h
    case h_2 => exact .refl s
  case h_5 =>
    split
    case h_1 h => exact hfast h
    case h_2 => exact .refl s

theorem places_askProg (w : MWork) (l : Load) (s : State) : Places s (askProg w l s) := by
  have hasked : Places s { s with way := { s.way with progs := s.way.progs ++ [{ work := w, load := l }] } } :=
    .way (.refl s) rfl rfl (List.Subset.refl _)
  exact hasked.trans (places_placeProg 0 w _)

theorem places_askSys (w : MWork) (space lpn n : Nat) (body : SysBody) (s : State) : Places s (askSys w space lpn n body s) := by
  have hsealed : Places s (sealSys space lpn n body s).2 := .way (.refl s) rfl rfl (List.Subset.refl _)
  exact hsealed.trans (places_askProg w _ _)

theorem places_placeWaiting (s : State) : Places s (placeWaiting s) := by
  refine .forAll (fun p t => ?_) _ s
  exact places_placeProg 0 p.work t

theorem places_copyLedger (s : State) : Places s (copyLedger s) := by
  unfold copyLedger
  split
  case h_1 => exact .refl s
  case h_2 =>
    exact .ite (.refl s) (.ite (.of_way rfl rfl rfl) (.forAll (fun p t => places_askProg _ _ t) _ s))

/-! ### Programs that go elsewhere (R128, R154, R288) -/

theorem places_reissue (lpn : Nat) (q : WbEntry) (fromCh : Nat) (sameCh : Bool) (s : State) :
    Places s (reissue lpn q fromCh sameCh s) := by
  unfold reissue
  dsimp only
  split
  case h_1 => exact .refl s
  case h_2 c ppa t h =>
    have hplaced : Places s t := by
      rcases (Option.orElse_eq_some ..).mp h with hhere | ⟨-, hany⟩
      · split at hhere
        · obtain ⟨b, -, hb⟩ := Option.bind_eq_some_iff.mp hhere
          obtain ⟨r, hr, hx⟩ := Option.map_eq_some_iff.mp hb
          cases hx
          exact places_takeLoc hr
        · cases hhere
      · exact places_placeHost hany
    exact .planSeq (.cache (.modChan (.modChan hplaced (fun _ => rfl) fun _ => rfl) (fun _ => rfl) fun _ => rfl))

theorem places_programElsewhere (c b lpn ppa : Nat) (s : State) : Places s (programElsewhere c b lpn ppa s) := by
  have hexcluded : Places s (modBank c b (fun x => { x with excludedUntil := s.planner.stage + 3 }) s) :=
    .modBank (.refl s) fun _ => rfl
  unfold programElsewhere
  dsimp only
  split
  · exact hexcluded
  · exact hexcluded.trans (places_reissue _ _ _ _ _)

theorem places_replaceUnplaced (s : State) : Places s (replaceUnplaced s) := by
  refine .forAll (fun c t => .forAll (fun w u => ?_) _ t) _ s
  exact places_reissue w.lpn w c false u

/-- R128, R281: a maintenance program is asked for again. -/
theorem places_remake (w : MWork) (ppa after : Nat) (s : State) : Places s (remake w ppa after s) := by
  have hopen : Places s (modProg w (fun p => { p with placed := false }) s) := .modProg (.refl s)
  have hagain := hopen.trans (places_placeProg after w _)
  unfold remake
  dsimp only
  split
  case h_1 =>
    split
    · exact .trans (.ite (hopen.trans (places_nextLane _ _ _)) hopen) (places_placeProg after _ _)
    · exact hopen
  case h_2 =>
    refine .ite ?_ ?_
    · exact .dropProgs (.way (.refl s) rfl rfl (List.Subset.refl _))
    · refine .way (.dropProgs ?_) rfl rfl (List.Subset.refl _)
      exact .way (.refl s) rfl rfl (List.Subset.refl _)
  case h_3 =>
    split
    · split
      · exact .dropProgs (.way (.refl s) rfl rfl (List.Subset.refl _))
      · exact hagain
    · exact hopen
  case h_4 => exact hagain

end Sys2Proof.Machine

/-! SUPPORT. The stage tick (R122, R128, R130, R137 to R143, R306, R592): the sequences that it abandons, the plans of its channels,
its health evaluation and the journal parcels that it fills. -/

namespace Sys2Proof.Machine

/-! ### Abandonment (R128, R153) -/

/-- What ending pulse sequences keeps of a state: no sequence but one that ends changes. -/
structure Abandons (s t : State) : Prop where
  side : stageSide t = stageSide s
  chans : ∀ c, chanSide (chan t c) = chanSide (chan s c)
  pulses : ∀ c b, (bankOf (chan t c) b).seq = none ∨ pulseOf (bankOf (chan t c) b) = pulseOf (bankOf (chan s c) b)

theorem Places.abandons {s t : State} (h : Places s t) : Abandons s t := ⟨h.side, h.chans, fun c b => .inr (h.pulses c b)⟩

theorem Abandons.refl (s : State) : Abandons s s := (Places.refl s).abandons

theorem Abandons.trans {s t u : State} (h : Abandons s t) (h' : Abandons t u) : Abandons s u where
  side := h'.side.trans h.side
  chans c := (h'.chans c).trans (h.chans c)
  pulses c b := by
    rcases h'.pulses c b with hnone | hsame
    · exact .inl hnone
    · rcases h.pulses c b with hnone | hsame'
      · exact .inl ((seq_of_pulseOf hsame).trans hnone)
      · exact .inr (hsame.trans hsame')

theorem abandons_endSeq (c b : Nat) (s : State) : Abandons s (endSeq c b s) where
  side := rfl
  chans d := chanSide_modBank c b d _ s
  pulses d e := by
    by_cases hde : d = c ∧ e = b
    · obtain ⟨rfl, rfl⟩ := hde
      exact .inl (congrArg Bank.seq (bankOf_modBank_same ..))
    · exact .inr (congrArg pulseOf (bankOf_modBank_ne _ s (not_and_or.mp hde)))

theorem places_abandonReset (c b t g : Nat) (fast : Bool) (attempt : Nat) (s : State) :
    Places (endSeq c b s) (abandonReset c b t g fast attempt s) := by
  unfold abandonReset
  dsimp only
  refine .ite (.modTile ?_) ?_ <;> exact .modBank (.refl _) fun _ => rfl

/-- R128: an abandonment ends the bank's sequence, and asks for its program or reset again. -/
theorem abandonSeq_cases (c b : Nat) (s : State) :
    ((bankOf (chan s c) b).seq = none ∧ abandonSeq c b s = s) ∨ Places (endSeq c b s) (abandonSeq c b s) := by
  unfold abandonSeq
  split
  case h_1 h => exact .inl ⟨h, rfl⟩
  case h_2 =>
    refine .inr (.trans ?_ (places_programElsewhere _ _ _ _ _))
    exact .bumpCh (.bump (.uncharge (.refl _)))
  case h_3 =>
    refine .inr (.trans ?_ (places_remake _ _ _ _))
    exact .bumpCh (.bump (.uncharge (.modBank (.refl _) fun _ => rfl)))
  case h_4 => exact .inr (.bumpCh (.bump (places_abandonReset _ _ _ _ _ _ _)))

theorem abandons_abandonSeq (c b : Nat) (s : State) : Abandons s (abandonSeq c b s) := by
  rcases abandonSeq_cases c b s with ⟨-, h⟩ | h
  · rw [h]
    exact .refl s
  · exact (abandons_endSeq c b s).trans h.abandons

theorem seq_abandonSeq (c b : Nat) (s : State) : (bankOf (chan (abandonSeq c b s) c) b).seq = none := by
  rcases abandonSeq_cases c b s with ⟨hnone, h⟩ | h
  · rw [h, hnone]
  · have hended : (bankOf (chan (endSeq c b s) c) b).seq = none := congrArg Bank.seq (bankOf_modBank_same ..)
    exact (seq_of_pulseOf (h.pulses c b)).trans hended

/-- R128: every sequence of a channel is one whose pulse runs. -/
def PulsesOnly (c : Nat) (s : State) : Prop := ∀ b, (bankOf (chan s c) b).seq ≠ none → (bankOf (chan s c) b).run = .pulse

theorem Abandons.pulsesOnly {c : Nat} {s t : State} (h : Abandons s t) (hs : PulsesOnly c s) : PulsesOnly c t := by
  intro b hb
  have hsame := (h.pulses c b).resolve_left hb
  have hrun : (bankOf (chan t c) b).run = (bankOf (chan s c) b).run := run_of_pulseOf hsame
  exact hrun.trans (hs b fun hnone => hb ((seq_of_pulseOf hsame).trans hnone))

/-- The banks of a channel whose sequence has no pulse running. -/
def idleSeqs (c : Nat) (s : State) : List Nat :=
  tkeys ((chan s c).banks.filter fun p => p.2.seq.isSome && p.2.run != .pulse)

theorem mem_idleSeqs {c b : Nat} {s : State} (hseq : (bankOf (chan s c) b).seq ≠ none) (hrun : (bankOf (chan s c) b).run ≠ .pulse) :
    b ∈ idleSeqs c s := by
  cases h : tget (chan s c).banks b with
  | none => simp [bankOf, tgetD, h] at hseq
  | some x =>
    have hx : bankOf (chan s c) b = x := by simp [bankOf, tgetD, h]
    rw [hx] at hseq hrun
    refine List.mem_map.mpr ⟨(b, x), List.mem_filter.mpr ⟨tget_mem h, ?_⟩, rfl⟩
    simp [Option.isSome_iff_ne_none, hseq, hrun]

theorem abandons_idleSeqs (c : Nat) (s : State) : Abandons s (forAll (idleSeqs c s) (abandonSeq c) s) :=
  forAll_rel Abandons.refl Abandons.trans (fun b t => abandons_abandonSeq c b t) _ s

theorem pulsesOnly_idleSeqs (c : Nat) (s : State) : PulsesOnly c (forAll (idleSeqs c s) (abandonSeq c) s) := by
  intro b hb
  by_contra hrun
  have hkept := ((abandons_idleSeqs c s).pulses c b).resolve_left hb
  have hseq' : (bankOf (chan s c) b).seq ≠ none := fun hnone => hb ((seq_of_pulseOf hkept).trans hnone)
  have hrun' : (bankOf (chan s c) b).run ≠ .pulse := fun hpulse => hrun ((run_of_pulseOf hkept).trans hpulse)
  refine hb (forAll_establishes (Q := fun b t => (bankOf (chan t c) b).seq = none) (fun b t => seq_abandonSeq c b t)
    (fun b d t ht => ?_) (mem_idleSeqs hseq' hrun') s)
  rcases (abandons_abandonSeq c d t).pulses c b with hnone | hsame
  · exact hnone
  · exact (seq_of_pulseOf hsame).trans ht

theorem abandons_abandonIdle (s : State) : Abandons s (abandonIdle s) :=
  forAll_rel Abandons.refl Abandons.trans (fun c t => abandons_idleSeqs c t) _ s

/-- R128, R153: after the end of a stage a channel in service has no sequence but those whose pulse runs. -/
theorem pulsesOnly_abandonIdle {c : Nat} {s : State} (hc : c < 32) (hserves : inService (chan s c) = true) :
    PulsesOnly c (abandonIdle s) :=
  forAll_establishes (Q := PulsesOnly) (fun c t => pulsesOnly_idleSeqs c t) (fun _ d t h => (abandons_idleSeqs d t).pulsesOnly h)
    (List.mem_filter.mpr ⟨List.mem_range.mpr hc, hserves⟩) s

/-! ### Plans (R130, R132, R139, R141) -/

/-- The settings that a plan of a channel runs under: the share, f_h, f_w and the write-forbid state. -/
structure PlanUnder (x : Chan) (k fh : Nat) (p : Plan) : Prop where
  m : p.m = transfers x * k / 16
  hEff : p.hEff = (transfers x - p.m) * fh / 1024
  fW : p.fW = x.fW
  forbid : p.forbid = forbidden x

/-- A plan without what its requests take. -/
def planSettings (p : Plan) : Plan := { p with seqs := [], hostSlots := [], slots := 0, m := 0 }

theorem planSettings_placeReq (keep : PulseSeq → Nat) (p : Plan) (r : Nat × PulseSeq) :
    planSettings (placeReq keep p r) = planSettings p := by
  unfold placeReq
  dsimp only
  split
  · rfl
  · rfl

theorem planSettings_foldl (keep : PulseSeq → Nat) (rs : List (Nat × PulseSeq)) (p : Plan) :
    planSettings (rs.foldl (placeReq keep) p) = planSettings p := by
  induction rs generalizing p with
  | nil => rfl
  | cons r rs ih => exact (ih _).trans (planSettings_placeReq keep p r)

theorem planUnder_planOver (s : State) (c k : Nat) (rs : List (Nat × PulseSeq)) :
    PlanUnder (chan s c) k s.therm.fH (planOver s c k rs) := by
  unfold planOver
  dsimp only
  split
  · exact ⟨rfl, rfl, rfl, rfl⟩
  · have h := planSettings_foldl (fun q => if travSeq s c q then 0 else travFloor s c (maintTransfers (chan s c) k)) rs
      { hEff := hEff (chan s c) k s.therm.fH, fH := s.therm.fH, fW := (chan s c).fW, m := maintTransfers (chan s c) k
        forbid := forbidden (chan s c), slots := 2 * chanBanks (chan s c) * k }
    exact ⟨rfl, congrArg Plan.hEff h, congrArg Plan.fW h, congrArg Plan.forbid h⟩

/-- R141: a plan of a write-forbidden channel places nothing. -/
theorem seqs_planOver_of_forbidden {s : State} {c : Nat} (h : forbidden (chan s c) = true) (k : Nat) (rs : List (Nat × PulseSeq)) :
    (planOver s c k rs).seqs = [] := by
  simp [planOver, h]

theorem planUnder_tickPlan (s : State) (c : Nat) (x : Chan) :
    PlanUnder (chan s c) s.planner.maintShare s.therm.fH (tickPlan s c x) := by
  unfold tickPlan
  split
  · dsimp only
    split
    · exact planUnder_planOver ..
    · exact planUnder_planOver ..
  · obtain ⟨hm, hhost, hfw, hforbid⟩ := planUnder_planOver s c s.planner.maintShare []
    exact ⟨hm, hhost, hfw, hforbid⟩

/-! ### The channels at a tick -/

/-- The planner as a stage starts (R122, R130, R133). -/
def tickPlanner (s : State) : Planner :=
  { s.planner with
    stage := s.planner.stage + 1, cycle := 0, maintShare := s.planner.snapShare, shares := s.planner.snapShares
    maintPending := if s.planner.maintPending = s.planner.snapShare then 0 else s.planner.maintPending }

/-- The state in which the channels start their stage. -/
def tickStart (s : State) : State :=
  urgentCount { abandonIdle s with planner := tickPlanner s, way := { s.way with drover := s.sad.img.drover } }

/-- Every channel starts its stage. -/
def startChans (u : State) : State := { u with chans := tmap u.chans (tickChan u) }

theorem stageTick_eq (s : State) : stageTick s =
    placeWaiting (copyLedger (journalFill (alertCheck (healthTick (replaceUnplaced (plannerRegs (accrue (startChans (tickStart s))))))))) := rfl

theorem places_urgentCount (s : State) : Places s (urgentCount s) := by
  unfold urgentCount
  dsimp only
  split
  · exact .refl s
  · exact .bumpMin (.trans (.bump (.refl s)) (.forAll (fun c t => .bumpBit (.refl t)) _ _))

/-- The end of the old stage: the machine's side stays, the planner's settings and the Drover's come into force. -/
theorem tickStart_spec (s : State) : Abandons { s with planner := tickPlanner s } (tickStart s) ∧
    (tickStart s).way.drover = s.sad.img.drover ∧ s.way.tail ⊆ (tickStart s).way.tail := by
  have hcount : Places { abandonIdle s with planner := tickPlanner s, way := { s.way with drover := s.sad.img.drover } } (tickStart s) :=
    places_urgentCount _
  have hidle := abandons_abandonIdle s
  have hside : stageSide { abandonIdle s with planner := tickPlanner s } = stageSide { s with planner := tickPlanner s } :=
    congrArg (fun v : StageSide => { v with planner := stageSettings (tickPlanner s) }) hidle.side
  have hended : Abandons { s with planner := tickPlanner s }
      { abandonIdle s with planner := tickPlanner s, way := { s.way with drover := s.sad.img.drover } } :=
    ⟨hside, hidle.chans, hidle.pulses⟩
  exact ⟨hended.trans hcount.abandons, hcount.drover, hcount.tail⟩

theorem chan_startChans (u : State) (c : Nat) : chan (startChans u) c = tickChan u c (chan u c) :=
  tgetD_tmap _ _ rfl

/-- A channel in service as its stage starts (R122, R130, R132, R140). -/
structure StageStarted (s : State) (x y : Chan) : Prop where
  window : y.window = 0
  host : y.hostLeft = y.plan.hEff
  maint : y.maintLeft = y.plan.m
  plan : PlanUnder x s.planner.snapShare s.therm.fH y.plan
  template : y.template = x.published.isNone
  published : y.published = none

theorem tickChan_of_serving {s : State} {c : Nat} {x : Chan} (h : inService x = true) : tickChan s c x = { x with
    plan := tickPlan s c x, template := x.published.isNone, published := none, building := none
    hostLeft := (tickPlan s c x).hEff, maintLeft := (tickPlan s c x).m, slotsLeft := (tickPlan s c x).slots, progStarted := 0
    window := 0, tempMissStages := x.tempMissStages + 1, bframe := tempFrame, banks := tmap x.banks fun _ b => tickBank b } :=
  if_neg (by simp [h])

theorem inService_tickChan (s : State) (c : Nat) (x : Chan) : inService (tickChan s c x) = inService x := by
  by_cases hin : inService x = true
  · rw [tickChan_of_serving hin]
    rfl
  · rw [tickChan, if_pos (by simpa using hin)]

theorem stageStarted_tickChan {s u : State} (hkept : Abandons { s with planner := tickPlanner s } u) {c : Nat}
    (hserves : inService (chan s c) = true) : StageStarted s (chan s c) (tickChan u c (chan u c)) := by
  have hside : chanSide (chan u c) = chanSide (chan s c) := hkept.chans c
  have hin : inService (chan u c) = true := (inService_of_chanSide hside).trans hserves
  have hplan := planUnder_tickPlan u c (chan u c)
  have hshare : u.planner.maintShare = s.planner.snapShare := congrArg (·.planner.maintShare) hkept.side
  have hfh : u.therm = s.therm := congrArg StageSide.therm hkept.side
  have htransfers : transfers (chan u c) = transfers (chan s c) := (congrArg transfers hside :)
  rw [hshare, hfh] at hplan
  rw [tickChan_of_serving hin]
  refine ⟨rfl, rfl, rfl, ⟨?_, ?_, ?_, ?_⟩, ?_, rfl⟩
  · exact hplan.m.trans (by rw [htransfers])
  · exact hplan.hEff.trans (by rw [htransfers])
  · exact hplan.fW.trans (congrArg Chan.fW hside :)
  · exact hplan.forbid.trans (congrArg forbidden hside :)
  · exact (congrArg (fun x : Chan => x.published.isNone) hside :)

/-- R128: a sequence that goes on into the stage is late, if its pulse still runs. -/
theorem late_tickChan {u : State} {c b : Nat} (hin : inService (chan u c) = true) (hpulses : PulsesOnly c u)
    (hseq : (bankOf (tickChan u c (chan u c)) b).seq ≠ none) : (bankOf (tickChan u c (chan u c)) b).late = true := by
  have hbank : bankOf (tickChan u c (chan u c)) b = tickBank (bankOf (chan u c) b) := by
    rw [tickChan_of_serving hin]
    exact tgetD_tmap (chan u c).banks (fun _ => tickBank) rfl
  rw [hbank] at hseq ⊢
  exact beq_iff_eq.mpr (hpulses b hseq)

theorem pulsesOnly_tickStart {s : State} {c : Nat} (hc : c < 32) (hserves : inService (chan s c) = true) :
    PulsesOnly c (tickStart s) := by
  have hidle : PulsesOnly c { abandonIdle s with planner := tickPlanner s, way := { s.way with drover := s.sad.img.drover } } :=
    pulsesOnly_abandonIdle hc hserves
  exact (places_urgentCount _).abandons.pulsesOnly hidle

/-! ### Health and alerts (R43, R328, R407, R592) -/

/-- A health state put in before an operation is there after it. -/
theorem Places.withHealth {s t : State} (h : Places s t) (x : Health) : Places { s with health := x } { t with health := x } :=
  ⟨congrArg (fun v : StageSide => { v with health := x }) h.side, h.chans, h.pulses, h.parcels, h.drover, h.tail⟩

theorem Places.modLd {k : Nat} {f : Ld → Ld} {s t : State} (h : Places s t) : Places s (modLd k f t) :=
  h.trans (.of_way rfl rfl rfl)

theorem places_activateLds (p : Nat) (s : State) : Places s (activateLds p s) :=
  .ite (.forAll (fun _ t => .modLd (.refl t)) _ s) (.refl s)

theorem places_healthRecord (old new : Nat) (conds changed : BitVec 12) (s : State) :
    Places s (healthRecord old new conds changed s) :=
  .ite (places_emit ..) (.trans (places_emit ..) (places_postEvent ..))

theorem places_spentCheck (s : State) : ∃ h, Places { s with health := h } (spentCheck s) := by
  unfold spentCheck
  split
  · exact ⟨s.health, .refl s⟩
  · exact ⟨_, places_emit ..⟩

/-- R43: an evaluation moves the health state to that of the conditions, and is otherwise reported only. -/
theorem places_evalHealth (c : BitVec 12) (s : State) :
    ∃ q, Places { s with health := { s.health with st := stateOf c, conds := c, seq := q } } (evalHealth c s) := by
  unfold evalHealth
  dsimp only
  split
  case isTrue hsame =>
    obtain ⟨hst, rfl⟩ := hsame
    rw [hst]
    exact ⟨s.health.seq, .refl s⟩
  case isFalse =>
    let u : State := { s with health := { s.health with st := stateOf c, conds := c, seq := p32 (s.health.seq + 1) } }
    have hflags : Places u (forAll (tkeys u.ports.lds) (setChg 0) u) := .forAll (fun k t => places_setChg 0 k t) _ u
    refine ⟨p32 (s.health.seq + 1), .ite (.trans (.ite hflags ?_) (.forAll (fun p t => places_activateLds p t) _ _)) (.ite hflags ?_)⟩
    all_goals exact hflags.trans (places_healthRecord _ _ _ _ _)

/-- R43, R592: what the evaluation of a tick leaves. -/
theorem places_healthTick (s : State) : ∃ h, Places { s with health := h } (healthTick s) ∧
    (s.boot.running = true → s.boot.step1 = true → s.sad.recalling = false → h.st = stateOf s.health.seen ∧ h.conds = s.health.seen) := by
  by_cases hwaits : (s.boot.running && (!s.boot.step1 || s.sad.recalling)) = true
  · have hnone : healthTick s = s := if_pos hwaits
    refine ⟨s.health, by rw [hnone]; exact .refl s, fun hrun hstep hrecall => ?_⟩
    simp [hrun, hstep, hrecall] at hwaits
  by_cases hdark : (!s.boot.running && s.health.st == 7) = true
  · have hnone : healthTick s = s := (if_neg hwaits).trans (if_pos hdark)
    refine ⟨s.health, by rw [hnone]; exact .refl s, fun hrun _ _ => ?_⟩
    simp [hrun] at hdark
  · have heval : healthTick s = evalHealth s.health.seen (spentCheck s) := (if_neg hwaits).trans (if_neg hdark)
    obtain ⟨h, hspent⟩ := places_spentCheck s
    obtain ⟨q, hnew⟩ := places_evalHealth s.health.seen (spentCheck s)
    exact ⟨_, heval ▸ (hspent.withHealth _).trans hnew, fun _ _ _ => ⟨rfl, rfl⟩⟩

theorem places_alertCheck (s : State) : Places s (alertCheck s) := by
  refine .forAll (fun k t => ?_) _ s
  exact .ite (.modLd (.refl t)) (.trans (.modLd (.refl t)) (places_postEvent _ _ _ _))

/-! ### Journal parcels (R306) -/

/-- Every waiting record goes into a parcel. -/
theorem mem_fillParcels {r : JRec} (fuel j : Nat) (rs : List JRec) (hr : r ∈ rs) (hfuel : rs.length ≤ fuel) :
    ∃ p ∈ fillParcels fuel j rs, r ∈ p.recs := by
  induction fuel generalizing j rs with
  | zero => simp_all
  | succ fuel ih =>
    cases rs with
    | nil => cases hr
    | cons x rs =>
      rw [← List.take_append_drop 15 (x :: rs), List.mem_append] at hr
      rcases hr with htake | hdrop
      · exact ⟨_, List.mem_cons_self, htake⟩
      · have hshort : ((x :: rs).drop 15).length ≤ fuel := by
          simp only [List.length_drop, List.length_cons] at hfuel ⊢
          omega
        obtain ⟨p, hp, hrp⟩ := ih (j + 1) _ hdrop hshort
        exact ⟨p, List.mem_cons_of_mem _ hp, hrp⟩

theorem places_askJournal (p : JParcel) (s : State) : Places s (askJournal p s) := by
  refine .forAll (fun c t => ?_) _ s
  exact places_askSys _ _ _ _ _ t

/-- R306, R210, R330: the records that wait at a tick go into parcels, unless nothing may be programmed. -/
theorem places_journalFill (s : State) : ∃ w, Places { s with way := w } (journalFill s) ∧ w.drover = s.way.drover ∧
    (s.sealCtl.zeroed = false → s.boot.recovering = false → serving s ≠ [] → s.health.st ≠ 5 → s.health.st ≠ 6 →
      ∀ r ∈ s.way.tail, ∃ p ∈ w.parcels, r ∈ p.recs) := by
  unfold journalFill
  split
  case isTrue hheld =>
    refine ⟨s.way, .refl s, rfl, fun hkeys hmap hserves hread hbivouac => ?_⟩
    simp [hkeys, hmap, hserves, hread, hbivouac] at hheld
  case isFalse =>
    refine ⟨_, .forAll (fun p t => places_askJournal p t) _ _, rfl, fun _ _ _ _ _ r hr => ?_⟩
    obtain ⟨p, hp, hrp⟩ := mem_fillParcels s.way.tail.length s.way.jseq s.way.tail hr le_rfl
    exact ⟨p, List.mem_append_right _ hp, hrp⟩

/-! ### After the channels have started -/

theorem places_accrueOne (s : State) (part r w c : Nat) (t : State) : Places t (accrueOne s part r w c t) :=
  .meter (.of_way rfl rfl rfl)

theorem places_accrue (s : State) : Places s (accrue s) := by
  have hdropped : Places s (dropCredits s) := .of_way rfl rfl rfl
  refine hdropped.trans (.forAll (fun p t => .forAll (fun c u => ?_) _ t) _ _)
  exact places_accrueOne s p.1 p.2.1 p.2.2 c u

theorem places_plannerRegs (s : State) : Places s (plannerRegs s) := .of_way rfl rfl rfl

theorem serving_congr {s t : State} (h : ∀ c, inService (chan t c) = inService (chan s c)) : serving t = serving s :=
  List.filter_congr fun c _ => h c

/-- What the rest of a stage tick makes of the state in which the channels have started. -/
structure Ticked (u t : State) : Prop where
  side : stageSide t = { stageSide u with health := t.health }
  chans : ∀ c, chanSide (chan t c) = chanSide (chan u c)
  pulses : ∀ c b, pulseOf (bankOf (chan t c) b) = pulseOf (bankOf (chan u c) b)
  health : u.boot.running = true → u.boot.step1 = true → u.sad.recalling = false →
    t.health.st = stateOf u.health.seen ∧ t.health.conds = u.health.seen
  drover : t.way.drover = u.way.drover
  journal : u.sealCtl.zeroed = false → u.boot.recovering = false → serving u ≠ [] → t.health.st ≠ 5 → t.health.st ≠ 6 →
    ∀ r ∈ u.way.tail, ∃ p ∈ t.way.parcels, r ∈ p.recs

theorem ticked (u : State) : Ticked u
    (placeWaiting (copyLedger (journalFill (alertCheck (healthTick (replaceUnplaced (plannerRegs (accrue u)))))))) := by
  have hplaced := ((places_accrue u).trans (places_plannerRegs _)).trans (places_replaceUnplaced _)
  generalize replaceUnplaced (plannerRegs (accrue u)) = v at hplaced
  obtain ⟨h, hhealth, hstate⟩ := places_healthTick v
  replace hhealth := (hplaced.withHealth h).trans (hhealth.trans (places_alertCheck _))
  generalize alertCheck (healthTick v) = x at hhealth
  obtain ⟨w, hjournal, hdrover, hparcels⟩ := places_journalFill x
  replace hjournal := (hjournal.trans (places_copyLedger _)).trans (places_placeWaiting _)
  generalize placeWaiting (copyLedger (journalFill x)) = t at hjournal
  have hside : stageSide t = { stageSide u with health := h } := hjournal.side.trans hhealth.side
  have hth : t.health = h := congrArg StageSide.health hside
  have hxh : x.health = h := congrArg StageSide.health hhealth.side
  have hserving : serving x = serving u := serving_congr fun c => inService_of_chanSide (hhealth.chans c)
  have hv : v.boot = u.boot ∧ v.sad = u.sad ∧ v.health = u.health :=
    ⟨congrArg StageSide.boot hplaced.side, congrArg StageSide.sad hplaced.side, congrArg StageSide.health hplaced.side⟩
  obtain ⟨hvboot, hvsad, hvhealth⟩ := hv
  rw [hvboot, hvsad, hvhealth, ← hth] at hstate
  refine ⟨hth ▸ hside, fun c => (hjournal.chans c).trans (hhealth.chans c), fun c b => (hjournal.pulses c b).trans (hhealth.pulses c b),
    hstate, hjournal.drover.trans (hdrover.trans hhealth.drover), fun hkeys hmap hserves hread hbivouac r hr => ?_⟩
  have hxkeys : x.sealCtl = u.sealCtl := congrArg StageSide.sealCtl hhealth.side
  have hxboot : x.boot = u.boot := congrArg StageSide.boot hhealth.side
  rw [hjournal.parcels]
  refine hparcels (hxkeys ▸ hkeys) (hxboot ▸ hmap) (hserving ▸ hserves) ?_ ?_ r (hhealth.tail hr)
  · rwa [hxh, ← hth]
  · rwa [hxh, ← hth]

end Sys2Proof.Machine

/-! SUPPORT. Snapshots, publications and missed deadlines (R133, R137, R138, R143, R157). -/

namespace Sys2Proof.Machine

/-! ### Plans that are built (R133, R138) -/

theorem chan_planSnapshot (s : State) (c : Nat) : chan (planSnapshot s) c =
    if inService (chan s c) then
      { chan s c with building := some (buildPlan s (planSnapshot s).planner.snapShare c), published := none }
    else chan s c :=
  tgetD_tmap s.chans (fun c x => if inService x then
    { x with building := some (buildPlan s (planSnapshot s).planner.snapShare c), published := none } else x) rfl

/-! ### Plans that miss (R138, R157) -/

/-- A channel whose plan has missed the deadline. -/
def missed (x : Chan) : Chan := { x with building := none, published := none, missRun := x.missRun + 1 }

theorem chan_planMiss_same (c : Nat) (s : State) : chan (planMiss c s) c = missed (chan s c) :=
  (chan_modChan_same c missed s :)

theorem chan_planMiss_ne {c d : Nat} (s : State) (h : d ≠ c) : chan (planMiss c s) d = chan s d :=
  (chan_modChan_ne missed s h :)

theorem chan_forAll_planMiss {l : List Nat} (hl : l.Nodup) (s : State) (c : Nat) :
    chan (forAll l planMiss s) c = if c ∈ l then missed (chan s c) else chan s c := by
  induction l generalizing s with
  | nil => rfl
  | cons d l ih =>
    obtain ⟨hd, hl⟩ := List.nodup_cons.mp hl
    refine (ih hl (planMiss d s)).trans ?_
    by_cases hc : c = d
    · subst hc
      rw [if_neg hd, if_pos List.mem_cons_self, chan_planMiss_same]
    · simp only [List.mem_cons, hc, false_or, chan_planMiss_ne s hc]

/-- A missed plan changes channels and the counts of the period alone. -/
theorem forAll_planMiss_eq (l : List Nat) (s : State) : forAll l planMiss s =
    { s with chans := (forAll l planMiss s).chans, reck := { s.reck with counts := (forAll l planMiss s).reck.counts } } :=
  forAll_rel (R := fun t u => u = { t with chans := u.chans, reck := { t.reck with counts := u.reck.counts } }) (fun _ => rfl)
    (fun {_ _ v} h h' => h'.trans (congrArg (fun x : State =>
      { x with chans := v.chans, reck := { x.reck with counts := v.reck.counts } }) h)) (fun _ _ => rfl) l s

/-! ### The stage tick -/

theorem StageStarted.congr {s : State} {x y z : Chan} (h : StageStarted s x y) (hside : chanSide z = chanSide y) :
    StageStarted s x z := by
  obtain ⟨hwindow, hhost, hmaint, ⟨hm, hheff, hfw, hforbid⟩, htemplate, hpublished⟩ := h
  have hy : StageStarted s x (chanSide y) := ⟨hwindow, hhost, hmaint, ⟨hm, hheff, hfw, hforbid⟩, htemplate, hpublished⟩
  obtain ⟨hwindow, hhost, hmaint, ⟨hm, hheff, hfw, hforbid⟩, htemplate, hpublished⟩ := hside ▸ hy
  exact ⟨hwindow, hhost, hmaint, ⟨hm, hheff, hfw, hforbid⟩, htemplate, hpublished⟩

/-- The state of a tick in which every channel in service has started its stage (R122, R128, R133). -/
structure Opens (s u : State) : Prop where
  side : stageSide u = stageSide { s with planner := tickPlanner s }
  serving : serving u = serving s
  drover : u.way.drover = s.sad.img.drover
  tail : s.way.tail ⊆ u.way.tail
  started : ∀ c, inService (chan s c) = true → StageStarted s (chan s c) (chan u c)
  late : ∀ c, c < 32 → inService (chan s c) = true → ∀ b, (bankOf (chan u c) b).seq ≠ none → (bankOf (chan u c) b).late = true

theorem opens_startChans {s u : State} (hkept : Abandons { s with planner := tickPlanner s } u)
    (hdrover : u.way.drover = s.sad.img.drover) (htail : s.way.tail ⊆ u.way.tail)
    (hpulses : ∀ c, c < 32 → inService (chan s c) = true → PulsesOnly c u) : Opens s (startChans u) := by
  have hin (c : Nat) : inService (chan u c) = inService (chan s c) := inService_of_chanSide (hkept.chans c)
  refine ⟨hkept.side, serving_congr fun c => ?_, hdrover, htail, fun c hserves => ?_, fun c hc hserves b => ?_⟩
  · rw [chan_startChans, inService_tickChan, hin]
  · rw [chan_startChans]
    exact stageStarted_tickChan hkept hserves
  · rw [chan_startChans]
    exact late_tickChan ((hin c).trans hserves) (hpulses c hc hserves)

/-- A tick outside a recovery of the map opens the stage, and goes on from there. -/
theorem ticked_stageTick {s : State} (hmap : s.boot.recovering = false) :
    ∃ u, Opens s u ∧ Ticked u (stageTick (recoverStep s)) := by
  have hstep : recoverStep s = s := if_pos (by simp [hmap])
  rw [hstep, stageTick_eq]
  obtain ⟨hkept, hdrover, htail⟩ := tickStart_spec s
  exact ⟨_, opens_startChans hkept hdrover htail fun _ hc hserves => pulsesOnly_tickStart hc hserves, ticked _⟩

/-- Settles O1. That the health conditions are those at the end of the last cycle is the model's choice (log 78). -/
theorem stageRows : Obligations.StageRows := by
  unfold Obligations.StageRows
  refine ⟨fun s hmain hmap => ?tick, fun s hmain => ?snapshot, fun s ch cycle p hmain hbuilding => ?publish, fun s hmain => ?deadline⟩
  case tick =>
    refine gives_whenMain (f := fun s => stageTick (recoverStep s)) rfl hmain ?_
    obtain ⟨u, hu, ht⟩ := ticked_stageTick hmap
    generalize stageTick (recoverStep s) = t at ht
    have hboot : u.boot = s.boot := congrArg StageSide.boot hu.side
    have hsad : u.sad = s.sad := congrArg StageSide.sad hu.side
    have hhealth : u.health = s.health := congrArg StageSide.health hu.side
    have hkeys : u.sealCtl = s.sealCtl := congrArg StageSide.sealCtl hu.side
    have hside := ht.side
    rw [hu.side] at hside
    refine ⟨congrArg (·.planner.stage) hside, congrArg (·.planner.cycle) hside, congrArg (·.planner.maintShare) hside,
      congrArg (·.planner.shares) hside, ht.drover.trans hu.drover, fun c hserves => ?_, fun hrun hstep hrecall => ?_,
      fun hfilled hread hbivouac hserves r hr => ?_, congrArg StageSide.sad hside, congrArg StageSide.medium hside,
      congrArg StageSide.sealCtl hside, congrArg StageSide.boot hside, congrArg StageSide.keeper hside⟩
    · obtain ⟨hwindow, hhost, hmaint, hplan, htemplate, hpublished⟩ := (hu.started c hserves).congr (ht.chans c)
      refine ⟨hwindow, hhost, hmaint, hplan.m, hplan.hEff, hplan.fW, hplan.forbid, by rw [htemplate, Option.isNone_iff_eq_none],
        hpublished, fun hc b hseq => ?_⟩
      rw [seq_of_pulseOf (ht.pulses c b)] at hseq
      rw [late_of_pulseOf (ht.pulses c b)]
      exact hu.late c hc hserves b hseq
    · rw [← hhealth]
      exact ht.health (by rwa [hboot]) (by rwa [hboot]) (by rwa [hsad])
    · exact ht.journal (by rwa [hkeys]) (by rwa [hboot]) (by rwa [hu.serving]) hread hbivouac r (hu.tail hr)
  case snapshot =>
    refine gives_whenMain rfl hmain ⟨rfl, rfl, fun p => ?_, fun c hserves => ?_, fun c hout => ?_, rfl⟩
    · exact List.mem_filter.trans and_comm
    · have hplan := planUnder_planOver s c (planSnapshot s).planner.snapShare
        (requests s c (s.planner.stage + 1))
      exact ⟨_, (chan_planSnapshot s c).trans (if_pos hserves), hplan.m, hplan.hEff, hplan.forbid,
        fun h => seqs_planOver_of_forbidden h _ _⟩
    · exact (chan_planSnapshot s c).trans (if_neg (by simp [hout]))
  case publish =>
    refine gives_whenMain rfl hmain ?_
    rw [if_neg (by simp [hbuilding])]
    by_cases hlate : 4063 < cycle
    · rw [if_pos hlate, if_neg (Nat.not_le.mpr hlate)]
      exact ⟨chan_planMiss_same ch s, fun c hc => chan_planMiss_ne s hc, rfl, fun hearly => absurd hearly (Nat.not_le.mpr hlate)⟩
    · rw [if_neg hlate, if_pos (Nat.not_lt.mp hlate)]
      exact ⟨(chan_modChan_same ..).trans (by rw [hbuilding]), fun c hc => chan_modChan_ne _ s hc, rfl, fun _ => rfl⟩
  case deadline =>
    refine gives_whenMain rfl hmain ?_
    have hnodup : (ids32.filter fun c => (chan s c).building.isSome).Nodup := List.nodup_range.filter _
    refine ⟨fun c hc hbuilding => ?_, fun c hnot => ?_, forAll_planMiss_eq _ s⟩
    · refine (chan_forAll_planMiss hnodup s c).trans (if_pos ?_)
      exact List.mem_filter.mpr ⟨List.mem_range.mpr hc, Option.isSome_iff_ne_none.mpr hbuilding⟩
    · refine (chan_forAll_planMiss hnodup s c).trans (if_neg fun hmem => ?_)
      obtain ⟨hc, hbuilding⟩ := List.mem_filter.mp hmem
      rcases hnot with hnone | hlarge
      · simp [hnone] at hbuilding
      · exact absurd (List.mem_range.mp hc) (Nat.not_lt.mpr hlarge)

end Sys2Proof.Machine

/-! SUPPORT. Reads that meet their line (R36, R71, R73, R99, R165): what a response shows, and what the line answers. -/

namespace Sys2Proof.Machine

/-! ### Responses -/

/-- R71, R371: a response shows in the ports, in the meters and in Cairn's samples alone. -/
def OnlyResponse (s t : State) : Prop := t = { s with ports := t.ports, reck := t.reck, cairn := t.cairn }

theorem OnlyResponse.trans {s t u : State} (h : OnlyResponse s t) (h' : OnlyResponse t u) : OnlyResponse s u := by
  rw [OnlyResponse] at *
  rw [h', h]

theorem OnlyPorts.onlyResponse {s t : State} (h : OnlyPorts s t) : OnlyResponse s t := by
  rw [OnlyPorts] at h
  rw [OnlyResponse, h]

theorem onlyResponse_meter (part : Nat) (f : Meter → Meter) (s : State) : OnlyResponse s (meter part f s) := by
  unfold meter; split <;> rfl

theorem onlyResponse_extremeHi (i : Nat) (v : Int) (s : State) : OnlyResponse s (extremeHi i v s) := by
  unfold extremeHi; split
  · split <;> rfl
  · rfl

theorem onlyResponse_meterWrite (r : Req) (s : State) : OnlyResponse s (meterWrite r s) := by
  unfold meterWrite; split
  · exact onlyResponse_meter ..
  · rfl

theorem onlyResponse_histAdd (key ns : Nat) (s : State) : OnlyResponse s (histAdd key ns s) := rfl

theorem onlyResponse_cairnSample (id bin : Nat) (s : State) : OnlyResponse s (cairnSample id bin s) := rfl

theorem onlyResponse_meterRead (r : Req) (lat : Nat) (s : State) : OnlyResponse s (meterRead r lat s) := by
  unfold meterRead; split
  · refine OnlyResponse.trans ?_ (onlyResponse_extremeHi ..)
    refine OnlyResponse.trans ?_ (onlyResponse_cairnSample ..)
    refine OnlyResponse.trans ?_ (onlyResponse_histAdd ..)
    refine OnlyResponse.trans ?_ (onlyResponse_histAdd ..)
    exact onlyResponse_meter ..
  · rfl

theorem onlyResponse_modPort (p : Nat) (f : Port → Port) (s : State) : OnlyResponse s (modPort p f s) := rfl

theorem onlyResponse_sendResp (n : Nat) (r : Req) (k : RespKind) (s : State) : OnlyResponse s (sendResp n r k s) :=
  ((onlyPorts_freeTag r s).onlyResponse.trans (onlyResponse_meterWrite ..)).trans
    (((onlyResponse_meterRead r (n - r.stamp) _).trans (onlyResponse_modPort ..)).trans (by rfl))

/-- R73: whatever becomes of a response, the ports, the meters and Cairn's samples alone show it. -/
theorem onlyResponse_finish (r : Req) (k : RespKind) (s : State) : OnlyResponse s (finish r k s) := by
  have hfree : OnlyResponse s (freeTag r s) := (onlyPorts_freeTag r s).onlyResponse
  unfold finish
  split
  · rfl
  · split
    · split
      · exact hfree.trans (onlyResponse_meterWrite ..)
      · exact hfree
    · split
      · exact onlyResponse_sendResp ..
      · rfl

/-! ### The line's answer -/

/-- R199: a tag without an error is left as it is. -/
@[simp] theorem tagCheck_none (k : Nat) (s : State) : tagCheck k .none s = s := by unfold tagCheck; split <;> simp_all

/-- R196: sound parity is left as it is. -/
@[simp] theorem parityCheck_zero (k : Nat) (s : State) : parityCheck k 0#4 s = s := by simp [parityCheck]

@[simp] theorem lineAt_touch (k j : Nat) (s : State) : lineAt (touch k s) j = lineAt s j := rfl

section ReadHit

variable {r : Req} {e : ReadEnv} {s : State} {k : Nat} (hslice : isRetiring s (hashSlice r.lpn) = false)
  (hhit : findWay s r.lpn = some k) (htag : e.tagErr = .none) (hop : r.op.isRead = true)
  (hst : (lineAt s k).st = .clean ∨ (lineAt s k).st = .dirty)

include hslice hhit htag hop hst

/-- R165, R174: a read that meets a poisoned line is answered poison. -/
theorem access_readPoison (hpoison : (lineAt s k).poison = true) : access e r s = finish r .poison (touch k s) := by
  have hstay : (lineAt s k).st ≠ .evicting := by rcases hst with h | h <;> simp [h]
  simp [access, hslice, hhit, htag, hop, readAccess, hstay, hpoison]

/-- R165: a read that meets a VALID sector in sound parity is answered its data. -/
theorem access_readHit (hparity : e.parity = 0) (hclean : (lineAt s k).poison = false)
    (hvalid : (lineAt s k).valid.getLsbD r.sector = true) :
    access e r s = finish r (.data ((lineAt s k).data[r.sector % 4]'(Nat.mod_lt _ (by decide)))) (touch k s) := by
  have hstay : (lineAt s k).st ≠ .evicting := by rcases hst with h | h <;> simp [h]
  simp [access, hslice, hhit, htag, hop, readAccess, hstay, hclean, hvalid, hparity]

end ReadHit

/-- R36: a MemRd or MemRdData goes to its slice with its tag taken. -/
theorem acceptReq_isRead {op : MemOp} {q : MemReq} {w : WrData} {leg : Nat} {s : State} (e : ReadEnv) (hop : op.isRead = true)
    (h : Passes op q w leg s) :
    acceptReq e (accepted op q w leg s) s = access e (accepted op q w leg s) (takeTag (accepted op q w leg s) s) := by
  have hread : op = .rd ∨ op = .rdData := by cases op <;> simp_all [MemOp.isRead]
  rw [acceptReq, keyed_of_passes h]
  rcases hread with rfl | rfl <;> rfl

/-- What the answer to a read leaves: the response, the requests of its port, and the cache but for its replacement bits. -/
structure ReadAnswered (op : MemOp) (q : MemReq) (kind : RespKind) (s t : State) : Prop where
  answered : Answered op q kind s t
  lines : t.cache.lines = s.cache.lines
  fills : t.cache.fills = s.cache.fills
  reqs : (port t q.port).reqs = (port s q.port).reqs
  rest : t = { s with ports := t.ports, cache := { s.cache with plru := t.cache.plru }, reck := t.reck, cairn := t.cairn }

/-- R36, R71, R73, R99: a read that passes is answered from its line, by data or by poison, while its port has a DRS credit. -/
theorem readAnswered_finish {op : MemOp} {q : MemReq} {leg : Nat} {kind : RespKind} {s : State} (k : Nat) (h : Passes op q noData leg s)
    (hdata : hasData kind = true) (hcredit : 0 < (port s q.port).drsCredits) :
    ReadAnswered op q kind s
      (finish (accepted op q noData leg s) kind (touch k (takeTag (accepted op q noData leg s) s))) := by
  have hmsg := ofMessage_accepted op q noData leg s
  let r := accepted op q noData leg s
  let u := touch k (takeTag r s)
  have htaken : takeTag r s = { s with ports := (takeTag r s).ports } := onlyPorts_takeTag r s
  have htouched : u = { s with ports := (takeTag r s).ports, cache := { s.cache with plru := u.cache.plru } } := by
    simp only [u, touch]; rw [htaken]
  have hdone : finish r kind u = { u with
      ports := (finish r kind u).ports, reck := (finish r kind u).reck, cairn := (finish r kind u).cairn } :=
    onlyResponse_finish r kind u
  obtain ⟨hanswer, hreqs⟩ := finish_effect (k := kind) (u := u) h hmsg rfl hmsg rfl (sent_takeTag r s)
    (by rw [htouched]; rfl) (by simpa [s2mFree, hdata] using hcredit)
  have hcache : (finish r kind u).cache = { s.cache with plru := u.cache.plru } := by rw [hdone, htouched]
  refine ⟨hanswer, (congrArg Cache.lines hcache).trans rfl, (congrArg Cache.fills hcache).trans rfl, hreqs, ?_⟩
  rw [hcache, hdone, htouched]

/-- R36, R165: a read that passes, meets a VALID sector and is answered with its data. -/
theorem gives_readHit {op : MemOp} {q : MemReq} {e : ReadEnv} {leg k : Nat} {s : State} {c : Instr} (hop : op.isRead = true)
    (hx : exec c s = .next (whenMain (fun s => arrive q e (reqOf op q noData s) s) s)) (h : Hits op q noData leg k s)
    (hparity : e.parity = 0) (htag : e.tagErr = .none) (hvalid : (lineAt s k).valid.getLsbD (sectorOf q.dpa.toNat) = true) :
    Gives c s (ReadAnswered op q (.data ((lineAt s k).data[sectorOf q.dpa.toNat % 4]'(Nat.mod_lt _ (by decide)))) s) := by
  obtain ⟨hpass, hcredit, hslice, hhit, hst, hclean⟩ := h
  let r := accepted op q noData leg s
  have haccess : access e r (takeTag r s) =
      finish r (.data ((lineAt s k).data[sectorOf q.dpa.toNat % 4]'(Nat.mod_lt _ (by decide)))) (touch k (takeTag r s)) := by
    simpa [r] using access_readHit (r := r) (s := takeTag r s) (by simpa [r] using hslice) (by simpa [r] using hhit) htag hop
      (by simpa using hst) hparity (by simpa using hclean) (by simpa [r] using hvalid)
  refine gives_of_exec hx ((whenMain_arrive_of_passes e hpass).trans ((acceptReq_isRead e hop hpass).trans haccess)) ?_
  exact readAnswered_finish k hpass rfl (by simpa [hop] using hcredit)

/-- R165: a read that passes and meets a poisoned line is answered poison. -/
theorem gives_readPoison {op : MemOp} {q : MemReq} {e : ReadEnv} {leg k : Nat} {s : State} {c : Instr} (hop : op.isRead = true)
    (hx : exec c s = .next (whenMain (fun s => arrive q e (reqOf op q noData s) s) s)) (hpass : Passes op q noData leg s)
    (hcredit : 0 < (port s q.port).drsCredits) (hslice : isRetiring s (hashSlice (lpnOf leg q.dpa.toNat)) = false)
    (hhit : findWay s (lpnOf leg q.dpa.toNat) = some k) (hst : (lineAt s k).st = .clean ∨ (lineAt s k).st = .dirty)
    (hpoison : (lineAt s k).poison = true) (htag : e.tagErr = .none) : Gives c s (ReadAnswered op q .poison s) := by
  let r := accepted op q noData leg s
  have haccess : access e r (takeTag r s) = finish r .poison (touch k (takeTag r s)) :=
    access_readPoison (by simpa [r] using hslice) (by simpa [r] using hhit) htag hop (by simpa using hst) (by simpa using hpoison)
  refine gives_of_exec hx ((whenMain_arrive_of_passes e hpass).trans ((acceptReq_isRead e hop hpass).trans haccess)) ?_
  exact readAnswered_finish k hpass rfl hcredit

/-- Settles O5: the Tollgate hands the read on with its tag taken, and the line that it meets answers it, by a poisoned line's
poison or a VALID sector's data. -/
theorem readHit : Obligations.ReadHit := by
  unfold Obligations.ReadHit
  refine ⟨?rd, ?rdData, ?poison⟩
  case rd =>
    intro s q e leg k h hparity htag hvalid
    exact (gives_readHit rfl rfl h hparity htag hvalid).imp fun t ht => ⟨ht.answered, ht.lines, ht.fills, ht.reqs, ht.rest⟩
  case rdData =>
    intro s q e leg k h hparity htag hvalid
    exact (gives_readHit rfl rfl h hparity htag hvalid).imp fun t ht => ⟨ht.answered, ht.lines, ht.fills, ht.reqs, ht.rest⟩
  case poison =>
    intro s q e leg k op c hc hpass hcredit hslice hhit hst hpoison _ htag
    have hread : op.isRead = true ∧ exec c s = .next (whenMain (fun s => arrive q e (reqOf op q noData s) s) s) := by
      rcases hc with ⟨rfl, rfl⟩ | ⟨rfl, rfl⟩ <;> exact ⟨rfl, rfl⟩
    refine (gives_readPoison hread.1 hread.2 hpass hcredit hslice hhit hst hpoison htag).imp fun t ht => ?_
    exact ⟨ht.answered, ht.lines, ht.fills, ht.reqs, by rw [ht.rest], by rw [ht.rest]⟩

end Sys2Proof.Machine

/-! SUPPORT. Why FILL_COMPLETE with poison does not leave a line's DIRTY bits as its VALID bits in every case (R169, R174, R188): a
line that a lost write poisoned while its fill was outstanding keeps the VALID bits that it has. -/

namespace Sys2Proof.Machine

/-- A read of port 0 that waits on a fill of parcel 0. -/
def waitingRead : Req := { port := 0, ld := 0, tag := 0, op := .rd, dpa := 0 }

/-- The fill of that parcel, ready with poison. -/
def poisonFill : Fill := { st := .readyPoison, waiters := [waitingRead] }

/-- The parcel's FILLING line, which a lost write has poisoned. -/
def lostLine : Line := { st := .filling, dirty := 15, poison := true }

/-- A main die with that fill, that line and a DRS credit. -/
def fillOfLostLine : State :=
  { mainUp := true, ports := { ports := [(0, { drsCredits := 1 })] }, cache := { lines := [(0, lostLine)], fills := [(0, poisonFill)] } }

/-- R174: the fetched poison leaves the line the VALID bits that it has. -/
theorem valid_fillComplete_fillOfLostLine : (lineAt (fillComplete 0 0 fillOfLostLine) 0).valid = 0 := by
  rfl

/-- Refutes O9: a fill that returns poison to a line which a lost write has poisoned meanwhile, with all sectors dirty and none
VALID, leaves none VALID. -/
theorem not_fillsComplete : ¬ Obligations.FillsComplete := by
  unfold Obligations.FillsComplete
  rintro ⟨-, hpoison, -⟩
  obtain ⟨t, ht, -, -, hvalid, -⟩ := hpoison fillOfLostLine 0 0 0 poisonFill waitingRead rfl rfl rfl rfl rfl rfl rfl (by decide) rfl
    rfl rfl (by decide) rfl rfl
  have hexec : exec (.fillComplete ⟨0, 0⟩) fillOfLostLine = .next (fillComplete 0 0 fillOfLostLine) := rfl
  rw [hexec] at ht
  rw [← Host.Outcome.next.inj ht, valid_fillComplete_fillOfLostLine] at hvalid
  exact absurd hvalid (by decide)

end Sys2Proof.Machine

/-! SUPPORT. Evictions (R178, R187, R213, R225, R299): what the reservation of a place leaves alone, what the hand-over of a line
leaves behind, and the way and the program of an eviction at its ordering point. -/

namespace Sys2Proof.Machine

/-! ### Reservations (R177, R299) -/

/-- Only the planner, the channels, the Waybill and the meters differ between two states. -/
def OnlyPlace (s t : State) : Prop := t = { s with planner := t.planner, chans := t.chans, way := t.way, reck := t.reck }

theorem OnlyPlace.trans {s t u : State} (h : OnlyPlace s t) (h' : OnlyPlace t u) : OnlyPlace s u := by
  rw [OnlyPlace] at *
  rw [h', h]

section OnlyPlace

variable {s t : State} (h : OnlyPlace s t)

include h

theorem OnlyPlace.cache : t.cache = s.cache := by rw [show t = _ from h]
theorem OnlyPlace.lineAt (k : Nat) : lineAt t k = lineAt s k := by rw [show t = _ from h]; rfl
theorem OnlyPlace.leafAt (i : Nat) : leafAt t i = leafAt s i := by rw [show t = _ from h]; rfl

end OnlyPlace

theorem onlyPlace_openTile (ch b : Nat) (r : Role) (s : State) : OnlyPlace s (openTile ch b r s) := by
  unfold openTile; split <;> rfl

theorem onlyPlace_closeTile (ch b : Nat) (r : Role) (k : Nat) (s : State) : OnlyPlace s (closeTile ch b r k s) := rfl

theorem onlyPlace_closeIfFull (ch b : Nat) (r : Role) (k : Nat) (s : State) : OnlyPlace s (closeIfFull ch b r k s) := by
  unfold closeIfFull; split <;> rfl

theorem onlyPlace_takeFresh {ch b n : Nat} {r : Role} {s : State} {x : Nat × State} (h : takeFresh ch b r n s = some x) :
    OnlyPlace s x.2 := by
  obtain ⟨k, -, rfl⟩ := Option.map_eq_some_iff.mp h
  exact (onlyPlace_openTile ch b r s).trans (OnlyPlace.trans (by rfl) (onlyPlace_closeIfFull ..))

theorem onlyPlace_takeLoc {ch b n : Nat} {r : Role} {s : State} {x : Nat × State} (h : takeLoc ch b r n s = some x) :
    OnlyPlace s x.2 := by
  unfold takeLoc at h
  split at h
  case h_1 => exact onlyPlace_takeFresh h
  case h_2 k _ =>
    dsimp only at h
    split at h
    · exact (onlyPlace_closeTile ch b r k s).trans (onlyPlace_takeFresh h)
    · obtain rfl := Option.some.inj h
      exact OnlyPlace.trans (by rfl) (onlyPlace_closeIfFull ..)

/-- R299: a host program's location. -/
theorem onlyPlace_placeHost {s t : State} {ch ppa : Nat} (h : placeHost s = some (ch, ppa, t)) : OnlyPlace s t := by
  unfold placeHost at h
  split at h
  case h_1 => cases h
  case h_2 c _ =>
    split at h
    case h_1 => cases h
    case h_2 =>
      obtain ⟨r, hr, hx⟩ := Option.map_eq_some_iff.mp h
      obtain rfl : r.2 = t := congrArg (·.2.2) hx
      exact OnlyPlace.trans (by rfl) (onlyPlace_takeLoc hr)

theorem onlyPlace_meter (part : Nat) (f : Meter → Meter) (s : State) : OnlyPlace s (meter part f s) := by
  unfold meter; split <;> rfl

/-- R177: what an eviction spends. -/
theorem onlyPlace_spendEviction (d : EvDue) (ch : Nat) (s : State) : OnlyPlace s (spendEviction d ch s) := by
  unfold spendEviction spendWrite
  split
  · rfl
  · split
    · split
      · rfl
      · exact onlyPlace_meter ..
    · split
      · exact OnlyPlace.trans (by rfl) (onlyPlace_meter ..)
      · exact onlyPlace_meter ..

/-! ### The counter of an eviction (R225) -/

@[simp] theorem leafAt_markDirty (key i : Nat) (s : State) : leafAt (markDirty key s) i = leafAt s i := by
  unfold markDirty; split <;> rfl

@[simp] theorem leafAt_modLeaf_same (i : Nat) (f : Leaf → Leaf) (s : State) : leafAt (modLeaf i f s) i = f (leafAt s i) :=
  tgetD_tset_same ..

/-- R225: a leaf with a parcel's minor one higher, dirty. -/
def counted (lpn : Nat) (l : Leaf) : Leaf :=
  { l with minors := l.minors.set (lpn % 64) (l.minors[minorIdx lpn] + 1) (Nat.mod_lt _ (by decide)), dirty := true, cached := true }

/-- R225: below its maximum a parcel's minor goes up by one. -/
theorem leafAt_incCounter {lpn : Nat} (part : Nat) (unw : BitVec 64) {s : State} (h : (leafAt s (lpn / 64)).minors[minorIdx lpn] ≠ 127) :
    leafAt (incCounter lpn part unw s) (lpn / 64) = counted lpn (leafAt s (lpn / 64)) := by
  simp only [incCounter, if_neg h, dirtyLeaf, leafAt_markDirty, leafAt_modLeaf_same]
  rfl

theorem minor_counted (lpn : Nat) (l : Leaf) : (counted lpn l).minors[minorIdx lpn] = l.minors[minorIdx lpn] + 1 := by
  simp [counted, minorIdx]

@[simp] theorem cache_incCounter (lpn part : Nat) (unw : BitVec 64) (s : State) : (incCounter lpn part unw s).cache = s.cache := by
  have h : hostSide (incCounter lpn part unw s) = hostSide s := by
    unfold incCounter; dsimp only; split <;> simp
  exact congrArg HostSide.cache h

/-! ### The hand-over (R178 step 3) -/

/-- R178 step 3: a sealed parcel is in a channel's write buffer, its line is EVICTING and its eviction pending. -/
def pendedTo (d : EvDue) (k ch ppa : Nat) (poison : Bool) (w : WbEntry) (s : State) : State :=
  let t := modLine k (fun l => { l with st := .evicting }) (modChan ch (fun x => { x with wbuf := x.wbuf ++ [w] }) s)
  undue d.lpn { t with cache := { t.cache with
    pendOld := t.cache.pendOld ++ (match tget t.cache.pend d.lpn with | some p => [(d.lpn, p)] | none => [])
    pend := tset t.cache.pend d.lpn { ch := ch, ppa := ppa, keep := d.keep, poison := poison, range := d.range } } }

/-- R178, R213, R225: what the hand-over of a line leaves: the line EVICTING, its pending-eviction entry, its counter one higher,
and the sealed parcel in the channel's write buffer. -/
structure HandedOver (d : EvDue) (k ch ppa : Nat) (key : KeySet) (s t : State) : Prop where
  line : lineAt t k = { lineAt s k with st := .evicting }
  pend : ∃ p, tget t.cache.pend d.lpn = some p ∧ p.ch = ch ∧ p.ppa = ppa ∧ p.keep = d.keep ∧ p.atOrder = false
  undue : ∀ x ∈ t.cache.evDue, x.lpn ≠ d.lpn
  leaf : leafAt t (d.lpn / 64) = counted d.lpn (leafAt s (d.lpn / 64))
  buffer : ∃ w ∈ (chan t ch).wbuf, w.lpn = d.lpn ∧ w.ppa = ppa ∧ w.plain = (lineAt s k).data ∧
    w.word = sealWord key (lineAt s k).part d.lpn (leafAt t (d.lpn / 64)).major (leafAt t (d.lpn / 64)).minors[minorIdx d.lpn] false
      (lineAt s k).data

section PendedTo

variable (d : EvDue) (k ch ppa : Nat) (poison : Bool) (w : WbEntry) (s : State)

theorem lineAt_pendedTo : lineAt (pendedTo d k ch ppa poison w s) k = { lineAt s k with st := .evicting } :=
  lineAt_modLine_same k (fun l => { l with st := .evicting }) (modChan ch (fun x => { x with wbuf := x.wbuf ++ [w] }) s)

theorem pend_pendedTo : tget (pendedTo d k ch ppa poison w s).cache.pend d.lpn =
    some { ch := ch, ppa := ppa, keep := d.keep, poison := poison, range := d.range } := tget_tset_same ..

theorem undue_pendedTo : ∀ x ∈ (pendedTo d k ch ppa poison w s).cache.evDue, x.lpn ≠ d.lpn :=
  fun x hx => by simpa using (List.mem_filter.mp hx).2

theorem leafAt_pendedTo (i : Nat) : leafAt (pendedTo d k ch ppa poison w s) i = leafAt s i := rfl

theorem wbuf_pendedTo : (chan (pendedTo d k ch ppa poison w s) ch).wbuf = (chan s ch).wbuf ++ [w] :=
  congrArg Chan.wbuf (chan_modChan_same ch (fun x => { x with wbuf := x.wbuf ++ [w] }) s)

end PendedTo

/-- R178, R225: the hand-over of a line that is not poisoned, whose counter does not roll. -/
theorem handOver_hands {d : EvDue} {k ch ppa : Nat} {key : KeySet} {s : State} (hclean : (lineAt s k).poison = false)
    (hminor : (leafAt s (d.lpn / 64)).minors[minorIdx d.lpn] ≠ 127) : HandedOver d k ch ppa key s (handOver d k ch ppa key s) := by
  have hspent : OnlyPlace s (spendEviction d ch s) := onlyPlace_spendEviction d ch s
  generalize hcounted : incCounter d.lpn (lineAt s k).part (unwrittenMap s (d.lpn / 64)) (spendEviction d ch s) = s1
  have hleaf : leafAt s1 (d.lpn / 64) = counted d.lpn (leafAt s (d.lpn / 64)) := by
    rw [← hcounted, ← hspent.leafAt]
    exact leafAt_incCounter _ _ (by rwa [hspent.leafAt])
  have hline : lineAt s1 k = lineAt s k := by
    rw [← hspent.lineAt k, ← hcounted]
    exact congrArg (fun c => tgetD (Cache.lines c) k {}) (cache_incCounter ..)
  obtain ⟨w, hhand, hlpn, hppa, hplain, hword⟩ : ∃ w, handOver d k ch ppa key s = pendedTo d k ch ppa false w s1 ∧ w.lpn = d.lpn ∧
      w.ppa = ppa ∧ w.plain = (lineAt s k).data ∧ w.word = sealWord key (lineAt s k).part d.lpn (leafAt s1 (d.lpn / 64)).major
        (leafAt s1 (d.lpn / 64)).minors[minorIdx d.lpn] false (lineAt s k).data := by
    simp only [handOver, hcounted, hclean, Bool.false_eq_true, if_false]
    exact ⟨_, rfl, rfl, rfl, rfl, rfl⟩
  rw [hhand]
  refine ⟨(lineAt_pendedTo ..).trans (by rw [hline]), ⟨_, pend_pendedTo .., rfl, rfl, rfl, rfl⟩, undue_pendedTo d k ch ppa false w s1,
    (leafAt_pendedTo ..).trans hleaf, w, ?_, hlpn, hppa, hplain, hword⟩
  rw [wbuf_pendedTo]
  exact List.mem_append_right _ (List.mem_singleton_self w)

/-! ### The start of an eviction (R178 steps 1 and 2) -/

/-- R178, R182: a chosen line that is DIRTY, full, sound and charged to its partition goes to its reservation. -/
theorem evictionStart_reserves {lpn k : Nat} {e : ReadEnv} {d : EvDue} {s : State} (hdue : s.cache.evDue.find? (fun d => d.lpn = lpn) = some d)
    (hhit : findWay s lpn = some k) (hst : (lineAt s k).st = .dirty) (hfull : (lineAt s k).valid = 15)
    (hclean : (lineAt s k).poison = false) (hcharged : (lineAt s k).maint = false) (hparity : e.parity = 0) (htag : e.tagErr = .none)
    (hslots : s.sealCtl.zeroed = false) (hstep : s.belay.step = 0) : evictionStart lpn e s = reserve d k e.nodes s := by
  simp [evictionStart, hdue, hhit, hst, hfull, hclean, hcharged, hparity, htag, hslots, hstep]

/-- R178, R225, R291, R299, R344: a reservation that nothing holds back hands its line over. -/
theorem reserve_hands {d : EvDue} {k ch ppa : Nat} {errs : List NodeErr} {key : KeySet} {s s' t : State}
    (hpath : s' = fetchPath errs d.lpn s) (hretired : underRetired s' d.lpn = false) (hlost : underLost s' d.lpn = false)
    (hroll : rollWaits s' d.lpn (lineAt s' k).part = false) (hcounter : counterWaits s' d.lpn = false)
    (hplace : placeHost s' = some (ch, ppa, t)) (hkey : sealKey s' (lineAt s' k).part d.lpn = some key) (hmay : mayEvict s' d ch = true) :
    reserve d k errs s = handOver d k ch ppa key t := by
  simp [reserve, ← hpath, hretired, hlost, hroll, hcounter, hplace, hkey, hmay]

/-! ### The ordering point (R178 step 4, R187) -/

/-- R178 step 4: a pending eviction is at its ordering point. -/
def atOrder (lpn : Nat) (p : PendEv) (s : State) : State :=
  { s with cache := { s.cache with pend := tset s.cache.pend lpn { p with atOrder := true } } }

/-- R178 step 4: the way of an EVICTING line is settled and its program queued, and the waiting requests go on. -/
theorem evictionOrderingPoint_orders {lpn k : Nat} {p : PendEv} {s : State} (hpend : tget s.cache.pend lpn = some p)
    (hbefore : p.atOrder = false) (hhit : findWay s lpn = some k) (hst : (lineAt s k).st = .evicting) :
    evictionOrderingPoint lpn s =
      retryWaiting (queueProgram lpn p.ch p.ppa (setPressure k (orderWay p k (atOrder lpn p s)))) := by
  have hway : findWay (atOrder lpn p s) lpn = some k := hhit
  have hline : (lineAt (atOrder lpn p s) k).st = .evicting := hst
  unfold atOrder at hway hline ⊢
  simp only [evictionOrderingPoint, hpend, hbefore, Bool.false_eq_true, if_false, hway, hline, if_true]

/-- R187: the way of a line that is kept. -/
theorem orderWay_keeps {p : PendEv} {k : Nat} {s : State} (hkeep : p.keep = true) (hpoison : p.poison = false)
    (hdrop : (lineAt s k).dropOnFill = false) (honline : s.cache.online.getLsbD (k / 32768) = true) :
    orderWay p k s = modLine k (fun l => { l with st := .clean, dirty := 0, dir := none }) s := by
  simp [orderWay, hkeep, hpoison, hdrop, honline]

/-- R178 step 4: the way of a line that is not kept, while no fill waits for a way. -/
theorem orderWay_frees {p : PendEv} {k : Nat} {s : State} (hfree : p.keep = false) (hfills : s.cache.fills = []) :
    orderWay p k s = dropWay k s := by
  have hnone : waitingFill (dropWay k s) k = none := by simp [waitingFill, dropWay, hfills]
  simp [orderWay, hfree, giveWay, hnone]

/-- Nothing waits at a slice, so nothing goes on. -/
theorem retryWaiting_nothing {s : State} (h : s.cache.waiting = []) : retryWaiting s = { s with cache := { s.cache with waiting := [] } } := by
  rw [retryWaiting, h]; rfl

/-- R185: the choice of a line under set pressure shows in the lines chosen for eviction alone. -/
theorem setPressure_keeps (k : Nat) (s : State) :
    setPressure k s = { s with cache := { s.cache with evDue := (setPressure k s).cache.evDue } } := by
  unfold setPressure; dsimp only
  split
  · split <;> rfl
  · rfl

/-- R178 step 4: an entry of the write buffer of a parcel and its location is accepted. -/
def acceptAt (lpn ppa : Nat) (y : WbEntry) : WbEntry := if y.lpn = lpn ∧ y.ppa = ppa then { y with accepted := true } else y

/-- R178: the entry of a parcel and its location has their names. -/
theorem wbEntry_names {s : State} {ch lpn ppa : Nat} {w : WbEntry} (h : wbEntry s ch lpn ppa = some w) : w.lpn = lpn ∧ w.ppa = ppa := by
  simpa using List.find?_some h

/-- R178 step 4: the program of a pending eviction that has not been dropped joins its bank. -/
theorem queueProgram_joins {lpn ch ppa : Nat} {w : WbEntry} {s : State} (hentry : wbEntry s ch lpn ppa = some w)
    (hkept : w.dropped = false) : queueProgram lpn ch ppa s =
      planSeq ch (ppaBank ppa) (.program lpn ppa true 0 w.word (wearPart w) 0)
        (modChan ch (fun x => { x with wbuf := x.wbuf.map (acceptAt lpn ppa) }) s) := by
  simp only [queueProgram, hentry, hkept, Bool.false_eq_true, if_false]
  rfl

/-- R178 step 4: the accepted entry stands where the entry stood. -/
theorem wbEntry_accepted {lpn ch ppa b : Nat} {w : WbEntry} {q : PulseSeq} {s : State} (h : wbEntry s ch lpn ppa = some w) :
    wbEntry (planSeq ch b q (modChan ch (fun x => { x with wbuf := x.wbuf.map (acceptAt lpn ppa) }) s)) ch lpn ppa =
      some { w with accepted := true } := by
  have hwbuf : (chan (planSeq ch b q (modChan ch (fun x => { x with wbuf := x.wbuf.map (acceptAt lpn ppa) }) s)) ch).wbuf =
      (chan s ch).wbuf.map (acceptAt lpn ppa) := by simp [planSeq, modBank]
  have hsame : (fun y : WbEntry => decide (y.lpn = lpn ∧ y.ppa = ppa)) ∘ acceptAt lpn ppa =
      fun y : WbEntry => decide (y.lpn = lpn ∧ y.ppa = ppa) := by
    funext y
    simp only [Function.comp, acceptAt]
    split <;> rfl
  have hfind : (chan s ch).wbuf.find? (fun y : WbEntry => decide (y.lpn = lpn ∧ y.ppa = ppa)) = some w := h
  rw [wbEntry, hwbuf, List.find?_map, hsame, hfind, Option.map_some, acceptAt, if_pos (wbEntry_names h)]

/-- R178 step 4, R187: the ordering point of a pending eviction, while nothing waits: the state that its way has been settled in
takes the accepted entry and the program, and shows them alone. -/
structure Ordered (lpn k : Nat) (p : PendEv) (w : WbEntry) (s t : State) : Prop where
  pend : tget t.cache.pend lpn = some { p with atOrder := true }
  lines : t.cache.lines = (orderWay p k (atOrder lpn p s)).cache.lines
  entry : wbEntry t p.ch lpn p.ppa = some { w with accepted := true }
  program : .program lpn p.ppa true 0 w.word (wearPart w) 0 ∈ (bankOf (chan t p.ch) (ppaBank p.ppa)).planned

theorem evictionOrderingPoint_ordered {lpn k : Nat} {p : PendEv} {w : WbEntry} {s : State} (hpend : tget s.cache.pend lpn = some p)
    (hbefore : p.atOrder = false) (hwaiting : s.cache.waiting = []) (hhit : findWay s lpn = some k) (hst : (lineAt s k).st = .evicting)
    (hentry : wbEntry s p.ch lpn p.ppa = some w) (hkept : w.dropped = false)
    (hway : ∃ l, orderWay p k (atOrder lpn p s) = { atOrder lpn p s with cache := { (atOrder lpn p s).cache with lines := l } }) :
    Ordered lpn k p w s (evictionOrderingPoint lpn s) := by
  obtain ⟨l, hl⟩ := hway
  generalize hu : setPressure k (orderWay p k (atOrder lpn p s)) = u
  have hkeep : u = { s with cache := { (atOrder lpn p s).cache with lines := l, evDue := u.cache.evDue } } := by
    rw [← hu, setPressure_keeps, hl]; rfl
  have hchans : wbEntry u p.ch lpn p.ppa = some w := by rw [hkeep]; exact hentry
  let v := planSeq p.ch (ppaBank p.ppa) (.program lpn p.ppa true 0 w.word (wearPart w) 0)
    (modChan p.ch (fun x => { x with wbuf := x.wbuf.map (acceptAt lpn p.ppa) }) u)
  have hv : v.cache = u.cache := rfl
  have hnone : v.cache.waiting = [] := by rw [hv, hkeep]; exact hwaiting
  rw [evictionOrderingPoint_orders hpend hbefore hhit hst, hu, queueProgram_joins hchans hkept, retryWaiting_nothing hnone]
  refine ⟨?_, ?_, wbEntry_accepted hchans, ?_⟩
  · have : u.cache.pend = (atOrder lpn p s).cache.pend := by rw [hkeep]
    exact (congrArg (tget · lpn) this).trans (tget_tset_same ..)
  · have : u.cache.lines = l := by rw [hkeep]
    rw [hl]
    exact this
  · have hbank := bankOf_modBank_same p.ch (ppaBank p.ppa)
      (fun x => { x with planned := x.planned ++ [.program lpn p.ppa true 0 w.word (wearPart w) 0] })
      (modChan p.ch (fun x => { x with wbuf := x.wbuf.map (acceptAt lpn p.ppa) }) u)
    exact (congrArg (_ ∈ Bank.planned ·) hbank).mpr (List.mem_append_right _ (List.mem_singleton_self _))

/-- Settles O10: an eviction that nothing holds back reserves a place and hands its line over under the counter's new value; at its
ordering point its way is settled and its program joins the bank. -/
theorem evictions : Obligations.Evictions := by
  unfold Obligations.Evictions
  refine ⟨?start, ?order⟩
  case start =>
    intro s s' t' lpn k ch ppa e d key hmain hdue hhit hst hfull hclean hcharged _ hparity htag hslots hstep hpath hretired hlost hroll
      hcounter hplace hkey hmay hminor
    obtain rfl : d.lpn = lpn := by simpa using List.find?_some hdue
    have hpathLine : lineAt s' k = lineAt s k := by
      rw [hpath]
      exact congrArg (fun x => tgetD (Cache.lines (HostSide.cache x)) k {}) (hostSide_fetchPath e.nodes d.lpn s)
    have hplaced := onlyPlace_placeHost hplace
    have hline : lineAt t' k = lineAt s k := (hplaced.lineAt k).trans hpathLine
    rw [← hpathLine] at hroll hkey
    refine gives_whenMain rfl hmain ?_
    rw [evictionStart_reserves hdue hhit hst hfull hclean hcharged hparity htag hslots hstep,
      reserve_hands hpath hretired hlost hroll hcounter hplace hkey hmay]
    obtain ⟨heline, hpend, hundue, hleaf, w, hw, hlpn, hwppa, hplain, hword⟩ :=
      handOver_hands (d := d) (k := k) (ch := ch) (ppa := ppa) (key := key) (s := t') (by rw [hline]; exact hclean)
        (by rw [hplaced.leafAt]; exact hminor)
    rw [hline] at heline hplain hword
    have hminorNow : (leafAt (handOver d k ch ppa key t') (d.lpn / 64)).minors[minorIdx d.lpn] =
        (leafAt s' (d.lpn / 64)).minors[minorIdx d.lpn] + 1 := by rw [hleaf, minor_counted, hplaced.leafAt]
    rw [hminorNow] at hword
    refine ⟨by rw [heline], by rw [heline], hpend, hundue, hminorNow, by rw [hleaf]; rfl, w, hw, hlpn, hwppa, hplain, hword⟩
  case order =>
    intro s lpn k p w hmain hpend hbefore hpoison hwaiting hfills hhit hst hdrop honline hentry hkept
    obtain ⟨-, hppa⟩ := wbEntry_names hentry
    have hkeeps : p.keep = true → orderWay p k (atOrder lpn p s) =
        modLine k (fun l => { l with st := .clean, dirty := 0, dir := none }) (atOrder lpn p s) :=
      fun hkeep => orderWay_keeps hkeep hpoison hdrop honline
    have hfrees : p.keep = false → orderWay p k (atOrder lpn p s) = dropWay k (atOrder lpn p s) := fun hfree => orderWay_frees hfree hfills
    have hway : ∃ l, orderWay p k (atOrder lpn p s) = { atOrder lpn p s with cache := { (atOrder lpn p s).cache with lines := l } } := by
      cases hkeep : p.keep with
      | true => exact ⟨_, hkeeps hkeep⟩
      | false => exact ⟨_, hfrees hkeep⟩
    obtain ⟨hat, hlines, haccepted, hprogram⟩ := evictionOrderingPoint_ordered hpend hbefore hwaiting hhit hst hentry hkept hway
    refine gives_whenMain rfl hmain ⟨⟨_, hat, rfl, rfl⟩, fun hkeep => ?_, fun hfree => ?_, ⟨_, haccepted, rfl, rfl, rfl⟩, ?_⟩
    · rw [lineAt, hlines, hkeeps hkeep]
      exact lineAt_modLine_same ..
    · rw [hlines, hfrees hfree]
      exact tget_tdel_same ..
    · rw [hppa]
      exact ⟨_, hprogram, _, _, rfl⟩

end Sys2Proof.Machine

/-! SUPPORT. The dirty budget, background writeback, patrols and slice retirement (R184, R185, R196 to R198, R201, R203). -/

namespace Sys2Proof.Machine

/-! ### Writes that waited on the budget (R184) -/

/-- R199, R201: a write outside a retiring slice, with sound tags. -/
theorem access_write {r : Req} {s : State} (hslice : isRetiring s (hashSlice r.lpn) = false) (hop : r.op = .wr) :
    access {} r s = writeAccess r [] s := by
  cases hfind : findWay s r.lpn with
  | none => exact access_of_missing_wr hslice hfind hop
  | some k => exact access_writeHit (e := {}) hslice hfind rfl (by simp [hop, MemOp.isRead]) (by simp [hop, MemOp.isWrite])

/-- R184: the state in which the waiting writes are handled again. -/
def unbudgeted (s : State) : State := { s with cache := { s.cache with budgetWait := [] } }

/-- R184: the one write that waits is handled again. -/
theorem releaseBudget_single {r : Req} {s : State} (hwait : s.cache.budgetWait = [r]) (hslice : isRetiring s (hashSlice r.lpn) = false)
    (hop : r.op = .wr) : releaseBudget s = writeAccess r [] (unbudgeted s) := by
  rw [releaseBudget, hwait]
  exact access_write (s := unbudgeted s) hslice hop

section WriteOfCleanLine

variable {r : Req} {s : State} (errs : List NodeErr) (hop : r.op = .wr)
  (hclean : ∀ k, findWay s r.lpn = some k → (lineAt s k).st = .clean) (hhold : r.health ≠ 3) (hspent : r.health ≠ 4)

include hop hclean hhold hspent

/-- R184: a write of a parcel that no line holds dirty waits while the count is at its limit. -/
theorem writeAccess_waits (hfull : budgetFull s r.health = true) : writeAccess r errs s = budgetWait r s := by
  have hkept : writeLost s r.health = false := by simp [writeLost, hhold, hspent]
  cases hfind : findWay s r.lpn with
  | none => simp [writeAccess, hfind, hkept, hop, hfull]
  | some k =>
    have hst := hclean k hfind
    have hnew : newlyDirty s r.lpn = true := by simp [newlyDirty, hfind, lineCounts, hst]
    simp [writeAccess, hfind, hst, hkept, hop, hfull, hnew]

/-- R171, R184: a write that meets its CLEAN line lands in it while the count is below its limit. -/
theorem writeAccess_proceeds {k : Nat} (hhit : findWay s r.lpn = some k) (hroom : budgetFull s r.health = false) :
    writeAccess r errs s = landWrite r k s := by
  have hkept : writeLost s r.health = false := by simp [writeLost, hhold, hspent]
  simp [writeAccess, hhit, hclean k hhit, hkept, hop, hroom]

end WriteOfCleanLine

/-- R184: the choice of an eviction for a waiting write shows in the lines chosen for eviction alone. -/
theorem matchVictim_keeps (lpn part : Nat) (old : Option Nat) (s : State) : (matchVictim lpn part old s).2 =
    { s with cache := { s.cache with evDue := (matchVictim lpn part old s).2.cache.evDue } } := by
  unfold matchVictim
  split
  · rfl
  · split <;> rfl

/-- R187: a write that waits, or makes a line dirty, leaves the writes that wait on the budget as they are when it lands. -/
theorem budgetWait_landWrite {r : Req} {k : Nat} {s : State} (hnot : through s r.health = false) :
    (landWrite r k s).cache.budgetWait = s.cache.budgetWait := by
  let v := touch k (modLine k (fun l => { lineWrite r l with partialSince := if l.dirty = 0 then s.planner.stage else l.partialSince }) s)
  have hafter : (afterWrite k v).cache = v.cache := congrArg Interior.cache (interior_afterWrite k v)
  have hover : (overtake r (afterWrite k v)).cache.budgetWait = (afterWrite k v).cache.budgetWait := by
    unfold overtake; split <;> rfl
  have hland : landWrite r k s = finish { r with effected := true } .cmp (setPressure k (overtake r (afterWrite k v))) := by
    simp only [landWrite, hnot, Bool.false_eq_true, if_false]; rfl
  have hdone := congrArg (Cache.budgetWait ∘ Interior.cache)
    (interior_finish { r with effected := true } .cmp (setPressure k (overtake r (afterWrite k v))))
  rw [hland]
  refine hdone.trans ?_
  rw [Function.comp, show (interior (setPressure k (overtake r (afterWrite k v)))).cache = _ from rfl, setPressure_keeps]
  exact hover.trans ((congrArg Cache.budgetWait hafter).trans rfl)

/-- R171, R187: a write that is not written through makes its CLEAN line dirty and completes, while the port has an NDR credit. -/
theorem landWrite_completes {r : Req} {k : Nat} {s : State} (hnot : through s r.health = false) (hop : r.op = .wr)
    (hclean : r.wr.poison = false) (htag : r.tagKind = .reserved) (hold : (port s r.port).oldReqs = [])
    (hcredit : 0 < (port s r.port).ndrCredits) (hst : (lineAt s k).st = .clean) (hline : (lineAt s k).poison = false) :
    (lineAt (landWrite r k s) k).st = .dirty ∧
    (lineAt (landWrite r k s) k).data = (lineAt s k).data.set (r.sector % 4) r.wr.data (Nat.mod_lt _ (by decide)) ∧
    (landWrite r k s).ports.sent =
      { port := r.port, ld := r.ld, tag := r.tag, op := .wr, kind := .cmp, sent := tbNow s } :: s.ports.sent := by
  obtain ⟨u, hland, hstands⟩ := landWrite_stands (k := k) hnot
  obtain ⟨n, hn⟩ := hstands.line
  rw [lineWrite_whole hop hclean (.inl hst) hline] at hn
  have hport : port u r.port = port s r.port := port_eq_of_ports hstands.ports r.port
  have hsends : finish { r with effected := true } .cmp u = sendResp (tbNow u) { r with effected := true } .cmp u :=
    finish_sends htag (by simp [hport, hold]) (by simpa [s2mFree, hasData, hport] using hcredit)
  have hdone := congrArg (fun x => tgetD (Cache.lines (Interior.cache x)) k {}) (interior_finish { r with effected := true } .cmp u)
  have hafter : lineAt (landWrite r k s) k = lineAt u k := by rw [hland]; exact hdone
  rw [hafter, hn, hland, hsends, sent_sendResp, hstands.tbNow, hstands.sent, hop]
  exact ⟨rfl, rfl, rfl⟩

/-- R187: outside WRITE_THROUGH, and with dirty lines allowed, no write is written through. -/
theorem through_of_limit {s : State} {health : Nat} (hhealth : health ≠ 2) (hlimit : dirtyLimit s ≠ 0) : through s health = false := by
  simp [through, hhealth, hlimit]

/-! ### Background writeback (R185) -/

theorem plruPick_mem {t : BitVec 15} {cand : List Nat} {d n lo w : Nat} (h : plruPick t cand d n lo = some w) : w ∈ cand := by
  induction d generalizing n lo with
  | zero =>
    simp only [plruPick] at h
    split at h
    · obtain rfl := Option.some.inj h
      simpa using ‹cand.contains lo = true›
    · cases h
  | succ d ih =>
    simp only [plruPick] at h
    split at h
    · rcases Option.or_eq_some_iff.mp (by simpa using h) with h | ⟨-, h⟩ <;> exact ih h
    · rcases Option.or_eq_some_iff.mp (by simpa using h) with h | ⟨-, h⟩ <;> exact ih h

/-- R162: the way that the replacement policy picks passes the test. -/
theorem lruWay_passes {s : State} {sl st k : Nat} {ok : Line → Bool} (h : lruWay s sl st ok = some k) : ok (lineAt s k) = true := by
  obtain ⟨w, hw, rfl⟩ := Option.map_eq_some_iff.mp h
  exact (List.mem_filter.mp (plruPick_mem hw)).2

/-- R185: the line that a slice writes back next is not yet chosen. -/
theorem dirtiestSet_fresh {s : State} {z k : Nat} (h : dirtiestSet s z = some k) :
    s.cache.evDue.any (fun e => e.lpn == (lineAt s k).lpn) = false := by
  obtain ⟨st, -, hst⟩ := Option.bind_eq_some_iff.mp h
  have hok := lruWay_passes hst
  simp only [Bool.and_eq_true, Bool.not_eq_true'] at hok
  exact hok.2

/-- R176: a line that is not yet chosen for eviction is chosen last. -/
theorem evDue_fresh {d : EvDue} {s : State} (h : s.cache.evDue.any (fun e => e.lpn == d.lpn) = false) :
    evDue d s = { s with cache := { s.cache with evDue := s.cache.evDue ++ [d] } } := by
  simp [evDue, evAgain, h]

/-- R185: the line that a slice writes back next. -/
def backDue (k : Nat) (s : State) : EvDue := { lpn := (lineAt s k).lpn, why := .background, creditPart := (lineAt s k).part }

/-- Lines chosen for background writeback, behind those chosen before, and nothing else. -/
def ChosenBack (l : List EvDue) (s t : State) : Prop :=
  (∀ d ∈ l, d.why = .background) ∧ t = { s with cache := { s.cache with evDue := s.cache.evDue ++ l } }

/-- R185: a slice chooses the line that it writes back next, and goes on. -/
theorem chooseBack_succ {n z k : Nat} {s : State} (h : dirtiestSet s z = some k) :
    chooseBack (n + 1) z s = chooseBack n z { s with cache := { s.cache with evDue := s.cache.evDue ++ [backDue k s] } } := by
  rw [chooseBack, h]
  exact congrArg (chooseBack n z) (evDue_fresh (d := backDue k s) (dirtiestSet_fresh h))

/-- R185: the lines chosen after a first one, with it. -/
theorem ChosenBack.cons {k : Nat} {l : List EvDue} {s t : State}
    (h : ChosenBack l { s with cache := { s.cache with evDue := s.cache.evDue ++ [backDue k s] } } t) :
    ChosenBack (backDue k s :: l) s t := by
  obtain ⟨hl, ht⟩ := h
  refine ⟨?_, by simpa using ht⟩
  rintro d (_ | ⟨_, hd⟩)
  · rfl
  · exact hl d hd

theorem chosenBack_chooseBack (n z : Nat) (s : State) : ∃ l, ChosenBack l s (chooseBack n z s) := by
  induction n generalizing s with
  | zero => exact ⟨[], by simp, by simp [chooseBack]⟩
  | succ n ih =>
    cases h : dirtiestSet s z with
    | none => exact ⟨[], by simp, by simp [chooseBack, h]⟩
    | some k =>
      rw [chooseBack_succ h]
      obtain ⟨l, hl⟩ := ih { s with cache := { s.cache with evDue := s.cache.evDue ++ [backDue k s] } }
      exact ⟨_, hl.cons⟩

/-- R185: with a line to choose and a number of lines to reach, at least one is chosen. -/
theorem chosenBack_nonempty {n z : Nat} {s : State} (hn : 0 < n) (h : (dirtiestSet s z).isSome = true) :
    ∃ l, l ≠ [] ∧ ChosenBack l s (chooseBack n z s) := by
  obtain ⟨k, hk⟩ := Option.isSome_iff_exists.mp h
  obtain ⟨n, rfl⟩ := Nat.exists_eq_succ_of_ne_zero hn.ne'
  rw [chooseBack_succ hk]
  obtain ⟨l, hl⟩ := chosenBack_chooseBack n z { s with cache := { s.cache with evDue := s.cache.evDue ++ [backDue k s] } }
  exact ⟨_, List.cons_ne_nil _ _, hl.cons⟩

/-! ### Completion fills (R173, R197) -/

/-- R166: where a fill's data comes from shows in the cache in the fills alone. -/
theorem cache_resolveFill (it : RdItem) (errs : List NodeErr) (s : State) :
    (resolveFill it errs s).cache = { s.cache with fills := (resolveFill it errs s).cache.fills } := by
  obtain ⟨u, hu, ht⟩ := resolveFill_cases it errs s
  have hcache : u.cache = s.cache := congrArg HostSide.cache hu
  rcases ht with ht | ⟨st, ht⟩ <;> rw [ht]
  · rw [hcache]
  · rw [fillReady_keeps, hcache]

/-- R166: the state in which a completion fill looks for its data: the line that is present is FILLING. -/
def fillingWay (lpn : Nat) (s : State) : State :=
  match findWay s lpn with
  | some k => modLine k (fun l => { l with st := .filling }) s
  | none => s

/-- What a change of lines' states leaves of every line. -/
def SameLine (l l' : Line) : Prop := l' = { l with st := l'.st }

theorem sameLine_fillingWay (lpn k : Nat) (s : State) : SameLine (lineAt s k) (lineAt (fillingWay lpn s) k) := by
  unfold fillingWay
  split
  case h_1 j _ =>
    by_cases hk : k = j
    · subst hk; rw [lineAt_modLine_same]; rfl
    · rw [lineAt_modLine_ne _ _ hk]; rfl
  case h_2 => rfl

/-- What a completion fill leaves: its entry, every line but for its state, and the rest of the cache but for the fills. -/
structure Completes (lpn : Nat) (s t : State) : Prop where
  entry : ∃ f, tget t.cache.fills lpn = some f ∧ f.completion = true
  line : ∀ k, SameLine (lineAt s k) (lineAt t k)
  cleanErrs : t.cache.cleanErrs = s.cache.cleanErrs
  ports : t.ports.ports = s.ports.ports
  medium : t.medium = s.medium

theorem onlyCache_fillingWay (lpn : Nat) (s : State) : OnlyCache s (fillingWay lpn s) := by
  unfold fillingWay; split <;> rfl

theorem cleanErrs_fillingWay (lpn : Nat) (s : State) : (fillingWay lpn s).cache.cleanErrs = s.cache.cleanErrs := by
  unfold fillingWay; split <;> rfl

/-- R166, R173: a completion fill joins its parcel's fill, or starts one while the slice has an entry. -/
theorem completionFill_completes {lpn : Nat} (part : Nat) (errs : List NodeErr) {s : State}
    (hroom : thas s.cache.fills lpn = true ∨ fillsIn s lpn < 512) : Completes lpn s (completionFill lpn part errs s) := by
  cases hfill : tget s.cache.fills lpn with
  | some f =>
    have hjoin : completionFill lpn part errs s = modFill lpn (fun f => { f with completion := true }) s := by
      simp only [completionFill, hfill]
    rw [hjoin]
    exact ⟨⟨_, tget_modFill .., rfl⟩, fun _ => rfl, rfl, rfl, rfl⟩
  | none =>
    have hfree : fillsIn s lpn < 512 := hroom.resolve_left (by simp [thas, hfill])
    let it : RdItem := { lpn := lpn, ppa := 0, cls := .bestEffort, part := part, age := tbNow s }
    let u := modFill lpn (fun _ => { completion := true, part := part }) (fillingWay lpn s)
    have hstart : completionFill lpn part errs s = resolveFill it errs u := by
      simp only [completionFill, hfill, if_neg (Nat.not_le.mpr hfree)]
      rfl
    obtain ⟨hlines, hports, -, hmedium, hentry⟩ := resolveFill_starts it errs u
    obtain ⟨st, hst⟩ := hentry _ (tget_modFill ..)
    have honly := onlyCache_fillingWay lpn s
    rw [hstart]
    refine ⟨⟨_, hst, rfl⟩, fun k => ?_, ?_, ?_, ?_⟩
    · rw [lineAt.eq_1 (resolveFill it errs u), hlines]
      exact sameLine_fillingWay lpn k s
    · rw [cache_resolveFill]
      exact cleanErrs_fillingWay lpn s
    · exact hports.trans (congrArg Ports.ports honly.ports)
    · exact hmedium.trans honly.medium

/-! ### Parity (R196 to R198) -/

section Parity

variable {k : Nat} {bad : BitVec 4} {s : State}

/-- R197: parity errors in clean sectors alone. -/
theorem parityCheck_clean (hbad : bad &&& (lineAt s k).valid ≠ 0) (hclean : bad &&& (lineAt s k).valid &&& (lineAt s k).dirty = 0) :
    parityCheck k bad s = cleanParity k (bad &&& (lineAt s k).valid) s := by
  simp only [parityCheck, if_neg hbad, hclean, ne_eq, not_true_eq_false, if_false]

/-- R198: a parity error in a dirty sector. -/
theorem parityCheck_dirty (hdirty : bad &&& (lineAt s k).valid &&& (lineAt s k).dirty ≠ 0) :
    parityCheck k bad s = dirtyParity k (bad &&& (lineAt s k).valid) s := by
  have hbad : bad &&& (lineAt s k).valid ≠ 0 := fun h => hdirty (by rw [h]; simp)
  simp only [parityCheck, if_neg hbad, if_pos hdirty]

end Parity

/-- A change of the meters, and of one line, which leaves the rest of the cache but for the count of clean errors. -/
theorem cleanParity_eq (k : Nat) (sectors : BitVec 4) (s : State) : cleanParity k sectors s =
    { modLine k (fun l => { l with valid := l.valid &&& ~~~sectors }) s with
      reck := (cleanParity k sectors s).reck
      cache := { (modLine k (fun l => { l with valid := l.valid &&& ~~~sectors }) s).cache with
        cleanErrs := s.cache.cleanErrs + popcount sectors } } := rfl

/-- R196, R199: a patrol of a line that is CLEAN or DIRTY, with a sound tag. -/
theorem cachePatrol_checks {lpn k : Nat} {e : ReadEnv} {s : State} (hmain : s.mainUp = true) (hhit : findWay s lpn = some k)
    (htag : e.tagErr = .none) (hst : (lineAt s k).st = .clean ∨ (lineAt s k).st = .dirty) : cachePatrol lpn e s =
      if e.parity &&& (lineAt s k).valid ≠ 0 ∧ e.parity &&& (lineAt s k).valid &&& (lineAt s k).dirty = 0 ∧ !(lineAt s k).poison ∧
        (parityCheck k e.parity s).belay.step = 0
      then completionFill lpn (lineAt s k).part e.nodes (parityCheck k e.parity s) else parityCheck k e.parity s := by
  have hpresent : (lineAt s k).st ≠ .invalid := by rcases hst with h | h <;> simp [h]
  have hstay : (lineAt s k).st ≠ .evicting := by rcases hst with h | h <;> simp [h]
  simp [cachePatrol, hhit, htag, hmain, hpresent, hstay]

/-! ### A dirty sector in error (R198, R201) -/

/-- What a line lost to a parity error leaves alone beside the cache's lines. -/
structure Waybilled where
  medium : Medium
  way : Way

/-- The medium and the Waybill of a state. -/
def waybilled (s : State) : Waybilled := { medium := s.medium, way := s.way }

theorem waybilled_emitN (b : Bool) (code inst p q r d : Nat) (s : State) : waybilled (emitN b code inst p q r d s) = waybilled s := by
  simp [waybilled]

theorem waybilled_newlyPoisoned (lpn : Nat) (s : State) : waybilled (newlyPoisoned lpn s) = waybilled s :=
  forAll_keeps waybilled (fun p t => by simp only [waybilled]; unfold postEvent; split <;> rfl) _ s

theorem lines_newlyPoisoned (lpn : Nat) (s : State) : (newlyPoisoned lpn s).cache = s.cache :=
  congrArg HostSide.cache (hostSide_newlyPoisoned lpn s)

/-- The entry of a key in a table from which entries other than it are dropped. -/
theorem tget_filter_of_keeps {α : Type} {t : Tbl α} {k : Nat} {v : α} {keep : Nat × α → Bool} (h : tget t k = some v)
    (hkeep : keep (k, v) = true) : tget (t.filter keep) k = some v := by
  induction t with
  | nil => cases h
  | cons p t ih =>
    obtain ⟨j, w⟩ := p
    by_cases hk : k = j
    · subst hk
      obtain rfl : w = v := by simpa [tget] using h
      simp [hkeep, tget]
    · have hrest : tget t k = some v := by simpa [tget, hk] using h
      cases hj : keep (j, w) <;> simp [hj, tget, hk, ih hrest]

/-- A line that is not INVALID stands in the table. -/
theorem tget_lines {s : State} {k : Nat} (h : (lineAt s k).st ≠ .invalid) : tget s.cache.lines k = some (lineAt s k) := by
  rw [lineAt, tgetD] at h ⊢
  cases hget : tget s.cache.lines k with
  | none => simp [hget] at h
  | some l => rfl

/-- R201: a DIRTY line of a slice that retires is chosen for eviction. -/
def drain (p : Nat × Line) : State → State := evDue { lpn := p.2.lpn, why := .retire, creditPart := p.2.part }

/-- R201: the retirement of a slice leaves its DIRTY lines, and the medium and the Waybill. -/
theorem retireSlice_keeps (z : Nat) (s : State) : waybilled (retireSlice z s) = waybilled s ∧
    ∀ k, (lineAt s k).st = .dirty → lineAt (retireSlice z s) k = lineAt s k := by
  refine ⟨forAll_keeps waybilled (f := drain) (fun _ _ => rfl) _ _, fun k hk => ?_⟩
  have hpresent := tget_lines (s := s) (k := k) (by simp [hk])
  have hlines : (retireSlice z s).cache.lines = s.cache.lines.filter (fun p => !(decide (p.1 / 32768 = z) && p.2.st == .clean)) :=
    forAll_keeps (fun s => s.cache.lines) (f := drain) (fun _ _ => rfl) _ _
  rw [lineAt.eq_1 (retireSlice z s), hlines, tgetD, tget_filter_of_keeps hpresent (by simp [hk])]
  rfl

/-- R201, R202: the count of a parity error leaves the DIRTY lines, and the medium and the Waybill. -/
theorem parityCount_keeps (z : Nat) (s : State) : waybilled (parityCount z s) = waybilled s ∧
    ∀ k, (lineAt s k).st = .dirty → lineAt (parityCount z s) k = lineAt s k := by
  unfold parityCount
  dsimp only
  split
  · exact ⟨rfl, fun _ _ => rfl⟩
  · split
    · refine ⟨waybilled_emitN .., fun k _ => ?_⟩
      rw [lineAt, emit_cache]
      rfl
    · exact retireSlice_keeps z _

/-- R198: a parity error in a dirty sector poisons the line and loses its sectors. -/
theorem dirtyParity_loses {k : Nat} (sectors : BitVec 4) {s : State} (hst : (lineAt s k).st = .dirty) :
    lineAt (dirtyParity k sectors s) k = { lineAt s k with poison := true, valid := 0, dirty := 15 } ∧
    waybilled (dirtyParity k sectors s) = waybilled s := by
  have hline := lineAt_modLine_same k (fun l => { l with poison := true, valid := 0, dirty := 15 }) s
  generalize hv : newlyPoisoned (lineAt s k).lpn (emitN true 0x0502 (k / 32768) (locator k) (lineAt s k).part (lpnLbi (lineAt s k).lpn)
    ((lineAt s k).lpn % 256 + sectors.toNat * 256) (modLine k (fun l => { l with poison := true, valid := 0, dirty := 15 }) s)) = v
  have hlost : lineAt v k = { lineAt s k with poison := true, valid := 0, dirty := 15 } := by
    rw [← hv, ← hline, lineAt, lines_newlyPoisoned, emitN_cache]
    rfl
  have hkept : waybilled v = waybilled s := by
    rw [← hv, waybilled_newlyPoisoned, waybilled_emitN]
    rfl
  obtain ⟨hway, hlines⟩ := parityCount_keeps (k / 32768) v
  have heq : dirtyParity k sectors s = parityCount (k / 32768) v := by rw [← hv]; rfl
  rw [heq, hlines k (by rw [hlost]; exact hst), hlost]
  exact ⟨rfl, hway.trans hkept⟩

/-! ### The end of a retirement (R201, R203) -/

/-- R201: a slice's retirement is in progress while an entry of it stands. -/
theorem isRetiring_filter (y z : Nat) {s t : State} (h : t.cache.retiring = s.cache.retiring.filter (fun x => x.slice ≠ z)) :
    isRetiring t y = (isRetiring s y && decide (y ≠ z)) := by
  rw [isRetiring, isRetiring, h]
  by_cases hy : y = z
  · subst hy
    simp
  · simp only [hy, ne_eq, not_false_eq_true, decide_true, Bool.and_true, List.any_filter]
    congr 1
    funext x
    by_cases hx : x.slice = y
    · simp [hx, hy]
    · simp [hx]

/-- R201, R203: a retirement whose slice holds nothing, and which no request waits for, ends with its record. -/
theorem sliceRetirementEnd_ends {z : Nat} {s : State} (hretiring : isRetiring s z = true) (hempty : sliceHolds s z = false)
    (hheld : s.cache.heldReqs = []) : ∃ n drained us, sliceRetirementEnd z s =
      emit 0x0503 z z n drained us
        { s with cache := { s.cache with retiring := s.cache.retiring.filter (fun x => x.slice ≠ z), heldReqs := [] } } := by
  obtain ⟨r, hr⟩ : ∃ r, s.cache.retiring.find? (fun r => r.slice = z) = some r := by
    rw [← Option.isSome_iff_exists, List.find?_isSome]
    simpa [isRetiring] using hretiring
  simp only [sliceRetirementEnd, hr, hempty, Bool.false_eq_true, if_false, hheld, List.filter_nil]
  exact ⟨_, _, _, rfl⟩

/-- Settles O11: a write that waits is handled again and waits on or lands; background writeback chooses lines that are not yet
chosen; a patrol clears or poisons; and the end of a retirement takes its entry alone. -/
theorem cacheUpkeep : Obligations.CacheUpkeep := by
  unfold Obligations.CacheUpkeep
  refine ⟨?waits, ?proceeds, ?background, ?clean, ?dirty, ?retired⟩
  case waits =>
    intro s r hmain hwait hop hstep hslice hthrough hhold hspent hlimit hcount hline
    have hnot : through (unbudgeted s) r.health = false := through_of_limit hthrough hlimit
    have hcount' : dirtyLimit (unbudgeted s) ≤ dirtyCount (unbudgeted s) := hcount
    have hfull : budgetFull (unbudgeted s) r.health = true := by simp [budgetFull, hnot, hcount']
    have hline' : ∀ k, findWay (unbudgeted s) r.lpn = some k → (lineAt (unbudgeted s) k).st = .clean := hline
    refine gives_whenMain rfl hmain ?_
    rw [releaseBudget_single hwait hslice hop, writeAccess_waits [] hop hline' hhold hspent hfull, budgetWait, matchVictim_keeps]
    exact ⟨⟨_, rfl⟩, rfl⟩
  case proceeds =>
    intro s r k hmain hwait hop hclean htag hold hcredit hslice hthrough hstep hhold hspent hhit hst hline hlimit hcount
    have hnot : through (unbudgeted s) r.health = false := through_of_limit hthrough hlimit
    have hcount' : ¬ dirtyLimit (unbudgeted s) ≤ dirtyCount (unbudgeted s) := Nat.not_le.mpr hcount
    have hroom : budgetFull (unbudgeted s) r.health = false := by simp [budgetFull, hcount']
    have hline' : ∀ j, findWay (unbudgeted s) r.lpn = some j → (lineAt (unbudgeted s) j).st = .clean := by
      intro j hj
      obtain rfl : k = j := Option.some.inj (hhit.symm.trans hj)
      exact hst
    refine gives_whenMain rfl hmain ?_
    rw [releaseBudget_single hwait hslice hop, writeAccess_proceeds [] hop hline' hhold hspent hhit hroom]
    exact ⟨budgetWait_landWrite hnot, landWrite_completes hnot hop hclean htag hold hcredit hst hline⟩
  case background =>
    intro s z hmain honline hstep habove hmany hsome
    obtain ⟨l, hne, hwhy, ht⟩ := chosenBack_nonempty hmany hsome
    have hruns : backgroundWriteback z s = _ := if_neg (Nat.not_le.mpr habove)
    refine gives_whenMain rfl hmain ?_
    rw [if_pos ⟨honline, hstep⟩, hruns, ht]
    exact ⟨⟨l, hne, rfl, hwhy⟩, rfl⟩
  case clean =>
    intro s lpn k e hmain hstep hhit htag hst hline hbad hclean hroom
    have hcheck := parityCheck_clean hbad hclean
    have hback : (cleanParity k (e.parity &&& (lineAt s k).valid) s).belay.step = 0 := hstep
    obtain ⟨hentry, hlines, herrs, -, hmedium⟩ := completionFill_completes (lineAt s k).part e.nodes
      (s := cleanParity k (e.parity &&& (lineAt s k).valid) s) (lpn := lpn) hroom
    refine gives_whenMain rfl hmain ?_
    rw [cachePatrol_checks hmain hhit htag hst, hcheck, if_pos ⟨hbad, hclean, by simp [hline], hback⟩]
    refine ⟨?_, hentry, herrs, hmedium⟩
    rw [hlines k]
    exact congrArg Line.valid (lineAt_modLine_same k (fun l => { l with valid := l.valid &&& ~~~(e.parity &&& (lineAt s k).valid) }) s)
  case dirty =>
    intro s lpn k e hmain hhit htag hst hdirty
    obtain ⟨hline, hkept⟩ := dirtyParity_loses (e.parity &&& (lineAt s k).valid) hst
    refine gives_whenMain rfl hmain ?_
    rw [cachePatrol_checks hmain hhit htag (.inr hst), if_neg (fun h => hdirty h.2.1), parityCheck_dirty hdirty, hline]
    exact ⟨rfl, rfl, rfl, congrArg Waybilled.medium hkept, congrArg Waybilled.way hkept⟩
  case retired =>
    intro s z hmain hretiring hempty hheld
    obtain ⟨n, drained, us, hends⟩ := sliceRetirementEnd_ends hretiring hempty hheld
    have hfilter : (sliceRetirementEnd z s).cache.retiring = s.cache.retiring.filter (fun x => x.slice ≠ z) := by rw [hends, emit_cache]
    have hrest : sliceRetirementEnd z s = { s with
        cache := { s.cache with retiring := s.cache.retiring.filter (fun x => x.slice ≠ z) }
        relay := (sliceRetirementEnd z s).relay, cairn := (sliceRetirementEnd z s).cairn } := by
      rw [hends, emit_eq, ← hheld]
    refine gives_whenMain rfl hmain ⟨?_, fun y hy => ?_, ?_⟩
    · rw [isRetiring_filter z z hfilter]; simp
    · rw [isRetiring_filter y z hfilter]; simp [hy]
    · rw [hfilter]; exact hrest

end Sys2Proof.Machine

/-! SUPPORT. Range operations (R190 to R193, R402): what a change of a background command shows, what the end of one leaves, and what
a step does at one parcel. -/

namespace Sys2Proof.Machine

/-! ### Background commands in their contexts (R399) -/

@[simp] theorem bg_showBg (m : Mailbox) : (showBg m).bg = m.bg := by unfold showBg; split <;> simp_all

@[simp] theorem bg_modBg (p : Path) (f : Bg → Bg) (s : State) : (ctx (modBg p f s) p).bg = (ctx s p).bg.map f := by simp [modBg]

@[simp] theorem modBg_cache (p : Path) (f : Bg → Bg) (s : State) : (modBg p f s).cache = s.cache := modCtx_cache ..

@[simp] theorem modBg_medium (p : Path) (f : Bg → Bg) (s : State) : (modBg p f s).medium = s.medium := modCtx_medium ..

@[simp] theorem lineAt_modBg (p : Path) (f : Bg → Bg) (s : State) (k : Nat) : lineAt (modBg p f s) k = lineAt s k := by simp [lineAt]

theorem onlyCtx_modBg (p : Path) (f : Bg → Bg) (s : State) : OnlyCtx p s (modBg p f s) := onlyCtx_modCtx ..

theorem OnlyCache.ctx {s t : State} (h : OnlyCache s t) (p : Path) : ctx t p = ctx s p := by rw [show t = _ from h]; cases p <;> rfl

/-- R399: a background command of a path has ended with a return code and a detail. -/
structure BgEnded (p : Path) (b : Bg) (rc detail : Nat) (s t : State) : Prop where
  gone : (ctx t p).bg = none
  opcode : (ctx t p).bgOpcode = b.opcode
  pct : (ctx t p).bgPct = if rc = 0 then 100 else b.pct
  ret : (ctx t p).bgRet = rc
  detail : (ctx t p).bgDetail = detail
  cache : t.cache = s.cache

theorem endBg_ends {p : Path} {b : Bg} {s : State} (rc detail : Nat) (h : (ctx s p).bg = some b) :
    BgEnded p b rc detail s (endBg p rc detail s) := by
  simp only [endBg, h]
  refine ⟨?_, ?_, ?_, ?_, ?_, ?_⟩
  · simp
  · simp
  · simp
  · simp
  · simp
  · rw [modCtx_cache]
    split <;> split <;> simp

/-! ### The steps of a range operation (R190) -/

section Step

variable {p : Path} {b : Bg} {kind part start len next since lpn : Nat} {ld : Option Nat} {ev : List Nat} {met : Bool} {s : State}
  (hbg : (ctx s p).bg = some b) (hjob : b.job = .range kind part start len next ld since ev met) (hnext : next < len)

include hbg hjob hnext

/-- R402: the operation of a frozen LD ends at its next parcel. -/
theorem rangeOpStep_frozen (hfrozen : rangeFrozen s p = true) :
    rangeOpStep p s = endBg p 0x12 0x0582 (emit 0x0D04 0xFF (pathMaster p) b.opcode b.pct 0 s) := by
  simp [rangeOpStep, hbg, hjob, Nat.not_le.mpr hnext, hfrozen]

variable (hfree : rangeFrozen s p = false) (hlpn : rangeLpn s part ld (start + next) = some lpn)

include hfree hlpn

/-- R190: an operation that stays at a parcel. -/
theorem rangeOpStep_stays {m : Bool} {t : State} (hact : rangeAct kind lpn part met s = .stay m t) :
    rangeOpStep p s = modBg p (fun b => { b with job := .range kind part start len next ld since ev m }) t := by
  simp [rangeOpStep, hbg, hjob, Nat.not_le.mpr hnext, hfree, hlpn, hact]

/-- R190, R192: an operation that goes on by one parcel, with an eviction to await or without. -/
theorem rangeOpStep_goes {await : Bool} {t : State} (hact : rangeAct kind lpn part met s = .go await t) :
    rangeOpStep p s = modBg p (fun b => { b with
      pct := (next + 256) * 100 / len
      job := .range kind part start len (next + 256) ld (tbNow s) (if await then ev ++ [lpn] else ev) false }) t := by
  simp [rangeOpStep, hbg, hjob, Nat.not_le.mpr hnext, hfree, hlpn, hact]

end Step

section Act

variable {kind lpn part k : Nat} {s : State}

/-- R190: a parcel that the cache neither holds nor fetches. -/
theorem rangeAct_absent (hkind : kind ≠ 2) (hmiss : findWay s lpn = none) (hfill : thas s.cache.fills lpn = false) :
    rangeAct kind lpn part false s = .go false s := by
  simp [rangeAct, hkind, hmiss, hfill]

/-- R190: FLUSH_RANGE and INVALIDATE_RANGE evict a DIRTY line, and FLUSH_RANGE keeps it. -/
theorem rangeAct_dirty (hkind : kind ≠ 2) (hhit : findWay s lpn = some k) (hst : (lineAt s k).st = .dirty) :
    rangeAct kind lpn part false s = .go true (rangeEvict lpn (lineAt s k).part (kind == 0) s) := by
  simp [rangeAct, hkind, hhit, hst]

/-- R190: INVALIDATE_RANGE drops a CLEAN line. -/
theorem rangeAct_clean (hhit : findWay s lpn = some k) (hst : (lineAt s k).st = .clean) :
    rangeAct 1 lpn part false s = .go false (dropWay k s) := by
  simp [rangeAct, hhit, hst]

/-- R190: an EVICTING line is met. -/
theorem rangeAct_evicting (hkind : kind ≠ 2) (hhit : findWay s lpn = some k) (hst : (lineAt s k).st = .evicting) :
    rangeAct kind lpn part false s = .stay true s := by
  simp [rangeAct, hkind, hhit, hst]

/-- R191: a DIRTY line that no drop has marked and no lost write meets is zeroed. -/
theorem rangeAct_zero (hhit : findWay s lpn = some k) (hst : (lineAt s k).st = .dirty) (hkept : (lineAt s k).dropOnFill = false)
    (hwrite : writeLost s s.health.st = false) : rangeAct 2 lpn part false s =
      .go false (zeroDone lpn part s.health.st k (touch k (modLine k (fun l => zeroed l lpn part) s))) := by
  have hcounted : newlyDirty s lpn = false := by simp [newlyDirty, hhit, lineCounts, hst, hkept]
  simp [rangeAct, zeroLine, hhit, hst, hwrite, hcounted]

end Act

theorem lineAt_dropWay_ne {j k : Nat} (s : State) (h : j ≠ k) : lineAt (dropWay k s) j = lineAt s j := by
  simp [lineAt, dropWay, tgetD, h]

/-- R187, R191: beside its line, a zeroed parcel shows in the choices of evictions and in the poison lists. -/
theorem zeroDone_keeps (lpn part health k : Nat) (s : State) : (zeroDone lpn part health k s).cache.lines = s.cache.lines ∧
    (zeroDone lpn part health k s).medium = s.medium := by
  let v := { s with cache := { s.cache with zeroVictims := tdel s.cache.zeroVictims lpn } }
  have hunlist : interior (unlist lpn v) = interior v := interior_unlist lpn v
  have hlines : (unlist lpn v).cache.lines = s.cache.lines := congrArg (Cache.lines ∘ Interior.cache) hunlist
  have hmedium : (unlist lpn v).medium = s.medium := congrArg Interior.medium hunlist
  rw [zeroDone, lines_setPressure, (onlyCache_setPressure k _).medium]
  split
  · exact ⟨hlines, hmedium⟩
  · exact ⟨hlines, hmedium⟩

/-! ### The ends of a range operation (R192, R193) -/

theorem rangeOpComplete_ends {p : Path} {b : Bg} {kind part start len next since : Nat} {ld : Option Nat} {ev : List Nat} {met : Bool}
    {s : State} (hbg : (ctx s p).bg = some b) (hjob : b.job = .range kind part start len next ld since ev met) (hnext : len ≤ next)
    (hdone : kind = 2 ∨ rangeVerified s ev = true) : rangeOpComplete p s = endBg p 0 0 s := by
  simp only [rangeOpComplete, hbg, hjob, if_neg (Nat.not_lt.mpr hnext), if_pos hdone]

theorem rangeOpNoProgress_ends {p : Path} {b : Bg} {kind part start len next since : Nat} {ld : Option Nat} {ev : List Nat} {met : Bool}
    {s : State} (hbg : (ctx s p).bg = some b) (hjob : b.job = .range kind part start len next ld since ev met)
    (hlate : since + 1000000000 ≤ tbNow s) (hnone : nextChannel s = none) : rangeOpNoProgress p s = endBg p 0x12 0x0581 s := by
  simp [rangeOpNoProgress, hbg, hjob, Nat.not_lt.mpr hlate, hnone]

/-- Settles O16: a step does at its parcel what the parcel's line asks for, and goes on or waits there; a frozen LD, a verified
range and a second without a channel end the operation. That a step is one parcel, and that an EVICTING line counts as met, are the
model's choices (log 42, 85). -/
theorem rangeOperations : Obligations.RangeOperations := by
  unfold Obligations.RangeOperations
  refine ⟨?step, ?frozen, ?complete, ?stuck⟩
  case step =>
    intro s p b kind part start len next t0 lpn ld ev hmain hbg hjob hnext hfree hlpn
    refine ⟨?absent, ?flushed, ?dropped, ?met, ?zeroed⟩
    case absent =>
      rintro rfl hmiss hfill
      refine gives_whenMain rfl hmain ?_
      rw [rangeOpStep_goes hbg hjob hnext hfree hlpn (rangeAct_absent (by decide) hmiss hfill)]
      exact ⟨by simp [hbg], onlyCtx_modBg ..⟩
    case flushed =>
      rintro k rfl hhit hst hdue
      have honly : OnlyCache s (rangeEvict lpn (lineAt s k).part true s) := onlyCache_evAgain ..
      refine gives_whenMain rfl hmain ?_
      rw [rangeOpStep_goes hbg hjob hnext hfree hlpn (rangeAct_dirty (by decide) hhit hst)]
      exact ⟨by simp [rangeEvict, evAgain, hdue], by simp [honly.ctx, hbg]⟩
    case dropped =>
      rintro k rfl hhit hst
      have honly : OnlyCache s (dropWay k s) := rfl
      refine gives_whenMain rfl hmain ?_
      rw [rangeOpStep_goes hbg hjob hnext hfree hlpn (rangeAct_clean hhit hst)]
      refine ⟨?_, fun j hj => ?_, by simp [honly.ctx, hbg]⟩
      · rw [modBg_cache]
        exact tget_tdel_same ..
      · rw [lineAt_modBg, lineAt_dropWay_ne s hj]
    case met =>
      intro k hkind hhit hst
      refine gives_whenMain rfl hmain ?_
      rw [rangeOpStep_stays hbg hjob hnext hfree hlpn (rangeAct_evicting hkind.ne hhit hst)]
      exact ⟨by simp [hbg], onlyCtx_modBg ..⟩
    case zeroed =>
      rintro k rfl hhit hst hkept hwrite
      obtain ⟨hlines, hmedium⟩ := zeroDone_keeps lpn part s.health.st k (touch k (modLine k (fun l => zeroed l lpn part) s))
      have hline : lineAt (zeroDone lpn part s.health.st k (touch k (modLine k (fun l => zeroed l lpn part) s))) k =
          zeroed (lineAt s k) lpn part := by
        rw [lineAt, hlines]
        exact lineAt_modLine_same k (fun l => zeroed l lpn part) s
      refine gives_whenMain rfl hmain ?_
      rw [rangeOpStep_goes hbg hjob hnext hfree hlpn (rangeAct_zero hhit hst hkept hwrite), modBg_medium,
        lineAt_modBg, hline]
      exact ⟨rfl, rfl, rfl, rfl, rfl, hmedium⟩
  case frozen =>
    intro s p b kind part start len next t0 ld ev met hmain hbg hjob hnext hfrozen
    refine gives_whenMain rfl hmain ?_
    rw [rangeOpStep_frozen hbg hjob hnext hfrozen]
    obtain ⟨hgone, -, -, hret, hdetail, hcache⟩ :=
      endBg_ends 0x12 0x0582 ((congrArg Mailbox.bg (ctx_emit p 0x0D04 0xFF (pathMaster p) b.opcode b.pct 0 s)).trans hbg)
    exact ⟨hgone, hret, hdetail, hcache.trans (emit_cache ..)⟩
  case complete =>
    intro s p b kind part start len next t0 ld ev met hmain hbg hjob hnext hdone
    refine gives_whenMain rfl hmain ?_
    rw [rangeOpComplete_ends hbg hjob hnext hdone]
    obtain ⟨hgone, hop, hpct, hret, -, hcache⟩ := endBg_ends 0 0 hbg
    exact ⟨hgone, hop, hret, hpct, hcache⟩
  case stuck =>
    intro s p b kind part start len next t0 ld ev met hmain hbg hjob hlate hnone
    refine gives_whenMain rfl hmain ?_
    rw [rangeOpNoProgress_ends hbg hjob hlate hnone]
    obtain ⟨hgone, -, -, hret, hdetail, hcache⟩ := endBg_ends 0x12 0x0581 hbg
    exact ⟨hgone, hret, hdetail, hcache⟩

end Sys2Proof.Machine

/-! SUPPORT. ADOPT_MODULE (R289, R326): the handling of lost media leaves the chassis alone, and what the adopted channel holds. -/

namespace Sys2Proof.Machine

/-! ### Repairs and lost media (R69, R224, R326) -/

/-- R69: a program of an event-log parcel is asked for without a trace on the host side. -/
@[simp] theorem hostSide_askSys_log (n c space lpn seq : Nat) (body : SysBody) (s : State) :
    hostSide (askSys (.log n c) space lpn seq body s) = hostSide s := by
  simp only [askSys, askProg, sealSys, placeProg]
  split
  case h_1 ppa t ht => simpa using hostSide_of_fastPlace ht
  case h_2 => simp

/-- R326: so is the program of a lost copy. -/
@[simp] theorem hostSide_askProg_copy (src q : Nat) (l : Load) (s : State) :
    hostSide (askProg (.copy src q) l s) = hostSide s := by
  simp only [askProg, placeProg]
  split
  case h_1 ppa t ht => simpa using hostSide_of_fastPlace ht
  case h_2 => simp

@[simp] theorem hostSide_repairLog (n failed : Nat) (s : State) : hostSide (repairLog n failed s) = hostSide s := by
  unfold repairLog; split <;> simp

@[simp] theorem hostSide_repairSys (lpn : Nat) (s : State) : hostSide (repairSys lpn s) = hostSide s := by
  simp [repairSys]

@[simp] theorem hostSide_loseEntry (e : Nat × OvEntry) (s : State) : hostSide (loseEntry e s) = hostSide s := by
  unfold loseEntry
  dsimp only
  split
  · exact (hostSide_repairSys ..).trans (hostSide_dropLoc e.2.ppa s)
  · split
    · exact hostSide_dropLoc e.2.ppa s
    · exact (hostSide_newlyPoisoned ..).trans (hostSide_dropLoc e.2.ppa s)

@[simp] theorem chassis_repairOrPoison (lpn : Nat) (s : State) :
    chassis (if 81920 ≤ lpnLeg lpn then repairSys lpn s else newlyPoisoned lpn s) = chassis s := by
  split <;> exact chassis_of_hostSide (by simp)

@[simp] theorem chassis_loseBale (e : Nat × Bale) (s : State) : chassis (loseBale e s) = chassis s := by
  unfold loseBale
  refine (chassis_forAll _ (fun l t => chassis_repairOrPoison l t) _ _).trans ?_
  exact (chassis_journal ..).trans (chassis_forAll _ chassis_dropOld _ s)

@[simp] theorem hostSide_copyLost (src : Nat) (ppas : List Nat) (s : State) : hostSide (copyLost src ppas s) = hostSide s := by
  unfold copyLost
  split
  · rfl
  · split <;> simp

/-! ### Ledger tiles (R384) -/

theorem hostSide_of_takeLedgerTile {other : Option Nat} {s : State} {cs : List Nat} {x : Nat × State}
    (h : takeLedgerTile other s cs = some x) : hostSide x.2 = hostSide s := by
  induction cs with
  | nil => simp [takeLedgerTile] at h
  | cons c cs ih =>
    unfold takeLedgerTile at h
    split at h
    · exact ih h
    · split at h
      · exact ih h
      · obtain rfl := Option.some.inj h
        simp

@[simp] theorem hostSide_setChain (n k : Nat) (s : State) : hostSide (setChain n k s) = hostSide s := by simp [setChain]

@[simp] theorem hostSide_replaceLedger (k : Nat) (s : State) : hostSide (replaceLedger k s) = hostSide s := by
  refine hostSide_forAll _ (fun e t => ?_) _ _
  dsimp only
  split
  case h_1 => rfl
  case h_2 x u hu => simpa using hostSide_of_takeLedgerTile hu

/-- R326: the loss of a whole channel leaves the chassis alone. -/
theorem chassis_adoptLoss (c : Nat) (s : State) : chassis (adoptLoss c s) = chassis s := by
  have entries (es : List (Nat × OvEntry)) (t : State) : chassis (forAll es loseEntry t) = chassis t :=
    chassis_of_hostSide (hostSide_forAll _ hostSide_loseEntry _ _)
  have copies (l : List Nat) (t : State) : chassis (forAll l (fun p t => copyLost p (unmappedSys t) t) t) = chassis t :=
    chassis_of_hostSide (hostSide_forAll _ (fun _ _ => hostSide_copyLost ..) _ _)
  have ledger (l : List Nat) (t : State) : chassis (forAll l replaceLedger t) = chassis t :=
    chassis_of_hostSide (hostSide_forAll _ hostSide_replaceLedger _ _)
  simp only [adoptLoss, mediaLoss]
  split
  · rfl
  · simp [entries, copies, ledger]

/-! ### The adopted channel (R289) -/

@[simp] theorem medium_markBad (c : Nat) (l : List Nat) (s : State) : (markBad c l s).medium = s.medium :=
  forAll_keeps State.medium (f := fun t u => modTile (c * 1048576 + t % 1048576) (fun y => { y with st := .bad }) u) (fun _ _ => rfl) l s

@[simp] theorem chassis_markBad (c : Nat) (l : List Nat) (s : State) : chassis (markBad c l s) = chassis s :=
  chassis_forAll _ (fun _ _ => chassis_modTile ..) l s

/-- R289, R326: the state of an ADOPT_MODULE that is carried out. -/
def moduleAdopted (c : Nat) (s : State) : State :=
  setModule c { serial := (chan s c).serial, gen := (chan s c).gen } (adoptTiles c (adoptLoss c s))

theorem mainUp_moduleAdopted (c : Nat) (s : State) : (moduleAdopted c s).mainUp = s.mainUp := by
  have hchassis : chassis (moduleAdopted c s) = chassis s := by
    simp [moduleAdopted, setModule, adoptTiles, chassis_adoptLoss]
  exact congrArg Chassis.mainUp hchassis

theorem modules_moduleAdopted (c : Nat) (s : State) :
    tget (moduleAdopted c s).sad.img.modules c = some { serial := (chan s c).serial, gen := (chan s c).gen } := tget_tset_same ..

theorem dirty_moduleAdopted (c : Nat) (s : State) : rk 12 c ∈ (moduleAdopted c s).sad.dirty := by
  simp [moduleAdopted, setModule]

/-- A table without the keys of a channel holds nothing at one of them. -/
theorem tget_channel_emptied {α : Type} (l : Tbl α) {c a : Nat} (ha : ppaCh a = c) :
    tget (l.filter (fun p => ppaCh p.1 ≠ c)) a = none := by
  rw [tget_filter_key l (fun k => decide (ppaCh k ≠ c))]
  simp [ha]

theorem medium_moduleAdopted {c a : Nat} (ha : ppaCh a = c) (s : State) :
    tget (moduleAdopted c s).medium.cells a = none ∧ tget (moduleAdopted c s).medium.sys a = none := by
  have hmedium : (moduleAdopted c s).medium = (adoptTiles c (adoptLoss c s)).medium := rfl
  rw [hmedium, adoptTiles, medium_markBad]
  exact ⟨tget_channel_emptied _ ha, tget_channel_emptied _ ha⟩

end Sys2Proof.Machine

/-! SUPPORT. The range commands (R189, R409): what they answer to an operand that passes the checks of its form. -/

namespace Sys2Proof.Machine

/-- R399: a background command that leaves no record is answered at once, and its job runs. -/
theorem gives_started_unlogged {x : Instr} {c : Cmd} {p : Path} {i : List Byte} {s u : State} {j : Job}
    (hs : ∀ y, cmdInfo c.op = some y → y.saddle = false) (hx : exec x s = runCmd c p i s) (h : Admitted c p i s)
    (hb : c.body p i (takeIn c.op p i s) = ({ job := some j }, u)) (hup : u.mainUp = true) :
    Gives x s (fun t => Started p c.op j t ∧ OnlyCtx p u t) := by
  refine gives_settled hx h hb hup ⟨?_, ?_⟩
  · simp [Started, settle, complete]
  · simp only [settle]
    exact (onlyCtx_complete hs ..).trans (onlyCtx_modCtx ..)

/-- R189: an instruction that carries a range command of a kind. -/
structure RangeCommand (x : Instr) (cmd : Cmd) (p : Path) (i : List Byte) (kind : Nat) : Prop where
  runs : ∀ s, exec x s = runCmd cmd p i s
  body : cmd.body = rangeBody kind
  op : cmd.op = 0xC300 + kind
  unlogged : ∀ y, cmdInfo cmd.op = some y → y.saddle = false

theorem rangeCommand_of {x : Instr} {cmd : Cmd} {p : Path} {i : List Byte} {kind : Nat}
    (h : x = .flushRange p i ∧ cmd = cmdFlushRange ∧ kind = 0 ∨ x = .invalidateRange p i ∧ cmd = cmdInvalidateRange ∧ kind = 1 ∨
      x = .zeroRange p i ∧ cmd = cmdZeroRange ∧ kind = 2) : RangeCommand x cmd p i kind := by
  obtain ⟨rfl, rfl, rfl⟩ | ⟨rfl, rfl, rfl⟩ | ⟨rfl, rfl, rfl⟩ := h
  · exact ⟨fun _ => rfl, rfl, rfl, noSaddle (by decide)⟩
  · exact ⟨fun _ => rfl, rfl, rfl, noSaddle (by decide)⟩
  · exact ⟨fun _ => rfl, rfl, rfl, noSaddle (by decide)⟩

/-- R189: the answer to a range of a partition's offsets, or of an LD's addresses, by its alignment and its legs. -/
def rangeAnswer (kind part : Nat) (ld : Option Nat) (i : List Byte) (s : State) : Reply :=
  if fld i 8 8 % 256 ≠ 0 then rej 2 0x0580 8
  else if fld i 16 8 % 256 ≠ 0 then rej 2 0x0580 16
  else if rangeOccupied s part ld (fld i 8 8) (fld i 16 8) = false then rej 2 0x0580 8
  else { job := some (.range kind part (fld i 8 8) (fld i 16 8) 0 ld (tbNow s) [] false) }

theorem rangeBody_tail (kind part : Nat) (ld : Option Nat) (i : List Byte) (s : State) :
    (if fld i 8 8 % 256 ≠ 0 then (rej 2 0x0580 8, s)
      else if fld i 16 8 % 256 ≠ 0 then (rej 2 0x0580 16, s)
      else if !rangeOccupied s part ld (fld i 8 8) (fld i 16 8) then (rej 2 0x0580 8, s)
      else ({ job := some (.range kind part (fld i 8 8) (fld i 16 8) 0 ld (tbNow s) [] false) }, s)) =
    (rangeAnswer kind part ld i s, s) := by
  unfold rangeAnswer
  split
  · rfl
  · split
    · rfl
    · simp [apply_ite (Prod.mk · s)]

/-- The management form names a partition. -/
theorem rangeBody_management {kind : Nat} {p : Path} {i : List Byte} {s : State} (hrole : pathRole s p ≠ 0) (hform : fld i 0 1 = 0)
    (hpart : fld i 2 2 < 1024) (hact : isActive s (fld i 2 2) = true) :
    rangeBody kind p i s = (rangeAnswer kind (fld i 2 2) none i s, s) := by
  rw [← rangeBody_tail]
  have hst : (partRec s (fld i 2 2)).map (·.st) = some .active := by
    cases hrec : partRec s (fld i 2 2) with
    | none => simp [isActive, hrec] at hact
    | some r => simpa [isActive, hrec] using hact
  simp [rangeBody, hrole, hform, Nat.not_le.mpr hpart, hst]

/-- The tenant form names the LD's own partition, and needs its contract's right. -/
theorem rangeBody_tenant {kind k : Nat} {p : Path} {i : List Byte} {s : State} (hrole : pathRole s p = 0) (hld : pathLd s p = some k)
    (hform : fld i 0 1 = 1) (hzero : fld i 2 2 = 0) :
    rangeBody kind p i s =
      if rangeRight kind (ldAt s k).map = false then (rej 2 0x0289, s)
      else (rangeAnswer kind (ldAt s k).map.part (some k) i s, s) := by
  rw [← rangeBody_tail]
  simp [rangeBody, hrole, hld, hform, hzero]

@[simp] theorem rangeOccupied_takeIn (op : Nat) (p : Path) (i : List Byte) (s : State) (part : Nat) (ld : Option Nat) (a n : Nat) :
    rangeOccupied (takeIn op p i s) part ld a n = rangeOccupied s part ld a n := by
  simp [rangeOccupied, rangeLpn_takeIn]

@[simp] theorem rangeAnswer_takeIn (op : Nat) (p : Path) (i j : List Byte) (s : State) (kind part : Nat) (ld : Option Nat) :
    rangeAnswer kind part ld j (takeIn op p i s) = rangeAnswer kind part ld j s := by
  simp [rangeAnswer]

section Commands

variable {x : Instr} {cmd : Cmd} {p : Path} {i : List Byte} {kind part : Nat} {ld : Option Nat} {s : State}
  (hcmd : RangeCommand x cmd p i kind) (h : Admitted cmd p i s)

include hcmd h

/-- R189: a range of aligned bounds on occupied legs starts its operation. -/
theorem gives_rangeStarted (hb : rangeBody kind p i (takeIn cmd.op p i s) = (rangeAnswer kind part ld i s, takeIn cmd.op p i s))
    (hstart : fld i 8 8 % 256 = 0) (hlen : fld i 16 8 % 256 = 0) (hocc : rangeOccupied s part ld (fld i 8 8) (fld i 16 8) = true) :
    Gives x s (fun t => Started p (0xC300 + kind) (.range kind part (fld i 8 8) (fld i 16 8) 0 ld (tbNow s) [] false) t ∧
      OnlyCtx p s t) := by
  have hanswer : rangeAnswer kind part ld i s = { job := some (.range kind part (fld i 8 8) (fld i 16 8) 0 ld (tbNow s) [] false) } := by
    simp [rangeAnswer, hstart, hlen, hocc]
  rw [← hcmd.body, hanswer] at hb
  rw [← hcmd.op]
  exact (gives_started_unlogged hcmd.unlogged (hcmd.runs s) h hb (mainUp_takeIn h)).imp
    fun t ⟨hstarted, honly⟩ => ⟨hstarted, (onlyCtx_takeIn ..).trans honly⟩

/-- R189: an answer that turns the range away turns the command away. -/
theorem gives_rangeTurned {rc d o : Nat} (hb : rangeBody kind p i (takeIn cmd.op p i s) = (rej rc d o, takeIn cmd.op p i s)) :
    Gives x s (fun t => Turned p rc d o t ∧ OnlyCtx p s t) :=
  gives_turned_unlogged hcmd.unlogged (hcmd.runs s) h (hcmd.body ▸ hb)

end Commands

end Sys2Proof.Machine

/-! SUPPORT. TRAVERSE (R240, R241): the effect of its body, case by case. -/

namespace Sys2Proof.Machine

@[simp] theorem firstOffset_takeIn (op : Nat) (p : Path) (i : List Byte) (s : State) (part : Nat) :
    firstOffset (takeIn op p i s) part = firstOffset s part := by
  simp [firstOffset]

theorem travs_takeIn (op : Nat) (p : Path) (i : List Byte) (s : State) : (takeIn op p i s).travs = s.travs := by cases p <;> rfl

/-- The TRAVERSE record of a partition whose record is `r`, from its next generation. -/
def travRecOf (part rate : Nat) (r : PartRec) (s : State) : TravRec :=
  { part := part, oldGen := r.keyGen, newGen := r.keyGen + 1, rate := rate, mark := firstOffset s part }

/-- R240, R241: a TRAVERSE record is stored, with the NEXT wrap of its new generation. -/
def traverseStored (n : Nat) (r : TravRec) (s : State) : State :=
  modImg [rk 8 n] (fun m => { m with travs := tset m.travs n r }) (wrapNew r.part (1024 + n) r.newGen s)

/-- R240: a TRAVERSE record is stored again with another rate. -/
def rateStored (n : Nat) (r : TravRec) (rate : Nat) (s : State) : State :=
  modImg [rk 8 n] (fun m => { m with travs := tset m.travs n { r with rate := rate } }) s

/-! A traverse of phase 0 is not yet being finished (R246). -/

theorem finishing_none {o : Option Trav} (h : ∀ t, o = some t → t.phase = 0) : o.filter (fun t => t.phase ≠ 0) = none := by
  rw [Option.filter_eq_none_iff]
  intro t ht
  simp [h t ht]

theorem finishing_some {o : Option Trav} {v : Trav} (hv : o = some v) (h : v.phase ≠ 0) :
    o.filter (fun t => t.phase ≠ 0) = some v := by
  simp [hv, Option.filter, h]

section Body

variable {p : Path} {i : List Byte} {s : State} (hpart : fld i 0 2 < 1024) (hact : isActive s (fld i 0 2) = true)

include hpart hact

theorem body_traverse_zeroed (hzeroed : s.sealCtl.zeroed = true) : cmdTraverse.body p i s = (rej 6 0x0781, s) := by
  simp [cmdTraverse, Nat.not_le.mpr hpart, hact, hzeroed]

variable (hheld : s.sealCtl.zeroed = false)

include hheld

/-- A finish that runs takes the rate (R246). -/
theorem body_traverse_finishing {v : Trav} (hv : tget s.travs (fld i 0 2) = some v) (hphase : v.phase ≠ 0) :
    cmdTraverse.body p i s =
      ({ out := toLe 2 v.newGen.toNat }, modTrav (fld i 0 2) (fun t => { t with rate := fld i 4 4 }) s) := by
  simp only [cmdTraverse, if_neg (Nat.not_le.mpr hpart), hact, hheld, finishing_some hv hphase]
  rfl

variable (hnone : ∀ t, tget s.travs (fld i 0 2) = some t → t.phase = 0)

include hnone

/-- A record that the partition has already takes the rate. -/
theorem body_traverse_stored {n : Nat} {v : TravRec} (hv : s.sad.img.travs.find? (fun p => p.2.part = fld i 0 2) = some (n, v)) :
    cmdTraverse.body p i s =
      ({ out := toLe 2 v.newGen.toNat, recs := [rk 8 n], done := .traverse n }, rateStored n v (fld i 4 4) s) := by
  simp only [cmdTraverse, if_neg (Nat.not_le.mpr hpart), hact, hheld, finishing_none hnone, hv]
  rfl

variable (hfind : s.sad.img.travs.find? (fun p => p.2.part = fld i 0 2) = none)

include hfind

theorem body_traverse_full (hfull : 16 ≤ s.sad.img.travs.length) : cmdTraverse.body p i s = (rej 0x1D 0x0780, s) := by
  simp only [cmdTraverse, if_neg (Nat.not_le.mpr hpart), hact, hheld, finishing_none hnone, hfind, if_pos hfull]
  rfl

/-- A partition without a record gets the next one. -/
theorem body_traverse_new {r : PartRec} (hrec : partRec s (fld i 0 2) = some r) (hroom : s.sad.img.travs.length < 16) :
    cmdTraverse.body p i s =
      ({ out := toLe 2 (r.keyGen + 1).toNat, recs := [rk 8 (firstAbsent 17 0 (tkeys s.sad.img.travs)),
          rk 7 (1024 + firstAbsent 17 0 (tkeys s.sad.img.travs))], done := .traverse (firstAbsent 17 0 (tkeys s.sad.img.travs)) },
        traverseStored (firstAbsent 17 0 (tkeys s.sad.img.travs)) (travRecOf (fld i 0 2) (fld i 4 4) r s) s) := by
  simp only [cmdTraverse, if_neg (Nat.not_le.mpr hpart), hact, hheld, finishing_none hnone, hfind,
    if_neg (Nat.not_le.mpr hroom), hrec, Option.getD_some]
  rfl

end Body

/-! ### What a stored record shows -/

section Stored

variable (n : Nat) (r : TravRec) (s : State)

theorem travs_traverseStored : tget (traverseStored n r s).sad.img.travs n = some r := tget_tset_same ..

theorem wraps_traverseStored : tget (traverseStored n r s).sad.img.wraps (1024 + n) =
    some (wrapKeys (kwkOf s) r.part s.sad.wrapSeq (newKeys r.newGen s)) := tget_tset_same ..

theorem dirty_traverseStored : ∀ k ∈ [rk 8 n, rk 7 (1024 + n)], k ∈ (traverseStored n r s).sad.dirty := by
  simp [traverseStored, wrapNew]

theorem dirty_rateStored (rate : Nat) : ∀ k ∈ [rk 8 n], k ∈ (rateStored n r rate s).sad.dirty := by
  simp [rateStored]

end Stored

theorem modTrav_eq {part : Nat} {v : Trav} {s : State} (f : Trav → Trav) (hv : tget s.travs part = some v) :
    modTrav part f s = { s with travs := tset s.travs part (f v) } := by
  simp only [modTrav, hv]

end Sys2Proof.Machine

/-! The range commands, TRAVERSE, ADOPT_MODULE and background progress (R189, R240, R241, R289, R393, R399, R401). -/

namespace Sys2Proof.Machine

theorem chan_takeIn (op : Nat) (p : Path) (i : List Byte) (s : State) (c : Nat) : chan (takeIn op p i s) c = chan s c := by
  cases p <;> rfl

/-! ### The range commands (R189) -/

/-- A range command takes its input without a change of what its answer reads. -/
theorem rangeBody_management_takeIn {kind op : Nat} {p : Path} {i : List Byte} {s : State} (hrole : pathRole s p ≠ 0)
    (hform : fld i 0 1 = 0) (hpart : fld i 2 2 < 1024) (hact : isActive s (fld i 2 2) = true) :
    rangeBody kind p i (takeIn op p i s) = (rangeAnswer kind (fld i 2 2) none i s, takeIn op p i s) := by
  rw [rangeBody_management (by simpa using hrole) hform hpart (by simpa using hact), rangeAnswer_takeIn]

theorem rangeBody_tenant_takeIn {kind op k : Nat} {p : Path} {i : List Byte} {s : State} (hrole : pathRole s p = 0)
    (hld : pathLd s p = some k) (hform : fld i 0 1 = 1) (hzero : fld i 2 2 = 0) :
    rangeBody kind p i (takeIn op p i s) =
      if rangeRight kind (ldAt s k).map = false then (rej 2 0x0289, takeIn op p i s)
      else (rangeAnswer kind (ldAt s k).map.part (some k) i s, takeIn op p i s) := by
  rw [rangeBody_tenant (by simpa using hrole) (by simpa using hld) hform hzero, rangeAnswer_takeIn, map_takeIn]

/-! ### TRAVERSE (R240, R241) -/

section Traverse

variable {p : Path} {i : List Byte} {r : PartRec} {s : State} (h : Admitted cmdTraverse p i s) (hpart : fld i 0 2 < 1024)
  (hrec : partRec s (fld i 0 2) = some r) (hst : r.st = .active)

include h hpart hrec hst

theorem gives_traverse_zeroed (hzeroed : s.sealCtl.zeroed = true) :
    Gives (.traverse p i) s (fun t => Turned p 6 0x0781 0xFFF t ∧ OnlyCtxLog p s t) := by
  have hact : isActive s (fld i 0 2) = true := isActive_of_partRec hrec hst
  exact gives_turned rfl h (body_traverse_zeroed hpart (by simpa using hact) (by simpa using hzeroed))

variable (hheld : s.sealCtl.zeroed = false)

include hheld

theorem gives_traverse_finishing {v : Trav} (hv : tget s.travs (fld i 0 2) = some v) (hphase : v.phase ≠ 0) :
    Gives (.traverse p i) s (fun t => Succeeded p (toLe 2 v.newGen.toNat) t ∧
      tget t.travs (fld i 0 2) = some { v with rate := fld i 4 4 } ∧
      (∀ q, q ≠ fld i 0 2 → tget t.travs q = tget s.travs q) ∧ t.sad = s.sad) := by
  have hact : isActive s (fld i 0 2) = true := isActive_of_partRec hrec hst
  have hrun : tget (takeIn cmdTraverse.op p i s).travs (fld i 0 2) = some v := by rwa [travs_takeIn]
  have hbody := body_traverse_finishing (p := p) hpart (by simpa using hact) (by simpa using hheld) hrun hphase
  rw [modTrav_eq _ hrun] at hbody
  refine (gives_payload rfl h hbody (mainUp_takeIn h)).imp fun t ⟨hdone, honly⟩ => ⟨hdone, ?_, fun q hq => ?_, ?_⟩
  · rw [honly.rest]
    exact tget_tset_same ..
  · rw [honly.rest]
    simp only [tget_tset_ne _ _ hq, travs_takeIn]
  · rw [honly.sad]
    exact sad_takeIn ..

variable (hnone : ∀ t, tget s.travs (fld i 0 2) = some t → t.phase = 0)

include hnone

theorem gives_traverse_stored {n : Nat} {v : TravRec} (hv : s.sad.img.travs.find? (fun p => p.2.part = fld i 0 2) = some (n, v)) :
    Gives (.traverse p i) s (fun t => Awaits p 0xC400 [rk 8 n] (.traverse n) t ∧
      tget t.sad.img.travs n = some { v with rate := fld i 4 4 } ∧ t.keeper = s.keeper ∧ t.sad.img.wraps = s.sad.img.wraps) := by
  have hact : isActive s (fld i 0 2) = true := isActive_of_partRec hrec hst
  have hbody := body_traverse_stored (p := p) (s := takeIn cmdTraverse.op p i s) hpart (by simpa using hact) (by simpa using hheld)
    (by rwa [travs_takeIn]) (by simpa using hv)
  refine (gives_awaits rfl h hbody (mainUp_takeIn h) (List.cons_ne_nil _ _) (dirty_rateStored n v _ _)).imp
    fun t ⟨hwaits, honly⟩ => ⟨hwaits, ?_, ?_, ?_⟩
  · rw [honly.sad]
    exact tget_tset_same ..
  · rw [honly.1]
    exact keeper_takeIn ..
  · rw [honly.sad]
    exact congrArg (·.img.wraps) (sad_takeIn ..)

variable (hfind : s.sad.img.travs.find? (fun p => p.2.part = fld i 0 2) = none)

include hfind

theorem gives_traverse_full (hfull : 16 ≤ s.sad.img.travs.length) :
    Gives (.traverse p i) s (fun t => Turned p 0x1D 0x0780 0xFFF t ∧ OnlyCtxLog p s t) := by
  have hact : isActive s (fld i 0 2) = true := isActive_of_partRec hrec hst
  exact gives_turned rfl h (body_traverse_full hpart (by simpa using hact) (by simpa using hheld) (by rwa [travs_takeIn])
    (by simpa using hfind) (by simpa using hfull))

theorem gives_traverse_new (hroom : s.sad.img.travs.length < 16) :
    Gives (.traverse p i) s (fun t => ∃ n, Awaits p 0xC400 [rk 8 n, rk 7 (1024 + n)] (.traverse n) t ∧
      (∃ w, (ctx t p).wait = some w ∧ fld w.out 0 2 = (r.keyGen + 1).toNat) ∧
      tget t.sad.img.travs n = some { part := fld i 0 2, oldGen := r.keyGen, newGen := r.keyGen + 1, rate := fld i 4 4, mark := firstOffset s (fld i 0 2) } ∧
      tget t.sad.img.wraps (1024 + n) = some (wrapKeys (kwkOf s) (fld i 0 2) s.sad.wrapSeq (newKeys (r.keyGen + 1) s)) ∧
      t.keeper.rbg = s.keeper.rbg + 1 ∧ t.travs = s.travs ∧ t.sealCtl = s.sealCtl) := by
  have hact : isActive s (fld i 0 2) = true := isActive_of_partRec hrec hst
  have hbody := body_traverse_new (p := p) (s := takeIn cmdTraverse.op p i s) hpart (by simpa using hact) (by simpa using hheld)
    (by rwa [travs_takeIn]) (by simpa using hfind) (r := r) (by simpa using hrec) (by simpa using hroom)
  refine (gives_awaits_out rfl h hbody (mainUp_takeIn h) (List.cons_ne_nil _ _) (dirty_traverseStored _ _ _)).imp
    fun t ⟨hwaits, ⟨w, hw, hout⟩, honly⟩ => ⟨_, hwaits, ⟨w, hw, ?_⟩, ?_, ?_, ?_, ?_, ?_⟩
  · rw [hout, fld_toLe]
    exact Nat.mod_eq_of_lt (r.keyGen + 1).isLt
  · rw [honly.sad, travs_traverseStored]
    simp [travRecOf]
  · rw [honly.sad, wraps_traverseStored]
    simp [travRecOf]
  · rw [honly.1]
    exact congrArg (·.rbg + 1) (keeper_takeIn ..)
  · rw [honly.1]
    exact travs_takeIn ..
  · rw [honly.1]
    exact sealCtl_takeIn ..

end Traverse

/-! ### ADOPT_MODULE (R289) -/

theorem body_adoptModule {p : Path} {i : List Byte} {s : State} (hchan : fld i 0 1 < 32) :
    cmdAdoptModule.body p i s =
      if (chan s (fld i 0 1)).st ≠ .new then (rej 2 0x0A80 0, s)
      else if (chan s (fld i 0 1)).serial.toNat ≠ fld i 8 8 then (rej 2 0x0A80 8, s)
      else ({ job := some (.adopt (fld i 0 1) (chan s (fld i 0 1)).serial) }, moduleAdopted (fld i 0 1) s) := by
  simp only [cmdAdoptModule, if_neg (Nat.not_le.mpr hchan)]
  rfl

/-- Settles O41, command by command. That TRAVERSE changes the RATE alone while a finish runs (log entry 86), and that ADOPT_MODULE
resets the module's tiles within the command's own step (log entry 55), are the model's choices. -/
theorem backgroundCommands : Obligations.BackgroundCommands := by
  unfold Obligations.BackgroundCommands
  refine ⟨fun s p i x cmd kind hx h => ?range, fun s p i r h hpart hrec hst => ?traverse,
    fun s p i h hchan => ?adopt, fun s p n b hup hbg => ?progress, fun s e k n b hup => ?timeout⟩
  case range =>
    have hcmd := rangeCommand_of hx
    refine ⟨fun hrole hform hpart hact => ?management, fun k hrole hld hform hzero => ?tenant⟩
    case management =>
      have hbody := rangeBody_management_takeIn (kind := kind) (op := cmd.op) hrole hform hpart hact
      refine ⟨gives_rangeStarted hcmd h hbody, fun hstart => ?_, fun hstart hlen => ?_, fun hstart hlen hocc => ?_⟩
      · exact gives_rangeTurned hcmd h (by rw [hbody]; simp [rangeAnswer, hstart])
      · exact gives_rangeTurned hcmd h (by rw [hbody]; simp [rangeAnswer, hstart, hlen])
      · exact gives_rangeTurned hcmd h (by rw [hbody]; simp [rangeAnswer, hstart, hlen, hocc])
    case tenant =>
      have hbody := rangeBody_tenant_takeIn (kind := kind) (op := cmd.op) hrole hld hform hzero
      refine ⟨fun hright => gives_rangeStarted hcmd h ?_, fun hright => gives_rangeTurned hcmd h ?_⟩
      · rw [hbody, hright]
        rfl
      · rw [hbody, hright]
        rfl
  case traverse =>
    exact ⟨gives_traverse_zeroed h hpart hrec hst,
      fun hheld hnone hfind => ⟨gives_traverse_full h hpart hrec hst hheld hnone hfind,
        gives_traverse_new h hpart hrec hst hheld hnone hfind⟩,
      fun v hheld => gives_traverse_finishing h hpart hrec hst hheld,
      fun n v hheld hnone => gives_traverse_stored h hpart hrec hst hheld hnone⟩
  case adopt =>
    have hbody := body_adoptModule (p := p) (i := i) (s := takeIn cmdAdoptModule.op p i s) hchan
    rw [chan_takeIn] at hbody
    refine ⟨fun hst => ?notNew, fun hst hserial => ?otherSerial, fun hst hserial => ?adopted⟩
    case notNew =>
      rw [if_pos hst] at hbody
      exact (gives_turned rfl h hbody).imp fun t ⟨hturned, honly⟩ => ⟨hturned, honly.medium, honly.sad⟩
    case otherSerial =>
      rw [if_neg (not_not.mpr hst), if_pos hserial] at hbody
      exact (gives_turned rfl h hbody).imp fun t ⟨hturned, honly⟩ => ⟨hturned, honly.medium, honly.sad⟩
    case adopted =>
      rw [if_neg (not_not.mpr hst), if_neg (not_not.mpr hserial)] at hbody
      refine (gives_started rfl h hbody ((mainUp_moduleAdopted ..).trans (mainUp_takeIn h))).imp
        fun t ⟨hstarted, honly⟩ => ⟨hstarted, ?_, ?_, fun a ha => ?_⟩
      · rw [honly.sad, modules_moduleAdopted, chan_takeIn]
      · rw [honly.sad]
        exact dirty_moduleAdopted ..
      · rw [honly.medium]
        exact medium_moduleAdopted ha _
  case progress =>
    refine gives_whenMain rfl hup ?_
    simp only [hbg, Option.isSome_some, if_true]
    have hshown := bg_modBg p (fun b => { b with pct := max b.pct (min n 99) }) s
    rw [hbg] at hshown
    exact ⟨hshown, by simp [modBg, hbg, showBg], onlyCtx_modBg ..⟩
  case timeout =>
    exact gives_whenMain rfl hup ⟨rfl, emit_mctp ..⟩

end Sys2Proof.Machine

/-! SUPPORT. Maintenance work (R221, R223, R224, R229, R299, R301, R303): what the taking of locations changes, and `MoveSide`, which
the reads, programs and counters of a re-bale leave alone. -/

namespace Sys2Proof.Machine

/-! ### Locations (R299) -/

/-- Only the channels, the map and the journal's tail differ between two states. -/
def OnlyTiles (s t : State) : Prop :=
  t = { s with chans := t.chans, way := { s.way with map := t.way.map, tail := t.way.tail, recsSinceRound := t.way.recsSinceRound } }

theorem OnlyTiles.trans {s t u : State} (h : OnlyTiles s t) (h' : OnlyTiles t u) : OnlyTiles s u := by
  rw [OnlyTiles] at *
  rw [h', h]

theorem onlyTiles_modTile (k : Nat) (f : Tile → Tile) (s : State) : OnlyTiles s (modTile k f s) := rfl

theorem onlyTiles_openTile (ch b : Nat) (r : Role) (s : State) : OnlyTiles s (openTile ch b r s) := by
  unfold openTile; split <;> rfl

theorem onlyTiles_closeTile (ch b : Nat) (r : Role) (k : Nat) (s : State) : OnlyTiles s (closeTile ch b r k s) := rfl

theorem onlyTiles_closeIfFull (ch b : Nat) (r : Role) (k : Nat) (s : State) : OnlyTiles s (closeIfFull ch b r k s) := by
  unfold closeIfFull; split <;> rfl

theorem onlyTiles_takeFresh {ch b n : Nat} {r : Role} {s : State} {x : Nat × State} (h : takeFresh ch b r n s = some x) :
    OnlyTiles s x.2 := by
  obtain ⟨k, -, rfl⟩ := Option.map_eq_some_iff.mp h
  exact (onlyTiles_openTile ch b r s).trans ((onlyTiles_modTile ..).trans (onlyTiles_closeIfFull ..))

theorem onlyTiles_takeLoc {ch b n : Nat} {r : Role} {s : State} {x : Nat × State} (h : takeLoc ch b r n s = some x) :
    OnlyTiles s x.2 := by
  unfold takeLoc at h
  split at h
  case h_1 => exact onlyTiles_takeFresh h
  case h_2 k _ =>
    dsimp only at h
    split at h
    · exact (onlyTiles_closeTile ch b r k s).trans (onlyTiles_takeFresh h)
    · obtain rfl := Option.some.inj h
      exact (onlyTiles_modTile ..).trans (onlyTiles_closeIfFull ..)

theorem onlyTiles_fastPlace {n : Nat} {s : State} {cs : List Nat} {x : Nat × State} (h : fastPlace n s cs = some x) :
    OnlyTiles s x.2 := by
  induction cs with
  | nil => cases h
  | cons c cs ih =>
    unfold fastPlace at h
    split at h
    case h_1 hr =>
      obtain rfl := Option.some.inj h
      obtain ⟨b, -, hb⟩ := Option.bind_eq_some_iff.mp hr
      exact onlyTiles_takeLoc hb
    case h_2 => exact ih h

/-- R303 step 3: a fresh segment. -/
theorem onlyTiles_freshSegment {s : State} {fast : Bool} {cs : List Nat} {x : Nat × State} (h : freshSegment s fast cs = some x) :
    OnlyTiles s x.2 := by
  induction cs with
  | nil => cases h
  | cons c cs ih =>
    unfold freshSegment at h
    split at h
    case h_1 hr =>
      obtain rfl := Option.some.inj h
      obtain ⟨b, -, hb⟩ := Option.bind_eq_some_iff.mp hr
      exact onlyTiles_takeLoc hb
    case h_2 => exact ih h

/-! ### What a re-bale's work leaves alone -/

/-- What each re-bale has snapshotted, and whether a traverse makes it. -/
def snapsOf (t : Tbl RebaleJob) (lbi : Nat) : Option (List Src × Bool) := (tget t lbi).map fun j => (j.srcs, j.traverse)

/-- What the reads, programs and counters of a re-bale leave alone. -/
structure MoveSide where
  travs : Tbl Trav
  sad : Saddle
  medium : Medium
  snaps : Nat → Option (List Src × Bool)

/-- The move side of a state. -/
def moveSide (s : State) : MoveSide := { travs := s.travs, sad := s.sad, medium := s.medium, snaps := snapsOf s.way.rebales }

@[simp] theorem moveSide_mk (pend up health ports gate planner chans cache sealCtl tree travs way medium belay reck mctp ep sad
    cairn relay rope therm boot survey keeper freeCtr timeRef) :
    moveSide ⟨pend, up, health, ports, gate, planner, chans, cache, sealCtl, tree, travs, way, medium, belay, reck, mctp, ep, sad,
      cairn, relay, rope, therm, boot, survey, keeper, freeCtr, timeRef⟩ = ⟨travs, sad, medium, snapsOf way.rebales⟩ := rfl

@[simp] theorem moveSide_eta (s : State) : (⟨s.travs, s.sad, s.medium, snapsOf s.way.rebales⟩ : MoveSide) = moveSide s := rfl

@[simp] theorem moveSide_ite (c : Prop) [Decidable c] (s t : State) :
    moveSide (if c then s else t) = if c then moveSide s else moveSide t := apply_ite moveSide c s t

@[simp] theorem moveSide_ite_snd {α : Type} (c : Prop) [Decidable c] (x y : α × State) :
    moveSide (if c then x else y).2 = if c then moveSide x.2 else moveSide y.2 := apply_ite (fun u => moveSide u.2) c x y

@[simp] theorem moveSide_forAll {α : Type} (f : α → State → State) (h : ∀ a t, moveSide (f a t) = moveSide t) (l : List α) (s : State) :
    moveSide (forAll l f s) = moveSide s := forAll_keeps moveSide h l s

theorem OnlyTiles.moveSide {s t : State} (h : OnlyTiles s t) : moveSide t = moveSide s := by rw [show t = _ from h]; rfl

@[simp] theorem moveSide_modChan (c : Nat) (f : Chan → Chan) (s : State) : moveSide (modChan c f s) = moveSide s := rfl
@[simp] theorem moveSide_modBank (c b : Nat) (f : Bank → Bank) (s : State) : moveSide (modBank c b f s) = moveSide s := rfl
@[simp] theorem moveSide_bump (code par n : Nat) (s : State) : moveSide (bump code par n s) = moveSide s := rfl
@[simp] theorem moveSide_modProg (w : MWork) (f : MProg → MProg) (s : State) : moveSide (modProg w f s) = moveSide s := rfl
@[simp] theorem moveSide_planSeq (c b : Nat) (q : PulseSeq) (s : State) : moveSide (planSeq c b q s) = moveSide s := rfl
@[simp] theorem moveSide_modLeaf (i : Nat) (f : Leaf → Leaf) (s : State) : moveSide (modLeaf i f s) = moveSide s := rfl
@[simp] theorem moveSide_modNode (l i : Nat) (f : Node → Node) (s : State) : moveSide (modNode l i f s) = moveSide s := rfl

@[simp] theorem moveSide_emit (code inst p q r d : Nat) (s : State) : moveSide (emit code inst p q r d s) = moveSide s := by
  unfold emit emitN; split <;> rfl

@[simp] theorem moveSide_meter (part : Nat) (f : Meter → Meter) (s : State) : moveSide (meter part f s) = moveSide s := by
  unfold meter; split <;> rfl

/-! ### The move side: programs -/

@[simp] theorem moveSide_putProg (w : MWork) (ppa after : Nat) (s : State) : moveSide (putProg w ppa after s) = moveSide s := by
  unfold putProg; split <;> simp

@[simp] theorem moveSide_askSys_tree (l q c space lpn n : Nat) (body : SysBody) (s : State) :
    moveSide (askSys (.tree l q c) space lpn n body s) = moveSide s := by
  simp only [askSys, askProg, sealSys, placeProg]
  split
  case h_1 ppa t ht => simpa using (onlyTiles_fastPlace ht).moveSide
  case h_2 => simp

/-! ### The move side: the counter tree -/

@[simp] theorem moveSide_markDirty (k : Nat) (s : State) : moveSide (markDirty k s) = moveSide s := by simp [markDirty]

@[simp] theorem moveSide_dirtyLeaf (i : Nat) (f : Leaf → Leaf) (s : State) : moveSide (dirtyLeaf i f s) = moveSide s := by
  simp [dirtyLeaf]

@[simp] theorem moveSide_bumpParent (l i : Nat) (s : State) : moveSide (bumpParent l i s) = moveSide s := by simp [bumpParent]
@[simp] theorem moveSide_loseNode (l i : Nat) (s : State) : moveSide (loseNode l i s) = moveSide s := by simp [loseNode]
@[simp] theorem moveSide_useNode (l i : Nat) (s : State) : moveSide (useNode l i s) = moveSide s := by simp [useNode]

@[simp] theorem moveSide_loadLine (l i : Nat) (x : BitVec 512) (s : State) : moveSide (loadLine l i x s) = moveSide s := by
  simp [loadLine]

@[simp] theorem moveSide_loadNew (l i : Nat) (s : State) : moveSide (loadNew l i s) = moveSide s := by simp [loadNew]
@[simp] theorem moveSide_cleanNode (l i : Nat) (s : State) : moveSide (cleanNode l i s) = moveSide s := by simp [cleanNode]

@[simp] theorem moveSide_bringSibling (l i : Nat) (s : State) : moveSide (bringSibling l i s) = moveSide s := by
  unfold bringSibling
  split
  · rfl
  · split
    · simp
    · split
      · simp
      · split <;> simp

@[simp] theorem moveSide_writeParcel (l q : Nat) (s : State) : moveSide (writeParcel l q s) = moveSide s := by
  unfold writeParcel
  dsimp only
  split
  · simp
  · simp only [moveSide_askSys_tree, moveSide_forAll, moveSide_cleanNode, moveSide_bumpParent, moveSide_bringSibling, implies_true]

@[simp] theorem moveSide_evictNode (fuel l i : Nat) (s : State) : moveSide (evictNode fuel l i s) = moveSide s := by
  induction fuel generalizing l i s with
  | zero => rfl
  | succ fuel ih =>
    have hbelow := fun js t => moveSide_forAll (evictNode fuel (l - 1)) (fun a u => ih (l - 1) a u) js t
    simp [evictNode, hbelow]

@[simp] theorem moveSide_makeRoom (l i : Nat) (s : State) : moveSide (makeRoom l i s) = moveSide s := by
  unfold makeRoom
  dsimp only
  split
  · rfl
  · split <;> simp

@[simp] theorem moveSide_chargeCopy (l i c : Nat) (s : State) : moveSide (chargeCopy l i c s) = moveSide s := by
  unfold chargeCopy; split <;> simp

@[simp] theorem moveSide_repairCopy (l q c : Nat) (s : State) : moveSide (repairCopy l q c s) = moveSide s := by
  unfold repairCopy; split <;> simp

@[simp] theorem moveSide_fetchNode (errs : List NodeErr) (l i : Nat) (s : State) : moveSide (fetchNode errs l i s) = moveSide s := by
  unfold fetchNode
  dsimp only
  split
  · simp
  · split
    · simp
    · split
      · simp
      · split
        · simp
        · split <;> simp

@[simp] theorem moveSide_fetchPath (errs : List NodeErr) (lpn : Nat) (s : State) : moveSide (fetchPath errs lpn s) = moveSide s := by
  simp [fetchPath]

@[simp] theorem moveSide_incCounter (lpn part : Nat) (unw : BitVec 64) (s : State) : moveSide (incCounter lpn part unw s) = moveSide s := by
  simp [incCounter]

@[simp] theorem moveSide_setDone (lpn : Nat) (s : State) : moveSide (setDone lpn s) = moveSide s := by
  unfold setDone
  split
  · rfl
  · simp

/-! ### The move side: reads and segments -/

@[simp] theorem moveSide_enqueueRead (r : RdItem) (s : State) : moveSide (enqueueRead r s) = moveSide s := by
  simp [enqueueRead, spendRead]

@[simp] theorem moveSide_poisonedZeros (key : KeySet) (part lpn : Nat) (inc : Bool) (s : State) :
    moveSide (poisonedZeros key part lpn inc s).2 = moveSide s := by
  simp [poisonedZeros]

@[simp] theorem moveSide_rebaleLoad (trav : Bool) (part lpn : Nat) (src : Src) (got : Option Load) (key : KeySet) (s : State) :
    moveSide (rebaleLoad trav part lpn src got key s).2 = moveSide s := by
  unfold rebaleLoad
  dsimp only
  split
  · split
    · rfl
    · split <;> simp
  · rfl
  · simp

@[simp] theorem moveSide_rebaleLoads (j : RebaleJob) (part lbi : Nat) (key : KeySet) (l : List (Nat × Src)) (s : State) :
    moveSide (rebaleLoads j part lbi key l s).2 = moveSide s := by
  induction l generalizing s with
  | nil => rfl
  | cons p l ih =>
    unfold rebaleLoads
    split
    · exact ih s
    · simp [ih]

@[simp] theorem moveSide_stampSegment (ppa : Nat) (s : State) : moveSide (stampSegment ppa s) = moveSide s := by simp [stampSegment]

@[simp] theorem moveSide_askSegment (w : Nat → MWork) (ppa : Nat) (fast : Bool) (ls : Tbl Load) (s : State) :
    moveSide (askSegment w ppa fast ls s) = moveSide s := by
  simp [askSegment]

/-! ### The move side: re-bales -/

/-- A job that changes in other things than its snapshot. -/
theorem snapsOf_tset {t : Tbl RebaleJob} {lbi : Nat} {j j' : RebaleJob} (h : snapsOf t lbi = some (j.srcs, j.traverse))
    (hsrcs : j'.srcs = j.srcs) (htrav : j'.traverse = j.traverse) : snapsOf (tset t lbi j') = snapsOf t := by
  funext b
  by_cases hb : b = lbi
  · rw [hb, h, snapsOf, tget_tset_same, Option.map_some, hsrcs, htrav]
  · rw [snapsOf, tget_tset_ne _ _ hb, ← snapsOf]

theorem snapsOf_of_tget {t : Tbl RebaleJob} {lbi : Nat} {j : RebaleJob} (h : tget t lbi = some j) :
    snapsOf t lbi = some (j.srcs, j.traverse) := by
  rw [snapsOf, h, Option.map_some]

/-- R303 step 3: the segment of a job is built. -/
@[simp] theorem moveSide_buildSegment (lbi part : Nat) (key : KeySet) (chans : List Nat) (s : State) :
    moveSide (buildSegment lbi part key chans s) = moveSide s := by
  unfold buildSegment
  split
  case h_1 => rfl
  case h_2 j hj =>
    dsimp only
    generalize hfetched : forAll _ _ s = s1
    have h1 : moveSide s1 = moveSide s := by rw [← hfetched]; simp
    split
    case isTrue => exact h1
    case isFalse =>
      split
      case h_1 => exact h1
      case h_2 ppa t ht =>
        generalize hloads : rebaleLoads _ _ _ _ _ t = r
        have h2 : moveSide r.2 = moveSide s := by
          rw [← hloads, moveSide_rebaleLoads, (onlyTiles_freshSegment ht).moveSide, h1]
        have hsnap : snapsOf r.2.way.rebales lbi = some (j.srcs, j.traverse) :=
          (congrFun (congrArg MoveSide.snaps h2) lbi).trans (snapsOf_of_tget hj)
        rw [moveSide_askSegment, moveSide_stampSegment, ← h2]
        exact congrArg (MoveSide.mk r.2.travs r.2.sad r.2.medium) (snapsOf_tset hsnap rfl rfl)

@[simp] theorem moveSide_buildBale (lbi : Nat) (s : State) : moveSide (buildBale lbi s) = moveSide s := by
  unfold buildBale
  split
  · rfl
  · split <;> simp

@[simp] theorem moveSide_rebaleRead (lbi i : Nat) (got : Option Load) (s : State) : moveSide (rebaleRead lbi i got s) = moveSide s := by
  unfold rebaleRead
  split
  case h_1 => rfl
  case h_2 j hj =>
    have hsnaps : snapsOf (tset s.way.rebales lbi { j with read := tset j.read i got }) = snapsOf s.way.rebales :=
      snapsOf_tset (snapsOf_of_tget hj) rfl rfl
    simp [hsnaps]

@[simp] theorem moveSide_askReads (lbi : Nat) (s : State) : moveSide (askReads lbi s) = moveSide s := by
  unfold askReads
  split <;> simp

end Sys2Proof.Machine

/-! SUPPORT. Traverses (R243 to R246): a traverse that meets its next bale, the start of a re-bale and its commit, and the records
of a traverse's marks and finish. -/

namespace Sys2Proof.Machine

/-! ### The commit of a re-bale (R303) -/

@[simp] theorem moveSide_dropOld (lpn : Nat) (s : State) : moveSide (dropOld lpn s) = moveSide s := by
  unfold dropOld; split <;> rfl

@[simp] theorem moveSide_companionCommit (lpn : Nat) (wseq : BitVec 32) (s : State) :
    moveSide (companionCommit lpn wseq s) = moveSide s := by
  unfold companionCommit
  split
  · rfl
  · split <;> simp

@[simp] theorem moveSide_takeParcel (lpn : Nat) (w : Option Load) (s : State) : moveSide (takeParcel lpn w s) = moveSide s := by
  unfold takeParcel
  dsimp only
  split <;> simp

/-- What locations that begin to hold parcels leave alone. -/
structure SegmentSide where
  jobs : Tbl RebaleJob
  bales : Tbl Bale
  travs : Tbl Trav
  sad : Saddle

/-- The segment side of a state. -/
def segmentSide (s : State) : SegmentSide :=
  { jobs := s.way.rebales, bales := s.way.map.bales, travs := s.travs, sad := s.sad }

theorem segmentSide_addLoc (ppa : Nat) (s : State) : segmentSide (addLoc ppa s) = segmentSide s := rfl

/-- R303 step 4: what the commit of a re-bale leaves: no job of the bale, the bale in its new segment, traverses and the Saddlebag as
they were. -/
structure Rebaled (lbi : Nat) (s t : State) : Prop where
  job : tget t.way.rebales lbi = none
  bale : (baleAt t lbi).st = .baled ∨ (baleAt t lbi).st = .sparse
  travs : t.travs = s.travs
  sad : t.sad = s.sad

/-- A bale gets its new entry, its job ends, and its segment's locations begin to hold its parcels. -/
theorem rebaled_of_entry {lbi : Nat} {s s1 : State} (hs1 : moveSide s1 = moveSide s) {b : Bale} (hb : b.st = .baled ∨ b.st = .sparse)
    (sparse : Tbl (BitVec 256)) (stash : Nat) (locs : List (Nat × Src)) (rs : List JRec) :
    Rebaled lbi s (journal rs (forAll locs (fun p t => addLoc (basePpa b p.1) t) (dropRebale lbi { s1 with way := { s1.way with
      map := { s1.way.map with bales := tset s1.way.map.bales lbi b, sparse := sparse }, stashUsed := stash } }))) := by
  generalize hlocs : forAll locs _ _ = s3
  have h3 : segmentSide s3 = ⟨tdel s1.way.rebales lbi, tset s1.way.map.bales lbi b, s1.travs, s1.sad⟩ := by
    rw [← hlocs]
    exact forAll_keeps segmentSide (fun p t => segmentSide_addLoc (basePpa b p.1) t) locs _
  have hbale : baleAt s3 lbi = b := by
    rw [baleAt, show s3.way.map.bales = _ from congrArg SegmentSide.bales h3, tgetD_tset_same]
  exact {
    job := (congrArg (fun v => tget v.jobs lbi) h3).trans (tget_tdel_same ..)
    bale := (congrArg Bale.st hbale) ▸ hb
    travs := (congrArg SegmentSide.travs h3).trans (congrArg MoveSide.travs hs1)
    sad := (congrArg SegmentSide.sad h3).trans (congrArg MoveSide.sad hs1) }

/-- R303 step 4: the commit of a re-bale whose segment serves. -/
theorem rebaled_commitRebale (lbi dest : Nat) (j : RebaleJob) (s : State) : Rebaled lbi s (commitRebale lbi dest j s) := by
  unfold commitRebale
  refine rebaled_of_entry (moveSide_forAll _ (fun _ _ => moveSide_takeParcel ..) _ s) ?_ _ _ _ _
  dsimp only
  split
  · exact .inr rfl
  · exact .inl rfl

/-! ### The start of a re-bale (R303) -/

/-- R303 step 1: the job of a re-bale that has just been snapshotted. -/
def snapJob (trav fast : Bool) (lbi : Nat) (s : State) : RebaleJob :=
  { srcs := (List.range 256).map (fun i => srcOf s (lbi * 256 + i)), fast := fast, traverse := trav }

/-- R303 step 1: the snapshot is what changes on the move side. -/
theorem moveSide_snapBale (trav fast : Bool) (lbi : Nat) (s : State) : moveSide (snapBale trav fast lbi s) =
    { moveSide s with snaps := snapsOf (tset s.way.rebales lbi (snapJob trav fast lbi s)) } := by
  simp only [snapBale, moveSide_buildBale, moveSide_askReads, moveSide_mk]
  rfl

/-- R303 step 1, R304: a bale with a written parcel, and with room for its sparse entry, is snapshotted. -/
theorem moveSide_startRebale {lbi : Nat} {s : State} (trav fast : Bool) (part : Nat)
    (hwritten : ∃ i < 256, srcOf s (lbi * 256 + i) ≠ .unwritten) (hroom : sparseFull s lbi = false) :
    moveSide (startRebale trav fast part lbi s) =
      { moveSide s with snaps := snapsOf (tset s.way.rebales lbi (snapJob trav fast lbi s)) } := by
  obtain ⟨i, hi, hsrc⟩ := hwritten
  have hall : ¬ ((List.range 256).map (fun i => srcOf s (lbi * 256 + i))).all (· == .unwritten) = true := fun hall =>
    hsrc (beq_iff_eq.mp (List.all_eq_true.mp hall _ (List.mem_map_of_mem (List.mem_range.mpr hi))))
  unfold startRebale
  dsimp only
  rw [if_neg hall, if_neg (by simp [hroom]), moveSide_snapBale]
  rfl

/-! ### One bale of a traverse (R243) -/

/-- R243: a traverse whose W is past a bale. -/
def reached (off now : Nat) (x : Trav) : Trav :=
  { x with w := max x.w (off + 65536), lastTb := if x.w < off + 65536 then now else x.lastTb }

/-- R243: a traverse whose MARK is past a bale. -/
def marked (off : Nat) (x : Trav) : Trav := { x with mark := off + 65536, bales := x.bales + 1 }

theorem markPast_eq {part off lbi : Nat} {x : Trav} {s : State} (howner : partOfLpn s (lbi * 256) = some part)
    (hoffset : offsetOfLpn s (lbi * 256) = off) (hx : tget s.travs part = some x) :
    markPast lbi s = { s with travs := tset s.travs part (marked off x) } := by
  rw [markPast, howner, hoffset]
  exact modTrav_eq _ hx

section Bale

variable {part lbi : Nat} {s : State}

theorem rebales_of_not_thas (h : thas s.way.rebales lbi = false) : tget s.way.rebales lbi = none :=
  Option.not_isSome_iff_eq_none.mp (Bool.eq_false_iff.mp h)

/-- R243: a bale with nothing written is passed at once. -/
theorem traverseOne_empty (hjob : thas s.way.rebales lbi = false) (hempty : ∀ i < 256, srcOf s (lbi * 256 + i) = .unwritten) :
    traverseOne part lbi s = markPast lbi s := by
  have hall : (List.range 256).all (fun i => srcOf s (lbi * 256 + i) == .unwritten) = true :=
    List.all_eq_true.mpr fun i hi => beq_iff_eq.mpr (hempty i (List.mem_range.mp hi))
  rw [traverseOne, rebales_of_not_thas hjob]
  exact if_pos hall

/-- R243, R303 step 1: a bale with a written parcel is snapshotted, and MARK waits. -/
theorem moveSide_traverseOne (hjob : thas s.way.rebales lbi = false) (hwritten : ∃ i < 256, srcOf s (lbi * 256 + i) ≠ .unwritten)
    (hroom : sparseFull s lbi = false) : moveSide (traverseOne part lbi s) =
      { moveSide s with snaps := snapsOf (tset s.way.rebales lbi (snapJob true (fastOnly s part) lbi s)) } := by
  have hall : ¬ (List.range 256).all (fun i => srcOf s (lbi * 256 + i) == .unwritten) = true := by
    obtain ⟨i, hi, hsrc⟩ := hwritten
    exact fun hall => hsrc (beq_iff_eq.mp (List.all_eq_true.mp hall i (List.mem_range.mpr hi)))
  rw [traverseOne, rebales_of_not_thas hjob]
  dsimp only
  rw [if_neg hall, moveSide_startRebale true _ part hwritten hroom]

/-- R243, R303 step 4: a bale whose re-bale is programmed whole gets its new segment, and MARK moves past it. -/
theorem traverseOne_whole {j : RebaleJob} (hjob : tget s.way.rebales lbi = some j) (htrav : j.traverse = true)
    (hwhole : segmentWhole s lbi j = true) (hserved : served s (j.dest.getD 0) = true) (hcalm : s.belay.step = 0)
    (hheld : ∀ i < 256, lookupHeld s (lbi * 256 + i) = false) :
    traverseOne part lbi s = markPast lbi (commitRebale lbi (j.dest.getD 0) j s) := by
  have hfree : (List.range 256).any (fun i => lookupHeld s (lbi * 256 + i)) = false :=
    List.any_eq_false.mpr fun i hi => Bool.eq_false_iff.mp (hheld i (List.mem_range.mp hi))
  rw [traverseOne, hjob]
  dsimp only
  rw [if_pos hwhole, rebaleCommit, hjob]
  dsimp only
  rw [if_neg (by simp [hcalm, hwhole, hfree]), if_neg (by simp [hserved]), if_pos htrav]

end Bale

/-! ### A traverse at its next bale (R243) -/

/-- R243: a traverse that is not paused and meets its next bale: RATE lets it go on, no eviction under OLD_GEN is on its way to the
bale, and no hold keeps the bale's pages. -/
structure MeetsBale (part off lbi : Nat) (x : Trav) (s : State) : Prop where
  trav : tget s.travs part = some x
  unpaused : x.pause = 0
  runs : pauseCause s = 0
  phase : x.phase = 0
  may : maintMay s = true
  rate : rateHolds s x = false
  next : nextBale s part x.mark = some off
  bale : baleOfOffset s part off = some lbi
  evictions : oldEvictions s lbi = false
  held : ∀ i < 256, lookupHeld s (lbi * 256 + i) = false

/-- The table of traverses with one traverse's W past a bale. -/
structure WPast (part off now : Nat) (x : Trav) (v w : Tbl Trav) : Prop where
  self : tget w part = some (reached off now x)
  others : ∀ q, q ≠ part → tget w q = tget v q

/-- R240, R243: W moves past a bale that it has not passed yet, and the traverse's time with it. -/
theorem wPast_modTrav {part : Nat} {x : Trav} {s : State} (off : Nat) (hx : tget s.travs part = some x) :
    ∃ w, WPast part off (tbNow s) x s.travs w ∧ { s with travs := w } =
      if x.w < off + 65536 then modTrav part (fun x => { x with w := off + 65536, lastTb := tbNow s }) s else s := by
  by_cases hw : x.w < off + 65536
  · rw [if_pos hw, modTrav_eq _ hx]
    exact ⟨_, ⟨by simp [reached, hw, Nat.max_eq_right (Nat.le_of_lt hw)], fun q hq => tget_tset_ne _ _ hq⟩, rfl⟩
  · rw [if_neg hw]
    exact ⟨s.travs, ⟨by simp [reached, hw, hx, Nat.max_eq_left (Nat.le_of_not_lt hw)], fun _ _ => rfl⟩, rfl⟩

/-- R240, R243: W moves past the bale before the bale itself is moved. -/
theorem MeetsBale.reaches {part off lbi : Nat} {x : Trav} {s : State} (h : MeetsBale part off lbi x s) :
    ∃ w, WPast part off (tbNow s) x s.travs w ∧ traverseBale part s = traverseOne part lbi { s with travs := w } := by
  have hpause : travPause part x s = s := by simp [travPause, h.runs, h.unpaused]
  have hevict : ∀ w, oldEvictions { s with travs := w } lbi = false := fun _ => h.evictions
  have hfree : ∀ w, (List.range 256).any (fun i => lookupHeld { s with travs := w } (lbi * 256 + i)) = false := fun _ =>
    List.any_eq_false.mpr fun i hi => Bool.eq_false_iff.mp (h.held i (List.mem_range.mp hi))
  obtain ⟨w, hpast, hw⟩ := wPast_modTrav off h.trav
  refine ⟨w, hpast, ?_⟩
  unfold traverseBale
  simp only [h.trav, hpause, h.runs, h.phase, h.may]
  unfold traverseStep
  simp only [h.next, h.bale, h.rate, Bool.false_eq_true, and_false, if_false, ← hw]
  simp [hevict, hfree]

theorem calm_of_maintMay {s : State} (h : maintMay s = true) : s.belay.step = 0 := by
  simp only [maintMay, Bool.and_eq_true, beq_iff_eq] at h
  exact h.1.1.1

/-! ### Marks and finishes (R245, R246) -/

/-- R245: the mark of the only traverse goes to its record. -/
theorem commitMarks_one {part : Nat} {x : Trav} {r : TravRec} {s : State} (htravs : s.travs = [(part, x)])
    (hrec : tget s.sad.img.travs x.inst = some r) (hmark : r.mark ≠ x.mark) : commitMarks s =
      modImg [rk 8 x.inst] (fun m => { m with travs := tset m.travs x.inst { r with mark := x.mark } }) s := by
  simp only [commitMarks, htravs, forAll, List.foldl_cons, List.foldl_nil, hrec, if_neg hmark]

/-- R246: a traverse whose bales are all done, with no eviction under its old generation on its way, begins its finish. -/
theorem traverseFinish_begins {part : Nat} {x : Trav} {s : State} (hx : tget s.travs part = some x) (hphase : x.phase = 0)
    (hnext : nextBale s part x.mark = none) (hactive : isActive s part = true)
    (hold : s.chans.any (fun c => c.2.wbuf.any (fun w => w.oldGen && w.part == part)) = false) (hkeys : s.sealCtl.zeroed = false) :
    traverseFinish part s = finishFirst part x s := by
  rw [traverseFinish, hx]
  dsimp only
  rw [hphase, hnext, hactive, hold, hkeys]
  rfl

/-- R246: the first group of a finish, where the NEXT wrap stands in its record. -/
theorem finishFirst_eq {part : Nat} {x : Trav} {w : KeyWrap} {s : State} (hx : tget s.travs part = some x)
    (hwrap : tget s.sad.img.wraps (1024 + x.inst) = some w) : finishFirst part x s =
      modImg [rk 3 part, rk 7 part, rk 7 (1024 + x.inst), rk 8 x.inst] (fun m => { m with
        parts := tmod m.parts part {} (fun r => { r with keyGen := x.newGen })
        wraps := tset (tdel s.sad.img.wraps (1024 + x.inst)) part w
        travs := tdel m.travs x.inst })
        { s with travs := tset s.travs part { x with phase := 1, w := 70368744177664 } } := by
  unfold finishFirst
  rw [modTrav_eq _ hx]
  simp only [modImg, hwrap]

/-! ### The obligation -/

/-- Settles O18, clause by clause. How the finish moves the wraps and where it leaves W (log entry 34) is the model's choice. -/
theorem traverseSteps : Obligations.TraverseSteps := by
  unfold Obligations.TraverseSteps
  refine ⟨fun s part off lbi x hmain hx hpause hcause hphase hmay hrate hnext hbale howner hoffset hevict hheld => ?bale,
    fun s part x r hmain htravs hrec hmark => ?marks, fun s part x w hmain hx hphase hnext hactive hold hkeys hpart hwrap => ?finish⟩
  case bale =>
    have hmeets : MeetsBale part off lbi x s := ⟨hx, hpause, hcause, hphase, hmay, hrate, hnext, hbale, hevict, hheld⟩
    obtain ⟨w, hpast, hstep⟩ := hmeets.reaches
    refine ⟨fun hjob hempty => ?passed, fun hjob hwritten hroom => ?started, fun j hjob htrav hwhole hserved => ?committed⟩
    case passed =>
      refine gives_whenMain rfl hmain ?_
      rw [hstep, traverseOne_empty (s := { s with travs := w }) hjob hempty,
        markPast_eq (s := { s with travs := w }) howner hoffset hpast.self]
      exact ⟨tget_tset_same .., fun q hq => (tget_tset_ne _ _ hq).trans (hpast.others q hq), rfl⟩
    case started =>
      refine gives_whenMain rfl hmain ?_
      have hmoved := moveSide_traverseOne (part := part) (s := { s with travs := w }) hjob hwritten hroom
      rw [hstep]
      generalize traverseOne part lbi _ = t at hmoved
      obtain ⟨j, hj, hsnap⟩ := Option.map_eq_some_iff.mp
        ((congrFun (congrArg MoveSide.snaps hmoved) lbi).trans (snapsOf_of_tget (tget_tset_same ..)))
      refine ⟨⟨reached off (tbNow s) x, ?_, rfl, rfl⟩, ⟨j, hj, congrArg Prod.snd hsnap, congrArg Prod.fst hsnap⟩,
        congrArg MoveSide.sad hmoved, congrArg MoveSide.medium hmoved⟩
      exact (congrArg (fun v => tget v.travs part) hmoved).trans hpast.self
    case committed =>
      refine gives_whenMain rfl hmain ?_
      have hcommit := rebaled_commitRebale lbi (j.dest.getD 0) j { s with travs := w }
      rw [hstep, traverseOne_whole (s := { s with travs := w }) hjob htrav hwhole hserved (calm_of_maintMay hmay) hheld]
      generalize commitRebale .. = v at hcommit
      have hown : partOfLpn v (lbi * 256) = some part := by
        rw [partOfLpn, hcommit.sad]
        exact howner
      have hoff : offsetOfLpn v (lbi * 256) = off := by
        rw [offsetOfLpn, hcommit.sad]
        exact hoffset
      rw [markPast_eq hown hoff ((congrArg (tget · part) hcommit.travs).trans hpast.self)]
      exact ⟨⟨_, tget_tset_same .., rfl, rfl, rfl, rfl⟩, hcommit.job, hcommit.bale, hcommit.sad⟩
  case marks =>
    refine gives_whenMain rfl hmain ?_
    rw [commitMarks_one htravs hrec hmark]
    exact ⟨tget_tset_same .., by simp, rfl⟩
  case finish =>
    refine gives_whenMain rfl hmain ?_
    rw [traverseFinish_begins hx hphase hnext hactive hold hkeys, finishFirst_eq hx hwrap]
    refine ⟨tget_tset_same .., ?_, tget_tdel_same ..,
      ⟨_, tget_tmod_same s.sad.img.parts part {} fun r => { r with keyGen := x.newGen }, rfl⟩, fun k hk => ?_, tget_tset_same .., rfl⟩
    · exact (tget_tset_ne _ _ (by omega)).trans (tget_tdel_same ..)
    · exact (mem_dirty_modImg ..).mpr (.inl hk)

end Sys2Proof.Machine

/-! SUPPORT. The counter tree's own work (R221, R223, R227, R229, R230, R235, R237): the programs that a writeback asks for, the parent
counters that it raises, what a checkpoint does with nothing dirty, DONE bits, re-seals and lost nodes. -/

namespace Sys2Proof.Machine

/-! ### The programs of node parcels (R221, R301) -/

/-- Only the channels and the Waybill differ between two states. -/
def OnlyWay (s t : State) : Prop := t = { s with chans := t.chans, way := t.way }

theorem OnlyWay.trans {s t u : State} (h : OnlyWay s t) (h' : OnlyWay t u) : OnlyWay s u := by
  rw [OnlyWay] at *
  rw [h', h]

theorem OnlyTiles.onlyWay {s t : State} (h : OnlyTiles s t) : OnlyWay s t := by
  rw [OnlyTiles] at h
  rw [OnlyWay, h]

theorem onlyWay_putProg (w : MWork) (ppa after : Nat) (s : State) : OnlyWay s (putProg w ppa after s) := by
  unfold putProg; split <;> rfl

theorem onlyWay_askSys_tree (l q c space lpn n : Nat) (body : SysBody) (s : State) :
    OnlyWay s (askSys (.tree l q c) space lpn n body s) := by
  simp only [askSys, askProg, sealSys, placeProg]
  split
  case h_1 ppa t ht => exact OnlyWay.trans (by rfl) ((onlyTiles_fastPlace ht).onlyWay.trans (onlyWay_putProg ..))
  case h_2 => rfl

/-- What the outstanding program of a work carries. -/
def loadOf (s : State) (w : MWork) : Option Load := (progOf s w).map MProg.load

theorem progOf_isSome {s : State} {w : MWork} {l : Load} (h : loadOf s w = some l) : (progOf s w).isSome = true := by
  obtain ⟨p, hp, -⟩ := Option.map_eq_some_iff.mp h
  rw [hp, Option.isSome_some]

/-- A change of a program's place changes no load. -/
theorem loadOf_modProg {f : MProg → MProg} (hwork : ∀ p, (f p).work = p.work) (hload : ∀ p, (f p).load = p.load) (w v : MWork) (s : State) :
    loadOf (modProg w f s) v = loadOf s v := by
  have hkeeps : ∀ p : MProg, (if p.work = w then f p else p).work = p.work ∧ (if p.work = w then f p else p).load = p.load := by
    intro p
    split
    · exact ⟨hwork p, hload p⟩
    · exact ⟨rfl, rfl⟩
  simp only [loadOf, progOf, modProg, List.find?_map, Option.map_map, Function.comp_def, hkeeps]

@[simp] theorem loadOf_putProg (w v : MWork) (ppa after : Nat) (s : State) : loadOf (putProg w ppa after s) v = loadOf s v := by
  unfold putProg
  split
  · rfl
  · exact loadOf_modProg (f := fun p => { p with ppa := ppa, placed := true, passed := false }) (fun _ => rfl) (fun _ => rfl) w v s

theorem loadOf_of_onlyTiles {s t : State} (h : OnlyTiles s t) (v : MWork) : loadOf t v = loadOf s v := by
  rw [show t = _ from h]; rfl

/-- A program that is asked for is that of its work, unless the work has one already. -/
theorem loadOf_append (w v : MWork) (l : Load) (s : State) :
    loadOf { s with way := { s.way with progs := s.way.progs ++ [{ work := w, load := l }] } } v =
      (loadOf s v).or (if v = w then some l else none) := by
  simp only [loadOf, progOf, List.find?_append]
  cases s.way.progs.find? (fun p => p.work = v) with
  | some p => rfl
  | none => by_cases hv : v = w <;> simp [hv, eq_comm (a := w)]

/-- R301: a system parcel that has been asked for is the load of its work, unless that work has a program already. -/
theorem loadOf_askSys_tree (l q c space lpn n : Nat) (body : SysBody) (s : State) (v : MWork) :
    loadOf (askSys (.tree l q c) space lpn n body s) v =
      (loadOf s v).or (if v = .tree l q c then some (.sys (sealSys space lpn n body s).1) else none) := by
  simp only [askSys, askProg, placeProg]
  split
  case h_1 ppa t ht =>
    rw [loadOf_putProg, loadOf_of_onlyTiles (onlyTiles_fastPlace ht), loadOf_append]
    rfl
  case h_2 =>
    rw [loadOf_append]
    rfl

/-! ### Nodes and their parents' counters (R218, R229) -/

/-- Only the counter tree's nodes and their order differ between two states. -/
def OnlyNodes (s t : State) : Prop :=
  t = { s with sealCtl := { s.sealCtl with leaves := t.sealCtl.leaves, nodes := t.sealCtl.nodes, dirtyOrder := t.sealCtl.dirtyOrder } }

theorem OnlyNodes.trans {s t u : State} (h : OnlyNodes s t) (h' : OnlyNodes t u) : OnlyNodes s u := by
  rw [OnlyNodes] at *
  rw [h', h]

theorem onlyNodes_markDirty (key : Nat) (s : State) : OnlyNodes s (markDirty key s) := by
  unfold markDirty; split <;> rfl

theorem onlyNodes_dirtyLeaf (i : Nat) (f : Leaf → Leaf) (s : State) : OnlyNodes s (dirtyLeaf i f s) :=
  OnlyNodes.trans (by rfl) (onlyNodes_markDirty ..)

theorem onlyNodes_bumpParent {level : Nat} (hlevel : level ≠ 11) (i : Nat) (s : State) : OnlyNodes s (bumpParent level i s) := by
  unfold bumpParent
  rw [if_neg hlevel]
  exact OnlyNodes.trans (by rfl) (onlyNodes_markDirty ..)

theorem onlyNodes_cleanNode (level i : Nat) (s : State) : OnlyNodes s (cleanNode level i s) := by
  unfold cleanNode
  dsimp only
  split <;> rfl

/-- R229 step 1: a counter with its writeback count one higher, in its epoch. -/
def raisedCtr (c : BitVec 56) : BitVec 56 := c.extractLsb' 48 8 ++ (c.extractLsb' 0 48 + 1)

theorem nodeAt_markDirty (key l i : Nat) (s : State) : nodeAt (markDirty key s) l i = nodeAt s l i := by
  unfold markDirty; split <;> rfl

theorem nodeAt_modNode_same (l i : Nat) (f : Node → Node) (s : State) : nodeAt (modNode l i f s) l i = f (nodeAt s l i) :=
  tgetD_tset_same ..

theorem nodeAt_modNode_ne {l i j : Nat} (h : j ≠ i) (f : Node → Node) (s : State) : nodeAt (modNode l i f s) l j = nodeAt s l j :=
  tgetD_tset_ne _ _ _ (by simpa [nodeKey] using h)

theorem parentCtr_of_ne {level : Nat} (hlevel : level ≠ 11) (i : Nat) (s : State) :
    parentCtr s level i = (nodeAt s (level + 1) (i / 8)).ctr[i % 8]'(Nat.mod_lt _ (by decide)) := if_neg hlevel

/-- R229 step 1: a node one of whose counters is raised. -/
def raisedAt (j : Nat) (n : Node) : Node :=
  { n with ctr := n.ctr.set (j % 8) (raisedCtr (n.ctr[j % 8]'(Nat.mod_lt _ (by decide)))) (Nat.mod_lt _ (by decide)), dirty := true, cached := true }

theorem bumpParent_of_ne {level : Nat} (hlevel : level ≠ 11) (j : Nat) (s : State) :
    bumpParent level j s = markDirty (nodeKey (level + 1) (j / 8)) (modNode (level + 1) (j / 8) (raisedAt j) s) := if_neg hlevel

/-- R229 step 1: the counter of a node, and of no other, is raised in its parent. -/
theorem parentCtr_bumpParent {level : Nat} (hlevel : level ≠ 11) (i j : Nat) (s : State) :
    parentCtr (bumpParent level j s) level i = if i = j then raisedCtr (parentCtr s level i) else parentCtr s level i := by
  rw [bumpParent_of_ne hlevel]
  simp only [parentCtr_of_ne hlevel, nodeAt_markDirty]
  by_cases hij : i = j
  · subst hij
    simp only [nodeAt_modNode_same, raisedAt, Vector.getElem_set_self, if_true]
  by_cases hparent : i / 8 = j / 8
  · have hslot : j % 8 ≠ i % 8 := by omega
    simp only [hparent, nodeAt_modNode_same, raisedAt, Vector.getElem_set_ne _ _ hslot, if_neg hij]
  · simp only [nodeAt_modNode_ne hparent, if_neg hij]

theorem parentCtr_bumpParents {level : Nat} (hlevel : level ≠ 11) {l : List Nat} (hl : l.Nodup) (i : Nat) (s : State) :
    parentCtr (forAll l (bumpParent level) s) level i = if i ∈ l then raisedCtr (parentCtr s level i) else parentCtr s level i := by
  induction l generalizing s with
  | nil => rfl
  | cons j l ih =>
    obtain ⟨hj, hl⟩ := List.nodup_cons.mp hl
    refine (ih hl (bumpParent level j s)).trans ?_
    rw [parentCtr_bumpParent hlevel]
    by_cases hij : i = j
    · subst hij
      simp [hj]
    · simp [hij]

theorem leafAt_bumpParent (level i j : Nat) (s : State) : leafAt (bumpParent level j s) i = leafAt s i := by
  unfold bumpParent
  split
  · rfl
  · rw [leafAt_markDirty]; rfl

theorem leafAt_cleanNode (i j : Nat) (s : State) :
    leafAt (cleanNode 1 j s) i = if i = j then { leafAt s i with dirty := false } else leafAt s i := by
  unfold cleanNode
  dsimp only
  rw [if_pos rfl]
  by_cases hij : i = j
  · subst hij
    rw [leafAt_modLeaf_same, if_pos rfl]
    rfl
  · rw [if_neg hij]
    exact tgetD_tset_ne _ _ _ hij

theorem leafAt_bumpParents (level i : Nat) (l : List Nat) (s : State) : leafAt (forAll l (bumpParent level) s) i = leafAt s i :=
  forAll_keeps (leafAt · i) (fun j t => leafAt_bumpParent level i j t) l s

theorem leafAt_cleanNodes (l : List Nat) (i : Nat) (s : State) :
    leafAt (forAll l (cleanNode 1) s) i = if i ∈ l then { leafAt s i with dirty := false } else leafAt s i := by
  induction l generalizing s with
  | nil => rfl
  | cons j l ih =>
    refine (ih (cleanNode 1 j s)).trans ?_
    rw [leafAt_cleanNode]
    by_cases hij : i = j <;> by_cases hi : i ∈ l <;> simp [hij, hi]

theorem parentCtr_cleanNodes (l : List Nat) (i : Nat) (s : State) : parentCtr (forAll l (cleanNode 1) s) 1 i = parentCtr s 1 i :=
  forAll_keeps (f := cleanNode 1) (parentCtr · 1 i) (fun _ _ => rfl) l s

/-! ### The writeback of a node parcel (R229) -/

/-- A loop whose steps change nothing. -/
theorem forAll_id {α : Type} {f : α → State → State} {l : List α} {s : State} (h : ∀ a ∈ l, f a s = s) : forAll l f s = s := by
  induction l with
  | nil => rfl
  | cons a l ih =>
    have ha : f a s = s := h a List.mem_cons_self
    simp only [forAll, List.foldl_cons, ha]
    exact ih fun b hb => h b (List.mem_cons_of_mem a hb)

theorem bringSibling_of_resident {level i : Nat} {s : State} (h : resident s level i = true) : bringSibling level i s = s := if_pos h

theorem mem_fourNodes {level i : Nat} {s : State} (hi : i < nodesOf (legSpace s) level) : i ∈ fourNodes s level (i / 4) := by
  refine List.mem_filter.mpr ⟨List.mem_map.mpr ⟨i % 4, List.mem_range.mpr (Nat.mod_lt _ (by decide)), by omega⟩, by simpa using hi⟩

theorem nodup_fourNodes (s : State) (level q : Nat) : (fourNodes s level q).Nodup :=
  (List.nodup_range.map fun a b h => by simpa using h).filter _

/-- R229 step 1: the nodes of a parcel are clean, and their parent counters raised. -/
def parcelRaised (level q : Nat) (s : State) : State :=
  forAll (fourNodes s level q) (cleanNode level) (forAll (fourNodes s level q) (bumpParent level) s)

/-- R229 step 2: the lines of a node parcel that is written back. -/
def parcelLines (level q : Nat) (s : State) : List (BitVec 512) :=
  (List.range 4).map fun i => if 4 * q + i < nodesOf (legSpace s) level then lineOf (parcelRaised level q s) level (4 * q + i) else 0

/-- R229: a parcel of resident nodes that does not wait is written back: both of its copies are asked for. -/
theorem writeParcel_asks {level q : Nat} {s : State} (hres : ∀ j ∈ fourNodes s level q, resident s level j = true)
    (hwaits : parcelWaits s level q = false) (hfour : fourNodes s level q ≠ []) :
    ∃ comps spare, writeParcel level q s =
      askSys (.tree level q 1) 2 (treeLpn level q 1) 0 (.tree (parcelLines level q s) comps spare)
        (askSys (.tree level q 0) 1 (treeLpn level q 0) 0 (.tree (parcelLines level q s) comps spare) (parcelRaised level q s)) := by
  have hbrought : forAll (fourNodes s level q) (bringSibling level) s = s :=
    forAll_id fun j hj => bringSibling_of_resident (hres j hj)
  unfold writeParcel
  dsimp only
  rw [hbrought, if_neg (by simp [hwaits, hfour])]
  exact ⟨_, _, rfl⟩

theorem onlyNodes_parcelRaised {level : Nat} (hlevel : level ≠ 11) (q : Nat) (s : State) : OnlyNodes s (parcelRaised level q s) :=
  OnlyNodes.trans (forAll_rel (R := OnlyNodes) (fun _ => rfl) OnlyNodes.trans (fun j t => onlyNodes_bumpParent hlevel j t) _ s)
    (forAll_rel (R := OnlyNodes) (fun _ => rfl) OnlyNodes.trans (fun j t => onlyNodes_cleanNode level j t) _ _)

theorem leafAt_parcelRaised {i : Nat} {s : State} (hi : i < nodesOf (legSpace s) 1) :
    leafAt (parcelRaised 1 (i / 4) s) i = { leafAt s i with dirty := false } := by
  rw [parcelRaised, leafAt_cleanNodes, if_pos (mem_fourNodes hi), leafAt_bumpParents]

theorem parentCtr_parcelRaised {i : Nat} {s : State} (hi : i < nodesOf (legSpace s) 1) :
    parentCtr (parcelRaised 1 (i / 4) s) 1 i = raisedCtr (parentCtr s 1 i) := by
  rw [parcelRaised, parentCtr_cleanNodes, parentCtr_bumpParents (by decide) (nodup_fourNodes ..), if_pos (mem_fourNodes hi)]

/-- R217, R229: a leaf's line in the parcel that is written back. -/
theorem parcelLines_leaf {i : Nat} {s : State} (hi : i < nodesOf (legSpace s) 1) (hres : resident s 1 i = true) :
    (parcelLines 1 (i / 4) s)[i % 4]? = some (leafLine (leafAt s i).major (leafAt s i).minors) := by
  have hplace : 4 * (i / 4) + i % 4 = i := Nat.div_add_mod ..
  have hcached : resident (parcelRaised 1 (i / 4) s) 1 i = true := by
    rw [resident, if_pos rfl, leafAt_parcelRaised hi]
    exact hres
  have hline : lineOf (parcelRaised 1 (i / 4) s) 1 i = leafLine (leafAt s i).major (leafAt s i).minors := by
    simp [lineOf, hcached, leafAt_parcelRaised hi]
  rw [parcelLines, List.getElem?_map, List.getElem?_range (Nat.mod_lt _ (by decide)), Option.map_some, hplace, if_pos hi, hline]

/-- R221: both copies of a node parcel are asked for, each in its own space. -/
theorem loadOf_bothCopies {l q c : Nat} {s : State} (lpn : Nat → Nat) (body : SysBody) (hnone : ∀ c < 2, loadOf s (.tree l q c) = none)
    (hc : c < 2) : ∃ x, loadOf (askSys (.tree l q 1) 2 (lpn 1) 0 body (askSys (.tree l q 0) 1 (lpn 0) 0 body s)) (.tree l q c) =
      some (.sys x) ∧ x.space = 1 + c ∧ x.lpn = lpn c ∧ x.body = body := by
  rcases (by omega : c = 0 ∨ c = 1) with rfl | rfl
  · exact ⟨(sealSys 1 (lpn 0) 0 body s).1, by simp [loadOf_askSys_tree, hnone], rfl, rfl, rfl⟩
  · exact ⟨(sealSys 2 (lpn 1) 0 body (askSys (.tree l q 0) 1 (lpn 0) 0 body s)).1, by simp [loadOf_askSys_tree, hnone], rfl, rfl, rfl⟩

/-- The nodes of the tree change, and then the Waybill. -/
theorem OnlyNodes.thenWay {s t u : State} (h : OnlyNodes s t) (h' : OnlyWay t u) :
    u = { s with sealCtl := u.sealCtl, way := u.way, chans := u.chans } := by
  rw [OnlyNodes] at h
  rw [OnlyWay] at h'
  rw [h', h]

/-- R217, R221, R229: what the writeback of a leaf's parcel leaves: the leaf clean, its parent's counter raised, and both copies of
its parcel asked for. -/
structure WrittenBack (i : Nat) (s t : State) : Prop where
  leaf : leafAt t i = { leafAt s i with dirty := false }
  parent : parentCtr t 1 i = raisedCtr (parentCtr s 1 i)
  copies : ∀ c < 2, ∃ x ls cs m, loadOf t (.tree 1 (i / 4) c) = some (.sys x) ∧ x.space = 1 + c ∧ x.lpn = treeLpn 1 (i / 4) c ∧
    x.body = .tree ls cs m ∧ ls[i % 4]? = some (leafLine (leafAt s i).major (leafAt s i).minors)
  ckptTb : t.sealCtl.ckptTb = s.sealCtl.ckptTb
  ckptLevel : t.sealCtl.ckptLevel = s.sealCtl.ckptLevel
  rest : t = { s with sealCtl := t.sealCtl, way := t.way, chans := t.chans }

theorem writtenBack_writeParcel {i : Nat} {s : State} (hi : i < nodesOf (legSpace s) 1)
    (hres : ∀ j ∈ fourNodes s 1 (i / 4), resident s 1 j = true) (hwaits : parcelWaits s 1 (i / 4) = false) :
    WrittenBack i s (writeParcel 1 (i / 4) s) := by
  have hmem := mem_fourNodes hi
  obtain ⟨comps, spare, hwrite⟩ := writeParcel_asks hres hwaits (List.ne_nil_of_mem hmem)
  have hraised : OnlyNodes s (parcelRaised 1 (i / 4) s) := onlyNodes_parcelRaised (by decide) _ s
  have hline := parcelLines_leaf hi (hres i hmem)
  have hleaf := leafAt_parcelRaised hi
  have hparent := parentCtr_parcelRaised hi
  have hnone : ∀ c < 2, loadOf (parcelRaised 1 (i / 4) s) (.tree 1 (i / 4) c) = none := by
    simp only [parcelWaits, Bool.or_eq_false_iff, Option.isSome_eq_false_iff, Option.isNone_iff_eq_none] at hwaits
    obtain ⟨⟨h0, h1⟩, -⟩ := hwaits
    intro c hc
    have hs : loadOf s (.tree 1 (i / 4) c) = none := by
      rcases (by omega : c = 0 ∨ c = 1) with rfl | rfl
      · rw [loadOf, h0, Option.map_none]
      · rw [loadOf, h1, Option.map_none]
    rw [hraised]
    exact hs
  generalize parcelLines 1 (i / 4) s = ls at hwrite hline
  generalize parcelRaised 1 (i / 4) s = r at hwrite hraised hleaf hparent hnone
  have hway : OnlyWay r (writeParcel 1 (i / 4) s) := by
    rw [hwrite]
    exact (onlyWay_askSys_tree ..).trans (onlyWay_askSys_tree ..)
  refine ⟨?_, ?_, ?_, ?_, ?_, ?_⟩
  · rw [show writeParcel 1 (i / 4) s = _ from hway]; exact hleaf
  · rw [show writeParcel 1 (i / 4) s = _ from hway]; exact hparent
  · intro c hc
    obtain ⟨x, hload, hspace, hlpn, hbody⟩ := loadOf_bothCopies (treeLpn 1 (i / 4)) (.tree ls comps spare) hnone hc
    exact ⟨x, ls, comps, spare, hwrite ▸ hload, hspace, hlpn, hbody, hline⟩
  · rw [show writeParcel 1 (i / 4) s = _ from hway, show r = _ from hraised]
  · rw [show writeParcel 1 (i / 4) s = _ from hway, show r = _ from hraised]
  · exact OnlyNodes.thenWay hraised hway


/-! ### Checkpoints (R229, R230) -/

/-- R229: a dirty leaf of a checkpoint's level lets its parcel be written back. -/
theorem counterWriteback_writes {i : Nat} {s : State} (hmay : treeMay s = true) (hi : i < nodesOf (legSpace s) 1)
    (hdirty : (leafAt s i).dirty = true) (hlevel : s.sealCtl.ckptLevel = some 1) :
    counterWriteback 1 i s = writeParcel 1 (i / 4) s := by
  have hany : (fourNodes s 1 (i / 4)).any (nodeDirty s 1) = true :=
    List.any_eq_true.mpr ⟨i, mem_fourNodes hi, (if_pos rfl).trans hdirty⟩
  simp [counterWriteback, hmay, hany, hlevel]

/-- R230: the Summit is stored, or its store waits for the supply. -/
def summitEnds (s : State) : State :=
  if storeAllowed s then storeSummit s else { s with keeper := { s.keeper with summitWaits := true } }

/-- R229: a level with nothing dirty and nothing on its way is passed, and after the last one comes the Summit. -/
theorem treeGoesOn_nothing {n l : Nat} (hl : l + n = 12) {s : State} (hzero : s.sealCtl.zeroed = false) (hdirty : s.sealCtl.dirtyOrder = [])
    (hfly : ∀ l, treeFlying s l = false) :
    treeGoesOn (n + 1) { s with sealCtl := { s.sealCtl with ckptLevel := some l } } =
      summitEnds { s with sealCtl := { s.sealCtl with ckptLevel := none } } := by
  induction n generalizing l with
  | zero =>
    obtain rfl : l = 12 := hl
    simp [treeGoesOn, hzero, summitEnds]
  | succ n ih =>
    have hlevel : ¬ 11 < l := by omega
    have hnone : treeFlying s l = false := hfly l
    simp only [treeFlying] at hnone
    rw [← ih (l := l + 1) (by omega), treeGoesOn]
    simp [hzero, hlevel, dirtyParcels, hdirty, forAll, treeFlying, hnone]

theorem treeFlying_of_loadOf {l q c : Nat} {x : Load} {s : State} (h : loadOf s (.tree l q c) = some x) : treeFlying s l = true := by
  obtain ⟨p, hp, -⟩ := Option.map_eq_some_iff.mp h
  have hwork : p.work = .tree l q c := by simpa using List.find?_some hp
  exact List.any_eq_true.mpr ⟨p, List.mem_of_find?_eq_some hp, by simp [hwork]⟩

theorem dirtyParcels_leaf {i : Nat} {s : State} (hi : i < 1099511627776) (horder : s.sealCtl.dirtyOrder = [nodeKey 1 i]) :
    dirtyParcels s 1 = [i / 4] := by
  have hlevel : nodeKey 1 i / 1099511627776 = 1 := by rw [nodeKey]; omega
  have hidx : nodeKey 1 i % 1099511627776 = i := by rw [nodeKey]; omega
  simp [dirtyParcels, horder, hlevel, hidx, List.eraseDups_cons]

theorem WrittenBack.flying {i : Nat} {s t : State} (h : WrittenBack i s t) : treeFlying t 1 = true := by
  obtain ⟨x, ls, cs, m, hload, -⟩ := h.copies 0 (by decide)
  exact treeFlying_of_loadOf hload

/-- R229: a checkpoint that begins with one dirty leaf writes its parcel back, and waits for the copies at level 1. -/
theorem treeGoesOn_leaf {i : Nat} {s : State} (n : Nat) (hlevel : s.sealCtl.ckptLevel = some 1) (hzero : s.sealCtl.zeroed = false)
    (hparcels : dirtyParcels s 1 = [i / 4]) (hi : i < nodesOf (legSpace s) 1)
    (hres : ∀ j ∈ fourNodes s 1 (i / 4), resident s 1 j = true) (hwaits : parcelWaits s 1 (i / 4) = false) :
    ∃ b, WrittenBack i { s with belay := b } (treeGoesOn (n + 1) s) := by
  have hback (b : Belay) : WrittenBack i { s with belay := b } (writeParcel 1 (i / 4) { s with belay := b }) :=
    writtenBack_writeParcel hi hres hwaits
  have hstep : treeGoesOn (n + 1) s = writeParcel 1 (i / 4) { s with belay :=
      { s.belay with nodeParcels := s.belay.nodeParcels + (if s.belay.step = 0 then 0 else 1) } } := by
    simp [treeGoesOn, hlevel, hzero, hparcels, forAll, (hback _).flying]
  exact ⟨_, hstep ▸ hback _⟩

/-- R229: a checkpoint begins at level 1. -/
def ckptBegun (s : State) : State := { s with sealCtl := { s.sealCtl with ckptTb := tbNow s, ckptLevel := some 1 } }

/-- R229: a checkpoint that is due begins. -/
theorem counterCheckpoint_begins {s : State} (hmay : treeMay s = true) (hidle : s.sealCtl.ckptLevel = none)
    (hdue : s.sealCtl.ckptTb + 10000000000 ≤ tbNow s) : counterCheckpoint s = treeGoesOn 12 (ckptBegun s) := by
  simp [counterCheckpoint, hmay, hidle, Nat.not_lt.mpr hdue, ckptBegun]

/-- R230: a checkpoint with nothing dirty and nothing on its way comes to the Summit. -/
theorem treeGoesOn_ckptBegun {s : State} (hzero : s.sealCtl.zeroed = false) (hdirty : s.sealCtl.dirtyOrder = [])
    (hfly : ∀ l, treeFlying s l = false) : treeGoesOn 12 (ckptBegun s) =
      summitEnds { s with sealCtl := { s.sealCtl with ckptTb := tbNow s, ckptLevel := none } } :=
  treeGoesOn_nothing (n := 11) (l := 1) rfl (s := { s with sealCtl := { s.sealCtl with ckptTb := tbNow s } }) hzero hdirty hfly

/-- Of two places that take a new value by turns, one has it. -/
theorem stored_in_one {α : Type} (older : Bool) (x a b : α) : (if older then x else a) = x ∨ (if older then b else x) = x := by
  cases older
  · exact .inr rfl
  · exact .inl rfl

/-- R230: the Summit that is stored stands in one of its two copies. -/
theorem storeSummit_copies (s : State) :
    (storeSummit s).keeper.nvA = some (s.keeper.summitSeq + 1, s.keeper.summit) ∨
      (storeSummit s).keeper.nvB = some (s.keeper.summitSeq + 1, s.keeper.summit) :=
  stored_in_one ..

theorem zeroed_of_treeMay {s : State} (h : treeMay s = true) : s.sealCtl.zeroed = false := by
  simp only [treeMay, Bool.and_eq_true, Bool.not_eq_true'] at h
  exact h.1.1.1.1

/-! ### DONE bits and re-seals (R226, R227) -/

/-- R226: a companion with a parcel's DONE bit, unless its bitmap is full. -/
def doneAt (lpn : Nat) (c : Companion) : Option Companion :=
  if c.done ||| bit1 (lpn % 64) = BitVec.allOnes 64 then none else some { c with done := c.done ||| bit1 (lpn % 64) }

/-- R226, R227: what a DONE bit leaves: the leaf dirty, its companion lines with the bit or gone, and every other part as it was. -/
structure Done (lpn : Nat) (c : Companion) (s t : State) : Prop where
  leaf : leafAt t (lpn / 64) = { leafAt s (lpn / 64) with dirty := true, cached := true }
  companion : tget t.sealCtl.companions (lpn / 64) = doneAt lpn c
  others : ∀ i, i ≠ lpn / 64 → tget t.sealCtl.companions i = tget s.sealCtl.companions i
  rest : t = { s with sealCtl := t.sealCtl, reck := t.reck }

theorem done_setDone {lpn : Nat} {c : Companion} {s : State} (hc : tget s.sealCtl.companions (lpn / 64) = some c) :
    Done lpn c s (setDone lpn s) := by
  have honly := onlyNodes_dirtyLeaf (lpn / 64) id s
  have hleaf : leafAt (dirtyLeaf (lpn / 64) id s) (lpn / 64) = { leafAt s (lpn / 64) with dirty := true, cached := true } := by
    rw [dirtyLeaf, leafAt_markDirty, leafAt_modLeaf_same]
    rfl
  unfold setDone
  rw [hc]
  dsimp only
  generalize dirtyLeaf (lpn / 64) id s = u at honly hleaf
  have hcomps : u.sealCtl.companions = s.sealCtl.companions := by rw [show u = _ from honly]
  rw [OnlyNodes] at honly
  split
  case isTrue hfull =>
    refine ⟨hleaf, ?_, fun i hi => ?_, ?_⟩
    · rw [doneAt, if_pos hfull]
      exact tget_tdel_same ..
    · exact (tget_tdel_ne _ hi).trans (by rw [hcomps])
    · rw [honly]; rfl
  case isFalse hfull =>
    refine ⟨hleaf, ?_, fun i hi => ?_, ?_⟩
    · rw [doneAt, if_neg hfull]
      exact tget_tset_same ..
    · exact (tget_tset_ne _ _ hi).trans (by rw [hcomps])
    · rw [honly]

/-- R227: an unrolled parcel whose path has been fetched is re-sealed, where nothing else seals it. -/
theorem rollReseal_reseals {lpn : Nat} {c : Companion} {s : State} (hc : tget s.sealCtl.companions (lpn / 64) = some c)
    (hdone : c.done.getLsbD (lpn % 64) = false) (hzero : s.sealCtl.zeroed = false) (hhealth : s.health.st ≠ 5)
    (hheld : lookupHeld s lpn = false) (hruns : resealRuns s lpn = false) (hself : sealsItself s lpn = false)
    (hlost : underLost (fetchPath [] lpn s) lpn = false) :
    rollReseal lpn s = resealParcel c.part lpn (fetchPath [] lpn s) := by
  have hhealth' : (s.health.st == 5) = false := beq_eq_false_iff_ne.mpr hhealth
  simp [rollReseal, hc, hdone, hzero, hhealth', hheld, hruns, hself, hlost]

theorem onlyPlace_spendWrite (part ch : Nat) (s : State) : OnlyPlace s (spendWrite part ch s) := by
  unfold spendWrite
  split
  · exact OnlyPlace.trans (by rfl) (onlyPlace_meter ..)
  · exact onlyPlace_meter ..

/-- R227: what a re-seal of a parcel's plaintext under its new counters leaves: its sealed parcel in the channel's write buffer, and
its program planned on the bank. -/
structure Resealed (lpn part p ch ppa : Nat) (d : Parcel) (key : KeySet) (s t : State) : Prop where
  buffer : ∃ w ∈ (chan t ch).wbuf, w.lpn = lpn ∧ w.ppa = ppa ∧ w.reseal = some (some p) ∧ w.accepted = true ∧
    w.word = sealWord key part lpn (leafAt s (lpn / 64)).major (leafAt s (lpn / 64)).minors[minorIdx lpn] false d
  planned : ∃ q ∈ (bankOf (chan t ch) (ppaBank ppa)).planned, ∃ w n a, q = .program lpn ppa true 0 w n a
  cache : t.cache = s.cache
  medium : t.medium = s.medium

/-- R227: the write-buffer entry of a re-seal. -/
def resealEntry (lpn part p ppa : Nat) (d : Parcel) (word : Codeword) : WbEntry :=
  { lpn := lpn, part := part, creditPart := part, plain := d, poison := false, ppa := ppa, word := word, accepted := true
    reseal := some (some p) }

/-- The entry of a re-seal joins the write buffer, and its program the planned sequences. -/
theorem resealed_of_entry {lpn part p ch ppa : Nat} {d : Parcel} {key : KeySet} {s u : State} {word : Codeword} (hu : OnlyPlace s u)
    (hword : word = sealWord key part lpn (leafAt s (lpn / 64)).major (leafAt s (lpn / 64)).minors[minorIdx lpn] false d) :
    Resealed lpn part p ch ppa d key s (planSeq ch (ppaBank ppa) (.program lpn ppa true 0 word part 0)
      (modChan ch (fun x => { x with wbuf := x.wbuf ++ [resealEntry lpn part p ppa d word] }) u)) where
  buffer := by
    obtain ⟨banks, hchan⟩ := chan_modBank_modChan ch (ppaBank ppa)
      (fun x => { x with planned := x.planned ++ [.program lpn ppa true 0 word part 0] })
      (fun x => { x with wbuf := x.wbuf ++ [resealEntry lpn part p ppa d word] }) u
    rw [planSeq, hchan]
    exact ⟨_, List.mem_append_right _ (List.mem_singleton_self _), rfl, rfl, rfl, rfl, hword⟩
  planned := by
    rw [planSeq, bankOf_modBank_same]
    exact ⟨_, List.mem_append_right _ (List.mem_singleton_self _), word, part, 0, rfl⟩
  cache := hu.cache
  medium := by
    rw [show u = _ from hu]
    rfl

/-- R227: the plaintext of a re-seal is sealed under the new counters, and its program planned. -/
theorem resealed_resealProgram {lpn part ch ppa : Nat} {c : Companion} {key : KeySet} {s t : State} (p : Nat) (d : Parcel)
    (hc : tget s.sealCtl.companions (lpn / 64) = some c) (hkey : sealKey s part lpn = some key) (hplace : placeHost s = some (ch, ppa, t))
    (hcredit : 1024 ≤ wrCredit s part ch) : Resealed lpn part p ch ppa d key s (resealProgram lpn part (some d) (some p) s) := by
  have honly : OnlyPlace s t := onlyPlace_placeHost hplace
  simp only [resealProgram, hc, hkey, hplace, hcredit, decide_true, Bool.true_or, Bool.not_true, Bool.false_eq_true, if_false]
  exact resealed_of_entry (honly.trans (onlyPlace_spendWrite ..)) (by rw [honly.leafAt]; rfl)

/-- R227: the plaintext of a CLEAN, fully VALID line. -/
theorem cleanData_of_line {lpn k : Nat} {s : State} (hway : findWay s lpn = some k) (hst : (lineAt s k).st = .clean)
    (hvalid : (lineAt s k).valid = 15) (hsound : (lineAt s k).poison = false) : cleanData s lpn = some (lineAt s k).data := by
  simp [cleanData, hway, hst, hvalid, hsound]

theorem cleanData_of_cache {s t : State} (h : t.cache = s.cache) (lpn : Nat) : cleanData t lpn = cleanData s lpn := by
  have hline : lineAt t = lineAt s := by funext k; rw [lineAt, h]; rfl
  rw [cleanData, cleanData, findWay, h, ← findWay, hline]

theorem resealParcel_zeros {part lpn : Nat} {s : State} (h : unwritten s lpn = true) : resealParcel part lpn s = setDone lpn s := by
  have hzeros : lookup s lpn = .zeros := beq_iff_eq.mp h
  rw [resealParcel, hzeros]

theorem resealParcel_line {part lpn p : Nat} {d : Parcel} {s : State} (hmap : lookup s lpn = .at_ p) (hdata : cleanData s lpn = some d) :
    resealParcel part lpn s = resealProgram lpn part (some d) (some p) s := by
  rw [resealParcel, hmap]
  dsimp only
  rw [hdata]

/-! ### Lost nodes (R235 to R237) -/

/-- Only ports, LDs, and the records and events sent differ between two states. -/
def OnlyReports (s t : State) : Prop := t = { s with ports := t.ports, relay := t.relay, cairn := t.cairn }

theorem OnlyReports.trans {s t u : State} (h : OnlyReports s t) (h' : OnlyReports t u) : OnlyReports s u := by
  rw [OnlyReports] at *
  rw [h', h]

theorem onlyReports_emitN (b : Bool) (code inst p q r d : Nat) (s : State) : OnlyReports s (emitN b code inst p q r d s) := by
  unfold emitN; split <;> rfl

theorem onlyReports_postEvent (l : List Nat) (log : Nat) (e : EventRec) (s : State) : OnlyReports s (postEvent l log e s) := by
  unfold postEvent; split <;> rfl

/-- R236: the reports of a lost node's range. -/
theorem onlyReports_reportLost (level idx : Nat) (s : State) : OnlyReports s (reportLost level idx s) := by
  refine forAll_rel (R := OnlyReports) (fun _ => rfl) OnlyReports.trans (fun k t => ?_) _ s
  refine forAll_rel (R := OnlyReports) (fun _ => rfl) OnlyReports.trans (fun p u => ?_) _ t
  exact (onlyReports_postEvent ..).trans (by rfl)

theorem mem_lost_modLost {level idx : Nat} {n : LostNode} {s : State} (f : LostNode → LostNode) (hn : n ∈ s.sealCtl.lost)
    (hlevel : n.level = level) (hidx : n.idx = idx) (hrep : n.replaced = false) : f n ∈ (modLost level idx f s).sealCtl.lost :=
  List.mem_map.mpr ⟨n, hn, by simp [hlevel, hidx, hrep]⟩

/-- R237: the legs that the retirement of a lost node adds to the retired ones. -/
def newlyRetired (level idx : Nat) (s : State) : List Nat :=
  (nodeLegs level idx).filter (fun g => decide (g < legSpace s) && !s.gate.retiredLegs.contains g)

/-- R237: a lost node and its legs are retired, before any report of it. -/
def nodeRetired (level idx : Nat) (s : State) : State :=
  modLost level idx (fun l => { l with retired := true }) { s with
    gate := { s.gate with retiredLegs := s.gate.retiredLegs ++ newlyRetired level idx s }
    tree := { s.tree with retired := s.tree.retired ++ [(level, idx)] } }

theorem onlyReports_retireNode (level idx : Nat) (s : State) : OnlyReports (nodeRetired level idx s) (retireNode level idx s) :=
  (onlyReports_emitN ..).trans ((onlyReports_emitN ..).trans (onlyReports_reportLost ..))

theorem mem_retiredLegs_nodeRetired {level idx g : Nat} {s : State} (hg : g ∈ nodeLegs level idx) (hspace : g < legSpace s) :
    g ∈ (nodeRetired level idx s).gate.retiredLegs := by
  by_cases hold : g ∈ s.gate.retiredLegs
  · exact List.mem_append_left _ hold
  · exact List.mem_append_right _ (List.mem_filter.mpr ⟨hg, by simp [hspace, hold]⟩)

/-- R235, R237: a lost node that still waits for an epoch is taken. -/
theorem lostNodeReplace_takes {level idx : Nat} {n : LostNode} {s : State} (hn : n ∈ s.sealCtl.lost) (hlevel : n.level = level)
    (hidx : n.idx = idx) (hrep : n.replaced = false) (hret : n.retired = false) (hepoch : n.epoch = none) :
    lostNodeReplace level idx s = if 255 ≤ s.sad.img.epoch then retireNode level idx s else
      modImg [rk 0x12 0] (fun m => { m with epoch := s.sad.img.epoch + 1 })
        (modLost level idx (fun l => { l with epoch := some (s.sad.img.epoch + 1) }) s) := by
  have hfind : (s.sealCtl.lost.find? fun l => l.level = level ∧ l.idx = idx ∧ !l.replaced ∧ !l.retired ∧ l.epoch = none).isSome = true :=
    List.find?_isSome.mpr ⟨n, hn, by simp [hlevel, hidx, hrep, hret, hepoch]⟩
  obtain ⟨m, hm⟩ := Option.isSome_iff_exists.mp hfind
  rw [lostNodeReplace, hm]

/-! ### The obligation -/

/-- Settles O17, row by row. The places of the tree's parcels (log entry 28), that what a row asks for runs in later steps (29), and
the order of a lost node's replacement (32) are the model's choices. -/
theorem counterTree : Obligations.CounterTree := by
  unfold Obligations.CounterTree
  refine ⟨fun s s' lpn c hmain hrolls hdone hzero hhealth hheld hruns hself hs' hlost hc => ?roll,
    fun s i hmain hmay hi hres hdirty hwaits hlevel => ?writeback, fun s hmain hmay hidle hdue => ?checkpoint,
    fun s level idx n hmain hn hlevel hidx hrep hret hepoch => ?lost⟩
  case roll =>
    obtain ⟨c0, hc0⟩ := Option.isSome_iff_exists.mp hrolls
    rw [tgetD, hc0, Option.getD_some] at hdone
    have hroll : rollReseal lpn s = resealParcel c0.part lpn s' := by
      rw [hs'] at hlost ⊢
      exact rollReseal_reseals hc0 hdone hzero hhealth hheld hruns hself hlost
    refine ⟨fun hunw => ?done, fun k p ch ppa t' key hmap hway hst hvalid hsound hpart hkey hplace hcredit => ?sealed⟩
    case done =>
      refine gives_whenMain rfl hmain ?_
      rw [hroll, resealParcel_zeros hunw]
      have hdoneAt := done_setDone hc
      exact ⟨hdoneAt.companion, hdoneAt.others, by rw [hdoneAt.leaf], by rw [hdoneAt.leaf], by rw [hdoneAt.leaf], hdoneAt.rest⟩
    case sealed =>
      refine gives_whenMain rfl hmain ?_
      rw [tgetD, hc0, Option.getD_some] at hpart
      have hside : hostSide s' = hostSide s := by rw [hs', hostSide_fetchPath]
      have hcache : s'.cache = s.cache := congrArg HostSide.cache hside
      have hdata : cleanData s' lpn = some (lineAt s k).data :=
        (cleanData_of_cache hcache lpn).trans (cleanData_of_line hway hst hvalid hsound)
      have hsealed := resealed_resealProgram p (lineAt s k).data hc hkey hplace hcredit
      rw [hroll, hpart, resealParcel_line hmap hdata]
      exact ⟨hsealed.buffer, hsealed.planned, hsealed.cache.trans hcache, hsealed.medium.trans (congrArg HostSide.medium hside)⟩
  case writeback =>
    refine gives_whenMain rfl hmain ?_
    rw [counterWriteback_writes hmay hi hdirty hlevel]
    have hback := writtenBack_writeParcel hi hres hwaits
    refine ⟨by rw [hback.leaf], by rw [hback.leaf], by rw [hback.leaf], hback.parent, fun c hc => ?_, hback.rest⟩
    obtain ⟨x, ls, cs, m, hload, hx⟩ := hback.copies c hc
    obtain ⟨p, hp, hpload⟩ := Option.map_eq_some_iff.mp hload
    exact ⟨p, x, ls, cs, m, hp, hpload, hx⟩
  case checkpoint =>
    have hzero := zeroed_of_treeMay hmay
    refine ⟨fun horder hfly => ?nothing, fun i horder hi hi40 hdirty hres hwaits => ?leaf⟩
    case nothing =>
      refine gives_whenMain rfl hmain ?_
      rw [counterCheckpoint_begins hmay hidle hdue]
      rw [treeGoesOn_ckptBegun hzero horder hfly, summitEnds]
      split
      case isTrue hsupply =>
        exact ⟨rfl, rfl, fun _ => ⟨rfl, rfl, storeSummit_copies _⟩, fun hfails => absurd (hsupply.symm.trans hfails) (by decide), rfl⟩
      case isFalse hsupply =>
        exact ⟨rfl, rfl, fun hpasses => absurd hpasses hsupply, fun _ => ⟨rfl, rfl, rfl⟩, rfl⟩
    case leaf =>
      refine gives_whenMain rfl hmain ?_
      rw [counterCheckpoint_begins hmay hidle hdue]
      obtain ⟨b, hback⟩ := treeGoesOn_leaf (i := i) (s := ckptBegun s) 11 rfl hzero (dirtyParcels_leaf hi40 horder) hi hres hwaits
      refine ⟨hback.ckptTb, hback.ckptLevel, by rw [hback.leaf], fun c hc => ?_, by rw [hback.rest]; rfl, by rw [hback.rest]; rfl⟩
      obtain ⟨x, ls, cs, m, hload, -⟩ := hback.copies c hc
      exact progOf_isSome hload
  case lost =>
    have htakes := lostNodeReplace_takes hn hlevel hidx hrep hret hepoch
    refine ⟨fun hroom => ?replaced, fun hfull => ?retired⟩
    case replaced =>
      refine gives_whenMain rfl hmain ?_
      rw [htakes, if_neg (Nat.not_le.mpr hroom)]
      refine ⟨rfl, by simp, ⟨_, mem_lost_modLost _ hn hlevel hidx hrep, hlevel, hidx, rfl⟩, rfl, rfl⟩
    case retired =>
      refine gives_whenMain rfl hmain ?_
      rw [htakes, if_pos hfull, show retireNode level idx s = _ from onlyReports_retireNode level idx s]
      exact ⟨rfl, ⟨_, mem_lost_modLost _ hn hlevel hidx hrep, hlevel, hidx, rfl⟩, fun g hg hspace => mem_retiredLegs_nodeRetired hg hspace, rfl⟩

end Sys2Proof.Machine

/-! SUPPORT. The states of the channels (R285): what a channel's reads and programs leave alone as its banks fail (R288), and the
failure of a channel. -/

namespace Sys2Proof.Machine

/-! ### The states of the channels -/

/-- The states of a table of channels. -/
def statesOf (t : Tbl Chan) (c : Nat) : ChanSt := (tgetD t c {}).st

/-- R285: the state of every channel. -/
def chanStates (s : State) : Nat → ChanSt := statesOf s.chans

@[simp] theorem chanStates_mk (pend up health ports gate planner chans cache sealCtl tree travs way medium belay reck mctp ep sad
    cairn relay rope therm boot survey keeper freeCtr timeRef) :
    chanStates ⟨pend, up, health, ports, gate, planner, chans, cache, sealCtl, tree, travs, way, medium, belay, reck, mctp, ep, sad,
      cairn, relay, rope, therm, boot, survey, keeper, freeCtr, timeRef⟩ = statesOf chans := rfl

@[simp] theorem statesOf_chans (s : State) : statesOf s.chans = chanStates s := rfl

@[simp] theorem chanStates_ite (c : Prop) [Decidable c] (s t : State) :
    chanStates (if c then s else t) = if c then chanStates s else chanStates t := apply_ite chanStates c s t

@[simp] theorem chanStates_forAll {α : Type} (f : α → State → State) (h : ∀ a t, chanStates (f a t) = chanStates t) (l : List α)
    (s : State) : chanStates (forAll l f s) = chanStates s := forAll_keeps chanStates h l s

theorem Places.chanStates {s t : State} (h : Places s t) : chanStates t = chanStates s :=
  funext fun c => (congrArg Chan.st (h.chans c) :)

theorem chanStates_modChan {c : Nat} {f : Chan → Chan} (h : ∀ x, (f x).st = x.st) (s : State) :
    chanStates (modChan c f s) = chanStates s := by
  funext d
  by_cases hd : d = c
  · subst hd
    exact (congrArg Chan.st (chan_modChan_same d f s)).trans (h _)
  · exact congrArg Chan.st (chan_modChan_ne f s hd)

@[simp] theorem chanStates_emitN (b : Bool) (code inst p q r d : Nat) (s : State) :
    chanStates (emitN b code inst p q r d s) = chanStates s := by
  unfold emitN; split <;> rfl

@[simp] theorem chanStates_emit (code inst p q r d : Nat) (s : State) : chanStates (emit code inst p q r d s) = chanStates s :=
  chanStates_emitN ..

@[simp] theorem chanStates_askSys (w : MWork) (space lpn n : Nat) (body : SysBody) (s : State) :
    chanStates (askSys w space lpn n body s) = chanStates s := (places_askSys w space lpn n body s).chanStates

@[simp] theorem chanStates_putProg (w : MWork) (ppa after : Nat) (s : State) : chanStates (putProg w ppa after s) = chanStates s :=
  (places_putProg w ppa after s).chanStates

/-! ### The counter tree -/

@[simp] theorem chanStates_markDirty (k : Nat) (s : State) : chanStates (markDirty k s) = chanStates s := by
  unfold markDirty; split <;> rfl

@[simp] theorem chanStates_modLeaf (i : Nat) (f : Leaf → Leaf) (s : State) : chanStates (modLeaf i f s) = chanStates s := rfl
@[simp] theorem chanStates_modNode (l i : Nat) (f : Node → Node) (s : State) : chanStates (modNode l i f s) = chanStates s := rfl

@[simp] theorem chanStates_dirtyLeaf (i : Nat) (f : Leaf → Leaf) (s : State) : chanStates (dirtyLeaf i f s) = chanStates s :=
  chanStates_markDirty ..

@[simp] theorem chanStates_bumpParent (l i : Nat) (s : State) : chanStates (bumpParent l i s) = chanStates s := by
  simp [bumpParent]

@[simp] theorem chanStates_loseNode (l i : Nat) (s : State) : chanStates (loseNode l i s) = chanStates s := by simp [loseNode]
@[simp] theorem chanStates_useNode (l i : Nat) (s : State) : chanStates (useNode l i s) = chanStates s := by simp [useNode]

@[simp] theorem chanStates_loadLine (l i : Nat) (x : BitVec 512) (s : State) : chanStates (loadLine l i x s) = chanStates s := by
  simp [loadLine]

@[simp] theorem chanStates_loadNew (l i : Nat) (s : State) : chanStates (loadNew l i s) = chanStates s := by simp [loadNew]
@[simp] theorem chanStates_cleanNode (l i : Nat) (s : State) : chanStates (cleanNode l i s) = chanStates s := by simp [cleanNode]

@[simp] theorem chanStates_bringSibling (l i : Nat) (s : State) : chanStates (bringSibling l i s) = chanStates s := by
  unfold bringSibling
  split
  · rfl
  · split
    · simp
    · split
      · simp
      · split <;> simp

@[simp] theorem chanStates_writeParcel (l q : Nat) (s : State) : chanStates (writeParcel l q s) = chanStates s := by
  simp [writeParcel]

@[simp] theorem chanStates_evictNode (fuel l i : Nat) (s : State) : chanStates (evictNode fuel l i s) = chanStates s := by
  induction fuel generalizing l i s with
  | zero => rfl
  | succ fuel ih => simp [evictNode, ih]

@[simp] theorem chanStates_makeRoom (l i : Nat) (s : State) : chanStates (makeRoom l i s) = chanStates s := by
  unfold makeRoom
  dsimp only
  split
  · rfl
  · split <;> simp

/-- R224: the read of a copy takes a transfer of its channel. -/
@[simp] theorem chanStates_chargeCopy (l i c : Nat) (s : State) : chanStates (chargeCopy l i c s) = chanStates s := by
  unfold chargeCopy
  split
  · exact chanStates_modChan (by intro x; rfl) s
  · rfl

@[simp] theorem chanStates_repairCopy (l q c : Nat) (s : State) : chanStates (repairCopy l q c s) = chanStates s := by
  unfold repairCopy; split <;> simp

@[simp] theorem chanStates_fetchNode (errs : List NodeErr) (l i : Nat) (s : State) :
    chanStates (fetchNode errs l i s) = chanStates s := by
  unfold fetchNode
  dsimp only
  split
  · simp
  · split
    · simp
    · split
      · simp
      · split
        · simp
        · split <;> simp

@[simp] theorem chanStates_fetchPath (errs : List NodeErr) (lpn : Nat) (s : State) : chanStates (fetchPath errs lpn s) = chanStates s := by
  simp [fetchPath]

@[simp] theorem chanStates_incCounter (lpn part : Nat) (unw : BitVec 64) (s : State) :
    chanStates (incCounter lpn part unw s) = chanStates s := by
  simp [incCounter, bump]

/-! ### Re-bales -/

@[simp] theorem chanStates_poisonedZeros (key : KeySet) (part lpn : Nat) (inc : Bool) (s : State) :
    chanStates (poisonedZeros key part lpn inc s).2 = chanStates s := by
  simp [poisonedZeros]

@[simp] theorem chanStates_rebaleLoad (trav : Bool) (part lpn : Nat) (src : Src) (got : Option Load) (key : KeySet) (s : State) :
    chanStates (rebaleLoad trav part lpn src got key s).2 = chanStates s := by
  unfold rebaleLoad
  dsimp only
  split
  · split
    · rfl
    · split
      · simp
      · split <;> simp
  · rfl
  · simp

@[simp] theorem chanStates_rebaleLoads (j : RebaleJob) (part lbi : Nat) (key : KeySet) (l : List (Nat × Src)) (s : State) :
    chanStates (rebaleLoads j part lbi key l s).2 = chanStates s := by
  induction l generalizing s with
  | nil => rfl
  | cons p l ih =>
    unfold rebaleLoads
    split
    · exact ih s
    · simp [ih]

theorem places_freshSegment {s : State} {fast : Bool} {cs : List Nat} {x : Nat × State} (h : freshSegment s fast cs = some x) :
    Places s x.2 := by
  induction cs with
  | nil => cases h
  | cons c cs ih =>
    unfold freshSegment at h
    split at h
    case h_1 hr =>
      obtain rfl := Option.some.inj h
      obtain ⟨b, -, hb⟩ := Option.bind_eq_some_iff.mp hr
      exact places_takeLoc hb
    case h_2 => exact ih h

@[simp] theorem chanStates_askSegment (w : Nat → MWork) (ppa : Nat) (fast : Bool) (ls : Tbl Load) (s : State) :
    chanStates (askSegment w ppa fast ls s) = chanStates s := by
  refine chanStates_forAll _ (fun p t => ?_) ls s
  simp

@[simp] theorem chanStates_stampSegment (ppa : Nat) (s : State) : chanStates (stampSegment ppa s) = chanStates s := by
  simp [stampSegment]

/-- R303 step 3: the segment of a job is built. -/
@[simp] theorem chanStates_buildSegment (lbi part : Nat) (key : KeySet) (chans : List Nat) (s : State) :
    chanStates (buildSegment lbi part key chans s) = chanStates s := by
  unfold buildSegment
  split
  case h_1 => rfl
  case h_2 j hj =>
    dsimp only
    split
    case isTrue => simp
    case isFalse =>
      split
      case h_1 => simp
      case h_2 ppa t ht => simp [(places_freshSegment ht).chanStates]

@[simp] theorem chanStates_buildBale (lbi : Nat) (s : State) : chanStates (buildBale lbi s) = chanStates s := by
  unfold buildBale
  split
  · rfl
  · split <;> simp

@[simp] theorem chanStates_rebaleRead (lbi i : Nat) (got : Option Load) (s : State) :
    chanStates (rebaleRead lbi i got s) = chanStates s := by
  unfold rebaleRead
  split <;> simp

/-! ### Poisoned parcels (R62) -/

/-- Only the LDs, and the events on their way to them, differ between two states. -/
def OnlyTold (s t : State) : Prop := t = { s with ports := t.ports, relay := t.relay }

theorem OnlyTold.trans {s t u : State} (h : OnlyTold s t) (h' : OnlyTold t u) : OnlyTold s u := by
  rw [OnlyTold] at *
  rw [h', h]

theorem OnlyTold.chans {s t : State} (h : OnlyTold s t) : t.chans = s.chans := by rw [show t = _ from h]

theorem OnlyTold.cache {s t : State} (h : OnlyTold s t) : t.cache = s.cache := by rw [show t = _ from h]

theorem OnlyTold.way {s t : State} (h : OnlyTold s t) : t.way = s.way := by rw [show t = _ from h]

theorem onlyTold_postEvent (lds : List Nat) (log : Nat) (e : EventRec) (s : State) : OnlyTold s (postEvent lds log e s) := by
  unfold postEvent; split <;> rfl

theorem OnlyTold.modLd {k : Nat} {f : Ld → Ld} {s t : State} (h : OnlyTold s t) : OnlyTold s (modLd k f t) := h.trans rfl

theorem OnlyTold.setChg {i k : Nat} {s t : State} (h : OnlyTold s t) : OnlyTold s (setChg i k t) := h.trans rfl

/-- R62: the LDs of a newly poisoned parcel are told. -/
theorem onlyTold_newlyPoisoned (lpn : Nat) (s : State) : OnlyTold s (newlyPoisoned lpn s) := by
  refine forAll_rel (R := OnlyTold) (fun _ => rfl) OnlyTold.trans (fun p t => ?_) (dpasOfLpn s lpn) s
  exact .setChg (.modLd (onlyTold_postEvent ..))

/-! ### Banks that fail (R288) -/

/-- What the reads and programs of failed banks leave alone. -/
structure ServiceSide where
  sts : Nat → ChanSt
  sad : Saddle
  medium : Medium

/-- The service side of a state. -/
def serviceSide (s : State) : ServiceSide := { sts := chanStates s, sad := s.sad, medium := s.medium }

theorem serviceSide_of {s t : State} (hsts : chanStates t = chanStates s) (hsad : t.sad = s.sad) (hmedium : t.medium = s.medium) :
    serviceSide t = serviceSide s := by
  rw [serviceSide, hsts, hsad, hmedium, serviceSide]

theorem OnlyTold.serviceSide {s t : State} (h : OnlyTold s t) : serviceSide t = serviceSide s := by
  rw [show t = _ from h]; rfl

theorem Places.serviceSide {s t : State} (h : Places s t) : serviceSide t = serviceSide s :=
  serviceSide_of h.chanStates (congrArg StageSide.sad h.side) (congrArg StageSide.medium h.side)

theorem serviceSide_fillReady (lpn : Nat) (st : FillSt) (s : State) : serviceSide (fillReady lpn st s) = serviceSide s := by
  unfold fillReady; split <;> rfl

theorem serviceSide_rebaleRead (lbi i : Nat) (got : Option Load) (s : State) :
    serviceSide (rebaleRead lbi i got s) = serviceSide s := by
  have hmove := moveSide_rebaleRead lbi i got s
  exact serviceSide_of (chanStates_rebaleRead lbi i got s) (congrArg MoveSide.sad hmove) (congrArg MoveSide.medium hmove)

theorem serviceSide_sweepRead_none (tile src : Nat) (s : State) : serviceSide (sweepRead tile src none s) = serviceSide s := by
  unfold sweepRead
  cases tget s.way.sweeps tile with
  | none => rfl
  | some j => rfl

/-- R303, R316: a source whose read ends in poison. -/
theorem serviceSide_readGave_none (it : RdItem) (s : State) : serviceSide (readGave it none s) = serviceSide s := by
  unfold readGave
  cases it.work with
  | bale lbi i => exact serviceSide_rebaleRead lbi i none s
  | sweep tile => exact serviceSide_sweepRead_none tile it.ppa s
  | host => rfl
  | scrub => rfl
  | reseal => rfl

theorem serviceSide_lostRead (it : RdItem) (s : State) : serviceSide (lostRead it s) = serviceSide s := by
  unfold lostRead
  split
  · exact serviceSide_readGave_none it s
  · refine (serviceSide_fillReady ..).trans ?_
    split
    · rfl
    · exact (onlyTold_newlyPoisoned it.lpn s).serviceSide

/-- R288: the banks that fail leave the channels' states, the medium and the Saddlebag alone. -/
theorem serviceSide_failBanks (c : Nat) (hit : Nat → Bool) (s : State) : serviceSide (failBanks c hit s) = serviceSide s := by
  unfold failBanks
  refine (Places.forAll (fun p t => ?_) _ _).serviceSide.trans ?maint
  · exact places_remake p.work p.ppa (s.planner.stage + 1) t
  refine (Places.forAll (fun q t => ?_) _ _).serviceSide.trans ?progs
  · exact places_reissue q.lpn q c false t
  refine (forAll_keeps serviceSide (fun it t => serviceSide_lostRead it t) _ _).trans ?reads
  exact serviceSide_of (chanStates_modChan (by intro x; rfl) s) rfl rfl

/-! ### Channel failure (R288) -/

/-- R288: a channel has failed: the other channels' states, the medium and the Saddlebag are as they were. -/
structure ChannelFailed (c : Nat) (s t : State) : Prop where
  self : (chan t c).st = .failed
  others : ∀ d, d ≠ c → (chan t d).st = (chan s d).st
  sad : t.sad = s.sad
  medium : t.medium = s.medium

theorem channelFailed_channelDown (c : Nat) (s : State) : ChannelFailed c s (channelDown c s) := by
  have hside := serviceSide_failBanks c (fun _ => true)
    (modChan c (fun x => { x with st := .failed, heldData := namesChannel s c, crcRun := 0 }) s)
  have hst (d : Nat) := congrFun (congrArg ServiceSide.sts hside) d
  refine ⟨?_, fun d hd => ?_, congrArg ServiceSide.sad hside, congrArg ServiceSide.medium hside⟩
  · exact (hst c).trans (congrArg Chan.st (chan_modChan_same ..))
  · exact (hst d).trans (congrArg Chan.st (chan_modChan_ne _ s hd))

/-- R288: a channel whose module is trained fails at once. -/
theorem channelFailed_channelFail {c : Nat} (cause : Nat) {s : State} (h : inService (chan s c) = true ∨ (chan s c).st = .new) :
    ChannelFailed c s (channelFail c cause s) := by
  obtain ⟨hself, hothers, hsad, hmedium⟩ := channelFailed_channelDown c (emit 0x0A07 c c cause 0 0 s)
  have hsts := chanStates_emit 0x0A07 c c cause 0 0 s
  rw [channelFail, if_pos h]
  exact ⟨hself, fun d hd => (hothers d hd).trans (congrFun hsts d), hsad.trans (emit_sad ..), hmedium.trans (emit_medium ..)⟩

end Sys2Proof.Machine

/-! SUPPORT. Reads of the medium (R271, R275 to R279, R291, R327): what a STATUS reply, a decode and the end of a deep recovery do. -/

namespace Sys2Proof.Machine

/-! ### Counts of a period (R591) -/

/-- Only the counts of the open period differ between two states. -/
def OnlyCounted (s t : State) : Prop := t = { s with reck := { s.reck with counts := t.reck.counts } }

theorem OnlyCounted.trans {s t u : State} (h : OnlyCounted s t) (h' : OnlyCounted t u) : OnlyCounted s u := by
  rw [OnlyCounted] at *
  rw [h', h]

theorem OnlyCounted.chans {s t : State} (h : OnlyCounted s t) : t.chans = s.chans := by rw [show t = _ from h]

theorem OnlyCounted.bump {code par n : Nat} {s t : State} (h : OnlyCounted s t) : OnlyCounted s (bump code par n t) := h.trans rfl

theorem OnlyCounted.bumpBit {code par i : Nat} {s t : State} (h : OnlyCounted s t) : OnlyCounted s (bumpBit code par i t) := h.trans rfl

theorem OnlyCounted.bumpCh {code ch : Nat} {s t : State} (h : OnlyCounted s t) : OnlyCounted s (bumpCh code ch t) := h.trans rfl

/-! ### STATUS replies (R271, R291) -/

/-- R271: a read that the reply reports as done hands its codeword to the decoder. -/
theorem bankOutcome_of_read {c : Nat} {o : BankOutcome} {it : RdItem} {s : State} (hcause : o.cause = 0) (hdone : o.done = true)
    (hrun : (bankOf (chan s c) o.bank).run = .read it) : bankOutcome c o s =
      modBank c o.bank (fun x => { x with received := x.received ++ [it] }) (modBank c o.bank (fun x => { x with run := .idle }) s) := by
  simp [bankOutcome, hcause, hdone, hrun]

/-- R291: a channel whose banks' outcomes are unknown, and one more reply has failed in succession. -/
def replyLost (x : Chan) : Chan := { x with crcRun := x.crcRun + 1, banks := tmap x.banks fun _ b => outcomeUnknown b }

theorem bankOf_replyLost (x : Chan) (b : Nat) : bankOf (replyLost x) b = outcomeUnknown (bankOf x b) :=
  tgetD_tmap x.banks (fun _ => outcomeUnknown) rfl

theorem outcomeUnknown_of_read {x : Bank} {it : RdItem} (h : x.run = .read it) :
    outcomeUnknown x = { x with run := .idle, received := x.received ++ [it] } := by
  simp [outcomeUnknown, h]

theorem outcomeUnknown_of_pulse {x : Bank} (h : x.run = .pulse) :
    outcomeUnknown x = { x with run := .idle, outcomeKnown := false } := by
  simp [outcomeUnknown, h]

/-- R291: the counts of a reply whose CRC fails, and fails again as it is resent. -/
def crcCounted (c : Nat) (s : State) : State :=
  bump 0x0A0F 3 1 (bump 0x0A0F 1 1 (bumpBit 0x0A0F 2 c (bump 0x0A0F 1 1 s)))

theorem onlyCounted_crcCounted (c : Nat) (s : State) : OnlyCounted s (crcCounted c s) := .bump (.bump (.bumpBit (.bump rfl)))

theorem chan_crcCounted (c d : Nat) (s : State) : chan (crcCounted c s) d = chan s d := by
  rw [chan, (onlyCounted_crcCounted c s).chans, chan]

/-- R291: a reply whose CRC fails twice; the third in succession fails the channel. -/
theorem statusReply_of_lost {c : Nat} {r : StatusReply} {s : State} (hserves : inService (chan s c) = true) (hcrc : r.crcOk = false)
    (hresend : r.resendOk = false) : statusReply c r s =
      if 3 ≤ (chan s c).crcRun + 1 then channelFail c 3 (modChan c replyLost (crcCounted c s))
      else modChan c replyLost (crcCounted c s) := by
  have hrun : (chan (modChan c replyLost (crcCounted c s)) c).crcRun = (chan s c).crcRun + 1 := by
    rw [chan_modChan_same, chan_crcCounted, replyLost]
  rw [← hrun]
  simp only [statusReply, hserves, hcrc, hresend]
  rfl

/-! ### Decodes (R275, R276, R215) -/

theorem extremeHi_eq (i : Nat) (v : Int) (s : State) : ∃ k, extremeHi i v s = { s with cairn := k } := by
  unfold extremeHi
  split
  · split <;> exact ⟨_, rfl⟩
  · exact ⟨_, rfl⟩

/-- R475: the sample of a decode stands in Cairn. -/
theorem decodeSample_eq (ok : Bool) (bits : Nat) (it : RdItem) (s : State) :
    ∃ k, decodeSample ok bits it s = { s with cairn := k } := by
  unfold decodeSample
  split
  · exact ⟨_, rfl⟩
  · split
    · obtain ⟨k, hk⟩ := extremeHi_eq 13 bits (cairnSample 0x23 (binOf [1, 3, 7, 13, 25, 49] bits) s)
      exact ⟨k, hk⟩
    · exact ⟨_, rfl⟩

/-- The state in which a bank's oldest codeword is decoded. -/
def decodeStart (c b : Nat) (rest : List RdItem) (k : Cairn) (s : State) : State :=
  { modBank c b (fun x => { x with received := rest }) s with cairn := k }

/-- R275: what a decode does, outside deep recovery. -/
theorem codewordDecode_of_received {c b : Nat} {it : RdItem} {rest : List RdItem} {s : State} (ok : Bool) (bits : Nat)
    (hreceived : (bankOf (chan s c) b).received = it :: rest) (hdeep : it.deep = false) :
    ∃ k, codewordDecode c b ok bits s =
      if ok = false then readFailed c b it (decodeStart c b rest k s)
      else if it.work = .scrub then
        (if it.retry = 0 then (if 24 < bits then queueRefresh it.lpn it.ppa (decodeStart c b rest k s) else decodeStart c b rest k s)
         else reportRetry c it (decodeStart c b rest k s))
      else if unseals s it then unsealRead c b it (reportRetry c it (decodeStart c b rest k s))
      else readGave it (loadAt s it.ppa) (reportRetry c it (decodeStart c b rest k s)) := by
  obtain ⟨k, hk⟩ := decodeSample_eq ok bits it (modBank c b (fun x => { x with received := rest }) s)
  refine ⟨k, ?_⟩
  simp [codewordDecode, hreceived, hdeep, hk, decodeStart]

/-- R276: the re-read after a failed decode, with the table's offset. -/
def thresholdRetry (s : State) (it : RdItem) : RdItem :=
  { it with retry := it.retry + 1, offs := addOffset it.base (retryTable (isFast s it.ppa) (it.retry + 1)) }

theorem readFailed_of_retry {c b : Nat} {it : RdItem} {s : State} (hdeep : it.deep = false) (hretry : it.retry < 3)
    (hbase : it.base ≠ []) (hflush : s.belay.step = 0) :
    readFailed c b it s = queueRetry c b (thresholdRetry s it) (bumpCh 0x0A09 c (bump 0x0A09 1 1 s)) := by
  simp [readFailed, withOffsets, nextRetry, hdeep, hretry, hbase, hflush, thresholdRetry]

/-- R276: the re-read waits at its bank; the retry register is loaded at once unless another waits there. -/
theorem bankOf_queueRetry (c b : Nat) (q : RdItem) (s : State) :
    (bankOf (chan (queueRetry c b q s) c) b).received = (bankOf (chan s c) b).received ∧
    (bankOf (chan (queueRetry c b q s) c) b).retryQ = (bankOf (chan s c) b).retryQ ++ [q] ∧
    ((bankOf (chan s c) b).retryQ = [] → (bankOf (chan (queueRetry c b q s) c) b).retryReg = q.offs ∧
      (bankOf (chan (queueRetry c b q s) c) b).frame = threshFrame b q.offs none) := by
  rw [queueRetry, bankOf_modBank_same]
  cases (bankOf (chan s c) b).retryQ <;> simp

theorem reportRetry_of_first {c : Nat} {it : RdItem} {s : State} (hretry : it.retry = 0) (hdeep : it.deep = false) :
    reportRetry c it s = s := by
  simp [reportRetry, hretry, hdeep]

/-- R215, R168: a host read's codeword that verifies gives the fill its data. -/
theorem unsealRead_of_verified {c b : Nat} {it : RdItem} {s : State} {w : Codeword} {k : KeySet} (hwork : it.work = .host)
    (hheld : s.sealCtl.zeroed = false) (hlost : lostParcel s it.lpn = false) (hcell : tget s.medium.cells it.ppa = some w)
    (hverdict : verdict s it.part it.lpn w = 0) (hkey : openKey s it.part (metaKg w.mdat) = some k) (hpoison : metaPoison w.mdat = false) :
    unsealRead c b it s =
      fillReady it.lpn (.ready (unsealData k it.lpn (openCtr s it.lpn).1 (openCtr s it.lpn).2 w)) s := by
  simp [unsealRead, hheld, hlost, hcell, hverdict, hkey, hpoison, unsealed, hwork]

theorem fillReady_of_thas {lpn : Nat} {s : State} (st : FillSt) (h : thas s.cache.fills lpn = true) :
    fillReady lpn st s = modFill lpn (fun f => { f with st := st }) s := if_pos h

theorem fills_modFill_same (lpn : Nat) (f : Fill → Fill) (s : State) :
    tgetD (modFill lpn f s).cache.fills lpn {} = f (tgetD s.cache.fills lpn {}) := tgetD_tmod_same ..

/-! ### Overlay entries (R296) -/

/-- The kind of a key's overlay entry. -/
def kindAt (m : Tbl OvEntry) (j : Nat) : Option OvKind := (tget m j).map (·.kind)

@[simp] theorem kindAt_tset_same (m : Tbl OvEntry) (k : Nat) (e : OvEntry) : kindAt (tset m k e) k = some e.kind := by
  simp [kindAt]

@[simp] theorem kindAt_tset_ne (m : Tbl OvEntry) {k j : Nat} (e : OvEntry) (h : j ≠ k) : kindAt (tset m k e) j = kindAt m j := by
  simp [kindAt, h]

@[simp] theorem kindAt_tdel_ne (m : Tbl OvEntry) {k j : Nat} (h : j ≠ k) : kindAt (tdel m k) j = kindAt m j := by
  simp [kindAt, h]

/-- A key of a table has an entry. -/
theorem exists_tget_of_mem {α : Type} {t : Tbl α} {k : Nat} (h : k ∈ tkeys t) : ∃ v, tget t k = some v := by
  induction t with
  | nil => cases h
  | cons p t ih =>
    obtain ⟨j, v⟩ := p
    by_cases hk : k = j
    · exact ⟨v, by simp [tget, hk]⟩
    · obtain ⟨w, hw⟩ := ih (by simpa [tkeys, hk] using h)
      exact ⟨w, by simp [tget, hk, hw]⟩

/-- R296: an entry in a bucket is one of the table's. -/
theorem exists_tget_of_mem_inBucket {m : Tbl OvEntry} {b v : Nat} (h : v ∈ inBucket m b) : ∃ e, tget m v = some e := by
  refine exists_tget_of_mem (List.mem_map.mpr ?_)
  obtain ⟨p, hp, hv⟩ := List.mem_map.mp h
  exact ⟨p, (List.mem_filter.mp hp).1, hv⟩

/-- R296: displacement places the new entry, and moves the others without changing what they are. -/
theorem kindAt_placeEntry (fuel k : Nat) (e : OvEntry) (b : Nat) (m : Tbl OvEntry) (hnew : tget m k = none) :
    kindAt (placeEntry fuel k e b m) k = some e.kind ∧ ∀ j, j ≠ k → kindAt (placeEntry fuel k e b m) j = kindAt m j := by
  induction fuel generalizing k e b m with
  | zero => exact ⟨kindAt_tset_same .., fun j hj => kindAt_tset_ne _ _ hj⟩
  | succ fuel ih =>
    unfold placeEntry
    dsimp only
    split
    case isTrue => exact ⟨kindAt_tset_same .., fun j hj => kindAt_tset_ne _ _ hj⟩
    case isFalse hfull =>
      have hidx : Config.displaced b k % 4 < (inBucket m b).length := by omega
      have hmem := List.getElem_mem hidx
      rw [List.getD_eq_getElem _ _ hidx]
      generalize (inBucket m b)[Config.displaced b k % 4] = v at hmem
      obtain ⟨x, hx⟩ := exists_tget_of_mem_inBucket hmem
      have hv : v ≠ k := fun h => by rw [h, hnew] at hx; cases hx
      have hxd : tgetD m v e = x := by simp [tgetD, hx]
      have hgone : tget (tset (tdel m v) k { e with bucket := some b }) v = none := by simp [hv]
      rw [hxd]
      obtain ⟨hmoved, hothers⟩ := ih v x (if bucket0 v = b then bucket1 v else bucket0 v) _ hgone
      refine ⟨by rw [hothers k hv.symm, kindAt_tset_same], fun j hj => ?_⟩
      by_cases hjv : j = v
      · rw [hjv, hmoved, kindAt, hx]
        rfl
      · rw [hothers j hjv, kindAt_tset_ne _ _ hj, kindAt_tdel_ne _ hjv]

theorem kindAt_overlayPut (k : Nat) (e : OvEntry) (m : Tbl OvEntry) : kindAt (overlayPut k e m) k = some e.kind := by
  unfold overlayPut
  dsimp only
  split
  · exact kindAt_tset_same ..
  · split
    · exact kindAt_tset_same ..
    · exact (kindAt_placeEntry 32 k e (bucket0 k) (tdel m k) (tget_tdel_same m k)).1

/-! ### Poison marks (R327) -/

/-- R327: a poison mark changes the Waybill alone. -/
theorem putMark_eq (lpn : Nat) (s : State) : ∃ w, putMark lpn s = { s with way := w } := by
  unfold putMark putEntry dropOld
  split <;> exact ⟨_, rfl⟩

theorem poisoned_putMark (lpn : Nat) (s : State) :
    (∃ e, tget (putMark lpn s).way.map.overlay lpn = some e ∧ e.kind = .poison) ∧ JRec.ovlPoison lpn ∈ (putMark lpn s).way.tail :=
  ⟨Option.map_eq_some_iff.mp (kindAt_overlayPut ..), List.mem_append_right _ (List.mem_singleton.mpr rfl)⟩

/-- R62, R327: a tenant parcel of a pending fill that is poisoned: its fill is ready with poison, it is marked in the Waybill, and its LDs
are told. -/
structure ParcelPoisoned (lpn : Nat) (s t : State) : Prop where
  chans : t.chans = s.chans
  fill : thas s.cache.fills lpn = true → (tgetD t.cache.fills lpn {}).st = .readyPoison
  entry : ∃ e, tget t.way.map.overlay lpn = some e ∧ e.kind = .poison
  mark : JRec.ovlPoison lpn ∈ t.way.tail

theorem parcelPoisoned_poisonParcel {lpn : Nat} {s : State} (hheld : lookupHeld s lpn = false) :
    ParcelPoisoned lpn s (poisonParcel lpn s) := by
  have hmark : poisonMark lpn s = putMark lpn s := if_neg (by simp [hheld])
  obtain ⟨w, hw⟩ := putMark_eq lpn s
  have htold := onlyTold_newlyPoisoned lpn (putMark lpn s)
  obtain ⟨hentry, htail⟩ := poisoned_putMark lpn s
  have hchans : (newlyPoisoned lpn (putMark lpn s)).chans = s.chans := htold.chans.trans (by rw [hw])
  have hcache : (newlyPoisoned lpn (putMark lpn s)).cache = s.cache := htold.cache.trans (by rw [hw])
  have hkept : (newlyPoisoned lpn (putMark lpn s)).way = (putMark lpn s).way := htold.way
  rw [poisonParcel, hmark]
  rw [← hkept] at hentry htail
  by_cases hfill : thas s.cache.fills lpn = true
  · rw [fillReady_of_thas _ (by rw [hcache]; exact hfill)]
    exact ⟨hchans, fun _ => congrArg Fill.st (fills_modFill_same ..), hentry, htail⟩
  · rw [fillReady, if_neg (by rw [hcache]; exact hfill)]
    exact ⟨hchans, fun h => absurd h hfill, hentry, htail⟩

/-! ### The end of a deep recovery (R279) -/

/-- R279: a bank without the reads whose deep recovery is due. -/
def dropDue (s : State) (x : Bank) : Bank :=
  { x with
    retryQ := x.retryQ.filter (fun r => !deepDue s r), received := x.received.filter (fun r => !deepDue s r)
    run := match x.run with | .read r => if deepDue s r then .idle else .read r | y => y }

/-- The record of a deep recovery that ends with poison, and its entry free. -/
def deepEnded (c : Nat) (r : RdItem) (s u : State) : State :=
  emitN true 0x0A0B c (r.ppa % 4294967296) (r.ppa / 4294967296) r.reads ((tbNow s - r.age) / 1000)
    (modChan c (fun x => { x with deepUsed := x.deepUsed - 1 }) u)

theorem freeDeep_of_none_waiting {c : Nat} {s : State} (h : (chan s c).deepWait = []) :
    freeDeep c s = modChan c (fun x => { x with deepUsed := x.deepUsed - 1 }) s := by
  simp [freeDeep, h]

/-- R279: a host read in deep recovery ends in poison. -/
theorem endDeep_of_host {c : Nat} {r : RdItem} {s : State} (hdeep : r.deep = true) (hwork : r.work = .host)
    (hleg : lpnLeg r.lpn < 81920) (hwait : (chan s c).deepWait = []) : endDeep c r s = poisonParcel r.lpn (deepEnded c r s s) := by
  simp [endDeep, hdeep, freeDeep_of_none_waiting hwait, readEnds, readGave, hwork, Nat.not_le.mpr hleg, deepEnded]

theorem deepRecoveryDeadline_of_one {c b : Nat} {r : RdItem} {s : State} (hretry : (bankOf (chan s c) b).retryQ = [r])
    (hguar : (bankOf (chan s c) b).guarQ = []) (hother : (bankOf (chan s c) b).otherQ = [])
    (hreceived : (bankOf (chan s c) b).received = []) (hrun : (bankOf (chan s c) b).run = .idle) (hwait : (chan s c).deepWait = [])
    (hdue : deepDue s r = true) : deepRecoveryDeadline c b s =
      endDeep c r (modChan c (fun x => { x with deepWait := x.deepWait.filter fun r => !(ppaBank r.ppa == b && deepDue s r) })
        (modBank c b (dropDue s) s)) := by
  simp [deepRecoveryDeadline, bankReads, hretry, hguar, hother, hreceived, hrun, hwait, hdue, forAll]
  rfl

end Sys2Proof.Machine

/-! SUPPORT. The obligation on media reads (R271, R275, R276, R279, R291, R327). -/

namespace Sys2Proof.Machine

/-- A decode of a channel in service. -/
theorem gives_codewordDecode {c b bits : Nat} {ok : Bool} {s : State} {P : State → Prop} (hmain : s.mainUp = true)
    (hserves : inService (chan s c) = true) (hP : P (codewordDecode c b ok bits s)) : Gives (.codewordDecode c b ok bits) s P :=
  gives_whenMain rfl hmain (by rw [if_pos hserves]; exact hP)

theorem bankOf_decodeStart (c b : Nat) (rest : List RdItem) (k : Cairn) (s : State) :
    bankOf (chan (decodeStart c b rest k s) c) b = { bankOf (chan s c) b with received := rest } :=
  bankOf_modBank_same c b (fun x => { x with received := rest }) s

/-- Settles O3, clause by clause. That an unknown outcome leaves reads as received and pulses unverified is the model's choice
(log 18). -/
theorem mediaReads : Obligations.MediaReads := by
  unfold Obligations.MediaReads
  refine ⟨⟨?readDone, ?replyLost, ?channelFails, ?retry, ?verified, ?scrubbed⟩, ?deadline⟩
  case readDone =>
    intro s c r o it hmain hserves hcrc hout hcause hdone hrun
    refine gives_whenMain rfl hmain ?_
    let u := modChan c (fun x => { x with crcRun := 0 }) s
    have hbank (b : Nat) : bankOf (chan u c) b = bankOf (chan s c) b := by rw [chan_modChan_same]; rfl
    have hreply : statusReply c r s = bankOutcome c o u := by
      simp [statusReply, hserves, hcrc, hout, forAll, u]
    rw [hreply, bankOutcome_of_read hcause hdone (by rw [hbank]; exact hrun)]
    refine ⟨?_, ?_, fun b hb => ?_, rfl⟩
    · rw [modBank, chan_modChan_same, modBank, chan_modChan_same, chan_modChan_same]
    · rw [bankOf_modBank_same, bankOf_modBank_same, hbank]
    · rw [bankOf_modBank_ne _ _ (.inr hb), bankOf_modBank_ne _ _ (.inr hb), hbank]
  case replyLost =>
    intro s c r hmain hserves hcrc hresend hfew
    refine gives_whenMain rfl hmain ?_
    rw [statusReply_of_lost hserves hcrc hresend, if_neg (by omega)]
    have hchan : chan (modChan c replyLost (crcCounted c s)) c = replyLost (chan s c) := by rw [chan_modChan_same, chan_crcCounted]
    rw [hchan, show crcCounted c s = _ from onlyCounted_crcCounted c s]
    refine ⟨rfl, rfl, fun b it hrun => ?_, fun b hrun => ?_, rfl⟩
    · rw [bankOf_replyLost, outcomeUnknown_of_read hrun]
      exact ⟨rfl, rfl⟩
    · rw [bankOf_replyLost, outcomeUnknown_of_pulse hrun]
      exact ⟨rfl, rfl⟩
  case channelFails =>
    intro s c r hmain hserves hcrc hresend hmany
    refine gives_whenMain rfl hmain ?_
    rw [statusReply_of_lost hserves hcrc hresend, if_pos (by omega)]
    refine (channelFailed_channelFail 3 (.inl ?_)).self
    rw [chan_modChan_same, chan_crcCounted]
    exact hserves
  case retry =>
    intro s c b bits it rest hmain hserves hreceived hdeep hretry hbase hflush
    refine gives_codewordDecode hmain hserves ?_
    obtain ⟨k, hk⟩ := codewordDecode_of_received false bits hreceived hdeep
    rw [hk, if_pos rfl, readFailed_of_retry (s := decodeStart c b rest k s) hdeep hretry hbase hflush]
    let u := bumpCh 0x0A09 c (bump 0x0A09 1 1 (decodeStart c b rest k s))
    have hbank : bankOf (chan u c) b = { bankOf (chan s c) b with received := rest } := bankOf_decodeStart c b rest k s
    obtain ⟨hrest, hqueue, hload⟩ := bankOf_queueRetry c b (thresholdRetry (decodeStart c b rest k s) it) u
    rw [hbank] at hrest hqueue hload
    exact ⟨hrest, hqueue, hload, rfl⟩
  case verified =>
    intro s c b bits it rest w k hmain hserves hreceived hdeep hretry hwork hheld hlost hfill hcell hverdict hkey hpoison
    refine gives_codewordDecode hmain hserves ?_
    obtain ⟨l, hl⟩ := codewordDecode_of_received true bits hreceived hdeep
    have hunseals : unseals s it = true := by simp [unseals, hwork]
    rw [hl, if_neg (by simp), if_neg (by simp [hwork]), if_pos hunseals, reportRetry_of_first hretry hdeep,
      unsealRead_of_verified (s := decodeStart c b rest l s) hwork hheld hlost hcell hverdict hkey hpoison,
      fillReady_of_thas (s := decodeStart c b rest l s) _ hfill]
    exact ⟨congrArg Bank.received (bankOf_decodeStart c b rest l s), congrArg Fill.st (fills_modFill_same ..), rfl⟩
  case scrubbed =>
    intro s c b bits it rest hmain hserves hreceived hdeep hretry hwork hbits
    refine gives_codewordDecode hmain hserves ?_
    obtain ⟨k, hk⟩ := codewordDecode_of_received true bits hreceived hdeep
    rw [hk, if_neg (by simp), if_pos hwork, if_pos hretry, if_neg (by omega)]
    exact ⟨congrArg Bank.received (bankOf_decodeStart c b rest k s), rfl⟩
  case deadline =>
    intro s c b r hmain hretry hguar hother hreceived hrun hwait hdeep hage hwork hleg hheld
    refine gives_whenMain rfl hmain ?_
    have hdue : deepDue s r = true := by simp [deepDue, hdeep, hage]
    let u := modChan c (fun x => { x with deepWait := x.deepWait.filter fun r => !(ppaBank r.ppa == b && deepDue s r) })
      (modBank c b (dropDue s) s)
    have hbank : bankOf (chan u c) b = dropDue s (bankOf (chan s c) b) := by
      rw [← bankOf_modBank_same c b (dropDue s) s, chan_modChan_same]
      rfl
    have hnone : (chan u c).deepWait = [] := by
      rw [chan_modChan_same, modBank, chan_modChan_same, hwait]
      rfl
    have hused : (chan u c).deepUsed = (chan s c).deepUsed := by rw [chan_modChan_same, modBank, chan_modChan_same]
    have hchan : chan (deepEnded c r u u) c = { chan u c with deepUsed := (chan u c).deepUsed - 1 } := by
      rw [deepEnded, chan, emitN_chans]
      exact chan_modChan_same ..
    rw [deepRecoveryDeadline_of_one hretry hguar hother hreceived hrun hwait hdue, endDeep_of_host hdeep hwork hleg hnone]
    have hlookup : lookupHeld (deepEnded c r u u) r.lpn = false := by
      rw [← hheld]
      simp [lookupHeld, stripeHeld, deepEnded, u]
    have hcache : (deepEnded c r u u).cache = s.cache := emitN_cache ..
    obtain ⟨hchans, hfill, hentry, hmark⟩ := parcelPoisoned_poisonParcel hlookup
    rw [chan, hchans, ← chan, hchan]
    refine ⟨?_, ?_, ?_, hentry, hmark⟩
    · exact (congrArg Bank.retryQ hbank).trans (by simp [dropDue, hretry, hdue])
    · rw [← hused]
    · rw [← hcache]
      exact hfill

end Sys2Proof.Machine

/-! SUPPORT. Module bring-up (R284, R285, R287, R289): the state that the module's presence, identity, training and MODULE record give
its channel. -/

namespace Sys2Proof.Machine

/-! ### One channel changed -/

/-- Every channel but one is as it was. -/
structure OtherChans (c : Nat) (s t : State) : Prop where
  same : ∀ d, d ≠ c → chan t d = chan s d

theorem OtherChans.refl {c : Nat} {s : State} : OtherChans c s s := ⟨fun _ _ => rfl⟩

theorem OtherChans.of_chans {c : Nat} {s t u : State} (h : OtherChans c s t) (hu : u.chans = t.chans) : OtherChans c s u :=
  ⟨fun d hd => by rw [chan, hu, ← chan, h.same d hd]⟩

theorem OtherChans.modChan {c : Nat} {f : Chan → Chan} {s t : State} (h : OtherChans c s t) : OtherChans c s (modChan c f t) :=
  ⟨fun d hd => (chan_modChan_ne f t hd).trans (h.same d hd)⟩

theorem OtherChans.emit {c code inst p q r d : Nat} {s t : State} (h : OtherChans c s t) : OtherChans c s (emit code inst p q r d t) :=
  h.of_chans (emit_chans ..)

@[simp] theorem chan_emit (code inst p q r d c : Nat) (s : State) : chan (emit code inst p q r d s) c = chan s c := by
  rw [chan, emit_chans, ← chan]

/-! ### A channel that serves, and one that does not (R285, R287) -/

/-- R287: the factory list changes tiles alone. -/
theorem markBad_eq (c : Nat) (l : List Nat) (s : State) : markBad c l s = { s with way := (markBad c l s).way } := by
  refine forAll_rel (R := fun t u => u = { t with way := u.way }) (fun _ => rfl) (fun {t u v} h h' => ?_) (fun _ _ => rfl) l s
  rw [h', h]

theorem chan_setUnserved (c : Nat) (st : ChanSt) (s : State) : (chan (setUnserved c st s) c).st = st := by
  rw [setUnserved, chan_modChan_same]

theorem OtherChans.setUnserved {c : Nat} {st : ChanSt} {s t : State} (h : OtherChans c s t) : OtherChans c s (setUnserved c st t) :=
  h.modChan

/-- R285: what the channel of a trained module with a matching record shows. -/
theorem chan_setServing (c : Nat) (b : BringUp) (rate : Nat) (s : State) :
    (chan (setServing c b rate s) c).st = (if b.generation = 3 ∧ rate = 3200 then .reduced else .active) ∧
    (chan (setServing c b rate s) c).gen = b.generation ∧ (chan (setServing c b rate s) c).rate = rate := by
  unfold setServing
  dsimp only
  rw [chan_emit, markBad_eq]
  simp only [chan, modChan, tgetD_tmod_same, and_self]

theorem OtherChans.setServing {c rate : Nat} {b : BringUp} {s t : State} (h : OtherChans c s t) :
    OtherChans c s (setServing c b rate t) :=
  .emit (.of_chans h.modChan (by rw [markBad_eq]))

theorem sad_setServing (c : Nat) (b : BringUp) (rate : Nat) (s : State) : (setServing c b rate s).sad = s.sad := by
  unfold setServing
  dsimp only
  rw [emit_sad, markBad_eq]
  rfl

/-! ### A trained module (R284, R289) -/

/-- R285, R289: a module that no record names waits as NEW; `other` is the serial that the record gives. -/
def newModule (c : Nat) (b : BringUp) (rate other : Nat) (s : State) : State :=
  emit 0x0A05 c c (b.serial.toNat % 4294967296) (b.serial.toNat / 4294967296) other
    (modChan c (fun x => { x with
      serial := b.serial, gen := b.generation, rate := rate, dies := b.dies, tilesPerBank := b.tilesPerBank, badTiles := b.badTiles })
      (setUnserved c .new s))

theorem chan_newModule (c : Nat) (b : BringUp) (rate other : Nat) (s : State) :
    (chan (newModule c b rate other s) c).st = .new ∧ (chan (newModule c b rate other s) c).serial = b.serial := by
  rw [newModule, chan_emit, chan_modChan_same]
  exact ⟨chan_setUnserved c .new s, rfl⟩

theorem OtherChans.newModule {c rate other : Nat} {b : BringUp} {s t : State} (h : OtherChans c s t) :
    OtherChans c s (newModule c b rate other t) := .emit (.modChan h.setUnserved)

theorem sad_newModule (c : Nat) (b : BringUp) (rate other : Nat) (s : State) : (newModule c b rate other s).sad = s.sad := emit_sad ..

/-- R289: a module without a record is adopted at the first start, or where the record was lost. -/
def adoptedAtStart (c : Nat) (b : BringUp) (rate : Nat) (s : State) : State :=
  emit 0x0A06 c c (b.serial.toNat % 4294967296) (b.serial.toNat / 4294967296) 1
    (setServing c b rate (setModule c { serial := b.serial, gen := b.generation } s))

section TrainedUp

variable {c rate : Nat} {b : BringUp} {s : State}

theorem trainedUp_of_match {m : ModuleRec} (hrec : tget s.sad.img.modules c = some m) (hserial : m.serial = b.serial) :
    trainedUp c b rate s = setServing c b rate s := by
  simp [trainedUp, hrec, hserial]

theorem trainedUp_of_other {m : ModuleRec} (hrec : tget s.sad.img.modules c = some m) (hserial : m.serial ≠ b.serial) :
    trainedUp c b rate s = newModule c b rate m.serial.toNat s := by
  simp only [trainedUp, hrec, if_neg hserial, newModule]

theorem trainedUp_of_start (hrec : tget s.sad.img.modules c = none) (hstart : s.boot.firstStart = true ∨ rk 12 c ∈ s.boot.lostRecs) :
    trainedUp c b rate s = adoptedAtStart c b rate s := by
  have h : s.boot.firstStart = true ∨ s.boot.lostRecs.contains (rk 12 c) = true := by simpa using hstart
  simp only [trainedUp, hrec, if_pos h, adoptedAtStart]

theorem trainedUp_of_none (hrec : tget s.sad.img.modules c = none) (hstart : s.boot.firstStart = false) (hlost : rk 12 c ∉ s.boot.lostRecs) :
    trainedUp c b rate s = newModule c b rate 0 s := by
  have h : ¬(s.boot.firstStart = true ∨ s.boot.lostRecs.contains (rk 12 c) = true) := by simp [hstart, hlost]
  simp only [trainedUp, hrec, if_neg h, newModule]

theorem OtherChans.trainedUp {t : State} (h : OtherChans c s t) : OtherChans c s (trainedUp c b rate t) := by
  cases hrec : tget t.sad.img.modules c with
  | some m =>
    by_cases hserial : m.serial = b.serial
    · rw [trainedUp_of_match hrec hserial]
      exact h.setServing
    · rw [trainedUp_of_other hrec hserial]
      exact h.newModule
  | none =>
    by_cases hstart : t.boot.firstStart = true ∨ rk 12 c ∈ t.boot.lostRecs
    · rw [trainedUp_of_start hrec hstart]
      exact .emit (.setServing (h.of_chans rfl))
    · obtain ⟨hfirst, hlost⟩ := not_or.mp hstart
      rw [trainedUp_of_none hrec (by simpa using hfirst) hlost]
      exact h.newModule

/-- R289: the record of a module adopted at the first start. -/
theorem modules_adoptedAtStart (c rate : Nat) (b : BringUp) (s : State) :
    tget (adoptedAtStart c b rate s).sad.img.modules c = some { serial := b.serial, gen := b.generation } ∧
    rk 12 c ∈ (adoptedAtStart c b rate s).sad.dirty := by
  rw [adoptedAtStart, emit_sad, sad_setServing]
  exact ⟨tget_tset_same .., by simp [setModule]⟩

end TrainedUp

/-! ### The module's presence, identity and training (R284) -/

/-- R284: a training that fails at the fast rate leaves a record. -/
def fastFailed (c : Nat) (low : Option Nat) (s : State) : State :=
  match low with
  | some st => emit 0x0A02 c c st 0 0 s
  | none => s

theorem fastFailed_eq (c : Nat) (low : Option Nat) (s : State) :
    ∃ r k, fastFailed c low s = { s with relay := r, cairn := k } := by
  cases low with
  | none => exact ⟨_, _, rfl⟩
  | some st => exact ⟨_, _, emit_eq ..⟩

/-- R284: what the bring-up of a channel comes to. -/
def moduleUp (c : Nat) (b : BringUp) (s : State) : State :=
  if b.present = false then emit 0x0A04 c c 0 (Config.free 0x0A04 0) 0 (setUnserved c .absent s)
  else if b.identityOk = false ∨ (b.generation ≠ 2 ∧ b.generation ≠ 3) then
    emit 0x0A04 c c 1 (Config.free 0x0A04 1) 0 (setUnserved c .unsupported s)
  else match train b with
    | none => emit 0x0A03 c c (failedStep b) 3200 0 (setUnserved c .failed s)
    | some (rate, low) =>
      if b.badPagesOk = false then emit 0x0A04 c c 1 (Config.free 0x0A04 2) 0 (setUnserved c .unsupported (fastFailed c low s))
      else trainedUp c b rate (fastFailed c low s)

section ModuleUp

variable {c : Nat} {b : BringUp} {s : State}

/-- R284: bring-up runs once in a main-domain power-up. -/
theorem channelBringUp_of_first (hc : c < 32) (hrails : (chan s c).railsGood = true) (hfirst : (chan s c).brought = false) :
    channelBringUp c b s = modChan c (fun x => { x with brought := true }) (moduleUp c b s) := by
  simp only [channelBringUp, Nat.not_le.mpr hc, hrails, hfirst, Bool.not_true, Bool.false_eq_true, or_self, if_false, moduleUp,
    Bool.not_eq_true']
  rfl

theorem channelBringUp_of_brought (b : BringUp) (h : (chan s c).brought = true) : channelBringUp c b s = s := by
  simp [channelBringUp, h]

theorem otherChans_moduleUp (c : Nat) (b : BringUp) (s : State) : OtherChans c s (moduleUp c b s) := by
  have hlow (low : Option Nat) : OtherChans c s (fastFailed c low s) := by
    obtain ⟨r, k, h⟩ := fastFailed_eq c low s
    exact OtherChans.refl.of_chans (by rw [h])
  unfold moduleUp
  split
  · exact .emit (.setUnserved .refl)
  · split
    · exact .emit (.setUnserved .refl)
    · split
      · exact .emit (.setUnserved .refl)
      · split
        · exact .emit (.setUnserved (hlow _))
        · exact .trainedUp (hlow _)

theorem moduleUp_of_absent (hpresent : b.present = false) : (chan (moduleUp c b s) c).st = .absent := by
  rw [moduleUp, if_pos hpresent, chan_emit]
  exact chan_setUnserved ..

variable (hpresent : b.present = true)

include hpresent

theorem moduleUp_of_unidentified (hident : b.identityOk = false) : (chan (moduleUp c b s) c).st = .unsupported := by
  rw [moduleUp, if_neg (by simp [hpresent]), if_pos (.inl hident), chan_emit]
  exact chan_setUnserved ..

variable (hident : b.identityOk = true) (hgen : b.generation = 2 ∨ b.generation = 3)

include hident hgen

/-- R284: an identified module of a known generation trains. -/
theorem moduleUp_of_identified : moduleUp c b s = match train b with
    | none => emit 0x0A03 c c (failedStep b) 3200 0 (setUnserved c .failed s)
    | some (rate, low) =>
      if b.badPagesOk = false then emit 0x0A04 c c 1 (Config.free 0x0A04 2) 0 (setUnserved c .unsupported (fastFailed c low s))
      else trainedUp c b rate (fastFailed c low s) := by
  have hknown : ¬(b.identityOk = false ∨ (b.generation ≠ 2 ∧ b.generation ≠ 3)) := by
    rcases hgen with h | h <;> simp [hident, h]
  rw [moduleUp, if_neg (by simp [hpresent]), if_neg hknown]

theorem moduleUp_of_untrained (htrain : train b = none) : (chan (moduleUp c b s) c).st = .failed := by
  rw [moduleUp_of_identified hpresent hident hgen, htrain]
  exact (congrArg Chan.st (chan_emit ..)).trans (chan_setUnserved ..)

variable {rate : Nat} {low : Option Nat} (htrain : train b = some (rate, low))

include htrain

/-- R287: a module whose factory list cannot be read is not supported. -/
theorem moduleUp_of_unlisted (hpages : b.badPagesOk = false) : (chan (moduleUp c b s) c).st = .unsupported := by
  rw [moduleUp_of_identified hpresent hident hgen, htrain]
  dsimp only
  rw [if_pos hpages, chan_emit]
  exact chan_setUnserved ..

theorem moduleUp_of_trained (hpages : b.badPagesOk = true) : ∃ r k, moduleUp c b s = trainedUp c b rate { s with relay := r, cairn := k } := by
  obtain ⟨r, k, h⟩ := fastFailed_eq c low s
  refine ⟨r, k, ?_⟩
  rw [moduleUp_of_identified hpresent hident hgen, htrain]
  dsimp only
  rw [if_neg (by simp [hpages]), h]

end ModuleUp

end Sys2Proof.Machine

/-! SUPPORT. Module temperatures and CA parity (R291, R515, R517, R519, R520): what a TEMP reply changes of its channel, and what CA
parity does to a channel's banks. -/

namespace Sys2Proof.Machine

/-! ### CA parity (R291) -/

/-- R291: a bank's frame counts as not executed. -/
def frameVoid (x : Bank) : Bank :=
  match x.run with
  | .read r => { x with run := .idle, retryQ := x.retryQ ++ [r] }
  | _ => { x with run := .idle }

theorem frameVoid_of_read {x : Bank} {it : RdItem} (h : x.run = .read it) :
    frameVoid x = { x with run := .idle, retryQ := x.retryQ ++ [it] } := by
  simp [frameVoid, h]

theorem frameVoid_of_pulse {x : Bank} (h : x.run = .pulse) : frameVoid x = { x with run := .idle } := by
  simp [frameVoid, h]

/-- R291: every frame of a channel's window counts as not executed. -/
def windowVoid (x : Chan) : Chan := { x with banks := tmap x.banks fun _ b => frameVoid b }

theorem bankOf_windowVoid (x : Chan) (b : Nat) : bankOf (windowVoid x) b = frameVoid (bankOf x b) :=
  tgetD_tmap x.banks (fun _ => frameVoid) rfl

/-- The counts of a frame error of a channel. -/
def frameErrCounted (c : Nat) (parity : Bool) (s : State) : State := bumpCh 0x0A0E c (bump 0x0A0E (if parity then 1 else 2) 1 s)

theorem onlyCounted_frameErrCounted (c : Nat) (parity : Bool) (s : State) : OnlyCounted s (frameErrCounted c parity s) :=
  .bumpCh (.bump rfl)

theorem gives_alertNAsserted {c : Nat} {parity : Bool} {s : State} {P : State → Prop} (hmain : s.mainUp = true)
    (hserves : inService (chan s c) = true)
    (hP : P (if parity then modChan c windowVoid (frameErrCounted c parity s) else frameErrCounted c parity s)) :
    Gives (.alertNAsserted c parity) s P := by
  refine gives_whenMain rfl hmain ?_
  rw [hserves]
  exact hP

/-! ### One channel measured -/

/-- A change of one channel that leaves the Saddlebag, the Waybill and the cache alone. -/
structure Measured (c : Nat) (f : Chan → Chan) (s t : State) : Prop where
  self : chan t c = f (chan s c)
  others : OtherChans c s t
  sad : t.sad = s.sad
  way : t.way = s.way
  cache : t.cache = s.cache

theorem Measured.trans {c : Nat} {f g : Chan → Chan} {s t u : State} (h : Measured c f s t) (h' : Measured c g t u) :
    Measured c (fun x => g (f x)) s u where
  self := by rw [h'.self, h.self]
  others := ⟨fun d hd => (h'.others.same d hd).trans (h.others.same d hd)⟩
  sad := h'.sad.trans h.sad
  way := h'.way.trans h.way
  cache := h'.cache.trans h.cache

theorem measured_modChan (c : Nat) (f : Chan → Chan) (s : State) : Measured c f s (modChan c f s) :=
  ⟨chan_modChan_same .., .modChan .refl, rfl, rfl, rfl⟩

/-- What the sample of a reading, a record or a count touches is none of a channel's. -/
theorem Measured.logged {c : Nat} {f : Chan → Chan} {s t u : State} (h : Measured c f s t)
    (hu : ∃ therm reck relay cairn, u = { t with therm := therm, reck := reck, relay := relay, cairn := cairn }) : Measured c f s u := by
  obtain ⟨therm, reck, relay, cairn, rfl⟩ := hu
  exact ⟨h.self, ⟨h.others.same⟩, h.sad, h.way, h.cache⟩

theorem Measured.ite {c : Nat} {p : Prop} [Decidable p] {f : Chan → Chan} {s t u : State} (ht : Measured c f s t)
    (hu : Measured c f s u) : Measured c f s (if p then t else u) := by
  split
  · exact ht
  · exact hu

theorem Measured.emit {c code inst p q r d : Nat} {f : Chan → Chan} {s t : State} (h : Measured c f s t) :
    Measured c f s (emit code inst p q r d t) := h.logged ⟨_, _, _, _, emit_eq ..⟩

theorem Measured.postEvent {c log : Nat} {lds : List Nat} {e : EventRec} {f : Chan → Chan} {s t : State} (h : Measured c f s t) :
    Measured c f s (postEvent lds log e t) :=
  .ite h (h.logged ⟨_, _, _, _, rfl⟩)

/-- A change that leaves the channel as it is. -/
theorem measured_refl {c : Nat} {f : Chan → Chan} {s : State} (h : f (chan s c) = chan s c) : Measured c f s s :=
  ⟨h.symm, .refl, rfl, rfl, rfl⟩

/-! ### The steps of a TEMP reply -/

/-- R515: the readings of a TEMP reply. -/
def tempRead (hi lo : Int) (x : Chan) : Chan :=
  { clockCatchUp hi x with
    tMax := some hi, tMin := some lo, tSec := some (max hi (x.tSec.getD hi)), tempMissStages := 0, tempMissing := false }

theorem measured_moduleSample (c : Nat) (hi : Int) (s : State) : Measured c id s (moduleSample hi s) := by
  obtain ⟨k, hk⟩ := extremeHi_eq 1 hi s
  refine (measured_refl rfl).logged ?_
  unfold moduleSample
  dsimp only
  rw [hk]
  split
  · exact ⟨_, _, _, _, rfl⟩
  · exact ⟨_, _, _, _, rfl⟩

/-- R517: whether a module's warning stands after a reading. -/
def warnAfter (hi : Int) (x : Chan) : Chan := { x with warn := hysteresis x.warn 1200 1120 hi }

theorem measured_moduleWarn (c : Nat) (hi : Int) (s : State) : Measured c (warnAfter hi) s (moduleWarn c hi s) := by
  unfold moduleWarn
  dsimp only
  split
  case isTrue hsame => exact measured_refl (by rw [warnAfter, hsame])
  case isFalse =>
    have hwarn : Measured c (warnAfter hi) s
        (modChan c (fun x => { x with warn := hysteresis (chan s c).warn 1200 1120 hi }) s) :=
      ⟨chan_modChan_same .., .modChan .refl, rfl, rfl, rfl⟩
    exact .ite (.postEvent (.emit hwarn)) (.emit hwarn)

/-- R519: a module's throttle and f_w after a reading. -/
def throttleAfter (hi : Int) (x : Chan) : Chan :=
  { x with
    throttle := hysteresis x.throttle 1280 1200 hi, fW := if hysteresis x.throttle 1280 1200 hi then throttleFw hi else 1024 }

theorem measured_moduleThrottle (c : Nat) (hi : Int) (s : State) : Measured c (throttleAfter hi) s (moduleThrottle c hi s) := by
  have hthrottle : Measured c (throttleAfter hi) s (modChan c (fun x => { x with
      throttle := hysteresis (chan s c).throttle 1280 1200 hi
      fW := if hysteresis (chan s c).throttle 1280 1200 hi then throttleFw hi else 1024 }) s) :=
    ⟨chan_modChan_same .., .modChan .refl, rfl, rfl, rfl⟩
  exact .ite (hthrottle.logged ⟨_, _, _, _, rfl⟩) hthrottle

/-- R520: whether a module is outside its write window after a reading. -/
def outsideAfter (hi lo : Int) (was : Bool) : Bool :=
  if was then !(decide (hi ≤ 1360) && decide (48 ≤ lo)) else decide (1408 < hi) || decide (lo < 0)

theorem outsideAfter_inside (hi lo : Int) : outsideAfter hi lo false = true ↔ 1408 < hi ∨ lo < 0 := by simp [outsideAfter]

theorem outsideAfter_outside (hi lo : Int) : outsideAfter hi lo true = false ↔ hi ≤ 1360 ∧ 48 ≤ lo := by simp [outsideAfter]

/-- R516, R520: a module's write window after a reading. -/
def windowAfter (hi lo : Int) (x : Chan) : Chan := { x with outside := outsideAfter hi lo x.outside }

theorem measured_writeWindow (c : Nat) (hi lo : Int) (s : State) : Measured c (windowAfter hi lo) s (writeWindow c hi lo s) := by
  unfold writeWindow
  dsimp only
  rw [← outsideAfter]
  split
  case isTrue hsame => exact measured_refl (by rw [windowAfter, hsame])
  case isFalse => exact .emit ⟨chan_modChan_same .., .modChan .refl, rfl, rfl, rfl⟩

/-- R515: what a good TEMP reply with readings changes of its channel. -/
def tempAfter (hi lo : Int) (x : Chan) : Chan := windowAfter hi lo (throttleAfter hi (warnAfter hi (tempRead hi lo x)))

theorem tempAfter_reading (hi lo : Int) (x : Chan) : (tempAfter hi lo x).tMax = some hi ∧ (tempAfter hi lo x).tMin = some lo ∧
    (tempAfter hi lo x).tempMissStages = 0 ∧ (tempAfter hi lo x).tempMissing = false := ⟨rfl, rfl, rfl, rfl⟩

theorem tempAfter_throttle (hi lo : Int) (x : Chan) : (tempAfter hi lo x).throttle = hysteresis x.throttle 1280 1200 hi ∧
    (tempAfter hi lo x).fW = (if (tempAfter hi lo x).throttle then throttleFw hi else 1024) := ⟨rfl, rfl⟩

theorem tempAfter_outside (hi lo : Int) (x : Chan) : (tempAfter hi lo x).outside = outsideAfter hi lo x.outside := rfl

theorem measured_tempReply {c : Nat} {r : TempReply} {d : Int} {ds : List Int} {s : State} (hserves : inService (chan s c) = true)
    (hcrc : r.crcOk = true) (hdies : r.dies = d :: ds) :
    Measured c (tempAfter (ds.foldl max d) (ds.foldl min d)) s (tempReply c r s) := by
  simp only [tempReply, hserves, hcrc, hdies, Bool.and_self]
  exact (measured_modChan c (tempRead (ds.foldl max d) (ds.foldl min d)) s).trans ((measured_moduleSample ..).trans
    ((measured_moduleWarn ..).trans ((measured_moduleThrottle ..).trans (measured_writeWindow ..))))

/-! ### Calibration (R274) -/

theorem maintAdmits_calibration {c : Nat} {s : State} (age : Nat)
    (hleft : claimed (chan s c) + (travFloor s c (chan s c).plan.m - ((chan s c).plan.m - (chan s c).maintLeft)) < (chan s c).maintLeft)
    (hslots : 2 ≤ (chan s c).slotsLeft) :
    maintAdmits s c { lpn := 0, ppa := 0, cls := .maint, part := 0, age := age, work := .scrub } = true := by
  simp [maintAdmits, hleft, hslots]

/-- R130, R131: the transfer and the two slots of a calibration. -/
def calTaken (x : Chan) : Chan := { takeXfer true x with slotsLeft := x.slotsLeft - 2 }

theorem calTaken_eq (x : Chan) : calTaken x = { x with maintLeft := x.maintLeft - 1, slotsLeft := x.slotsLeft - 2 } := rfl

/-- The state after a calibration of a bank has been sent. -/
def calibrated (c b : Nat) (s : State) : State := modChan c calTaken (modBank c b (fun x => { x with frame := calFrame 1 b }) s)

theorem chan_calibrated (c b : Nat) (s : State) : (chan (calibrated c b s) c).maintLeft = (chan s c).maintLeft - 1 ∧
    (chan (calibrated c b s) c).hostLeft = (chan s c).hostLeft ∧
    (chan (calibrated c b s) c).slotsLeft = (chan s c).slotsLeft - 2 := by
  rw [calibrated, chan_modChan_same, calTaken_eq, modBank, chan_modChan_same]
  exact ⟨rfl, rfl, rfl⟩

theorem bankOf_calibrated (c b d : Nat) (s : State) : bankOf (chan (calibrated c b s) c) d =
    bankOf (chan (modBank c b (fun x => { x with frame := calFrame 1 b }) s) c) d := by
  rw [calibrated, chan_modChan_same, calTaken_eq]
  rfl

theorem gives_calThresholdPeriodic {c b : Nat} {s : State} {P : State → Prop} (hmain : s.mainUp = true)
    (hserves : inService (chan s c) = true) (hb : b < 128) (hcalm : s.planner.emergency = false)
    (hidle : (bankOf (chan s c) b).run = .idle)
    (hadmits : maintAdmits s c { lpn := 0, ppa := 0, cls := .maint, part := 0, age := tbNow s, work := .scrub } = true)
    (hP : P (calibrated c b s)) : Gives (.calThresholdPeriodic c b) s P :=
  gives_whenMain rfl hmain (by rw [if_pos ⟨hserves, hb, hidle, hadmits, by simp [hcalm]⟩]; exact hP)

end Sys2Proof.Machine

/-! SUPPORT. The obligation on channels (R274, R284, R285, R288, R289, R291, R515, R519, R520). -/

namespace Sys2Proof.Machine

/-! ### Bring-up -/

section GivesBringUp

variable {c : Nat} {b : BringUp} {s : State} (hmain : s.mainUp = true) (hc : c < 32) (hrails : (chan s c).railsGood = true)
  (hfirst : (chan s c).brought = false)

include hmain hc hrails hfirst

/-- R284: a first bring-up gives what the module's checks come to, and is marked as made. -/
theorem gives_channelBringUp {P : State → Prop} (hP : P (modChan c (fun x => { x with brought := true }) (moduleUp c b s))) :
    Gives (.channelBringUp c b) s P :=
  gives_whenMain rfl hmain (by rw [channelBringUp_of_first hc hrails hfirst]; exact hP)

/-- The channel of a first bring-up, but for its mark. -/
theorem gives_channelBringUp_chan {Q : Chan → Prop} (hQ : Q { chan (moduleUp c b s) c with brought := true }) :
    Gives (.channelBringUp c b) s (fun t => Q (chan t c)) :=
  gives_channelBringUp hmain hc hrails hfirst (by rw [chan_modChan_same]; exact hQ)

variable (hpresent : b.present = true) (hident : b.identityOk = true) (hgen : b.generation = 2 ∨ b.generation = 3)
  {rate : Nat} {low : Option Nat} (htrain : train b = some (rate, low)) (hpages : b.badPagesOk = true)

include hpresent hident hgen htrain hpages

/-- R284, R285: a trained module with a matching record serves. -/
theorem gives_channelBringUp_serving {m : ModuleRec} (hrec : tget s.sad.img.modules c = some m) (hserial : m.serial = b.serial) :
    Gives (.channelBringUp c b) s (fun t => (chan t c).st = (if b.generation = 3 ∧ rate = 3200 then .reduced else .active) ∧
      (chan t c).gen = b.generation ∧ (chan t c).rate = rate) := by
  obtain ⟨r, k, hup⟩ := moduleUp_of_trained (s := s) (c := c) hpresent hident hgen htrain hpages
  refine gives_channelBringUp_chan (Q := fun x => x.st = _ ∧ x.gen = b.generation ∧ x.rate = rate) hmain hc hrails hfirst ?_
  rw [hup, trainedUp_of_match (s := { s with relay := r, cairn := k }) hrec hserial]
  exact chan_setServing c b rate _

/-- R285, R289: a trained module that no record names is NEW. -/
theorem gives_channelBringUp_new {other : Nat}
    (hnew : ∀ r k, trainedUp c b rate { s with relay := r, cairn := k } = newModule c b rate other { s with relay := r, cairn := k }) :
    Gives (.channelBringUp c b) s (fun t => ((chan t c).st = .new ∧ (chan t c).serial = b.serial) ∧ t.sad = s.sad) := by
  obtain ⟨r, k, hup⟩ := moduleUp_of_trained (s := s) (c := c) hpresent hident hgen htrain hpages
  refine gives_channelBringUp hmain hc hrails hfirst ?_
  rw [hup, hnew, chan_modChan_same]
  exact ⟨chan_newModule c b rate other _, sad_newModule c b rate other _⟩

end GivesBringUp

theorem train_fast {b : BringUp} (hgen : b.generation = 3) (hfast : b.failFast = none) : train b = some (4800, none) := by
  simp [train, hgen, hfast]

theorem train_reduced {b : BringUp} {st : Nat} (hgen : b.generation = 3) (hfast : b.failFast = some st) (hslow : b.failSlow = none) :
    train b = some (3200, some st) := by
  simp [train, hgen, hfast, hslow]

theorem train_slow {b : BringUp} (hgen : b.generation = 2) (hslow : b.failSlow = none) : train b = some (3200, none) := by
  simp [train, hgen, hslow]

theorem train_none {b : BringUp} (hslow : b.failSlow ≠ none) (hfast : b.generation = 3 → b.failFast ≠ none) : train b = none := by
  obtain ⟨slow, hslow⟩ := Option.ne_none_iff_exists'.mp hslow
  by_cases hgen : b.generation = 3
  · obtain ⟨fast, hfast⟩ := Option.ne_none_iff_exists'.mp (hfast hgen)
    simp [train, hgen, hfast, hslow]
  · simp [train, hgen, hslow]

/-- Settles O4, row by row. -/
theorem channels : Obligations.Channels := by
  unfold Obligations.Channels
  refine ⟨⟨?failure, ?parity, ?bringUp, ?again⟩, ?temp, ?missing, ?zq, ?threshold⟩
  case failure =>
    intro s c hmain hst
    have hfails (cause : Nat) : ChannelFailed c s (channelFail c cause s) := channelFailed_channelFail cause hst
    exact ⟨gives_whenMain rfl hmain ⟨(hfails 1).self, (hfails 1).others, (hfails 1).sad, (hfails 1).medium⟩,
      gives_whenMain rfl hmain ⟨(hfails 2).self, (hfails 2).others, (hfails 2).sad, (hfails 2).medium⟩⟩
  case parity =>
    intro s c hmain hserves
    refine ⟨gives_alertNAsserted hmain hserves ?_, gives_alertNAsserted hmain hserves (onlyCounted_frameErrCounted c false s)⟩
    have hcounted := onlyCounted_frameErrCounted c true s
    have hchan : chan (modChan c windowVoid (frameErrCounted c true s)) c = windowVoid (chan s c) := by
      rw [chan_modChan_same, chan, hcounted.chans, ← chan]
    rw [if_pos rfl, hchan, show frameErrCounted c true s = _ from hcounted]
    refine ⟨fun b it hrun => ?_, fun b hrun => ?_, rfl⟩
    · rw [bankOf_windowVoid, frameVoid_of_read hrun]
      exact ⟨rfl, rfl⟩
    · rw [bankOf_windowVoid, frameVoid_of_pulse hrun]
      exact ⟨rfl, rfl⟩
  case bringUp =>
    intro s c b hmain hc hrails hfirst
    refine ⟨?marked, ?absent, ?unidentified, ?untrained, ?fast, ?reduced, ?slow, ?other, ?unlisted, ?start, ?later⟩
    case marked =>
      refine gives_channelBringUp hmain hc hrails hfirst ⟨by rw [chan_modChan_same], fun e he => ?_⟩
      exact (otherChans_moduleUp c b s).modChan.same e he
    case absent =>
      intro hpresent
      exact gives_channelBringUp_chan (Q := fun x => x.st = _) hmain hc hrails hfirst (moduleUp_of_absent hpresent)
    case unidentified =>
      intro hpresent hident
      exact gives_channelBringUp_chan (Q := fun x => x.st = _) hmain hc hrails hfirst (moduleUp_of_unidentified hpresent hident)
    case untrained =>
      intro hpresent hident hgen hslow hfast
      exact gives_channelBringUp_chan (Q := fun x => x.st = _) hmain hc hrails hfirst
        (moduleUp_of_untrained hpresent hident hgen (train_none hslow hfast))
    case fast =>
      intro m hpresent hident hpages hrec hserial hgen hfast
      have h := gives_channelBringUp_serving hmain hc hrails hfirst hpresent hident (.inr hgen) (train_fast hgen hfast) hpages hrec hserial
      simpa [hgen] using h
    case reduced =>
      intro m hpresent hident hpages hrec hserial hgen hfast hslow
      obtain ⟨st, hst⟩ := Option.ne_none_iff_exists'.mp hfast
      have h := gives_channelBringUp_serving hmain hc hrails hfirst hpresent hident (.inr hgen) (train_reduced hgen hst hslow) hpages
        hrec hserial
      simpa [hgen] using h
    case slow =>
      intro m hpresent hident hpages hrec hserial hgen hslow
      have h := gives_channelBringUp_serving hmain hc hrails hfirst hpresent hident (.inl hgen) (train_slow hgen hslow) hpages hrec hserial
      simpa [hgen] using h
    case other =>
      intro m hpresent hident hpages hrec hserial hgen hslow
      obtain ⟨t, hx, ⟨hst, hnum⟩, hsad⟩ := gives_channelBringUp_new hmain hc hrails hfirst hpresent hident (.inl hgen)
        (train_slow hgen hslow) hpages (fun r k => trainedUp_of_other (s := { s with relay := r, cairn := k }) hrec hserial)
      exact ⟨t, hx, hst, hnum, hsad⟩
    case unlisted =>
      intro hpresent hident hpages hgen hslow
      exact gives_channelBringUp_chan (Q := fun x => x.st = _) hmain hc hrails hfirst
        (moduleUp_of_unlisted hpresent hident (.inl hgen) (train_slow hgen hslow) hpages)
    case start =>
      intro hpresent hident hpages hrec hgen hslow hstart
      obtain ⟨r, k, hup⟩ := moduleUp_of_trained (s := s) (c := c) hpresent hident (.inl hgen) (train_slow hgen hslow) hpages
      refine gives_channelBringUp hmain hc hrails hfirst ?_
      rw [hup, trainedUp_of_start (s := { s with relay := r, cairn := k }) hrec (.inl hstart), chan_modChan_same]
      obtain ⟨hmodule, hdirty⟩ := modules_adoptedAtStart c 3200 b { s with relay := r, cairn := k }
      have hserving := (chan_setServing c b 3200
        (setModule c { serial := b.serial, gen := b.generation } { s with relay := r, cairn := k })).1
      refine ⟨?_, hgen ▸ hmodule, hdirty⟩
      rw [adoptedAtStart, chan_emit]
      exact hserving.trans (by simp [hgen])
    case later =>
      intro hpresent hident hpages hrec hgen hslow hstart hlost
      obtain ⟨t, hx, ⟨hst, -⟩, hsad⟩ := gives_channelBringUp_new hmain hc hrails hfirst hpresent hident (.inl hgen)
        (train_slow hgen hslow) hpages (fun r k => trainedUp_of_none (s := { s with relay := r, cairn := k }) hrec hstart hlost)
      exact ⟨t, hx, hst, hsad⟩
  case again =>
    intro s c b hmain hbrought
    exact gives_whenMain rfl hmain (channelBringUp_of_brought b hbrought)
  case temp =>
    intro s c r d ds hmain hserves hcrc hdies
    refine gives_whenMain rfl hmain ?_
    obtain ⟨hself, hothers, hsad, hway, hcache⟩ := measured_tempReply hserves hcrc hdies
    rw [hself]
    obtain ⟨hmax, hmin, hstages, hmissing⟩ := tempAfter_reading (ds.foldl max d) (ds.foldl min d) (chan s c)
    obtain ⟨hthrottle, hfw⟩ := tempAfter_throttle (ds.foldl max d) (ds.foldl min d) (chan s c)
    refine ⟨hmax, hmin, hstages, hmissing, hthrottle, hfw, fun hinside => ?_, fun houtside => ?_, hothers.same, hsad, hway, hcache⟩
    · rw [tempAfter_outside, hinside]
      exact outsideAfter_inside ..
    · rw [tempAfter_outside, houtside]
      exact outsideAfter_outside ..
  case missing =>
    intro s c hmain hserves hseen hlong
    refine gives_whenMain rfl hmain ?_
    have hmissing : moduleTempMissing c s = emit 0x1409 c c (chan s c).tempMissStages 0 0
        (modChan c (fun y => { y with tempMissing := true }) s) := by
      simp [moduleTempMissing, hserves, hseen, hlong]
    rw [hmissing]
    simp only [chan_emit, chan_modChan_same]
    refine ⟨trivial, fun e he => chan_modChan_ne _ s he, by simp [forbidden], ?_⟩
    rw [emit_eq]
    rfl
  case zq =>
    intro s c hmain hserves
    refine gives_whenMain rfl hmain ?_
    rw [if_pos hserves, chan_modChan_same]
    exact ⟨rfl, rfl⟩
  case threshold =>
    intro s c b hmain hserves hb hcalm hidle hleft hslots
    refine gives_calThresholdPeriodic hmain hserves hb hcalm hidle (maintAdmits_calibration (tbNow s) hleft hslots) ?_
    obtain ⟨hmaint, hhost, hslot⟩ := chan_calibrated c b s
    refine ⟨?_, hmaint, hhost, hslot, fun d hd => ?_, rfl⟩
    · rw [bankOf_calibrated, bankOf_modBank_same]
    · rw [bankOf_calibrated, bankOf_modBank_ne _ _ (.inr hd)]

end Sys2Proof.Machine
